-- ==== Sys2Proof/Word.lean ====
section
/-! DEFINITION. The word types of the machine (spec 00 R2, 04 R82). -/
namespace Sys2Proof

/-- A byte of memory (00 R2). -/
abbrev Byte := BitVec 8
/-- A scalar register, latch, counter or CSR (04 R82). -/
abbrev Word := BitVec 64
/-- A 32-bit vector lane or memory word (04 R82). -/
abbrev Word32 := BitVec 32
/-- The bits of a capability register, without its tag (04 R82). -/
abbrev Word128 := BitVec 128
/-- One vector register: 16 lanes of 32 bits, lane i at [32i+31:32i] (04 R82). -/
abbrev Vec := BitVec 512
/-- The 16 bits of a vector predicate, bit i for lane i (04 R82). -/
abbrev VPred := BitVec 16
/-- One scale register: 512 scales of 24 bits (04 R82). -/
abbrev Scales := BitVec 12288

end Sys2Proof
end

