-- ==== Sys2Proof/Syntax.lean ====
section
/-! DEFINITION. The instructions of the Zordex Z9 as data (spec 05 R102 to R123, and the table of operations and
events). A slot instruction carries the fields of its slot word; a step of an engine, of the
scheduler or of the outside world carries what that agent supplies. -/
namespace Sys2Proof

/-- The fields of a scalar slot word (05 R105), with the slot it stands in: S0 (`false`) or S1 (`true`). -/
structure SFields where
  inS1  : Bool
  dst   : BitVec 6
  nw    : BitVec 1
  width : BitVec 2
  srcA  : BitVec 7
  srcB  : BitVec 8
  deriving DecidableEq, Repr

/-- The fields of the shadow form of MOV (04 R84): NW, source and selector F. -/
structure ShadowFields where
  inS1 : Bool
  nw   : BitVec 1
  srcA : BitVec 7
  sel  : BitVec 6
  deriving DecidableEq, Repr

/-- The fields of an A slot word (05 R108). -/
structure AFields where
  data  : BitVec 6
  order : BitVec 2
  scope : BitVec 3
  k     : BitVec 5
  s     : BitVec 6
  size  : BitVec 2
  deriving DecidableEq, Repr

/-- The fields of a C slot word (05 R111): guard, sense and operand field. -/
structure CFields where
  pred  : BitVec 4
  sense : BitVec 1
  opnd  : BitVec 19
  deriving DecidableEq, Repr

/-- The fields of a SYSC slot word (05 R112): guard, sense and argument register; the subcode is the constructor. -/
structure SyscFields where
  pred  : BitVec 4
  sense : BitVec 1
  arg   : BitVec 6
  deriving DecidableEq, Repr

/-- Where a V slot executes (04 R76): on every cluster, or on one. -/
inductive VTarget where
  | broadcast
  | cluster (c : Fin 8)
  deriving DecidableEq, Repr

/-- The fields of a V slot word (05 R113), with its target. -/
structure VFields where
  target : VTarget
  type   : BitVec 3
  width  : BitVec 2
  nw     : BitVec 1
  dst    : BitVec 6
  srcA   : BitVec 6
  srcB   : BitVec 6
  bsel   : BitVec 2
  srcC   : BitVec 6
  pred   : BitVec 4
  deriving DecidableEq, Repr

/-- The fields of an M slot word (05 R116). -/
structure MFields where
  ringA : BitVec 4
  ringB : BitVec 4
  acc   : BitVec 2
  pop   : BitVec 2
  fmt   : BitVec 4
  scb   : BitVec 4
  deriving DecidableEq, Repr

/-- The fields of an E slot word (05 R118). -/
structure EFields where
  k     : BitVec 5
  s     : BitVec 6
  ct    : BitVec 8
  qprio : BitVec 3
  hnd   : BitVec 16
  arg   : BitVec 18
  deriving DecidableEq, Repr

/-- The fields of LDS.a and LDS.b (05 R119): scale register, base register, displacement. -/
structure KFields where
  sc   : BitVec 4
  base : BitVec 6
  disp : BitVec 14
  deriving DecidableEq, Repr

/-- A translation of a page: its first physical page of 4 KiB, whether it may be written and read, and whether it is one of
4 KiB (0), 2 MiB (1) or 1 GiB (10 R210, R211). -/
structure PageMap where
  ppage    : Nat
  writable : Bool
  readable : Bool := true
  size     : Nat := 0
  deriving DecidableEq, Repr

/-- What a member's first flit of a collective states of its copy of the communicator and of the command (13 R275,
R280): NAX, VC, axis sizes, NRANK, digest of the rank table, opcode, DTYPE, CHK, FL with AXM, ROOT and LEN. -/
structure CollHead where
  nax    : Nat
  vc     : Nat
  axes   : List Nat
  nrank  : Nat
  digest : Nat
  op     : Nat
  dtype  : Nat
  chk    : Nat
  fl     : Nat
  root   : Nat
  len    : Nat
  /-- The version that a Crown broadcasts (14 R307); 0 of another command. -/
  ver    : Nat := 0
  deriving DecidableEq, Repr

/-- What a flit carries between the Hods of two modules: 13 R297 gives the payload no layout. A communicator is named
by 2^24 · virtual function + CID. -/
inductive FlitPay where
  /-- The head of collective n at a rank. -/
  | head (comm n rank : Nat) (h : CollHead)
  /-- Bytes of a rank's contribution to a chunk, from an offset within it. -/
  | piece (comm n rank chunk off : Nat) (bytes : List Byte)
  /-- A broadcast has landed whole at a rank, or has ended there: its root completes once all have (R281). -/
  | landed (comm n rank : Nat)
  /-- A collective ends at every member for a disagreement (R275, R280). -/
  | mismatch (comm n : Nat)
  /-- An abort of a communicator (R293). -/
  | abort (comm : Nat)
  /-- A rank is lost (R294). -/
  | lost (comm rank : Nat)
  /-- A member whose gang is pre-empted asks for a pause (R295). -/
  | pause (comm rank : Nat)
  /-- The highest chunk a member has begun (R295), as one past it, plus 2^32 times its collective's number. -/
  | begun (comm rank chunk : Nat)
  /-- The stop chunk (R295), plus 2^32 times its collective's number. -/
  | stop (comm chunk : Nat)
  /-- A paused member's gang has resumed, and rank 0's answer once all have (R295). -/
  | resumed (comm rank : Nat)
  | resume (comm : Nat)
  /-- A contribution's sender asks for buffers in the Hods of some dies, and a module grants them (R284). -/
  | ask (comm n rank unit bufs : Nat) (dies : List Nat)
  | room (comm n rank unit node : Nat)
  /-- A Crown broadcast of a version of a set begins, from a module; a peer on which the communicator is not the set's Crown
  communicator refuses it (14 R307). -/
  | claim (comm set ver node : Nat)
  | refuse (comm set ver : Nat)
  /-- What an ack, a nak and a credit flit say (R298, R299). -/
  | ack
  | nak
  | credit (count : Nat)
  deriving DecidableEq, Repr

/-- A flit of the Dravy Link (13 R297): destination module, sequence number, last flit received in order, channel, lane,
payload; and within the payload its source and its number among the source's messages to the destination (12 R270). -/
structure Flit where
  dest   : Nat
  seq    : Nat
  ackseq : Nat
  vc     : Nat
  lane   : Nat
  pay    : FlitPay
  src    : Nat := 0
  num    : Nat := 0
  deriving DecidableEq, Repr

/-- A firmware image that the ROM loads at a reset (16 R343): whether every signature verifies, its security version,
and whether it finds that ZIDENT describes a Zordex Z9. -/
structure Firmware where
  verified : Bool
  version  : Nat
  deriving DecidableEq, Repr

/-- What a scrub read looks at (15 R334, R335): a sector of memory, of a tile's scratchpad, of its accumulators (16 elements),
of its L1, of Mortar, of staging; the register files, return ports and Mould entries of a context; an entry of a Crown set, of
the Brim's rings or of the object tables. -/
inductive ScrubSite where
  | mem (sector : Nat)
  | spad (tile sector : Nat)
  | acc (tile unit : Nat)
  | l1 (tile sector : Nat)
  | mortar (sector : Nat)
  | staging (sector : Nat)
  | regs (tile ctx : Nat)
  | crown (set slot : Nat)
  | brim (vf ring : Nat)
  | object (vf index : Nat)
  deriving DecidableEq, Repr

/-- The one inductive of instructions and device steps: one constructor per row of
the table of operations and events (spec/opcode_table.json). -/
inductive Instr where
  /-- BARC (R361): Crew barrier: the strand arrives and blocks until the crew episode completes, then issues with its RELEASED bit cleared. -/
  | barc (f : CFields)
  /-- BARG (R361): Gang barrier: the strand arrives and blocks until the gang episode completes. -/
  | barg (f : CFields)
  /-- BARG_A (R361): Asynchronous gang barrier arrival whose completion increments the named counter. -/
  | bargA (f : CFields)
  /-- BR (R362): Unconditional branch to B + 2 x OFF. -/
  | br (f : CFields)
  /-- BRC (R362): Conditional branch taken when the guard predicate holds. -/
  | brc (f : CFields)
  /-- CALL (R363): Pushes the next bundle's offset on the return stack and branches. -/
  | call (f : CFields)
  /-- ERET (R329): Supervisor return that makes the TSEL-selected trapped strand ready again. -/
  | eret (f : CFields)
  /-- EXIT (R381): Stops fetch of the strand, or ends a landing handler. -/
  | exit (f : CFields)
  /-- LOOP (R399): Pushes a zero-overhead loop entry, or skips the body when the count is zero. -/
  | loop (f : CFields)
  /-- PROBE (R218): Probe-cache lookup: on a hit pushes the slot, on a miss queues a fill and branches. -/
  | probe (f : CFields)
  /-- RET (R412): Pops the return stack and fetches at the popped offset. -/
  | ret (f : CFields)
  /-- TRAP (R430): Raises TRAPI with the code in TRAPA. -/
  | trap (f : CFields)
  /-- WAITC (R454): Blocks until a completion counter is at least a register value. -/
  | waitc (f : CFields)
  /-- WAITV_EQ (R455): Blocks until a memory word equals a value; the satisfying read is an acquire. -/
  | waitvEq (f : CFields)
  /-- WAITV_NE (R455): Blocks until a memory word differs from a value. -/
  | waitvNe (f : CFields)
  /-- WAITV_GE (R455): Blocks until a memory word is at least a value, unsigned. -/
  | waitvGe (f : CFields)
  /-- YIELD (R460): Makes its bundle a rotation point regardless of the quantum. -/
  | yield (f : CFields)
  /-- SYSC_TSEL (R329): Register command that sets ERTGT, the target tile, context and SKIP of a later ERET. -/
  | syscTsel (f : SyscFields)
  /-- SYSC_COURSE (R427): Moves the Course line of a virtual function on one die. -/
  | syscCourse (f : SyscFields)
  /-- SYSC_SAVE (R59): Pre-empts the gang on a named tile and saves it. -/
  | syscSave (f : SyscFields)
  /-- SYSC_RESTORE (R69): Makes a gang saved by SAVE eligible to resume. -/
  | syscRestore (f : SyscFields)
  /-- SYSC_FLR (R332): Starts the function-level reset of a virtual function. -/
  | syscFlr (f : SyscFields)
  /-- SYSC_WARM (R350): Starts a warm reset of the module. -/
  | syscWarm (f : SyscFields)
  /-- SYSC_ASSIGN (R426): Assigns tiles to a virtual function, or unassigns them. -/
  | syscAssign (f : SyscFields)
  /-- SYSC_VFCFG (R426): Sets a virtual function's share, privileged marking, CAP and HBM budget. -/
  | syscVfcfg (f : SyscFields)
  /-- SYSC_LQCFG (R426): Configures a launch queue: base, size, restart and mark. -/
  | syscLqcfg (f : SyscFields)
  /-- SYSC_WCSET (R426): Sets a wave counter as a release at device scope. -/
  | syscWcset (f : SyscFields)
  /-- SYSC_CTXTAB (R65): Sets the context table of a virtual function. -/
  | syscCtxtab (f : SyscFields)
  /-- SYSC_OBJTAB (R207): Sets the object table base and count. -/
  | syscObjtab (f : SyscFields)
  /-- SYSC_OBJINV (R208): Makes a range of object entries current at every tile and port. -/
  | syscObjinv (f : SyscFields)
  /-- SYSC_TRAPAREA (R323): Sets the trap area of a virtual function. -/
  | syscTraparea (f : SyscFields)
  /-- SYSC_SUPQ (R326): Sets a supervisor queue, of a virtual function or of the physical function. -/
  | syscSupq (f : SyscFields)
  /-- SYSC_WATCH (R330): Sets or disables a watch range. -/
  | syscWatch (f : SyscFields)
  /-- SYSC_TWM (R222): Sets a tier watermark register. -/
  | syscTwm (f : SyscFields)
  /-- SYSC_PNRP (R221): Writes PNRP, which resets the activate counts. -/
  | syscPnrp (f : SyscFields)
  /-- SYSC_STAGE (R244): Sets aside or withdraws a Mortar staging window. -/
  | syscStage (f : SyscFields)
  /-- SYSC_COMREG (R275): Registers or deregisters a communicator, including a Crown communicator. -/
  | syscComreg (f : SyscFields)
  /-- SYSC_VCSHARE (R299): Sets the receive-buffer shares of VC1 to VC7. -/
  | syscVcshare (f : SyscFields)
  /-- SYSC_NODE (R300): Sets the module NODEID. -/
  | syscNode (f : SyscFields)
  /-- SYSC_ROUTE (R300): Sets routing-table entries. -/
  | syscRoute (f : SyscFields)
  /-- SYSC_CROWNSET (R301): Allocates, reallocates or releases a Crown weight set. -/
  | syscCrownset (f : SyscFields)
  /-- SYSC_TJRING (R311): Sets or releases a Brim trajectory ring. -/
  | syscTjring (f : SyscFields)
  /-- SYSC_SECNT (R337): Reads, and may clear, a soft-error counter. -/
  | syscSecnt (f : SyscFields)
  /-- SYSC_MONSEL (R349): Selects the source of a Hod or die monitor counter. -/
  | syscMonsel (f : SyscFields)
  /-- BLOCK_COMMAND_END (R424): Completion of a SYSC block command: STATUS written as a release, then the counter incremented. -/
  | blockCommandEnd (vf : Nat)
  /-- ADD (R359): 64-bit wrapping add. -/
  | add (f : SFields)
  /-- ADD_SAT (R359): Saturating signed add that sets ISAT on a clamp. -/
  | addSat (f : SFields)
  /-- AND (R359): Bitwise and. -/
  | and (f : SFields)
  /-- ANDN (R359): a and not b. -/
  | andn (f : SFields)
  /-- CLZ (R359): Count of leading zero bits. -/
  | clz (f : SFields)
  /-- CMP_EQ (R366): Integer equality compare into a predicate. -/
  | cmpEq (f : SFields)
  /-- CMP_NE (R366): Integer inequality compare. -/
  | cmpNe (f : SFields)
  /-- CMP_LT (R366): Signed less-than compare. -/
  | cmpLt (f : SFields)
  /-- CMP_LE (R366): Signed less-or-equal compare. -/
  | cmpLe (f : SFields)
  /-- CMP_LTN (R366): Unsigned less-than compare. -/
  | cmpLtn (f : SFields)
  /-- CMP_LEN (R366): Unsigned less-or-equal compare. -/
  | cmpLen (f : SFields)
  /-- CNT (R367): Reads a tile event counter. -/
  | cnt (f : SFields)
  /-- CRD (R368): Reads a CSR. -/
  | crd (f : SFields)
  /-- CTZ (R359): Count of trailing zero bits. -/
  | ctz (f : SFields)
  /-- CWR (R369): Writes a CSR, with the further effects of SEED, ADOPT, PROBECFG and others. -/
  | cwr (f : SFields)
  /-- DIV (R378): Signed divide delivered through b6. -/
  | div (f : SFields)
  /-- DIV_N (R378): Unsigned divide. -/
  | divN (f : SFields)
  /-- DIV_R (R378): Signed remainder. -/
  | divR (f : SFields)
  /-- DIV_RN (R378): Unsigned remainder. -/
  | divRn (f : SFields)
  /-- EXT (R383): Extracts a bit field, optionally sign-extended. -/
  | ext (f : SFields)
  /-- FADD (R384): FP32 add, rounded under SRM. -/
  | fadd (f : SFields)
  /-- FCMP_EQ (R385): FP32 equality compare into a predicate. -/
  | fcmpEq (f : SFields)
  /-- FCMP_LT (R385): FP32 less-than compare. -/
  | fcmpLt (f : SFields)
  /-- FCMP_LE (R385): FP32 less-or-equal compare. -/
  | fcmpLe (f : SFields)
  /-- FCMP_UN (R385): FP32 unordered compare. -/
  | fcmpUn (f : SFields)
  /-- FCVT_FS (R386): Converts FP32 to s64. -/
  | fcvtFs (f : SFields)
  /-- FCVT_SF (R386): Converts s64 to FP32. -/
  | fcvtSf (f : SFields)
  /-- FCVT_FB (R386): Converts FP32 to BF16. -/
  | fcvtFb (f : SFields)
  /-- FCVT_BF (R386): Converts BF16 to FP32, exactly. -/
  | fcvtBf (f : SFields)
  /-- FFMA (R384): FP32 fused multiply-add whose addend is dst. -/
  | ffma (f : SFields)
  /-- FMAX (R384): FP32 maximum. -/
  | fmax (f : SFields)
  /-- FMIN (R384): FP32 minimum. -/
  | fmin (f : SFields)
  /-- FMUL (R384): FP32 multiply. -/
  | fmul (f : SFields)
  /-- INS (R383): Inserts a bit field into dst. -/
  | ins (f : SFields)
  /-- MAX (R401): Signed maximum. -/
  | max (f : SFields)
  /-- MAX_N (R401): Unsigned maximum. -/
  | maxN (f : SFields)
  /-- MIN (R401): Signed minimum. -/
  | min (f : SFields)
  /-- MIN_N (R401): Unsigned minimum. -/
  | minN (f : SFields)
  /-- MOV (R403): Plain register transport. -/
  | mov (f : SFields)
  /-- MOV_SHADOW (R84): Shadow form of MOV, which writes a halfword or the whole of an mw or ew shadow. -/
  | movShadow (f : ShadowFields)
  /-- MUL (R405): Low 64 bits of the product. -/
  | mul (f : SFields)
  /-- MULH (R405): High 64 bits of the signed product. -/
  | mulh (f : SFields)
  /-- MULH_N (R405): High 64 bits of the unsigned product. -/
  | mulhN (f : SFields)
  /-- NRG (R347): Delivers ENERGY minus the gang's charge G. -/
  | nrg (f : SFields)
  /-- OR (R407): Bitwise or. -/
  | or (f : SFields)
  /-- PLOG (R409): Predicate logic through a truth table. -/
  | plog (f : SFields)
  /-- POPC (R407): Population count. -/
  | popc (f : SFields)
  /-- RNDS (R413): Scalar random draw that advances n(8). -/
  | rnds (f : SFields)
  /-- SAR (R408): Arithmetic shift right. -/
  | sar (f : SFields)
  /-- SEL (R414): Selects srcA or the old dst on a predicate. -/
  | sel (f : SFields)
  /-- SHL (R408): Shift left. -/
  | shl (f : SFields)
  /-- SHR (R408): Logical shift right. -/
  | shr (f : SFields)
  /-- SUB (R407): Wrapping subtract. -/
  | sub (f : SFields)
  /-- SUB_SAT (R407): Saturating signed subtract. -/
  | subSat (f : SFields)
  /-- XOR (R459): Bitwise exclusive or. -/
  | xor (f : SFields)
  /-- AADD (R352): Atomic add. -/
  | aadd (f : AFields)
  /-- AAND (R352): Atomic and. -/
  | aand (f : AFields)
  /-- ACAS (R356): Compare and swap of a word or dword. -/
  | acas (f : AFields)
  /-- ACAS_W (R356): 16-byte compare and swap. -/
  | acasW (f : AFields)
  /-- ACQ (R260): Blocks until a sync-object count reaches v, then acquires the bound regions. -/
  | acq (f : AFields)
  /-- AFADD_F32 (R354): Atomic FP32 lane add. -/
  | afaddF32 (f : AFields)
  /-- AFADD_BF16 (R354): Atomic BF16 lane add. -/
  | afaddBf16 (f : AFields)
  /-- AMAX (R352): Atomic signed maximum. -/
  | amax (f : AFields)
  /-- AMAX_N (R352): Atomic unsigned maximum. -/
  | amaxN (f : AFields)
  /-- AMIN (R352): Atomic signed minimum. -/
  | amin (f : AFields)
  /-- AMIN_N (R352): Atomic unsigned minimum. -/
  | aminN (f : AFields)
  /-- AOR (R352): Atomic or. -/
  | aor (f : AFields)
  /-- AXCHG (R352): Atomic exchange. -/
  | axchg (f : AFields)
  /-- AXOR (R352): Atomic exclusive or. -/
  | axor (f : AFields)
  /-- BIND (R258): Binds a region to a sync-object word in the binding table. -/
  | bind (f : AFields)
  /-- BIND_U (R258): Removes a binding. -/
  | bindU (f : AFields)
  /-- FENCE (R256): Full fence at a scope. -/
  | fence (f : AFields)
  /-- FENCE_LD (R256): Load fence that drops clean L1 sectors. -/
  | fenceLd (f : AFields)
  /-- FENCE_ST (R256): Store fence that writes back dirty sectors and waits for the side log. -/
  | fenceSt (f : AFields)
  /-- KCHK (R388): Checks a capability for an access without performing it. -/
  | kchk (f : AFields)
  /-- KDER (R390): Derives a narrower capability. -/
  | kder (f : AFields)
  /-- KDER_S (R390): Derives a sealed capability. -/
  | kderS (f : AFields)
  /-- KINFO (R391): Reads capability bits into a scalar register. -/
  | kinfo (f : AFields)
  /-- KLD (R393): Loads a tagged capability through b3. -/
  | kld (f : AFields)
  /-- KST (R392): Stores a capability with its tag. -/
  | kst (f : AFields)
  /-- LD (R394): Sign-extending load through b3. -/
  | ld (f : AFields)
  /-- LD_N (R394): Zero-extending load. -/
  | ldN (f : AFields)
  /-- LDC (R395): Load through the constant path. -/
  | ldc (f : AFields)
  /-- LEA (R397): Forms and checks an address. -/
  | lea (f : AFields)
  /-- REL (R259): Releases the bound regions and increments the sync-object count. -/
  | rel (f : AFields)
  /-- ST (R418): Store. -/
  | st (f : AFields)
  /-- STM (R419): Masked 8-byte store. -/
  | stm (f : AFields)
  /-- LDS_A (R396): Loads block scales, vector-major. -/
  | ldsA (f : KFields)
  /-- LDS_B (R396): Loads block scales, block-major. -/
  | ldsB (f : KFields)
  /-- LIMM (R398): 24-bit immediate into b15. -/
  | limm (imm : BitVec 24)
  /-- SKCLR (R180): Clears a summary structure. -/
  | skclr (f : VFields)
  /-- SKD (R196): Inserts keys into a distinct count. -/
  | skd (f : VFields)
  /-- SKH (R192): Inserts keys into a heavy-hitter list. -/
  | skh (f : VFields)
  /-- SKMRG_Q (R188): Merges quantile sketches. -/
  | skmrgQ (f : VFields)
  /-- SKMRG_H (R193): Merges heavy-hitter lists. -/
  | skmrgH (f : VFields)
  /-- SKMRG_D (R197): Merges distinct counts. -/
  | skmrgD (f : VFields)
  /-- SKQ (R186): Inserts values into a quantile sketch. -/
  | skq (f : VFields)
  /-- SKQRY_Q (R189): Quantile query. -/
  | skqryQ (f : VFields)
  /-- SKQRY_R (R189): Rank query. -/
  | skqryR (f : VFields)
  /-- SKQRY_E (R194): Heavy-hitter or distinct-count estimate. -/
  | skqryE (f : VFields)
  /-- VABS (R435): Absolute value. -/
  | vabs (f : VFields)
  /-- VACC (R176): Copies accumulator rows into vector registers. -/
  | vacc (f : VFields)
  /-- VADD (R435): Vector add. -/
  | vadd (f : VFields)
  /-- VAND (R438): Vector and. -/
  | vand (f : VFields)
  /-- VBCAST (R440): Broadcasts one element. -/
  | vbcast (f : VFields)
  /-- VCMP_EQ (R441): Vector equality compare. -/
  | vcmpEq (f : VFields)
  /-- VCMP_NE (R441): Vector inequality compare. -/
  | vcmpNe (f : VFields)
  /-- VCMP_LT (R441): Vector less-than compare. -/
  | vcmpLt (f : VFields)
  /-- VCMP_LE (R441): Vector less-or-equal compare. -/
  | vcmpLe (f : VFields)
  /-- VCMP_UN (R441): Vector unordered compare. -/
  | vcmpUn (f : VFields)
  /-- VCVT_RNE (R442): Conversion, round to nearest even. -/
  | vcvtRne (f : VFields)
  /-- VCVT_RTZ (R442): Conversion toward zero. -/
  | vcvtRtz (f : VFields)
  /-- VCVT_RDN (R442): Conversion rounding down. -/
  | vcvtRdn (f : VFields)
  /-- VCVT_RUP (R442): Conversion rounding up. -/
  | vcvtRup (f : VFields)
  /-- VCVT_SR (R442): Stochastic-rounding conversion. -/
  | vcvtSr (f : VFields)
  /-- VEXP2 (R445): 2^x. -/
  | vexp2 (f : VFields)
  /-- VFMA (R434): a x b + c. -/
  | vfma (f : VFields)
  /-- VFMA_S (R434): a x b - c. -/
  | vfmaS (f : VFields)
  /-- VFMA_N (R434): c - a x b. -/
  | vfmaN (f : VFields)
  /-- VGATH (R446): Gather from an object. -/
  | vgath (f : VFields)
  /-- VGATH_S (R446): Gather from the scratchpad. -/
  | vgathS (f : VFields)
  /-- VIADD (R438): Wrapping integer add. -/
  | viadd (f : VFields)
  /-- VIADD_SAT (R438): Saturating integer add. -/
  | viaddSat (f : VFields)
  /-- VIADD_SUB (R438): Wrapping integer subtract. -/
  | viaddSub (f : VFields)
  /-- VIADD_SUBSAT (R438): Saturating integer subtract. -/
  | viaddSubsat (f : VFields)
  /-- VIDX (R448): Element indices. -/
  | vidx (f : VFields)
  /-- VIMUL (R438): Integer multiply, low half. -/
  | vimul (f : VFields)
  /-- VLD (R449): Contiguous vector load through vb4. -/
  | vld (f : VFields)
  /-- VLD_ST (R450): Streaming vector load. -/
  | vldSt (f : VFields)
  /-- VLOG2 (R445): log2 x. -/
  | vlog2 (f : VFields)
  /-- VMAX (R435): Vector maximum. -/
  | vmax (f : VFields)
  /-- VMIN (R435): Vector minimum. -/
  | vmin (f : VFields)
  /-- VMOV (R451): Vector transport. -/
  | vmov (f : VFields)
  /-- VMUL (R435): Vector multiply. -/
  | vmul (f : VFields)
  /-- VNEG (R435): Negation. -/
  | vneg (f : VFields)
  /-- VOR (R438): Vector or. -/
  | vor (f : VFields)
  /-- VPART (R170): Appends indices to true and false partition lists. -/
  | vpart (f : VFields)
  /-- VPK_PP8 (R177): Packs 32 FP32 values into PP8 with a scale. -/
  | vpkPp8 (f : VFields)
  /-- VPK_MX4 (R177): Packs 32 FP32 values into MXFP4 with a scale. -/
  | vpkMx4 (f : VFields)
  /-- VRCP (R445): Reciprocal. -/
  | vrcp (f : VFields)
  /-- VRED_ADD (R173): Tree sum into a sum latch. -/
  | vredAdd (f : VFields)
  /-- VRED_MAX (R173): Tree maximum into a sum latch. -/
  | vredMax (f : VFields)
  /-- VRED_MIN (R173): Tree minimum into a sum latch. -/
  | vredMin (f : VFields)
  /-- VRSQ (R445): Reciprocal square root. -/
  | vrsq (f : VFields)
  /-- VSAR (R439): Vector arithmetic shift right. -/
  | vsar (f : VFields)
  /-- VSCAN_ADD (R175): Inclusive prefix sum. -/
  | vscanAdd (f : VFields)
  /-- VSCAN_MAX (R175): Inclusive prefix maximum. -/
  | vscanMax (f : VFields)
  /-- VSCAT (R447): Scatter to an object. -/
  | vscat (f : VFields)
  /-- VSCAT_S (R447): Scatter to the scratchpad. -/
  | vscatS (f : VFields)
  /-- VSEL (R452): Lane select by a predicate. -/
  | vsel (f : VFields)
  /-- VSHF_PERM (R453): Permute within a cluster. -/
  | vshfPerm (f : VFields)
  /-- VSHF_ROT (R453): Rotate within a cluster. -/
  | vshfRot (f : VFields)
  /-- VSHL (R439): Vector shift left. -/
  | vshl (f : VFields)
  /-- VSHR (R439): Vector logical shift right. -/
  | vshr (f : VFields)
  /-- VSIG (R445): Sigmoid. -/
  | vsig (f : VFields)
  /-- VST (R449): Contiguous vector store. -/
  | vst (f : VFields)
  /-- VST_ST (R450): Streaming vector store. -/
  | vstSt (f : VFields)
  /-- VSUB (R435): Vector subtract. -/
  | vsub (f : VFields)
  /-- VSUM (R174): Drains a sum latch into a vector register. -/
  | vsum (f : VFields)
  /-- VTANH (R445): Hyperbolic tangent. -/
  | vtanh (f : VFields)
  /-- VUPK_PP8 (R178): Unpacks a PP8 block to FP32. -/
  | vupkPp8 (f : VFields)
  /-- VUPK_MX4 (R178): Unpacks an MXFP4 block to FP32. -/
  | vupkMx4 (f : VFields)
  /-- VXCL (R167): Reads another cluster's registers. -/
  | vxcl (f : VFields)
  /-- VXOR (R438): Vector exclusive or. -/
  | vxor (f : VFields)
  /-- MDRAIN (R155): Drains an accumulator into the scratchpad. -/
  | mdrain (f : MFields)
  /-- MDRAIN_CT (R155): Drains an accumulator transposed. -/
  | mdrainCt (f : MFields)
  /-- MRING (R153): Configures a ring from mh0. -/
  | mring (f : MFields)
  /-- MSTEP (R156): Queues a matrix step loop. -/
  | mstep (f : MFields)
  /-- MSTEPX (R156): Queues a matrix step loop with the ports swapped. -/
  | mstepx (f : MFields)
  /-- MZERO (R154): Zeroes an accumulator. -/
  | mzero (f : MFields)
  /-- CLABT (R293): Aborts every collective of a communicator. -/
  | clabt (f : EFields)
  /-- CLAG (R276): All-gather. -/
  | clag (f : EFields)
  /-- CLAR_SUM (R283): All-reduce sum. -/
  | clarSum (f : EFields)
  /-- CLAR_MAX (R283): All-reduce maximum. -/
  | clarMax (f : EFields)
  /-- CLBAR (R282): Collective barrier. -/
  | clbar (f : EFields)
  /-- CLBC (R276): Broadcast from a root. -/
  | clbc (f : EFields)
  /-- CLOPT (R290): Attaches an optimiser to the next CLRS.sum. -/
  | clopt (f : EFields)
  /-- CLRS_SUM (R283): Reduce-scatter sum. -/
  | clrsSum (f : EFields)
  /-- CLRS_MAX (R283): Reduce-scatter maximum. -/
  | clrsMax (f : EFields)
  /-- CLRSH (R288): Reshards between two layouts. -/
  | clrsh (f : EFields)
  /-- CLST (R296): Writes the outcome of a collective. -/
  | clst (f : EFields)
  /-- CPY (R370): Copy command. -/
  | cpy (f : EFields)
  /-- CPYF_A (R375): Copy into a ring with an M-slot follow-on reading it as ringA. -/
  | cpyfA (f : EFields)
  /-- CPYF_B (R375): Copy into a ring with an M-slot follow-on reading it as ringB. -/
  | cpyfB (f : EFields)
  /-- CPYG (R372): Indexed-gather copy. -/
  | cpyg (f : EFields)
  /-- CPYS (R372): Indexed-scatter copy. -/
  | cpys (f : EFields)
  /-- CPYZ (R372): Pattern-fill copy. -/
  | cpyz (f : EFields)
  /-- CSET (R377): Sets a completion counter. -/
  | cset (f : EFields)
  /-- MTFET (R239): Prefetches a tile stencil into Mortar. -/
  | mtfet (f : EFields)
  /-- MTHALO (R240): Enables or disables halo service. -/
  | mthalo (f : EFields)
  /-- MTINV_WB (R241): Writes back and invalidates a TID's lines. -/
  | mtinvWb (f : EFields)
  /-- MTINV_DROP (R241): Invalidates a TID's lines, discarding dirty data. -/
  | mtinvDrop (f : EFields)
  /-- MTLOOK (R238): Looks up the presence of a tile line. -/
  | mtlook (f : EFields)
  /-- MTPIN (R242): Changes the pin mode of a TID. -/
  | mtpin (f : EFields)
  /-- MTREG (R236): Registers a tensor and allocates a TID. -/
  | mtreg (f : EFields)
  /-- MTREL (R237): Releases a TID. -/
  | mtrel (f : EFields)
  /-- SIGC_ADD (R416): Adds to another crew's counter. -/
  | sigcAdd (f : EFields)
  /-- SIGC_SET (R416): Sets another crew's counter. -/
  | sigcSet (f : EFields)
  /-- TJCLOSE (R314): Closes the strand's trajectory sequence. -/
  | tjclose (f : EFields)
  /-- TJOPEN (R314): Runs the adoption check and opens a sequence. -/
  | tjopen (f : EFields)
  /-- TJRD (R315): Delivers one closed sequence. -/
  | tjrd (f : EFields)
  /-- TJREC (R314): Runs the adoption check and appends records. -/
  | tjrec (f : EFields)
  /-- WVADOPT (R310): Forced adoption check. -/
  | wvadopt (f : EFields)
  /-- WVDROP (R305): Drops a hold on a version. -/
  | wvdrop (f : EFields)
  /-- WVHOLD (R305): Takes a hold on a version. -/
  | wvhold (f : EFields)
  /-- WVPUB (R306): Claims or publishes a version, optionally with a broadcast. -/
  | wvpub (f : EFields)
  /-- WVQRY (R305): Queries a version without a hold. -/
  | wvqry (f : EFields)
  /-- MSWAP (R80): Header bit that exchanges mh0-mh3 with mw0-mw3 at issue. -/
  | mswap
  /-- ESWAP (R80): Header bit that exchanges eh0-eh3 with ew0-ew3 at issue. -/
  | eswap
  /-- RESULT_WRITEBACK (R88): A fixed-latency result is written into its register and latch at its write clk. -/
  | resultWriteback (tile : Nat) (ctx : Nat)
  /-- RETURN_PORT_DELIVER (R90): A variable-latency result arrives at its return port and writes its register in issue order. -/
  | returnPortDeliver (tile : Nat) (ctx : Nat) (port : Nat)
  /-- LQTAIL_WRITE (R40): A write of TAIL makes records available, or halts the queue when overfull. -/
  | lqtailWrite (vf : Nat) (part : Nat) (q : Nat) (tail : BitVec 32)
  /-- LQMARK_WRITE (R328): The host driver sets launch-queue marks. -/
  | lqmarkWrite (vf : Nat) (part : Nat) (half : Nat) (value : Word)
  /-- REGISTER_WRITE (R6): A write to a register with no row of its own, such as a W1C or RW register. -/
  | registerWrite (fn : Nat) (offset : Nat) (value : Word)
  /-- GANG_ADMIT (R43): The scheduler admits an admissible head record's next gang and places its crews. -/
  | gangAdmit (vf : Nat) (part : Nat)
  /-- TILE_RESERVATION (R48): A head held at priority 7 for 2^16 clk reserves tiles. -/
  | tileReservation (vf : Nat) (part : Nat)
  /-- QUANTUM_EXPIRY (R49): The context's 4,096-clk quantum expires while another is ready. -/
  | quantumExpiry (tile : Nat)
  /-- CONTEXT_SWITCH (R50): The core takes the next ready context 2 clk after a block, rotation or trap. -/
  | contextSwitch (tile : Nat)
  /-- STRAND_WAKE (R51): A blocked strand becomes ready when its condition holds. -/
  | strandWake (tile : Nat) (ctx : Nat)
  /-- STRAND_RETIRE (R381): The strand retires once its results and side log have drained after EXIT. -/
  | strandRetire (tile : Nat) (ctx : Nat)
  /-- CREW_RETIRE (R33): The crew retires when its strands, handlers and forked operations are done. -/
  | crewRetire (tile : Nat)
  /-- GANG_RETIRE (R33): The gang retires, frees its tiles and signals its wave counter. -/
  | gangRetire (gang : Nat)
  /-- LANDING_COMPLETE (R52): A landing's last byte is written, its counter incremented and any handler started. -/
  | landingComplete (tile : Nat) (idx : Nat)
  /-- ENGINE_STOP (R61): The Trowel or copy engine reaches its stop point. -/
  | engineStop (tile : Nat)
  /-- SAVE_AREA_WRITE (R60): The copy engine writes the crew's state to its save area and releases the tile. -/
  | saveAreaWrite (tile : Nat)
  /-- TILE_SCRUB (R72): Scrub of a moving tile, which completes within 2,048 clk of its save. -/
  | tileScrub (tile : Nat)
  /-- GANG_RESUME (R69): A pre-empted gang claims free tiles and its state is read back. -/
  | gangResume (gang : Nat)
  /-- MOULD_REPLAY (R70): A Mould entry is written at clk g + OFFSET. -/
  | mouldReplay (tile : Nat) (ctx : Nat)
  /-- ENGINE_CAUSE_TAKE (R321): The strand takes a queued engine-raised cause in place of its next bundle. -/
  | engineCauseTake (tile : Nat) (ctx : Nat)
  /-- TILE_DISABLE (R336): Firmware disables a tile after three MATCHK. -/
  | tileDisable (tile : Nat)
  /-- FLR_INITIATE (R332): The host sets Initiate Function Level Reset for a virtual function. -/
  | flrInitiate (vf : Nat)
  /-- FLR_COMPLETE (R332): The FLR finishes its drain, scrub and clear, and Transactions Pending clears. -/
  | flrComplete (vf : Nat)
  /-- COLD_RESET (R350): Power-on reset and secure boot. -/
  | coldReset (image : Firmware)
  /-- WARM_RESET (R350): PCIe hot reset or PERST#. -/
  | warmReset (image : Firmware)
  /-- SPDM_REQUEST (R344): An SPDM attestation message over the DOE mailbox. -/
  | spdmRequest (msg : List Byte)
  /-- HOST_MEM_WRITE (R339): Host CXL.mem write performed at the home slice. -/
  | hostMemWrite (addr : Nat) (data : List Byte)
  /-- HOST_MEM_READ (R339): Host CXL.mem read. -/
  | hostMemRead (addr : Nat) (len : Nat)
  /-- HOST_SNOOP (R340): Host snoop of a sector cached under CXL.cache. -/
  | hostSnoop (addr : Nat) (invalidate : Bool)
  /-- BACK_INVALIDATE_RESPONSE (R339): Host response to a back-invalidate snoop, after which the device write is performed. -/
  | backInvalidateResponse (addr : Nat)
  /-- ATS_INVALIDATION (R210): The host invalidates ATC entries. -/
  | atsInvalidation (pasid : Nat) (vpage : Nat) (count : Nat)
  /-- ATS_TRANSLATION_RESPONSE (R210): A translation answer arrives from the host. -/
  | atsTranslationResponse (pasid : Nat) (vpage : Nat) (answer : Option PageMap)
  /-- PRI_RESPONSE (R211): Answer to a page request: held accesses proceed or fail. -/
  | priResponse (pasid : Nat) (vpage : Nat) (ok : Bool)
  /-- SIDE_LOG_REPLAY (R214): A logged entry is replayed once its page is mapped. -/
  | sideLogReplay (tile : Nat)
  /-- CXL_LINK_DOWN (R338): A CXL port goes down and requests move to the other port. -/
  | cxlLinkDown (port : Nat)
  /-- CLAMP_TICK (R346): Every 3,000 clk each account is charged, refilled and gated. -/
  | clampTick
  /-- L1_SECTOR_EXPIRY (R200): An L1 sector is written back and dropped after 32,768 clk. -/
  | l1SectorExpiry (tile : Nat) (sector : Nat)
  /-- BACKGROUND_SCRUB (R335): Background scrub of SRAM and DRAM within 2^36 clk. -/
  | backgroundScrub (site : ScrubSite) (outcome : Nat)
  /-- PAGE_DEMOTE (R223): The migration engine demotes pages while occupancy exceeds HI. -/
  | pageDemote (pasid : Nat) (vpage : Nat) (dest : Nat)
  /-- PAGE_PROMOTE (R223): A page seen accessed by two sweeps is promoted one tier. -/
  | pagePromote (pasid : Nat) (vpage : Nat) (dest : Nat)
  /-- PROBE_FILL_COMPLETE (R218): A probe fill lands, validates its tag and increments its counter. -/
  | probeFillComplete (tile : Nat) (slot : Nat)
  /-- RING_PUSH (R145): A copy's slot lands in a ring: TAIL and COUNT advance. -/
  | ringPush (tile : Nat)
  /-- COPY_COMPLETE (R374): A copy ends: its counter increases by INC and its status is pushed to b8. -/
  | copyComplete (tile : Nat)
  /-- FOLLOW_ON_ENQUEUE (R161): A CPYF follow-on word enters the matrix queue when there is room. -/
  | followOnEnqueue (tile : Nat)
  /-- MATRIX_K_STEP (R156): The Trowel starts a k index once its rings hold the slots it needs. -/
  | matrixKStep (tile : Nat)
  /-- MATRIX_REPLAY (R163): On a residue mismatch the step is recomputed, and MATCHK is raised after three failures. -/
  | matrixReplay (tile : Nat)
  /-- MATRIX_COMPLETE (R156): A matrix operation completes and increments ct(CT) when CTEN is set. -/
  | matrixComplete (tile : Nat)
  /-- MORTAR_COMPLETE (R235): A Mortar command completes, pushes its b9 entry and increments its counter. -/
  | mortarComplete (vf : Nat)
  /-- SIGNAL_APPLY (R416): A SIGC or CSET update is applied at the target counter. -/
  | signalApply (tile : Nat)
  /-- SUMMARY_UNIT_OPERATION (R181): The reduction unit performs a queued summary operation on its structure. -/
  | summaryUnitOperation (tile : Nat)
  /-- CHUNK_BEGIN (R285): The Hod begins the next chunk of the highest-priority candidate communicator. -/
  | chunkBegin (die : Nat)
  /-- CHUNK_LAND (R281): A chunk lands at a rank, with per-chunk counters and optimiser updates. -/
  | chunkLand (die : Nat)
  /-- COLLECTIVE_COMPLETE (R279): A collective command completes: b10 entry and counter. -/
  | collectiveComplete (die : Nat)
  /-- DATA_FLIT (R297): A data flit is received on a Dravy Link port. -/
  | dataFlit (port : Nat) (flit : Flit)
  /-- CREDIT_FLIT (R299): A credit flit is received. -/
  | creditFlit (port : Nat) (vc : Nat) (count : Nat)
  /-- ACK_FLIT (R298): An ack flit is received and frees the sender's replay buffer. -/
  | ackFlit (port : Nat) (ackseq : Nat)
  /-- NAK_FLIT (R298): A nak flit is received and the sender resends from the nak'd flit. -/
  | nakFlit (port : Nat) (ackseq : Nat)
  /-- MANAGEMENT_FLIT (R297): A management flit is received on VC0. -/
  | managementFlit (port : Nat) (flit : Flit)
  /-- ABORT_MESSAGE (R293): An abort reaches a member and ends its collectives ABORTED. -/
  | abortMessage (comm : Nat)
  /-- MEMBER_LOST (R294): A lost member is declared and collectives end MEMBER_LOST with COLFAIL. -/
  | memberLost (comm : Nat) (rank : Nat)
  /-- PAUSE_REQUEST (R295): A pause request reaches rank 0's Hod, which broadcasts the stop chunk. -/
  | pauseRequest (comm : Nat) (rank : Nat)
  /-- STOP_CHUNK (R295): A member receives the stop chunk and begins no chunk at or above it. -/
  | stopChunk (comm : Nat) (chunk : Nat)
  /-- RESUME_BROADCAST (R295): A resume broadcast lets the collective continue from the stop chunk. -/
  | resumeBroadcast (comm : Nat)
  /-- PORT_RETRAIN (R298): After 16 failed replays the port retrains. -/
  | portRetrain (port : Nat)
  /-- PORT_DOWN (R300): A port fails to retrain within 2^22 clk and its routes move. -/
  | portDown (port : Nat)
  /-- CROWN_COMPLETE (R305): A Crown command completes: b11 entry and counter. -/
  | crownComplete
  /-- BROADCAST_CLAIM (R307): A peer Crown claims a FREE slot for a broadcast version, waiting if none is free. -/
  | broadcastClaim (w : Nat) (comm : Nat) (ver : Nat)
  /-- BROADCAST_LAND (R307): At a peer, the broadcast ends: it publishes the entry or frees it. -/
  | broadcastLand (w : Nat)
  /-- BRIM_COMPLETE (R316): A Brim command completes: b12 entry and counter. -/
  | brimComplete
  /-- BAD_TYPE_FLIT (R297): A received flit whose TYPE is none of data, credit, ack, nak or management is dropped and counted in soft-error class 14. -/
  | badTypeFlit (port : Nat)
  /-- BAD_CRC_FLIT (R298): A received flit that fails its CRC check is discarded with every later flit and a nak with the last good SEQ is sent. -/
  | badCrcFlit (port : Nat)
  /-- RETRAIN_COMPLETE (R298): A retraining port regains its footing within 2^22 clk and returns to service. -/
  | retrainComplete (port : Nat)
  /-- CXL_LINK_UP (R338): A CXL port that was down comes back, and device requests of its virtual functions return to it. -/
  | cxlLinkUp (port : Nat)
  /-- PAGE_TABLE_COMMIT (R223): The host driver commits or refuses the page-table change of a page move; on refusal the page stays and the hold is released. -/
  | pageTableCommit (pasid : Nat) (vpage : Nat) (ok : Bool)
  /-- EMPTY_BUNDLE (R76): A bundle that is a header alone, or a header with only swap bits, issues and advances fetch. -/
  | emptyBundle
  /-- UNASSIGNED_CODE (R122): A slot holding opcode 0x00, an unassigned code or an unassigned SYSC subcode traps ILLOP. -/
  | unassignedCode (pos : Nat) (word : BitVec 64)
  deriving DecidableEq, Repr

end Sys2Proof
end

