-- ==== Sys2Proof/Machine/Legal.lean ====
section
/-! DEFINITION. The ILLOP reasons that follow from one slot's encoding alone (04 R81, 05 R103 to R119, and the
field rules of each instruction's entry). A slot has the lowest reason of the cases that apply to it. -/
namespace Sys2Proof.Machine

/-- The lowest reason among the cases that hold (04 R81). -/
def lowestReason : List (Bool × Nat) → Option Nat
  | [] => none
  | (b, r) :: t =>
    match b, lowestReason t with
    | true, some q => some (min r q)
    | true, none => some r
    | false, q => q

/-- A register number that a group of width w may start at (04 R83). -/
def groupAligned (n w : Nat) : Bool := n % 2 ^ w == 0

/-! ### Scalar slots -/

/-- srcA names s0-s63 (codes 0-63) or b0-b15 (64-79) (05 R106). -/
def srcAReserved (a : BitVec 7) : Bool := decide (80 ≤ a.toNat)
def srcAIsLatch (a : BitVec 7) : Bool := decide (64 ≤ a.toNat) && decide (a.toNat < 80)
def srcBIsImm (b : BitVec 8) : Bool := decide (128 ≤ b.toNat)
def srcBReserved (b : BitVec 8) : Bool := decide (80 ≤ b.toNat) && decide (b.toNat < 128)
def srcBIsLatch (b : BitVec 8) : Bool := decide (64 ≤ b.toNat) && decide (b.toNat < 80)

/-- Misalignment of a scalar source group: a register below 64 that is not a multiple of the group size. -/
def srcMisaligned (n w : Nat) : Bool := decide (n < 64) && !groupAligned n w

/-- The dst field is a group that is written (NW clear) or read and is not aligned (04 R81 0x05, 05 R103). -/
def dstMisaligned (f : SFields) : Bool := f.nw == 0 && !groupAligned f.dst.toNat f.width.toNat

/-- Two-operand scalar forms (05 R105, R106). -/
def legalBin (f : SFields) : Option Nat :=
  lowestReason
    [ (srcAReserved f.srcA, 3), (srcBReserved f.srcB, 3),
      (f.width != 0 && (srcAIsLatch f.srcA || srcBIsLatch f.srcB), 5),
      (dstMisaligned f || srcMisaligned f.srcA.toNat f.width.toNat ||
        srcMisaligned f.srcB.toNat f.width.toNat, 5) ]

/-- FFMA: as the two-operand forms, and dst is read even when NW is set (18 R384). -/
def legalFfma (f : SFields) : Option Nat :=
  lowestReason
    [ (srcAReserved f.srcA, 3), (srcBReserved f.srcB, 3),
      (f.width != 0 && (srcAIsLatch f.srcA || srcBIsLatch f.srcB), 5),
      (!groupAligned f.dst.toNat f.width.toNat || srcMisaligned f.srcA.toNat f.width.toNat ||
        srcMisaligned f.srcB.toNat f.width.toNat, 5) ]

/-- One-operand scalar forms: srcB is 0x00 (17 R359, 18 R386, 19 R407, 18 R403). -/
def legalUn (f : SFields) : Option Nat :=
  lowestReason
    [ (srcAReserved f.srcA, 3), (f.srcB != 0, 3),
      (f.width != 0 && srcAIsLatch f.srcA, 5),
      (dstMisaligned f || srcMisaligned f.srcA.toNat f.width.toNat, 5) ]

/-- Cases of reason 0x05 of the sources of an instruction that takes width 00 only: another width is a case too, and the
lowest reason is reported (04 R81). (log 36: DEDUCED) -/
def sources05 (f : SFields) : Bool :=
  (f.width != 0 && (srcAIsLatch f.srcA || srcBIsLatch f.srcB)) || srcMisaligned f.srcA.toNat f.width.toNat ||
    srcMisaligned f.srcB.toNat f.width.toNat

/-- A predicate destination: [23:22] zero, unless NW has the field ignored (05 R103, R107). -/
def predDst (f : SFields) : Bool × Nat := (f.nw == 0 && decide (16 ≤ f.dst.toNat), 3)

/-- CMP and FCMP: a predicate destination, width 00 (05 R107, 17 R366, 18 R385). -/
def legalCmp (f : SFields) : Option Nat :=
  lowestReason
    [ (srcAReserved f.srcA, 3), (srcBReserved f.srcB, 3), predDst f, (sources05 f, 5), (f.width != 0, 0x0A) ]

/-- DIV: width 00 (18 R378). -/
def legalDiv (f : SFields) : Option Nat :=
  lowestReason
    [ (srcAReserved f.srcA, 3), (srcBReserved f.srcB, 3), (sources05 f || dstMisaligned f, 5), (f.width != 0, 0x0A) ]

/-- EXT and INS: the control operand is never an immediate, width 00 (18 R383). -/
def legalBitField (f : SFields) : Option Nat :=
  lowestReason
    [ (srcAReserved f.srcA, 3), (srcBReserved f.srcB, 3), (sources05 f || dstMisaligned f, 5),
      (f.width != 0, 0x0A), (srcBIsImm f.srcB, 0x0A) ]

/-- PLOG: predicates in dst, srcA and srcB (05 R107, 19 R409). -/
def legalPlog (f : SFields) : Option Nat :=
  lowestReason [ predDst f, (decide (16 ≤ f.srcA.toNat), 3), (f.width != 0, 0x0A) ]

/-- SEL: srcB is the immediate form with [5:4] zero (05 R107, 19 R414). -/
def legalSel (f : SFields) : Option Nat :=
  lowestReason
    [ (srcAReserved f.srcA, 3), (srcBReserved f.srcB, 3),
      (srcBIsImm f.srcB && f.srcB &&& 0x30#8 != 0, 3), (sources05 f || dstMisaligned f, 5),
      (f.width != 0, 0x0A), (!srcBIsImm f.srcB, 0x0A) ]

/-- CRD: srcA zero, immediate form, a CSR number of R92 (17 R368). (log 37: DEDUCED) -/
def legalCrd (f : SFields) : Option Nat :=
  lowestReason
    [ (f.srcA != 0, 3), (srcBReserved f.srcB, 3), (sources05 f || dstMisaligned f, 5), (f.width != 0, 0x0A),
      (!srcBIsImm f.srcB, 0x0A),
      (decide (0x1C < f.srcB.toNat % 128), 0x0B) ]

/-- CWR: dst zero, immediate form, a CSR number of R92 (17 R369). -/
def legalCwr (f : SFields) : Option Nat :=
  lowestReason
    [ (srcAReserved f.srcA, 3), (srcBReserved f.srcB, 3), (f.dst != 0, 3), (sources05 f, 5),
      (f.width != 0, 0x0A), (!srcBIsImm f.srcB, 0x0A),
      (decide (0x1C < f.srcB.toNat % 128), 0x0B) ]

/-- CNT: srcA zero, immediate form, counter 0-7 (17 R367). -/
def legalCnt (f : SFields) : Option Nat :=
  lowestReason
    [ (f.srcA != 0, 3), (srcBReserved f.srcB, 3), (srcBIsImm f.srcB && decide (8 ≤ f.srcB.toNat % 128), 3),
      (sources05 f || dstMisaligned f, 5),
      (f.width != 0, 0x0A), (!srcBIsImm f.srcB, 0x0A) ]

/-- NRG and RNDS: no source (19 R406, R413). -/
def legalNone (f : SFields) : Option Nat :=
  lowestReason [ (f.srcA != 0, 3), (f.srcB != 0, 3), (dstMisaligned f, 5), (f.width != 0, 0x0A) ]

/-- The shadow form of MOV: selector F, with F[1:0] zero when F[5] is set (04 R84). -/
def legalShadow (f : ShadowFields) : Option Nat :=
  lowestReason
    [ (srcAReserved f.srcA, 3), (decide (32 ≤ f.sel.toNat) && f.sel.toNat % 4 != 0, 3) ]

/-! ### Address slot -/

/-- Scope code 7 (05 R109). -/
def scope7 (f : AFields) : Bool := f.scope == 7
/-- The group width of a relaxed plain access: bits [14:13] (05 R109). -/
def plainWidth (f : AFields) : Nat := f.scope.toNat % 4
/-- Bit 15 of a relaxed plain access must be 0 (05 R109). -/
def plainBit15 (f : AFields) : Bool := decide (4 ≤ f.scope.toNat)

/-- LD and LD.n: rlx with a group, or acq with a scope (05 R109, R110). -/
def legalLoad (f : AFields) : Option Nat :=
  lowestReason
    [ (scope7 f, 3), (f.order == 0 && plainBit15 f, 3),
      (f.order == 0 && !groupAligned f.data.toNat (plainWidth f), 5),
      (f.order == 2 || f.order == 3, 0x0A),
      (f.order == 0 && plainWidth f != 0 && f.size != 3, 0x0A) ]

/-- LDC: rlx only, no group (18 R395). -/
def legalLdc (f : AFields) : Option Nat :=
  lowestReason
    [ (scope7 f, 3), (f.order == 0 && plainBit15 f, 3), (f.order != 0, 0x0A),
      (plainWidth f != 0, 0x0A) ]

/-- ST: rlx with a group, or rel with a scope (19 R418). -/
def legalStore (f : AFields) : Option Nat :=
  lowestReason
    [ (scope7 f, 3), (f.order == 0 && plainBit15 f, 3),
      (f.order == 0 && !groupAligned f.data.toNat (plainWidth f), 5),
      (f.order == 1 || f.order == 3, 0x0A),
      (f.order == 0 && plainWidth f != 0 && f.size != 3, 0x0A) ]

/-- STM: an aligned pair, size 11; a group traps with reason 0x05 (19 R419). -/
def legalStm (f : AFields) : Option Nat :=
  lowestReason
    [ (scope7 f, 3), (f.order == 0 && plainBit15 f, 3),
      (f.data.toNat % 2 == 1, 5), (f.order == 0 && plainWidth f != 0, 5),
      (f.order == 1 || f.order == 3, 0x0A), (f.size != 3, 0x0A) ]

/-- The read-modify-write atomics take every order and size (17 R352). -/
def legalAtomic (f : AFields) : Option Nat := lowestReason [ (scope7 f, 3) ]

/-- ACAS names an aligned pair (17 R356). -/
def legalAcas (f : AFields) : Option Nat := lowestReason [ (scope7 f, 3), (f.data.toNat % 2 == 1, 5) ]

/-- ACAS.w names an aligned quad and has size [0] = 1 (17 R356). -/
def legalAcasW (f : AFields) : Option Nat :=
  lowestReason [ (scope7 f, 3), (f.size.toNat % 2 == 0, 3), (f.data.toNat % 4 != 0, 5) ]

/-- ACQ: acq, size 11, scope 1-6 (12 R258). -/
def legalAcq (f : AFields) : Option Nat :=
  lowestReason [ (scope7 f, 3), (f.order != 1, 0x0A), (f.size != 3, 0x0A), (f.scope == 0, 0x0A) ]

/-- REL: rel, size 11, scope 1-6, data 0 (12 R258, 05 R110, 19 R411). (log 38: DEDUCED) -/
def legalRel (f : AFields) : Option Nat :=
  lowestReason
    [ (scope7 f, 3), (f.data != 0, 3), (f.order != 2, 0x0A), (f.size != 3, 0x0A), (f.scope == 0, 0x0A) ]

/-- BIND and BIND.u (12 R258): rlx, scope 0, size 11, capability in data [4:0]. -/
def legalBind (f : AFields) : Option Nat :=
  lowestReason
    [ (f.scope != 0, 3), (decide (32 ≤ f.data.toNat), 3), (f.order != 0, 0x0A), (f.size != 3, 0x0A) ]

/-- The fences: scope only (18 R387). -/
def legalFence (f : AFields) : Option Nat :=
  lowestReason
    [ (scope7 f, 3), (f.data != 0, 3), (f.size != 0, 3), (f.k != 0, 3), (f.s != 0, 3), (f.order != 0, 0x0A) ]

/-- KCHK and LEA: order rlx, scope 0 (05 R110). -/
def legalCheck (f : AFields) : Option Nat := lowestReason [ (f.scope != 0, 3), (f.order != 0, 0x0A) ]

/-- KDER: an aligned source pair (18 R389). -/
def legalKder (f : AFields) : Option Nat :=
  lowestReason
    [ (f.scope != 0, 3), (decide (32 ≤ f.data.toNat), 3), (f.s.toNat % 2 == 1, 5), (f.order != 0, 0x0A),
      (f.size != 3, 0x0A) ]

/-- KINFO: size 0x, s zero (18 R391). -/
def legalKinfo (f : AFields) : Option Nat :=
  lowestReason
    [ (f.scope != 0, 3), (decide (2 ≤ f.size.toNat), 3), (f.s != 0, 3), (f.order != 0, 0x0A) ]

/-- KLD (18 R392): rlx or acq, size 11. -/
def legalKld (f : AFields) : Option Nat :=
  lowestReason
    [ (scope7 f, 3), (decide (32 ≤ f.data.toNat), 3), (f.order == 2 || f.order == 3, 0x0A), (f.size != 3, 0x0A) ]

/-- KST (18 R392): rlx or rel, size 11. -/
def legalKst (f : AFields) : Option Nat :=
  lowestReason
    [ (scope7 f, 3), (decide (32 ≤ f.data.toNat), 3), (f.order == 1 || f.order == 3, 0x0A), (f.size != 3, 0x0A) ]

/-! ### Control slot -/

/-- Instructions whose operand field must be 0 (05 R112). -/
def legalCZero (f : CFields) : Option Nat := lowestReason [ (f.opnd != 0, 3) ]
/-- BR is unconditional (05 R111). -/
def legalBr (f : CFields) : Option Nat := lowestReason [ (f.pred != 0, 3), (f.sense != 0, 3) ]
/-- LOOP: the offset is at least 1 (05 R112). -/
def legalLoop (f : CFields) : Option Nat := lowestReason [ (f.opnd.toNat % 2 ^ 13 == 0, 3) ]
/-- WAITC: [4:0] zero. -/
def legalWaitc (f : CFields) : Option Nat := lowestReason [ (f.opnd.toNat % 2 ^ 5 != 0, 3) ]
/-- WAITV: size 10 or 11. -/
def legalWaitv (f : CFields) : Option Nat := lowestReason [ (decide (f.opnd.toNat % 4 < 2), 3) ]
/-- BARG.a: [10:0] zero. -/
def legalBargA (f : CFields) : Option Nat := lowestReason [ (f.opnd.toNat % 2 ^ 11 != 0, 3) ]
/-- TRAP: [18:16] zero. -/
def legalTrap (f : CFields) : Option Nat := lowestReason [ (decide (2 ^ 16 ≤ f.opnd.toNat), 3) ]

/-! ### Vector slot -/

/-- Type codes (05 R114). -/
def vAll : List Nat := [0, 1, 2, 3, 4, 5, 6, 7]
def vFloat : List Nat := [0, 1, 2, 3]
def vSigned : List Nat := [4, 5, 6]
def vInt : List Nat := [4, 5, 6, 7]

def typeIn (f : VFields) (ts : List Nat) : Bool := ts.contains f.type.toNat
def vAligned (f : VFields) (r : BitVec 6) : Bool := groupAligned r.toNat f.width.toNat

/-- The cases that hold of every V slot that takes an srcB form of `forms` (05 R113, 20 R431). -/
def legalSrcB (f : VFields) (forms : List Nat) : List (Bool × Nat) :=
  [ (f.bsel == 1 && decide (8 ≤ f.srcB.toNat), 3), (f.bsel == 1 && f.width != 0, 5),
    (!forms.contains f.bsel.toNat, 0x0A),
    (f.bsel == 0 && forms.contains 0 && !vAligned f f.srcB, 5) ]
/-- The cases of a V slot that reads no srcB (20 R431). -/
def legalNoB (f : VFields) : List (Bool × Nat) := [ (f.bsel != 0, 3), (f.srcB != 0, 3) ]
/-- srcC is not read (20 R431). -/
def legalNoC (f : VFields) : List (Bool × Nat) := [ (f.bsel != 3 && f.srcC != 0, 3) ]
/-- srcC[4:0] names a capability register (05 R115). -/
def legalCapC (f : VFields) : List (Bool × Nat) := [ (decide (32 ≤ f.srcC.toNat), 3) ]
def legalTypes (f : VFields) (ts : List Nat) : List (Bool × Nat) := [ (!typeIn f ts, 0x0A) ]
def legalDst (f : VFields) : List (Bool × Nat) := [ (f.nw == 0 && !vAligned f f.dst, 5) ]
def legalA (f : VFields) : List (Bool × Nat) := [ (!vAligned f f.srcA, 5) ]
def legalC (f : VFields) : List (Bool × Nat) := [ (!vAligned f f.srcC, 5) ]
def legalWidth0 (f : VFields) : List (Bool × Nat) := [ (f.width != 0, 0x0A) ]
/-- dst and NW are zero (05 R115, 09 R179). -/
def legalNoDst (f : VFields) : List (Bool × Nat) := [ (f.dst != 0, 3), (f.nw != 0, 3) ]

def legalVUn (f : VFields) (ts : List Nat) : Option Nat :=
  lowestReason (legalTypes f ts ++ legalNoB f ++ legalNoC f ++ legalDst f ++ legalA f)
def legalVBin (f : VFields) (ts forms : List Nat) : Option Nat :=
  lowestReason (legalTypes f ts ++ legalSrcB f forms ++ legalNoC f ++ legalDst f ++ legalA f)
/-- VFMA forms read srcC and take no immediate (20 R434). -/
def legalVFma (f : VFields) : Option Nat :=
  lowestReason (legalTypes f vFloat ++ legalSrcB f [0, 1, 2] ++ legalDst f ++ legalA f ++ legalC f)
/-- VCMP: width 00 and a predicate destination vp1-vp15, ignored with NW (20 R441, 05 R103, R115). -/
def legalVCmp (f : VFields) (ts : List Nat) : Option Nat :=
  lowestReason (legalTypes f ts ++ legalSrcB f [0, 1, 2, 3] ++ legalNoC f ++ legalA f ++ legalWidth0 f ++
    [ (f.nw == 0 && (f.dst == 0 || decide (16 ≤ f.dst.toNat)), 3) ])
/-- VSEL: pred is the selector (20 R452). -/
def legalVSel (f : VFields) : Option Nat :=
  lowestReason (legalSrcB f [0, 1, 2, 3] ++ legalNoC f ++ legalDst f ++ legalA f ++ [ (f.pred == 0, 0x0A) ])
/-- VMOV: srcA zero (20 R451). -/
def legalVMov (f : VFields) : Option Nat :=
  lowestReason (legalSrcB f [0, 1, 2, 3] ++ legalNoC f ++ legalDst f ++ [ (f.srcA != 0, 3) ])
/-- VIDX: srcA holds CLOFF (20 R448). -/
def legalVIdx (f : VFields) : Option Nat :=
  lowestReason (legalTypes f vInt ++ legalSrcB f [2, 3] ++ legalNoC f ++ legalDst f ++
    [ (decide (2 ≤ f.srcA.toNat), 3) ])

/-- The 12-bit immediate {srcB, srcC} (04 R85). -/
def vImm (f : VFields) : BitVec 12 := f.srcB ++ f.srcC

/-- Bits of an element of a type code (05 R114). -/
def typeBits (t : Nat) : Nat := if t == 0 || t == 4 || t == 7 then 32 else if t == 1 || t == 5 then 16 else 8

/-- Bits of the destination of a VCVT with a source group (20 R443). -/
def vcvtDstBits (f : VFields) : Nat :=
  2 ^ f.width.toNat * (512 / typeBits f.type.toNat) * typeBits ((vImm f).toNat % 8)
/-- log2 of the destination group of VCVT (20 R443): a short destination is one register. -/
def vcvtDstWidth (f : VFields) : Nat := if vcvtDstBits f < 512 then 0 else Nat.log2 (vcvtDstBits f / 512)

/-- VCVT (20 R442, R443). -/
def legalVCvt (f : VFields) : Option Nat :=
  let i := (vImm f).toNat
  let imm := f.bsel == 3
  lowestReason (legalNoC f ++ legalA f ++
    [ (f.bsel == 1 && decide (8 ≤ f.srcB.toNat), 3), (f.bsel == 1 && f.width != 0, 5), (!imm, 0x0A),
      (imm && decide (16 ≤ i), 3), (imm && i % 8 == f.type.toNat, 0x0A),
      (imm && decide (8 ≤ i % 16) && i % 8 != 2 && i % 8 != 3, 0x0A),
      (imm && decide (3 < vcvtDstWidth f), 0x0A),
      (imm && decide (vcvtDstWidth f ≤ 3) && f.nw == 0 && !groupAligned f.dst.toNat (vcvtDstWidth f), 5) ])

/-- VXCL: type n32, immediate form, mode 11 reserved (08 R167). -/
def legalVXcl (f : VFields) : Option Nat :=
  let i := (vImm f).toNat
  lowestReason (legalTypes f [7] ++ legalSrcB f [3] ++ legalNoC f ++ legalDst f ++ legalA f ++
    [ (f.bsel == 3 && decide (32 ≤ i), 3), (f.bsel == 3 && i / 8 % 4 == 3, 3) ])
/-- VPART: type n32, selector, scratchpad area (08 R168); the width field applies to srcA alone. (log 39: DEDUCED) -/
def legalVPart (f : VFields) : Option Nat :=
  lowestReason (legalTypes f [7] ++ legalSrcB f [2] ++ legalCapC f ++ legalA f ++ [ (f.pred == 0, 0x0A) ])
/-- VRED: width 00, sum latch in dst[1:0] (08 R173). -/
def legalVRed (f : VFields) : Option Nat :=
  lowestReason (legalNoB f ++ legalNoC f ++ legalA f ++ legalWidth0 f ++ [ (decide (4 ≤ f.dst.toNat), 3) ])
/-- VSCAN: width 00 (08 R175). -/
def legalVScan (f : VFields) : Option Nat :=
  lowestReason (legalNoB f ++ legalNoC f ++ legalDst f ++ legalA f ++ legalWidth0 f)
/-- VSUM: type n32, width 00, sum latch in srcA[1:0] (08 R174). -/
def legalVSum (f : VFields) : Option Nat :=
  lowestReason (legalTypes f [7] ++ legalNoB f ++ legalNoC f ++ legalDst f ++ legalWidth0 f ++
    [ (decide (4 ≤ f.srcA.toNat), 3) ])
/-- VACC: type f32, rows by scalar or immediate (08 R176). -/
def legalVAcc (f : VFields) : Option Nat :=
  lowestReason (legalTypes f [0] ++ legalSrcB f [2, 3] ++ legalNoC f ++ legalDst f ++
    [ (f.srcA != 0, 3), (f.bsel == 3 && decide (512 ≤ (vImm f).toNat), 3) ])
/-- VPK and VUPK: type f32, width 01 (08 R177, R178). -/
def legalVPk (f : VFields) : Option Nat :=
  lowestReason (legalTypes f [0] ++ legalNoB f ++ legalNoC f ++ legalDst f ++ legalA f ++ [ (f.width != 1, 0x0A) ])
/-- VGATH (20 R446). -/
def legalVGath (f : VFields) : Option Nat :=
  lowestReason (legalTypes f [0, 4, 7] ++ legalSrcB f [2] ++ legalCapC f ++ legalDst f ++ legalA f)
/-- VSCAT: dst and NW zero, srcA a multiple of 2g (20 R446). -/
def legalVScat (f : VFields) : Option Nat :=
  lowestReason (legalTypes f [0, 4, 7] ++ legalSrcB f [2] ++ legalCapC f ++ legalNoDst f ++
    [ (!groupAligned f.srcA.toNat (f.width.toNat + 1), 5) ])
/-- VLD and VLD.st (20 R449). -/
def legalVLd (f : VFields) : Option Nat :=
  lowestReason (legalSrcB f [2] ++ legalCapC f ++ legalDst f ++ [ (f.srcA != 0, 3) ])
/-- VST and VST.st (20 R449). -/
def legalVSt (f : VFields) : Option Nat := lowestReason (legalSrcB f [2] ++ legalCapC f ++ legalNoDst f ++ legalA f)
/-- Summary instructions other than queries (09 R179). -/
def legalSk (f : VFields) (ts : List Nat) : Option Nat :=
  lowestReason (legalTypes f ts ++ legalSrcB f [2] ++ legalCapC f ++ legalA f ++ legalWidth0 f ++ legalNoDst f)
/-- Summary queries (09 R179). -/
def legalSkQry (f : VFields) : Option Nat :=
  lowestReason (legalTypes f [7] ++ legalSrcB f [2] ++ legalCapC f ++ legalDst f ++ legalA f ++ legalWidth0 f)

/-! ### Matrix slot -/

def legalMAcc (f : MFields) : Option Nat :=
  lowestReason [ (f.ringA != 0, 3), (f.ringB != 0, 3), (f.pop != 0, 3), (f.fmt != 0, 3), (f.scb != 0, 3) ]
def legalMRing (f : MFields) : Option Nat :=
  lowestReason [ (f.ringB != 0, 3), (f.acc != 0, 3), (f.pop != 0, 3), (f.fmt != 0, 3), (f.scb != 0, 3) ]
/-- MSTEP and MSTEPX: formats and scale base (05 R117). -/
def legalMStep (f : MFields) : Option Nat :=
  lowestReason
    [ (decide (8 ≤ f.fmt.toNat), 3), (decide (f.fmt.toNat < 5) && f.scb != 0, 3), (f.fmt == 5 && f.scb == 15, 0x0A) ]

/-! ### Engine slot -/

def hndZero (f : EFields) : Bool × Nat := (f.hnd != 0, 3)
/-- arg [16:m] is zero (bit 17 is NR). -/
def argZeroFrom (f : EFields) (m : Nat) : Bool × Nat := (f.arg.toNat % 2 ^ 17 / 2 ^ m != 0, 3)
def ksZero (f : EFields) : List (Bool × Nat) := [ (f.k != 0, 3), (f.s != 0, 3) ]

/-- Collectives that land data (17 R364, 13 R276). -/
def legalClLand (f : EFields) : Option Nat := lowestReason [ argZeroFrom f 0 ]
/-- Collectives that land none. -/
def legalClNone (f : EFields) : Option Nat := lowestReason [ argZeroFrom f 0, hndZero f ]
/-- CLST: arg[15:0] is CSEQ. -/
def legalClst (f : EFields) : Option Nat := lowestReason [ argZeroFrom f 16, hndZero f ]
/-- Copies: arg[16] zero (17 R373). -/
def legalCpy (f : EFields) : Option Nat := lowestReason [ argZeroFrom f 16 ]
def legalCpys (f : EFields) : Option Nat := lowestReason [ argZeroFrom f 16, hndZero f ]
/-- CSET (17 R377). -/
def legalCset (f : EFields) : Option Nat := lowestReason [ argZeroFrom f 0, hndZero f, (f.k != 0, 3) ]
/-- SIGC: an aligned pair (19 R415). -/
def legalSigc (f : EFields) : Option Nat :=
  lowestReason [ argZeroFrom f 0, hndZero f, (f.k != 0, 3), (f.s.toNat % 2 == 1, 5) ]
/-- Mortar commands (11 R234): `x` allows the X bit, `tid0` a TID of 0. -/
def legalMt (f : EFields) (x tid0 : Bool) : List (Bool × Nat) :=
  [ hndZero f, (!x && f.arg.toNat / 2 ^ 16 % 2 == 1, 3), (!tid0 && f.arg.toNat % 2 ^ 16 == 0, 3) ]
def legalMtVal (f : EFields) : Option Nat := lowestReason ((f.k != 0, 3) :: legalMt f false false)
def legalMtInv (f : EFields) : Option Nat := lowestReason (ksZero f ++ legalMt f false true)
def legalMtHalo (f : EFields) : Option Nat := lowestReason (ksZero f ++ legalMt f true false)
def legalMtRel (f : EFields) : Option Nat := lowestReason (ksZero f ++ legalMt f false false)
/-- MTLOOK: NR = 1 traps (11 R234). -/
def legalMtLook (f : EFields) : Option Nat :=
  lowestReason ((f.k != 0, 3) :: (decide (2 ^ 17 ≤ f.arg.toNat), 3) :: legalMt f false false)
def legalMtReg (f : EFields) : Option Nat := lowestReason [ hndZero f, argZeroFrom f 0 ]
/-- Trajectory commands (14 R314, 19 R429). -/
def legalTjopen (f : EFields) : Option Nat := lowestReason [ hndZero f, argZeroFrom f 6, (f.k != 0, 3) ]
def legalTjclose (f : EFields) : Option Nat := lowestReason [ hndZero f, argZeroFrom f 0, (f.k != 0, 3) ]
def legalTjrec (f : EFields) : Option Nat := lowestReason [ hndZero f, argZeroFrom f 4 ]
def legalTjrd (f : EFields) : Option Nat := lowestReason [ argZeroFrom f 0 ]
/-- Weight-version commands (14 R305, 20 R457). -/
def legalWv (f : EFields) : Option Nat := lowestReason [ hndZero f, argZeroFrom f 0 ]
def legalWvadopt (f : EFields) : Option Nat := lowestReason ([ hndZero f, argZeroFrom f 0 ] ++ ksZero f)

end Sys2Proof.Machine
end

