-- ==== Sys2Proof/WellFormed.lean ====
section
/-! DEFINITION. Well-formed instructions: those whose slot, taken alone, no case of 04 R81 makes illegal. -/
namespace Sys2Proof

open Machine in
/-- The lowest ILLOP reason that the slot's own encoding gives, or none (04 R81, 05 R103 to R119). A device step has
no encoding and none. -/
def illop (i : Instr) : Option Nat :=
  match i with
  | .barc f => legalCZero f
  | .barg f => legalCZero f
  | .bargA f => legalBargA f
  | .br f => legalBr f
  | .brc _ => none
  | .call _ => none
  | .eret f => legalCZero f
  | .exit f => legalCZero f
  | .loop f => legalLoop f
  | .probe _ => none
  | .ret f => legalCZero f
  | .trap f => legalTrap f
  | .waitc f => legalWaitc f
  | .waitvEq f => legalWaitv f
  | .waitvNe f => legalWaitv f
  | .waitvGe f => legalWaitv f
  | .yield f => legalCZero f
  | .syscTsel _ => none
  | .syscCourse _ => none
  | .syscSave _ => none
  | .syscRestore _ => none
  | .syscFlr _ => none
  | .syscWarm _ => none
  | .syscAssign _ => none
  | .syscVfcfg _ => none
  | .syscLqcfg _ => none
  | .syscWcset _ => none
  | .syscCtxtab _ => none
  | .syscObjtab _ => none
  | .syscObjinv _ => none
  | .syscTraparea _ => none
  | .syscSupq _ => none
  | .syscWatch _ => none
  | .syscTwm _ => none
  | .syscPnrp _ => none
  | .syscStage _ => none
  | .syscComreg _ => none
  | .syscVcshare _ => none
  | .syscNode _ => none
  | .syscRoute _ => none
  | .syscCrownset _ => none
  | .syscTjring _ => none
  | .syscSecnt _ => none
  | .syscMonsel _ => none
  | .blockCommandEnd _ => none
  | .add f => legalBin f
  | .addSat f => legalBin f
  | .and f => legalBin f
  | .andn f => legalBin f
  | .clz f => legalUn f
  | .cmpEq f => legalCmp f
  | .cmpNe f => legalCmp f
  | .cmpLt f => legalCmp f
  | .cmpLe f => legalCmp f
  | .cmpLtn f => legalCmp f
  | .cmpLen f => legalCmp f
  | .cnt f => legalCnt f
  | .crd f => legalCrd f
  | .ctz f => legalUn f
  | .cwr f => legalCwr f
  | .div f => legalDiv f
  | .divN f => legalDiv f
  | .divR f => legalDiv f
  | .divRn f => legalDiv f
  | .ext f => legalBitField f
  | .fadd f => legalBin f
  | .fcmpEq f => legalCmp f
  | .fcmpLt f => legalCmp f
  | .fcmpLe f => legalCmp f
  | .fcmpUn f => legalCmp f
  | .fcvtFs f => legalUn f
  | .fcvtSf f => legalUn f
  | .fcvtFb f => legalUn f
  | .fcvtBf f => legalUn f
  | .ffma f => legalFfma f
  | .fmax f => legalBin f
  | .fmin f => legalBin f
  | .fmul f => legalBin f
  | .ins f => legalBitField f
  | .max f => legalBin f
  | .maxN f => legalBin f
  | .min f => legalBin f
  | .minN f => legalBin f
  | .mov f => legalUn f
  | .movShadow f => legalShadow f
  | .mul f => legalBin f
  | .mulh f => legalBin f
  | .mulhN f => legalBin f
  | .nrg f => legalNone f
  | .or f => legalBin f
  | .plog f => legalPlog f
  | .popc f => legalUn f
  | .rnds f => legalNone f
  | .sar f => legalBin f
  | .sel f => legalSel f
  | .shl f => legalBin f
  | .shr f => legalBin f
  | .sub f => legalBin f
  | .subSat f => legalBin f
  | .xor f => legalBin f
  | .aadd f => legalAtomic f
  | .aand f => legalAtomic f
  | .acas f => legalAcas f
  | .acasW f => legalAcasW f
  | .acq f => legalAcq f
  | .afaddF32 f => legalAtomic f
  | .afaddBf16 f => legalAtomic f
  | .amax f => legalAtomic f
  | .amaxN f => legalAtomic f
  | .amin f => legalAtomic f
  | .aminN f => legalAtomic f
  | .aor f => legalAtomic f
  | .axchg f => legalAtomic f
  | .axor f => legalAtomic f
  | .bind f => legalBind f
  | .bindU f => legalBind f
  | .fence f => legalFence f
  | .fenceLd f => legalFence f
  | .fenceSt f => legalFence f
  | .kchk f => legalCheck f
  | .kder f => legalKder f
  | .kderS f => legalKder f
  | .kinfo f => legalKinfo f
  | .kld f => legalKld f
  | .kst f => legalKst f
  | .ld f => legalLoad f
  | .ldN f => legalLoad f
  | .ldc f => legalLdc f
  | .lea f => legalCheck f
  | .rel f => legalRel f
  | .st f => legalStore f
  | .stm f => legalStm f
  | .ldsA _ => none
  | .ldsB _ => none
  | .limm _ => none
  | .skclr f => legalSk f [7]
  | .skd f => legalSk f [7]
  | .skh f => legalSk f [7]
  | .skmrgQ f => legalSk f [7]
  | .skmrgH f => legalSk f [7]
  | .skmrgD f => legalSk f [7]
  | .skq f => legalSk f [0, 1]
  | .skqryQ f => legalSkQry f
  | .skqryR f => legalSkQry f
  | .skqryE f => legalSkQry f
  | .vabs f => legalVUn f (vFloat ++ vSigned)
  | .vacc f => legalVAcc f
  | .vadd f => legalVBin f vFloat [0, 1, 2, 3]
  | .vand f => legalVBin f vInt [0, 1, 2, 3]
  | .vbcast f => legalVBin f vAll [2, 3]
  | .vcmpEq f => legalVCmp f vAll
  | .vcmpNe f => legalVCmp f vAll
  | .vcmpLt f => legalVCmp f vAll
  | .vcmpLe f => legalVCmp f vAll
  | .vcmpUn f => legalVCmp f vFloat
  | .vcvtRne f => legalVCvt f
  | .vcvtRtz f => legalVCvt f
  | .vcvtRdn f => legalVCvt f
  | .vcvtRup f => legalVCvt f
  | .vcvtSr f => legalVCvt f
  | .vexp2 f => legalVUn f [0, 1]
  | .vfma f => legalVFma f
  | .vfmaS f => legalVFma f
  | .vfmaN f => legalVFma f
  | .vgath f => legalVGath f
  | .vgathS f => legalVGath f
  | .viadd f => legalVBin f vInt [0, 1, 2, 3]
  | .viaddSat f => legalVBin f vInt [0, 1, 2, 3]
  | .viaddSub f => legalVBin f vInt [0, 1, 2, 3]
  | .viaddSubsat f => legalVBin f vInt [0, 1, 2, 3]
  | .vidx f => legalVIdx f
  | .vimul f => legalVBin f vInt [0, 1, 2, 3]
  | .vld f => legalVLd f
  | .vldSt f => legalVLd f
  | .vlog2 f => legalVUn f [0, 1]
  | .vmax f => legalVBin f vAll [0, 1, 2, 3]
  | .vmin f => legalVBin f vAll [0, 1, 2, 3]
  | .vmov f => legalVMov f
  | .vmul f => legalVBin f vFloat [0, 1, 2, 3]
  | .vneg f => legalVUn f (vFloat ++ vSigned)
  | .vor f => legalVBin f vInt [0, 1, 2, 3]
  | .vpart f => legalVPart f
  | .vpkPp8 f => legalVPk f
  | .vpkMx4 f => legalVPk f
  | .vrcp f => legalVUn f [0, 1]
  | .vredAdd f => legalVRed f
  | .vredMax f => legalVRed f
  | .vredMin f => legalVRed f
  | .vrsq f => legalVUn f [0, 1]
  | .vsar f => legalVBin f vInt [0, 1, 2, 3]
  | .vscanAdd f => legalVScan f
  | .vscanMax f => legalVScan f
  | .vscat f => legalVScat f
  | .vscatS f => legalVScat f
  | .vsel f => legalVSel f
  | .vshfPerm f => legalVBin f vAll [0, 1]
  | .vshfRot f => legalVBin f vAll [2, 3]
  | .vshl f => legalVBin f vInt [0, 1, 2, 3]
  | .vshr f => legalVBin f vInt [0, 1, 2, 3]
  | .vsig f => legalVUn f [0, 1]
  | .vst f => legalVSt f
  | .vstSt f => legalVSt f
  | .vsub f => legalVBin f vFloat [0, 1, 2, 3]
  | .vsum f => legalVSum f
  | .vtanh f => legalVUn f [0, 1]
  | .vupkPp8 f => legalVPk f
  | .vupkMx4 f => legalVPk f
  | .vxcl f => legalVXcl f
  | .vxor f => legalVBin f vInt [0, 1, 2, 3]
  | .mdrain f => legalMAcc f
  | .mdrainCt f => legalMAcc f
  | .mring f => legalMRing f
  | .mstep f => legalMStep f
  | .mstepx f => legalMStep f
  | .mzero f => legalMAcc f
  | .clabt f => legalClNone f
  | .clag f => legalClLand f
  | .clarSum f => legalClLand f
  | .clarMax f => legalClLand f
  | .clbar f => legalClNone f
  | .clbc f => legalClLand f
  | .clopt f => legalClNone f
  | .clrsSum f => legalClLand f
  | .clrsMax f => legalClLand f
  | .clrsh f => legalClLand f
  | .clst f => legalClst f
  | .cpy f => legalCpy f
  | .cpyfA f => legalCpy f
  | .cpyfB f => legalCpy f
  | .cpyg f => legalCpy f
  | .cpys f => legalCpys f
  | .cpyz f => legalCpy f
  | .cset f => legalCset f
  | .mtfet f => legalMtVal f
  | .mthalo f => legalMtHalo f
  | .mtinvWb f => legalMtInv f
  | .mtinvDrop f => legalMtInv f
  | .mtlook f => legalMtLook f
  | .mtpin f => legalMtVal f
  | .mtreg f => legalMtReg f
  | .mtrel f => legalMtRel f
  | .sigcAdd f => legalSigc f
  | .sigcSet f => legalSigc f
  | .tjclose f => legalTjclose f
  | .tjopen f => legalTjopen f
  | .tjrd f => legalTjrd f
  | .tjrec f => legalTjrec f
  | .wvadopt f => legalWvadopt f
  | .wvdrop f => legalWv f
  | .wvhold f => legalWv f
  | .wvpub f => legalWv f
  | .wvqry f => legalWv f
  | .mswap => none
  | .eswap => none
  | .resultWriteback _ _ => none
  | .returnPortDeliver _ _ _ => none
  | .lqtailWrite _ _ _ _ => none
  | .lqmarkWrite _ _ _ _ => none
  | .registerWrite _ _ _ => none
  | .gangAdmit _ _ => none
  | .tileReservation _ _ => none
  | .quantumExpiry _ => none
  | .contextSwitch _ => none
  | .strandWake _ _ => none
  | .strandRetire _ _ => none
  | .crewRetire _ => none
  | .gangRetire _ => none
  | .landingComplete _ _ => none
  | .engineStop _ => none
  | .saveAreaWrite _ => none
  | .tileScrub _ => none
  | .gangResume _ => none
  | .mouldReplay _ _ => none
  | .engineCauseTake _ _ => none
  | .tileDisable _ => none
  | .flrInitiate _ => none
  | .flrComplete _ => none
  | .coldReset _ => none
  | .warmReset _ => none
  | .spdmRequest _ => none
  | .hostMemWrite _ _ => none
  | .hostMemRead _ _ => none
  | .hostSnoop _ _ => none
  | .backInvalidateResponse _ => none
  | .atsInvalidation _ _ _ => none
  | .atsTranslationResponse _ _ _ => none
  | .priResponse _ _ _ => none
  | .sideLogReplay _ => none
  | .cxlLinkDown _ => none
  | .clampTick => none
  | .l1SectorExpiry _ _ => none
  | .backgroundScrub _ _ => none
  | .pageDemote _ _ _ => none
  | .pagePromote _ _ _ => none
  | .probeFillComplete _ _ => none
  | .ringPush _ => none
  | .copyComplete _ => none
  | .followOnEnqueue _ => none
  | .matrixKStep _ => none
  | .matrixReplay _ => none
  | .matrixComplete _ => none
  | .mortarComplete _ => none
  | .signalApply _ => none
  | .summaryUnitOperation _ => none
  | .chunkBegin _ => none
  | .chunkLand _ => none
  | .collectiveComplete _ => none
  | .dataFlit _ _ => none
  | .creditFlit _ _ _ => none
  | .ackFlit _ _ => none
  | .nakFlit _ _ => none
  | .managementFlit _ _ => none
  | .abortMessage _ => none
  | .memberLost _ _ => none
  | .pauseRequest _ _ => none
  | .stopChunk _ _ => none
  | .resumeBroadcast _ => none
  | .portRetrain _ => none
  | .portDown _ => none
  | .crownComplete => none
  | .broadcastClaim _ _ _ => none
  | .broadcastLand _ => none
  | .brimComplete => none
  | .badTypeFlit _ => none
  | .badCrcFlit _ => none
  | .retrainComplete _ => none
  | .cxlLinkUp _ => none
  | .pageTableCommit _ _ _ => none
  | .emptyBundle => none
  | .unassignedCode _ _ => none

/-- An instruction that no case of 04 R81 makes illegal by its own encoding. -/
abbrev WellFormed (i : Instr) : Prop := illop i = none

end Sys2Proof
end

