-- ==== Sys2Proof/Decode.lean ====
section
/-! DEFINITION. From the bytes of a bundle to its instructions (04 R75 to R81, 05 R102 to R122), total on any bytes and
rejecting by ILLOP reason and position; and the encoder, from the same tables. Definitions that build an instruction
are marked noncomputable because Lean's run-time limits the constructors that carry fields to 245, and the table has
more rows; Lean's kernel evaluates them. -/
namespace Sys2Proof

open Machine

/-- The slot classes of 05 R120. -/
inductive SlotClass where
  | c | s | a | v | m | e | k
  deriving DecidableEq, Repr

/-- The place of a slot in a bundle (04 R76). -/
inductive SlotPos where
  | c
  | s0
  | s1
  | a
  | v (target : VTarget)
  | m
  | e
  | k
  deriving DecidableEq, Repr

/-- The class of a slot is fixed by its position (05 R102). -/
def posClass : SlotPos → SlotClass
  | .c => .c
  | .s0 => .s
  | .s1 => .s
  | .a => .a
  | .v _ => .v
  | .m => .m
  | .e => .e
  | .k => .k

/-- The class that an opcode is assigned to (05 R120, R122). -/
def opClass (op : Nat) : Option SlotClass :=
  if 0x01 ≤ op ∧ op ≤ 0x12 then some .c
  else if 0x20 ≤ op ∧ op ≤ 0x55 then some .s
  else if 0x60 ≤ op ∧ op ≤ 0x7F then some .a
  else if 0x80 ≤ op ∧ op ≤ 0xC9 then some .v
  else if 0xD0 ≤ op ∧ op ≤ 0xD5 then some .m
  else if 0xD6 ≤ op ∧ op ≤ 0xD8 then some .k
  else if 0xD9 ≤ op ∧ op ≤ 0xFD then some .e
  else none

/-! ### Field layouts: each packs a slot word and reads it back -/

/-- The bits [hi:lo] of a word as a field of n bits, lo the lowest bit. -/
def field (n lo w : Nat) : BitVec n := BitVec.ofNat n (w / 2 ^ lo)

/-- 05 R105. -/
def packS (op : Nat) (f : SFields) : Nat :=
  op * 2 ^ 24 + f.dst.toNat * 2 ^ 18 + f.nw.toNat * 2 ^ 17 + f.width.toNat * 2 ^ 15 + f.srcA.toNat * 2 ^ 8 +
    f.srcB.toNat
def unpackS (inS1 : Bool) (w : Nat) : SFields :=
  { inS1, dst := field 6 18 w, nw := field 1 17 w, width := field 2 15 w, srcA := field 7 8 w, srcB := field 8 0 w }

/-- The shadow form of MOV (04 R84): srcB[7] = 1, srcB[6] = 0, selector in srcB[5:0], dst and width zero. -/
def packShadow (f : ShadowFields) : Nat :=
  0x46 * 2 ^ 24 + f.nw.toNat * 2 ^ 17 + f.srcA.toNat * 2 ^ 8 + 0x80 + f.sel.toNat
def unpackShadow (inS1 : Bool) (w : Nat) : ShadowFields :=
  { inS1, nw := field 1 17 w, srcA := field 7 8 w, sel := field 6 0 w }

/-- 05 R108. -/
def packA (op : Nat) (f : AFields) : Nat :=
  op * 2 ^ 24 + f.data.toNat * 2 ^ 18 + f.order.toNat * 2 ^ 16 + f.scope.toNat * 2 ^ 13 + f.k.toNat * 2 ^ 8 +
    f.s.toNat * 2 ^ 2 + f.size.toNat
def unpackA (w : Nat) : AFields :=
  { data := field 6 18 w, order := field 2 16 w, scope := field 3 13 w, k := field 5 8 w, s := field 6 2 w,
    size := field 2 0 w }

/-- 05 R111. -/
def packC (op : Nat) (f : CFields) : Nat :=
  op * 2 ^ 24 + f.pred.toNat * 2 ^ 20 + f.sense.toNat * 2 ^ 19 + f.opnd.toNat
def unpackC (w : Nat) : CFields := { pred := field 4 20 w, sense := field 1 19 w, opnd := field 19 0 w }

/-- SYSC: subcode in [18:13], argument register in [12:7], [6:0] zero (05 R112). -/
def packSysc (sub : Nat) (f : SyscFields) : Nat :=
  0x0C * 2 ^ 24 + f.pred.toNat * 2 ^ 20 + f.sense.toNat * 2 ^ 19 + sub * 2 ^ 13 + f.arg.toNat * 2 ^ 7
def unpackSysc (w : Nat) : SyscFields := { pred := field 4 20 w, sense := field 1 19 w, arg := field 6 7 w }

/-- 05 R113. -/
def packV (op : Nat) (f : VFields) : Nat :=
  op * 2 ^ 40 + f.type.toNat * 2 ^ 37 + f.width.toNat * 2 ^ 35 + f.nw.toNat * 2 ^ 34 + f.dst.toNat * 2 ^ 28 +
    f.srcA.toNat * 2 ^ 22 + f.srcB.toNat * 2 ^ 16 + f.bsel.toNat * 2 ^ 14 + f.srcC.toNat * 2 ^ 8 +
    f.pred.toNat * 2 ^ 4
def unpackV (target : VTarget) (w : Nat) : VFields :=
  { target, type := field 3 37 w, width := field 2 35 w, nw := field 1 34 w, dst := field 6 28 w,
    srcA := field 6 22 w, srcB := field 6 16 w, bsel := field 2 14 w, srcC := field 6 8 w, pred := field 4 4 w }

/-- 05 R116. (log 43: DEDUCED) -/
def packM (op : Nat) (f : MFields) : Nat :=
  op * 2 ^ 56 + f.ringA.toNat * 2 ^ 52 + f.ringB.toNat * 2 ^ 48 + f.acc.toNat * 2 ^ 46 + f.pop.toNat * 2 ^ 44 +
    f.fmt.toNat * 2 ^ 40 + f.scb.toNat * 2 ^ 36
def unpackM (w : Nat) : MFields :=
  { ringA := field 4 52 w, ringB := field 4 48 w, acc := field 2 46 w, pop := field 2 44 w, fmt := field 4 40 w,
    scb := field 4 36 w }

/-- 05 R118. -/
def packE (op : Nat) (f : EFields) : Nat :=
  op * 2 ^ 56 + f.k.toNat * 2 ^ 51 + f.s.toNat * 2 ^ 45 + f.ct.toNat * 2 ^ 37 + f.qprio.toNat * 2 ^ 34 +
    f.hnd.toNat * 2 ^ 18 + f.arg.toNat
def unpackE (w : Nat) : EFields :=
  { k := field 5 51 w, s := field 6 45 w, ct := field 8 37 w, qprio := field 3 34 w, hnd := field 16 18 w,
    arg := field 18 0 w }

/-- 05 R119. -/
def packK (op : Nat) (f : KFields) : Nat :=
  op * 2 ^ 24 + f.sc.toNat * 2 ^ 20 + f.base.toNat * 2 ^ 14 + f.disp.toNat
def unpackK (w : Nat) : KFields := { sc := field 4 20 w, base := field 6 14 w, disp := field 14 0 w }

/-! ### The opcode map (05 R121) -/

/-- Codes of the scalar slots. -/
def opS (op : Nat) (f : SFields) : Option Instr :=
  match op with
  | 0x20 => some (.add f)
  | 0x21 => some (.addSat f)
  | 0x22 => some (.and f)
  | 0x23 => some (.andn f)
  | 0x24 => some (.clz f)
  | 0x25 => some (.cmpEq f)
  | 0x26 => some (.cmpNe f)
  | 0x27 => some (.cmpLt f)
  | 0x28 => some (.cmpLe f)
  | 0x29 => some (.cmpLtn f)
  | 0x2A => some (.cmpLen f)
  | 0x2B => some (.cnt f)
  | 0x2C => some (.crd f)
  | 0x2D => some (.ctz f)
  | 0x2E => some (.cwr f)
  | 0x2F => some (.div f)
  | 0x30 => some (.divN f)
  | 0x31 => some (.divR f)
  | 0x32 => some (.divRn f)
  | 0x33 => some (.ext f)
  | 0x34 => some (.fadd f)
  | 0x35 => some (.fcmpEq f)
  | 0x36 => some (.fcmpLt f)
  | 0x37 => some (.fcmpLe f)
  | 0x38 => some (.fcmpUn f)
  | 0x39 => some (.fcvtFs f)
  | 0x3A => some (.fcvtSf f)
  | 0x3B => some (.fcvtFb f)
  | 0x3C => some (.fcvtBf f)
  | 0x3D => some (.ffma f)
  | 0x3E => some (.fmax f)
  | 0x3F => some (.fmin f)
  | 0x40 => some (.fmul f)
  | 0x41 => some (.ins f)
  | 0x42 => some (.max f)
  | 0x43 => some (.maxN f)
  | 0x44 => some (.min f)
  | 0x45 => some (.minN f)
  | 0x46 => some (.mov f)
  | 0x47 => some (.mul f)
  | 0x48 => some (.mulh f)
  | 0x49 => some (.mulhN f)
  | 0x4A => some (.nrg f)
  | 0x4B => some (.or f)
  | 0x4C => some (.plog f)
  | 0x4D => some (.popc f)
  | 0x4E => some (.rnds f)
  | 0x4F => some (.sar f)
  | 0x50 => some (.sel f)
  | 0x51 => some (.shl f)
  | 0x52 => some (.shr f)
  | 0x53 => some (.sub f)
  | 0x54 => some (.subSat f)
  | 0x55 => some (.xor f)
  | _ => none

/-- Codes of the A slot. -/
def opA (op : Nat) (f : AFields) : Option Instr :=
  match op with
  | 0x60 => some (.aadd f)
  | 0x61 => some (.aand f)
  | 0x62 => some (.acas f)
  | 0x63 => some (.acasW f)
  | 0x64 => some (.acq f)
  | 0x65 => some (.afaddF32 f)
  | 0x66 => some (.afaddBf16 f)
  | 0x67 => some (.amax f)
  | 0x68 => some (.amaxN f)
  | 0x69 => some (.amin f)
  | 0x6A => some (.aminN f)
  | 0x6B => some (.aor f)
  | 0x6C => some (.axchg f)
  | 0x6D => some (.axor f)
  | 0x6E => some (.bind f)
  | 0x6F => some (.bindU f)
  | 0x70 => some (.fence f)
  | 0x71 => some (.fenceLd f)
  | 0x72 => some (.fenceSt f)
  | 0x73 => some (.kchk f)
  | 0x74 => some (.kder f)
  | 0x75 => some (.kderS f)
  | 0x76 => some (.kinfo f)
  | 0x77 => some (.kld f)
  | 0x78 => some (.kst f)
  | 0x79 => some (.ld f)
  | 0x7A => some (.ldN f)
  | 0x7B => some (.ldc f)
  | 0x7C => some (.lea f)
  | 0x7D => some (.rel f)
  | 0x7E => some (.st f)
  | 0x7F => some (.stm f)
  | _ => none

/-- Codes of the C slot but SYSC. -/
def opC (op : Nat) (f : CFields) : Option Instr :=
  match op with
  | 0x01 => some (.barc f)
  | 0x02 => some (.barg f)
  | 0x03 => some (.bargA f)
  | 0x04 => some (.br f)
  | 0x05 => some (.brc f)
  | 0x06 => some (.call f)
  | 0x07 => some (.eret f)
  | 0x08 => some (.exit f)
  | 0x09 => some (.loop f)
  | 0x0A => some (.probe f)
  | 0x0B => some (.ret f)
  | 0x0D => some (.trap f)
  | 0x0E => some (.waitc f)
  | 0x0F => some (.waitvEq f)
  | 0x10 => some (.waitvNe f)
  | 0x11 => some (.waitvGe f)
  | 0x12 => some (.yield f)
  | _ => none

/-- Codes of the V slot. -/
def opV (op : Nat) (f : VFields) : Option Instr :=
  match op with
  | 0x80 => some (.skclr f)
  | 0x81 => some (.skd f)
  | 0x82 => some (.skh f)
  | 0x83 => some (.skmrgQ f)
  | 0x84 => some (.skmrgH f)
  | 0x85 => some (.skmrgD f)
  | 0x86 => some (.skq f)
  | 0x87 => some (.skqryQ f)
  | 0x88 => some (.skqryR f)
  | 0x89 => some (.skqryE f)
  | 0x8A => some (.vabs f)
  | 0x8B => some (.vacc f)
  | 0x8C => some (.vadd f)
  | 0x8D => some (.vand f)
  | 0x8E => some (.vbcast f)
  | 0x8F => some (.vcmpEq f)
  | 0x90 => some (.vcmpNe f)
  | 0x91 => some (.vcmpLt f)
  | 0x92 => some (.vcmpLe f)
  | 0x93 => some (.vcmpUn f)
  | 0x94 => some (.vcvtRne f)
  | 0x95 => some (.vcvtRtz f)
  | 0x96 => some (.vcvtRdn f)
  | 0x97 => some (.vcvtRup f)
  | 0x98 => some (.vcvtSr f)
  | 0x99 => some (.vexp2 f)
  | 0x9A => some (.vfma f)
  | 0x9B => some (.vfmaS f)
  | 0x9C => some (.vfmaN f)
  | 0x9D => some (.vgath f)
  | 0x9E => some (.vgathS f)
  | 0x9F => some (.viadd f)
  | 0xA0 => some (.viaddSat f)
  | 0xA1 => some (.viaddSub f)
  | 0xA2 => some (.viaddSubsat f)
  | 0xA3 => some (.vidx f)
  | 0xA4 => some (.vimul f)
  | 0xA5 => some (.vld f)
  | 0xA6 => some (.vldSt f)
  | 0xA7 => some (.vlog2 f)
  | 0xA8 => some (.vmax f)
  | 0xA9 => some (.vmin f)
  | 0xAA => some (.vmov f)
  | 0xAB => some (.vmul f)
  | 0xAC => some (.vneg f)
  | 0xAD => some (.vor f)
  | 0xAE => some (.vpart f)
  | 0xAF => some (.vpkPp8 f)
  | 0xB0 => some (.vpkMx4 f)
  | 0xB1 => some (.vrcp f)
  | 0xB2 => some (.vredAdd f)
  | 0xB3 => some (.vredMax f)
  | 0xB4 => some (.vredMin f)
  | 0xB5 => some (.vrsq f)
  | 0xB6 => some (.vsar f)
  | 0xB7 => some (.vscanAdd f)
  | 0xB8 => some (.vscanMax f)
  | 0xB9 => some (.vscat f)
  | 0xBA => some (.vscatS f)
  | 0xBB => some (.vsel f)
  | 0xBC => some (.vshfPerm f)
  | 0xBD => some (.vshfRot f)
  | 0xBE => some (.vshl f)
  | 0xBF => some (.vshr f)
  | 0xC0 => some (.vsig f)
  | 0xC1 => some (.vst f)
  | 0xC2 => some (.vstSt f)
  | 0xC3 => some (.vsub f)
  | 0xC4 => some (.vsum f)
  | 0xC5 => some (.vtanh f)
  | 0xC6 => some (.vupkPp8 f)
  | 0xC7 => some (.vupkMx4 f)
  | 0xC8 => some (.vxcl f)
  | 0xC9 => some (.vxor f)
  | _ => none

/-- Codes of the M slot. -/
def opM (op : Nat) (f : MFields) : Option Instr :=
  match op with
  | 0xD0 => some (.mdrain f)
  | 0xD1 => some (.mdrainCt f)
  | 0xD2 => some (.mring f)
  | 0xD3 => some (.mstep f)
  | 0xD4 => some (.mstepx f)
  | 0xD5 => some (.mzero f)
  | _ => none

/-- Codes of the E slot. -/
noncomputable def opE (op : Nat) (f : EFields) : Option Instr :=
  match op with
  | 0xD9 => some (.clabt f)
  | 0xDA => some (.clag f)
  | 0xDB => some (.clarSum f)
  | 0xDC => some (.clarMax f)
  | 0xDD => some (.clbar f)
  | 0xDE => some (.clbc f)
  | 0xDF => some (.clopt f)
  | 0xE0 => some (.clrsSum f)
  | 0xE1 => some (.clrsMax f)
  | 0xE2 => some (.clrsh f)
  | 0xE3 => some (.clst f)
  | 0xE4 => some (.cpy f)
  | 0xE5 => some (.cpyfA f)
  | 0xE6 => some (.cpyfB f)
  | 0xE7 => some (.cpyg f)
  | 0xE8 => some (.cpys f)
  | 0xE9 => some (.cpyz f)
  | 0xEA => some (.cset f)
  | 0xEB => some (.mtfet f)
  | 0xEC => some (.mthalo f)
  | 0xED => some (.mtinvWb f)
  | 0xEE => some (.mtinvDrop f)
  | 0xEF => some (.mtlook f)
  | 0xF0 => some (.mtpin f)
  | 0xF1 => some (.mtreg f)
  | 0xF2 => some (.mtrel f)
  | 0xF3 => some (.sigcAdd f)
  | 0xF4 => some (.sigcSet f)
  | 0xF5 => some (.tjclose f)
  | 0xF6 => some (.tjopen f)
  | 0xF7 => some (.tjrd f)
  | 0xF8 => some (.tjrec f)
  | 0xF9 => some (.wvadopt f)
  | 0xFA => some (.wvdrop f)
  | 0xFB => some (.wvhold f)
  | 0xFC => some (.wvpub f)
  | 0xFD => some (.wvqry f)
  | _ => none

/-- Codes of LDS.a and LDS.b. -/
def opLds (op : Nat) (f : KFields) : Option Instr :=
  match op with
  | 0xD6 => some (.ldsA f)
  | 0xD7 => some (.ldsB f)
  | _ => none

/-- The SYSC subcodes (19 R426). -/
def opSysc (sub : Nat) (f : SyscFields) : Option Instr :=
  match sub with
  | 0x01 => some (.syscTsel f)
  | 0x02 => some (.syscCourse f)
  | 0x03 => some (.syscSave f)
  | 0x04 => some (.syscRestore f)
  | 0x05 => some (.syscFlr f)
  | 0x06 => some (.syscWarm f)
  | 0x07 => some (.syscAssign f)
  | 0x08 => some (.syscVfcfg f)
  | 0x09 => some (.syscLqcfg f)
  | 0x0A => some (.syscWcset f)
  | 0x0B => some (.syscCtxtab f)
  | 0x0C => some (.syscObjtab f)
  | 0x0D => some (.syscObjinv f)
  | 0x0E => some (.syscTraparea f)
  | 0x0F => some (.syscSupq f)
  | 0x10 => some (.syscWatch f)
  | 0x11 => some (.syscTwm f)
  | 0x12 => some (.syscPnrp f)
  | 0x13 => some (.syscStage f)
  | 0x14 => some (.syscComreg f)
  | 0x15 => some (.syscVcshare f)
  | 0x16 => some (.syscNode f)
  | 0x17 => some (.syscRoute f)
  | 0x18 => some (.syscCrownset f)
  | 0x19 => some (.syscTjring f)
  | 0x1A => some (.syscSecnt f)
  | 0x1B => some (.syscMonsel f)
  | _ => none

/-! ### One slot -/

/-- The instruction that the fields of a slot word name, before the reserved-field cases: the S class has MOV's shadow
form beside its codes (04 R84), C has SYSC, K has LIMM. An unassigned SYSC subcode is checked at issue (19 R421). -/
noncomputable def slotInstr (p : SlotPos) (w : Nat) : Option Instr :=
  match p with
  | .s0 => if w / 2 ^ 24 = 0x46 ∧ 128 ≤ w % 256 then some (.movShadow (unpackShadow false w))
           else opS (w / 2 ^ 24) (unpackS false w)
  | .s1 => if w / 2 ^ 24 = 0x46 ∧ 128 ≤ w % 256 then some (.movShadow (unpackShadow true w))
           else opS (w / 2 ^ 24) (unpackS true w)
  | .a => opA (w / 2 ^ 24) (unpackA w)
  | .c => if w / 2 ^ 24 = 0x0C then
            (opSysc (w / 2 ^ 13 % 64) (unpackSysc w)).or (some (.unassignedCode 1 (BitVec.ofNat 64 w)))
          else opC (w / 2 ^ 24) (unpackC w)
  | .v tg => opV (w / 2 ^ 40) (unpackV tg w)
  | .m => opM (w / 2 ^ 56) (unpackM w)
  | .e => opE (w / 2 ^ 56) (unpackE w)
  | .k => if w / 2 ^ 24 = 0xD8 then some (.limm (field 24 0 w)) else opLds (w / 2 ^ 24) (unpackK w)

/-- The reserved bits of a slot word that no field holds (04 R84, 05 R112, R113, R116). -/
def reservedBits (p : SlotPos) (w : Nat) : Bool :=
  match p with
  | .s0 | .s1 => w / 2 ^ 24 == 0x46 && decide (128 ≤ w % 256) &&
      (w / 2 ^ 18 % 64 != 0 || w / 2 ^ 15 % 4 != 0 || w / 2 ^ 6 % 2 != 0)
  | .c => w / 2 ^ 24 == 0x0C && w % 128 != 0
  | .v _ => w % 16 != 0
  | .m => w % 2 ^ 36 != 0
  | _ => false

/-- The opcode of a slot word (05 R102). -/
def slotOpcode (p : SlotPos) (w : Nat) : Nat :=
  match p with
  | .v _ => w / 2 ^ 40
  | .m | .e => w / 2 ^ 56
  | _ => w / 2 ^ 24

/-- One slot word: its instruction, or the lowest ILLOP reason that it has by itself (04 R81). -/
noncomputable def decodeSlot (p : SlotPos) (w : Nat) : Except Nat Instr :=
  match opClass (slotOpcode p w) with
  | none => .error 1
  | some cl =>
    if cl = posClass p then
      if reservedBits p w then .error 3
      else match slotInstr p w with
        | none => .error 1
        | some i => match illop i with
          | none => .ok i
          | some r => .error r
    else .error 2

/-! ### The encoder -/

/-- The slot word of a slot instruction and the slot it stands in; none for a device step. -/
def encodeSlot (i : Instr) : Option (SlotPos × Nat) :=
  match i with
  | .barc f => some (.c, packC 0x01 f)
  | .barg f => some (.c, packC 0x02 f)
  | .bargA f => some (.c, packC 0x03 f)
  | .br f => some (.c, packC 0x04 f)
  | .brc f => some (.c, packC 0x05 f)
  | .call f => some (.c, packC 0x06 f)
  | .eret f => some (.c, packC 0x07 f)
  | .exit f => some (.c, packC 0x08 f)
  | .loop f => some (.c, packC 0x09 f)
  | .probe f => some (.c, packC 0x0A f)
  | .ret f => some (.c, packC 0x0B f)
  | .trap f => some (.c, packC 0x0D f)
  | .waitc f => some (.c, packC 0x0E f)
  | .waitvEq f => some (.c, packC 0x0F f)
  | .waitvNe f => some (.c, packC 0x10 f)
  | .waitvGe f => some (.c, packC 0x11 f)
  | .yield f => some (.c, packC 0x12 f)
  | .syscTsel f => some (.c, packSysc 0x01 f)
  | .syscCourse f => some (.c, packSysc 0x02 f)
  | .syscSave f => some (.c, packSysc 0x03 f)
  | .syscRestore f => some (.c, packSysc 0x04 f)
  | .syscFlr f => some (.c, packSysc 0x05 f)
  | .syscWarm f => some (.c, packSysc 0x06 f)
  | .syscAssign f => some (.c, packSysc 0x07 f)
  | .syscVfcfg f => some (.c, packSysc 0x08 f)
  | .syscLqcfg f => some (.c, packSysc 0x09 f)
  | .syscWcset f => some (.c, packSysc 0x0A f)
  | .syscCtxtab f => some (.c, packSysc 0x0B f)
  | .syscObjtab f => some (.c, packSysc 0x0C f)
  | .syscObjinv f => some (.c, packSysc 0x0D f)
  | .syscTraparea f => some (.c, packSysc 0x0E f)
  | .syscSupq f => some (.c, packSysc 0x0F f)
  | .syscWatch f => some (.c, packSysc 0x10 f)
  | .syscTwm f => some (.c, packSysc 0x11 f)
  | .syscPnrp f => some (.c, packSysc 0x12 f)
  | .syscStage f => some (.c, packSysc 0x13 f)
  | .syscComreg f => some (.c, packSysc 0x14 f)
  | .syscVcshare f => some (.c, packSysc 0x15 f)
  | .syscNode f => some (.c, packSysc 0x16 f)
  | .syscRoute f => some (.c, packSysc 0x17 f)
  | .syscCrownset f => some (.c, packSysc 0x18 f)
  | .syscTjring f => some (.c, packSysc 0x19 f)
  | .syscSecnt f => some (.c, packSysc 0x1A f)
  | .syscMonsel f => some (.c, packSysc 0x1B f)
  | .blockCommandEnd _ => none
  | .add f => some (if f.inS1 then .s1 else .s0, packS 0x20 f)
  | .addSat f => some (if f.inS1 then .s1 else .s0, packS 0x21 f)
  | .and f => some (if f.inS1 then .s1 else .s0, packS 0x22 f)
  | .andn f => some (if f.inS1 then .s1 else .s0, packS 0x23 f)
  | .clz f => some (if f.inS1 then .s1 else .s0, packS 0x24 f)
  | .cmpEq f => some (if f.inS1 then .s1 else .s0, packS 0x25 f)
  | .cmpNe f => some (if f.inS1 then .s1 else .s0, packS 0x26 f)
  | .cmpLt f => some (if f.inS1 then .s1 else .s0, packS 0x27 f)
  | .cmpLe f => some (if f.inS1 then .s1 else .s0, packS 0x28 f)
  | .cmpLtn f => some (if f.inS1 then .s1 else .s0, packS 0x29 f)
  | .cmpLen f => some (if f.inS1 then .s1 else .s0, packS 0x2A f)
  | .cnt f => some (if f.inS1 then .s1 else .s0, packS 0x2B f)
  | .crd f => some (if f.inS1 then .s1 else .s0, packS 0x2C f)
  | .ctz f => some (if f.inS1 then .s1 else .s0, packS 0x2D f)
  | .cwr f => some (if f.inS1 then .s1 else .s0, packS 0x2E f)
  | .div f => some (if f.inS1 then .s1 else .s0, packS 0x2F f)
  | .divN f => some (if f.inS1 then .s1 else .s0, packS 0x30 f)
  | .divR f => some (if f.inS1 then .s1 else .s0, packS 0x31 f)
  | .divRn f => some (if f.inS1 then .s1 else .s0, packS 0x32 f)
  | .ext f => some (if f.inS1 then .s1 else .s0, packS 0x33 f)
  | .fadd f => some (if f.inS1 then .s1 else .s0, packS 0x34 f)
  | .fcmpEq f => some (if f.inS1 then .s1 else .s0, packS 0x35 f)
  | .fcmpLt f => some (if f.inS1 then .s1 else .s0, packS 0x36 f)
  | .fcmpLe f => some (if f.inS1 then .s1 else .s0, packS 0x37 f)
  | .fcmpUn f => some (if f.inS1 then .s1 else .s0, packS 0x38 f)
  | .fcvtFs f => some (if f.inS1 then .s1 else .s0, packS 0x39 f)
  | .fcvtSf f => some (if f.inS1 then .s1 else .s0, packS 0x3A f)
  | .fcvtFb f => some (if f.inS1 then .s1 else .s0, packS 0x3B f)
  | .fcvtBf f => some (if f.inS1 then .s1 else .s0, packS 0x3C f)
  | .ffma f => some (if f.inS1 then .s1 else .s0, packS 0x3D f)
  | .fmax f => some (if f.inS1 then .s1 else .s0, packS 0x3E f)
  | .fmin f => some (if f.inS1 then .s1 else .s0, packS 0x3F f)
  | .fmul f => some (if f.inS1 then .s1 else .s0, packS 0x40 f)
  | .ins f => some (if f.inS1 then .s1 else .s0, packS 0x41 f)
  | .max f => some (if f.inS1 then .s1 else .s0, packS 0x42 f)
  | .maxN f => some (if f.inS1 then .s1 else .s0, packS 0x43 f)
  | .min f => some (if f.inS1 then .s1 else .s0, packS 0x44 f)
  | .minN f => some (if f.inS1 then .s1 else .s0, packS 0x45 f)
  | .mov f => some (if f.inS1 then .s1 else .s0, packS 0x46 f)
  | .movShadow f => some (if f.inS1 then .s1 else .s0, packShadow f)
  | .mul f => some (if f.inS1 then .s1 else .s0, packS 0x47 f)
  | .mulh f => some (if f.inS1 then .s1 else .s0, packS 0x48 f)
  | .mulhN f => some (if f.inS1 then .s1 else .s0, packS 0x49 f)
  | .nrg f => some (if f.inS1 then .s1 else .s0, packS 0x4A f)
  | .or f => some (if f.inS1 then .s1 else .s0, packS 0x4B f)
  | .plog f => some (if f.inS1 then .s1 else .s0, packS 0x4C f)
  | .popc f => some (if f.inS1 then .s1 else .s0, packS 0x4D f)
  | .rnds f => some (if f.inS1 then .s1 else .s0, packS 0x4E f)
  | .sar f => some (if f.inS1 then .s1 else .s0, packS 0x4F f)
  | .sel f => some (if f.inS1 then .s1 else .s0, packS 0x50 f)
  | .shl f => some (if f.inS1 then .s1 else .s0, packS 0x51 f)
  | .shr f => some (if f.inS1 then .s1 else .s0, packS 0x52 f)
  | .sub f => some (if f.inS1 then .s1 else .s0, packS 0x53 f)
  | .subSat f => some (if f.inS1 then .s1 else .s0, packS 0x54 f)
  | .xor f => some (if f.inS1 then .s1 else .s0, packS 0x55 f)
  | .aadd f => some (.a, packA 0x60 f)
  | .aand f => some (.a, packA 0x61 f)
  | .acas f => some (.a, packA 0x62 f)
  | .acasW f => some (.a, packA 0x63 f)
  | .acq f => some (.a, packA 0x64 f)
  | .afaddF32 f => some (.a, packA 0x65 f)
  | .afaddBf16 f => some (.a, packA 0x66 f)
  | .amax f => some (.a, packA 0x67 f)
  | .amaxN f => some (.a, packA 0x68 f)
  | .amin f => some (.a, packA 0x69 f)
  | .aminN f => some (.a, packA 0x6A f)
  | .aor f => some (.a, packA 0x6B f)
  | .axchg f => some (.a, packA 0x6C f)
  | .axor f => some (.a, packA 0x6D f)
  | .bind f => some (.a, packA 0x6E f)
  | .bindU f => some (.a, packA 0x6F f)
  | .fence f => some (.a, packA 0x70 f)
  | .fenceLd f => some (.a, packA 0x71 f)
  | .fenceSt f => some (.a, packA 0x72 f)
  | .kchk f => some (.a, packA 0x73 f)
  | .kder f => some (.a, packA 0x74 f)
  | .kderS f => some (.a, packA 0x75 f)
  | .kinfo f => some (.a, packA 0x76 f)
  | .kld f => some (.a, packA 0x77 f)
  | .kst f => some (.a, packA 0x78 f)
  | .ld f => some (.a, packA 0x79 f)
  | .ldN f => some (.a, packA 0x7A f)
  | .ldc f => some (.a, packA 0x7B f)
  | .lea f => some (.a, packA 0x7C f)
  | .rel f => some (.a, packA 0x7D f)
  | .st f => some (.a, packA 0x7E f)
  | .stm f => some (.a, packA 0x7F f)
  | .ldsA f => some (.k, packK 0xD6 f)
  | .ldsB f => some (.k, packK 0xD7 f)
  | .limm imm => some (.k, 0xD8 * 2 ^ 24 + imm.toNat)
  | .skclr f => some (.v f.target, packV 0x80 f)
  | .skd f => some (.v f.target, packV 0x81 f)
  | .skh f => some (.v f.target, packV 0x82 f)
  | .skmrgQ f => some (.v f.target, packV 0x83 f)
  | .skmrgH f => some (.v f.target, packV 0x84 f)
  | .skmrgD f => some (.v f.target, packV 0x85 f)
  | .skq f => some (.v f.target, packV 0x86 f)
  | .skqryQ f => some (.v f.target, packV 0x87 f)
  | .skqryR f => some (.v f.target, packV 0x88 f)
  | .skqryE f => some (.v f.target, packV 0x89 f)
  | .vabs f => some (.v f.target, packV 0x8A f)
  | .vacc f => some (.v f.target, packV 0x8B f)
  | .vadd f => some (.v f.target, packV 0x8C f)
  | .vand f => some (.v f.target, packV 0x8D f)
  | .vbcast f => some (.v f.target, packV 0x8E f)
  | .vcmpEq f => some (.v f.target, packV 0x8F f)
  | .vcmpNe f => some (.v f.target, packV 0x90 f)
  | .vcmpLt f => some (.v f.target, packV 0x91 f)
  | .vcmpLe f => some (.v f.target, packV 0x92 f)
  | .vcmpUn f => some (.v f.target, packV 0x93 f)
  | .vcvtRne f => some (.v f.target, packV 0x94 f)
  | .vcvtRtz f => some (.v f.target, packV 0x95 f)
  | .vcvtRdn f => some (.v f.target, packV 0x96 f)
  | .vcvtRup f => some (.v f.target, packV 0x97 f)
  | .vcvtSr f => some (.v f.target, packV 0x98 f)
  | .vexp2 f => some (.v f.target, packV 0x99 f)
  | .vfma f => some (.v f.target, packV 0x9A f)
  | .vfmaS f => some (.v f.target, packV 0x9B f)
  | .vfmaN f => some (.v f.target, packV 0x9C f)
  | .vgath f => some (.v f.target, packV 0x9D f)
  | .vgathS f => some (.v f.target, packV 0x9E f)
  | .viadd f => some (.v f.target, packV 0x9F f)
  | .viaddSat f => some (.v f.target, packV 0xA0 f)
  | .viaddSub f => some (.v f.target, packV 0xA1 f)
  | .viaddSubsat f => some (.v f.target, packV 0xA2 f)
  | .vidx f => some (.v f.target, packV 0xA3 f)
  | .vimul f => some (.v f.target, packV 0xA4 f)
  | .vld f => some (.v f.target, packV 0xA5 f)
  | .vldSt f => some (.v f.target, packV 0xA6 f)
  | .vlog2 f => some (.v f.target, packV 0xA7 f)
  | .vmax f => some (.v f.target, packV 0xA8 f)
  | .vmin f => some (.v f.target, packV 0xA9 f)
  | .vmov f => some (.v f.target, packV 0xAA f)
  | .vmul f => some (.v f.target, packV 0xAB f)
  | .vneg f => some (.v f.target, packV 0xAC f)
  | .vor f => some (.v f.target, packV 0xAD f)
  | .vpart f => some (.v f.target, packV 0xAE f)
  | .vpkPp8 f => some (.v f.target, packV 0xAF f)
  | .vpkMx4 f => some (.v f.target, packV 0xB0 f)
  | .vrcp f => some (.v f.target, packV 0xB1 f)
  | .vredAdd f => some (.v f.target, packV 0xB2 f)
  | .vredMax f => some (.v f.target, packV 0xB3 f)
  | .vredMin f => some (.v f.target, packV 0xB4 f)
  | .vrsq f => some (.v f.target, packV 0xB5 f)
  | .vsar f => some (.v f.target, packV 0xB6 f)
  | .vscanAdd f => some (.v f.target, packV 0xB7 f)
  | .vscanMax f => some (.v f.target, packV 0xB8 f)
  | .vscat f => some (.v f.target, packV 0xB9 f)
  | .vscatS f => some (.v f.target, packV 0xBA f)
  | .vsel f => some (.v f.target, packV 0xBB f)
  | .vshfPerm f => some (.v f.target, packV 0xBC f)
  | .vshfRot f => some (.v f.target, packV 0xBD f)
  | .vshl f => some (.v f.target, packV 0xBE f)
  | .vshr f => some (.v f.target, packV 0xBF f)
  | .vsig f => some (.v f.target, packV 0xC0 f)
  | .vst f => some (.v f.target, packV 0xC1 f)
  | .vstSt f => some (.v f.target, packV 0xC2 f)
  | .vsub f => some (.v f.target, packV 0xC3 f)
  | .vsum f => some (.v f.target, packV 0xC4 f)
  | .vtanh f => some (.v f.target, packV 0xC5 f)
  | .vupkPp8 f => some (.v f.target, packV 0xC6 f)
  | .vupkMx4 f => some (.v f.target, packV 0xC7 f)
  | .vxcl f => some (.v f.target, packV 0xC8 f)
  | .vxor f => some (.v f.target, packV 0xC9 f)
  | .mdrain f => some (.m, packM 0xD0 f)
  | .mdrainCt f => some (.m, packM 0xD1 f)
  | .mring f => some (.m, packM 0xD2 f)
  | .mstep f => some (.m, packM 0xD3 f)
  | .mstepx f => some (.m, packM 0xD4 f)
  | .mzero f => some (.m, packM 0xD5 f)
  | .clabt f => some (.e, packE 0xD9 f)
  | .clag f => some (.e, packE 0xDA f)
  | .clarSum f => some (.e, packE 0xDB f)
  | .clarMax f => some (.e, packE 0xDC f)
  | .clbar f => some (.e, packE 0xDD f)
  | .clbc f => some (.e, packE 0xDE f)
  | .clopt f => some (.e, packE 0xDF f)
  | .clrsSum f => some (.e, packE 0xE0 f)
  | .clrsMax f => some (.e, packE 0xE1 f)
  | .clrsh f => some (.e, packE 0xE2 f)
  | .clst f => some (.e, packE 0xE3 f)
  | .cpy f => some (.e, packE 0xE4 f)
  | .cpyfA f => some (.e, packE 0xE5 f)
  | .cpyfB f => some (.e, packE 0xE6 f)
  | .cpyg f => some (.e, packE 0xE7 f)
  | .cpys f => some (.e, packE 0xE8 f)
  | .cpyz f => some (.e, packE 0xE9 f)
  | .cset f => some (.e, packE 0xEA f)
  | .mtfet f => some (.e, packE 0xEB f)
  | .mthalo f => some (.e, packE 0xEC f)
  | .mtinvWb f => some (.e, packE 0xED f)
  | .mtinvDrop f => some (.e, packE 0xEE f)
  | .mtlook f => some (.e, packE 0xEF f)
  | .mtpin f => some (.e, packE 0xF0 f)
  | .mtreg f => some (.e, packE 0xF1 f)
  | .mtrel f => some (.e, packE 0xF2 f)
  | .sigcAdd f => some (.e, packE 0xF3 f)
  | .sigcSet f => some (.e, packE 0xF4 f)
  | .tjclose f => some (.e, packE 0xF5 f)
  | .tjopen f => some (.e, packE 0xF6 f)
  | .tjrd f => some (.e, packE 0xF7 f)
  | .tjrec f => some (.e, packE 0xF8 f)
  | .wvadopt f => some (.e, packE 0xF9 f)
  | .wvdrop f => some (.e, packE 0xFA f)
  | .wvhold f => some (.e, packE 0xFB f)
  | .wvpub f => some (.e, packE 0xFC f)
  | .wvqry f => some (.e, packE 0xFD f)
  | .mswap => none
  | .eswap => none
  | .resultWriteback _ _ => none
  | .returnPortDeliver _ _ _ => none
  | .lqtailWrite _ _ _ _ => none
  | .lqmarkWrite _ _ _ _ => none
  | .registerWrite _ _ _ => none
  | .gangAdmit _ _ => none
  | .tileReservation _ _ => none
  | .quantumExpiry _ => none
  | .contextSwitch _ => none
  | .strandWake _ _ => none
  | .strandRetire _ _ => none
  | .crewRetire _ => none
  | .gangRetire _ => none
  | .landingComplete _ _ => none
  | .engineStop _ => none
  | .saveAreaWrite _ => none
  | .tileScrub _ => none
  | .gangResume _ => none
  | .mouldReplay _ _ => none
  | .engineCauseTake _ _ => none
  | .tileDisable _ => none
  | .flrInitiate _ => none
  | .flrComplete _ => none
  | .coldReset _ => none
  | .warmReset _ => none
  | .spdmRequest _ => none
  | .hostMemWrite _ _ => none
  | .hostMemRead _ _ => none
  | .hostSnoop _ _ => none
  | .backInvalidateResponse _ => none
  | .atsInvalidation _ _ _ => none
  | .atsTranslationResponse _ _ _ => none
  | .priResponse _ _ _ => none
  | .sideLogReplay _ => none
  | .cxlLinkDown _ => none
  | .clampTick => none
  | .l1SectorExpiry _ _ => none
  | .backgroundScrub _ _ => none
  | .pageDemote _ _ _ => none
  | .pagePromote _ _ _ => none
  | .probeFillComplete _ _ => none
  | .ringPush _ => none
  | .copyComplete _ => none
  | .followOnEnqueue _ => none
  | .matrixKStep _ => none
  | .matrixReplay _ => none
  | .matrixComplete _ => none
  | .mortarComplete _ => none
  | .signalApply _ => none
  | .summaryUnitOperation _ => none
  | .chunkBegin _ => none
  | .chunkLand _ => none
  | .collectiveComplete _ => none
  | .dataFlit _ _ => none
  | .creditFlit _ _ _ => none
  | .ackFlit _ _ => none
  | .nakFlit _ _ => none
  | .managementFlit _ _ => none
  | .abortMessage _ => none
  | .memberLost _ _ => none
  | .pauseRequest _ _ => none
  | .stopChunk _ _ => none
  | .resumeBroadcast _ => none
  | .portRetrain _ => none
  | .portDown _ => none
  | .crownComplete => none
  | .broadcastClaim _ _ _ => none
  | .broadcastLand _ => none
  | .brimComplete => none
  | .badTypeFlit _ => none
  | .badCrcFlit _ => none
  | .retrainComplete _ => none
  | .cxlLinkUp _ => none
  | .pageTableCommit _ _ _ => none
  | .emptyBundle => none
  | .unassignedCode _ _ => none

/-- A little-endian slot of n bytes (04 R77). -/
def leBytes (n w : Nat) : List Byte :=
  match n with
  | 0 => []
  | n + 1 => BitVec.ofNat 8 w :: leBytes n (w / 256)

/-- The number that bytes hold, the first byte lowest (00 R2). -/
def leNat : List Byte → Nat
  | [] => 0
  | b :: t => b.toNat + 256 * leNat t

/-- The header of a bundle whose one slot stands at p (04 R75, R76). -/
def oneSlotHeader (p : SlotPos) : Nat :=
  match p with
  | .c => 0x01
  | .s0 => 0x02
  | .s1 => 0x04
  | .a => 0x08
  | .v .broadcast => 0x10
  | .v (.cluster c) => 0x10 + 2 ^ (8 + c.val)
  | .m => 0x20
  | .e => 0x40
  | .k => 0x80

/-- Bytes of a slot (04 R76). -/
def slotBytes (p : SlotPos) : Nat :=
  match posClass p with
  | .v => 6
  | .m => 8
  | .e => 8
  | _ => 4

/-- The bytes of the bundle that holds one instruction: a slot instruction, a swap bit or the empty bundle. A device
step has no bytes. -/
def encode (i : Instr) : List Byte :=
  match i with
  | .mswap => leBytes 4 (2 ^ 18)
  | .eswap => leBytes 4 (2 ^ 19)
  | .emptyBundle => leBytes 4 0
  | i => match encodeSlot i with
    | some (p, w) => leBytes 4 (oneSlotHeader p) ++ leBytes (slotBytes p) w
    | none => []

/-! ### The bundle -/

/-- A bundle as decoded: the instructions of its header bits and slots in the order of 04 R76. -/
structure Bundle where
  hint   : BitVec 2
  mswap  : Bool
  eswap  : Bool
  slots  : List Instr
  length : Nat
  deriving DecidableEq, Repr

/-- What decoding a bundle gives (04 R81): the bundle, or the lowest reason with its lowest position. -/
inductive Decoded where
  | bundle (b : Bundle)
  | illegal (reason pos : Nat)
  deriving DecidableEq, Repr

/-- Number of V slots that a header announces (04 R76). -/
def countV (h : Nat) : Nat :=
  if h / 16 % 2 = 0 then 0
  else if h / 256 % 256 = 0 then 1
  else (List.range 8).foldl (fun n c => n + h / 2 ^ (8 + c) % 2) 0

/-- The length in bytes that a header gives (04 R76). -/
def headerLength (h : Nat) : Nat :=
  4 + 4 * (h % 2 + h / 2 % 2 + h / 4 % 2 + h / 8 % 2 + h / 128 % 2) + 6 * countV h +
    8 * (h / 32 % 2 + h / 64 % 2)

/-- The slots that a header announces, in stored order (04 R76). -/
def headerSlots (h : Nat) : List SlotPos :=
  (if h % 2 = 1 then [SlotPos.c] else []) ++ (if h / 2 % 2 = 1 then [SlotPos.s0] else []) ++
  (if h / 4 % 2 = 1 then [SlotPos.s1] else []) ++ (if h / 8 % 2 = 1 then [SlotPos.a] else []) ++
  (if h / 16 % 2 = 0 then []
   else if h / 256 % 256 = 0 then [SlotPos.v .broadcast]
   else ((List.finRange 8).filter (fun c => h / 2 ^ (8 + c.val) % 2 == 1)).map (fun c => SlotPos.v (.cluster c))) ++
  (if h / 32 % 2 = 1 then [SlotPos.m] else []) ++ (if h / 64 % 2 = 1 then [SlotPos.e] else []) ++
  (if h / 128 % 2 = 1 then [SlotPos.k] else [])

/-- The positions that ILLOP reports (04 R81): V slots count 5 to 12 in stored order. -/
def numberSlots : Nat → List SlotPos → List (Nat × SlotPos)
  | _, [] => []
  | nv, p :: t =>
    match p with
    | .c => (1, p) :: numberSlots nv t
    | .s0 => (2, p) :: numberSlots nv t
    | .s1 => (3, p) :: numberSlots nv t
    | .a => (4, p) :: numberSlots nv t
    | .v _ => (nv, p) :: numberSlots (nv + 1) t
    | .m => (13, p) :: numberSlots nv t
    | .e => (14, p) :: numberSlots nv t
    | .k => (15, p) :: numberSlots nv t

/-- The slot words of a bundle with their positions, from the bytes after the header. -/
def cutSlots : List (Nat × SlotPos) → List Byte → List (Nat × SlotPos × Nat)
  | [], _ => []
  | (n, p) :: t, bs => (n, p, leNat (bs.take (slotBytes p))) :: cutSlots t (bs.drop (slotBytes p))

/-- The units whose second trigger in one bundle is illegal (04 R81 0x08). -/
inductive SUnit where
  | multiplier | fp | divider | csr
  deriving DecidableEq, Repr

/-- The unit of the S class that an instruction triggers, beside the slot's own ALU (04 R87). -/
def sUnit (i : Instr) : Option SUnit :=
  match encodeSlot i with
  | some (.s0, w) | some (.s1, w) =>
    let op := w / 2 ^ 24
    if 0x47 ≤ op ∧ op ≤ 0x49 then some .multiplier
    else if (0x34 ≤ op ∧ op ≤ 0x40) then some .fp
    else if 0x2F ≤ op ∧ op ≤ 0x32 then some .divider
    else if op = 0x2B ∨ op = 0x2C ∨ op = 0x2E ∨ op = 0x4A ∨ op = 0x4E then some .csr
    else none
  | _ => none

/-- A destination that two slots of one bundle may share: scalar registers, a predicate, shadow halfwords (04 R86).
Vector, scale and capability destinations have one slot each. -/
inductive Dest where
  | sregs (lo n : Nat)
  | pred (n : Nat)
  | shadow (idx : Nat) (halves : Nat)
  deriving DecidableEq, Repr

/-- Registers lo to lo + n - 1 and lo' to lo' + n' - 1 share one that is not s0. -/
def destOverlap : Dest → Dest → Bool
  | .sregs a n, .sregs b m => (List.range n).any (fun i => a + i != 0 && decide (b ≤ a + i) && decide (a + i < b + m))
  | .pred a, .pred b => a == b && a != 0
  | .shadow i a, .shadow j b => i == j && a &&& b != 0
  | _, _ => false

/-- The halfwords that a shadow selector names: bit h of the mask for halfword h (04 R84). -/
def shadowHalves (sel : BitVec 6) : Nat := if 32 ≤ sel.toNat then 15 else 2 ^ (sel.toNat % 4)

/-- The destination of a slot of the S or A class with NW clear (04 R86). -/
def slotDest (i : Instr) : Option Dest :=
  match i with
  | .movShadow f => if f.nw = 0 then some (.shadow (f.sel.toNat / 4 % 8) (shadowHalves f.sel)) else none
  | .ld f | .ldN f => some (.sregs f.data.toNat (if f.order = 0 then 2 ^ plainWidth f else 1))
  | .ldc f | .lea f | .kinfo f => some (.sregs f.data.toNat 1)
  | i => match encodeSlot i with
    | some (.s0, w) | some (.s1, w) =>
      let op := w / 2 ^ 24
      let f := unpackS false w
      if f.nw ≠ 0 ∨ op = 0x2E then none
      else if (0x25 ≤ op ∧ op ≤ 0x2A) ∨ (0x35 ≤ op ∧ op ≤ 0x38) ∨ op = 0x4C then some (.pred (f.dst.toNat % 16))
      else some (.sregs f.dst.toNat (2 ^ f.width.toNat))
    | _ => none

/-- The positions at which two slots conflict (04 R81 0x07), the lower one of each pair. -/
def conflicts : List (Nat × Instr) → List (Nat × Nat)
  | [] => []
  | (n, i) :: t =>
    (if t.any (fun x => match slotDest i, slotDest x.2 with
      | some a, some b => destOverlap a b
      | _, _ => false) then [(7, n)] else []) ++ conflicts t

/-- S0 and S1 trigger one unit (04 R81 0x08). -/
def unitClash (is : List (Nat × Instr)) : List (Nat × Nat) :=
  match is.filterMap (fun x => sUnit x.2) with
  | [a, b] => if a = b then [(8, 2)] else []
  | _ => []

/-- The lower of two reports: by reason, then by position (04 R81). -/
def lowerReport (a b : Nat × Nat) : Nat × Nat :=
  if a.1 < b.1 ∨ (a.1 = b.1 ∧ a.2 ≤ b.2) then a else b

/-- The lowest report of a list. -/
def lowestReport : List (Nat × Nat) → Option (Nat × Nat)
  | [] => none
  | r :: t => match lowestReport t with
    | none => some r
    | some q => some (lowerReport r q)

/-- The header's own cases (04 R75, R79, R81). -/
def headerReports (h : Nat) : List (Nat × Nat) :=
  (if h / 2 ^ 20 ≠ 0 then [(3, 0)] else []) ++ (if h / 2 ^ 16 % 4 = 3 then [(4, 0)] else []) ++
  (if h / 256 % 256 ≠ 0 ∧ h / 16 % 2 = 0 then [(9, 0)] else [])

/-- The instructions of the swap bits, or the empty bundle, before the slots (04 R75, R80). -/
def headerInstrs (h : Nat) : List Instr :=
  (if h / 2 ^ 18 % 2 = 1 then [Instr.mswap] else []) ++ (if h / 2 ^ 19 % 2 = 1 then [Instr.eswap] else [])

/-- Decoding of a bundle from its bytes, the header first (04 R75 to R81). A slot with opcode 0x00 or an unassigned
code becomes `unassignedCode`, whose meaning is the trap. Cases 0x07 and 0x08 count slots that have a case of their own too. -/
noncomputable def decodeBundle (bytes : List Byte) : Decoded :=
  let h := leNat (bytes.take 4)
  let ws := cutSlots (numberSlots 5 (headerSlots h)) (bytes.drop 4)
  let ds := ws.map (fun x => (x.1, decodeSlot x.2.1 x.2.2))
  let oks := ds.filterMap (fun x => match x.2 with | .ok i => some (x.1, i) | .error _ => none)
  let errs := ds.filterMap (fun x => match x.2 with | .ok _ => none | .error r => some (r, x.1))
  let named := ws.filterMap (fun x => (slotInstr x.2.1 x.2.2).map (fun i => (x.1, i)))
  match lowestReport (headerReports h ++ errs ++ conflicts named ++ unitClash named) with
  | none =>
    let is := headerInstrs h ++ oks.map (fun x => x.2)
    .bundle { hint := field 2 16 h, mswap := h / 2 ^ 18 % 2 == 1, eswap := h / 2 ^ 19 % 2 == 1,
              slots := if is.isEmpty then [.emptyBundle] else is, length := headerLength h }
  | some (1, pos) =>
    .bundle { hint := field 2 16 h, mswap := false, eswap := false,
              slots := [.unassignedCode pos
                (BitVec.ofNat 64 ((ws.filterMap (fun x => if x.1 = pos then some x.2.2 else none)).headD 0))],
              length := headerLength h }
  | some (r, pos) => .illegal r pos

/-- The slot in which a word of the table stands: by the class of its opcode, S0 for the S class, broadcast for V. -/
def tableSlot (nbits w : Nat) : Option SlotPos :=
  if nbits = 32 then
    match opClass (w / 2 ^ 24) with
    | some .c => some .c
    | some .s => some .s0
    | some .a => some .a
    | some .k => some .k
    | _ => none
  else if nbits = 48 then some (.v .broadcast)
  else if nbits = 64 then
    match opClass (w / 2 ^ 56) with
    | some .m => some .m
    | some .e => some .e
    | _ => none
  else none

/-- The bytes of the bundle that holds the table's word as its only slot. -/
def tableBytes (nbits w : Nat) : Option (List Byte) :=
  (tableSlot nbits w).map (fun p => leBytes 4 (oneSlotHeader p) ++ leBytes (slotBytes p) w)

/-- The instruction the decoder reads from a word numbered as the table of operations numbers it. -/
noncomputable def decodeTableWord (nbits w : Nat) : Option Instr :=
  match tableBytes nbits w with
  | none => none
  | some bs => match decodeBundle bs with
    | .bundle b => match b.slots with
      | [i] => some i
      | _ => none
    | .illegal _ _ => none

end Sys2Proof
end

