-- ==== Sys2Proof/Config.lean ====
section
/-! DEFINITION. What an implementation fixes, and the free values: constants without a body, which no proof can see. -/
namespace Sys2Proof.Config

/-- Bytes of T0: 384 GiB of HBM4E (01 R13). -/
def t0Bytes : Nat := 384 * 2 ^ 30
/-- Bytes of T1: 1 TiB of LPDDR (01 R13). -/
def t1Bytes : Nat := 2 ^ 40
/-- Where the banks of wave counters stand among physical addresses, 8 KiB a virtual function (02 R42). -/
def wcBank : Nat := 2 ^ 56
/-- Bytes of scratchpad of a tile: 1,408 KiB (01 R18). -/
def spadBytes : Nat := 1408 * 1024
/-- The quantum of a context in clk (02 R49). -/
def quantum : Nat := 4096
/-- clk from a block, rotation or trap to the next context's first bundle (02 R50). -/
def switchClk : Nat := 2
/-- The clk between two Clamp ticks (16 R346). -/
def clampInterval : Nat := 3000
/-- The bound on the life of an L1 sector in clk (10 R200). -/
def l1Bound : Nat := 32768
/-- Entries of a return port, and of vb4 (04 R90). -/
def portDepth (port : Nat) : Nat := if port < 16 then 16 else 4
/-- A fresh free value of 64 bits, by the count of those taken before. (log 3: DESIGN CHOICE) -/
opaque freeWord : Nat → Word
/-- Entries of the ATC of a die (01 R13). -/
def atcEntries : Nat := 65536
/-- The die whose ATC keeps a translation: the spec does not say which dies keep the answer to one request. -/
opaque atcDie : Nat → BitVec 2
/-- Where the doorbell pages stand among physical addresses, 4 KiB a virtual function (16 R342). -/
def doorbell : Nat := 2 ^ 57
/-- Which of the values that 12 R267 allows an LDC returns. -/
opaque constantChoice : Nat → Nat
/-- The set of a tile's L1 in which a line of 128 bytes lies, modulo 512 (01 R18). -/
opaque l1Set : Nat → Nat
/-- How many accesses and fences a tile's request queue holds before the next of the A slot finds it full (03 R56). -/
opaque requestSlots : Nat
/-- A transcendental result that the enclosures of FpFun leave undecided, by function and operand. -/
opaque closeCase : Nat → Nat → BitVec 32
/-- Baseline power in W, fused at test (16 R345). -/
opaque clampBase : BitVec 12
/-- The die whose HBM4E stacks hold a sector of T0: the spec does not lay addresses out over stacks. -/
opaque memDie : Nat → BitVec 2
/-- The address-hash lane of a line (01 R15): the hash is not given. -/
opaque laneHash : Nat → BitVec 3
/-- Byte of the payload of a message, by source, destination, number and place: R297 gives the payload no layout. -/
opaque payload : Nat → Nat → Nat → Nat → Byte
/-- Energy in µJ of a tile's own activity at a tick, by tile and tick (16 R348). -/
opaque tileEnergy : Nat → Nat → Nat
/-- The module's answer to an SPDM message (16 R344): its keys and measurements are not given. -/
opaque spdmAnswer : List (BitVec 8) → List Nat → List (BitVec 8)
/-- Energy in µJ charged to an account at a tick, by virtual function and tick (16 R346). -/
opaque energy : Nat → Nat → Nat
/-- Energy of a gang's tiles at a tick, by gang and tick (16 R347). -/
opaque gangEnergy : Nat → Nat → Nat
/-- The entropy E drawn at reset, by count of resets (10 R221). -/
opaque entropy : Nat → Word
/-- The HBM4E channels, 0 to 255, on which a row is activated in a clk (10 R221): which accesses activate one is not given. -/
opaque activated : Nat → List (BitVec 8)
/-- Bytes over a die's bridge by clk, die, direction and virtual function, 16 for none (16 R349): what crosses it is not given. -/
opaque bridgeBytes : Nat → Nat → Nat → Nat → Nat

end Sys2Proof.Config
end

