-- ==== Sys2Proof/Machine/Fp.lean ====
section
/-! DEFINITION. Floating formats, exact values, rounding and floating arithmetic (06 R124 to R141). Every operation forms
its exact result and rounds it once. -/
namespace Sys2Proof.Machine

/-- A floating format (06 R124): widths, bias, largest finite code, infinity code where it has one, canonical NaN. -/
structure Fmt where
  bits  : Nat
  w     : Nat
  ebits : Nat
  bias  : Nat
  maxCode : Nat
  infCode : Option Nat
  nanCode : Nat
  deriving DecidableEq, Repr

def fp32 : Fmt := { bits := 32, w := 23, ebits := 8, bias := 127, maxCode := 0x7F7FFFFF, infCode := some 0x7F800000, nanCode := 0x7FC00000 }
def bf16 : Fmt := { bits := 16, w := 7, ebits := 8, bias := 127, maxCode := 0x7F7F, infCode := some 0x7F80, nanCode := 0x7FC0 }
def e4m3 : Fmt := { bits := 8, w := 3, ebits := 4, bias := 7, maxCode := 0x7E, infCode := none, nanCode := 0x7F }
def e5m2 : Fmt := { bits := 8, w := 2, ebits := 5, bias := 15, maxCode := 0x7B, infCode := some 0x7C, nanCode := 0x7E }

/-- An exact value: NaN, an infinity, or ± m · 2^e, with a signed zero when m = 0 (06 R125). -/
inductive FVal where
  | nan
  | inf (neg : Bool)
  | fin (neg : Bool) (m : Nat) (e : Int)
  deriving DecidableEq, Repr

/-- SATF bits (04 R94). -/
def fISAT : BitVec 4 := 1
def fINV  : BitVec 4 := 2
def fOVF  : BitVec 4 := 4
def fFCLMP : BitVec 4 := 8

/-- Rounding modes (06 R131); `sr` carries its 16 random bits (06 R132). -/
inductive RMode where
  | rne | rtz | rdn | rup
  | sr (r : Nat)
  deriving DecidableEq, Repr

/-- An encoded result with the flags it raises. -/
structure FRes where
  code  : Nat
  flags : BitVec 4 := 0
  deriving DecidableEq, Repr

/-- The value of an encoding (06 R125). -/
def fdecode (f : Fmt) (n : Nat) : FVal :=
  let neg := n / 2 ^ (f.bits - 1) % 2 == 1
  let ex := n / 2 ^ f.w % 2 ^ f.ebits
  let m := n % 2 ^ f.w
  if ex = 2 ^ f.ebits - 1 ∧ f.infCode ≠ none then
    if m = 0 then .inf neg else .nan
  else if n % 2 ^ (f.bits - 1) = f.nanCode ∧ f.infCode = none then .nan
  else if ex = 0 then .fin neg m (1 - (f.bias : Int) - f.w)
  else .fin neg (2 ^ f.w + m) ((ex : Int) - f.bias - f.w)

/-- The sign bit of a format. -/
def fsign (f : Fmt) (neg : Bool) : Nat := if neg then 2 ^ (f.bits - 1) else 0

/-- x · 2^e as a fraction of naturals (numerator, denominator), for a magnitude. -/
def scale2 (m : Nat) (e : Int) : Nat × Nat :=
  match e with
  | .ofNat k => (m * 2 ^ k, 1)
  | .negSucc k => (m, 2 ^ (k + 1))

/-- ⌊log2 (num/den)⌋ for num, den > 0. -/
def floorLog2 (num den : Nat) : Int :=
  let a : Int := (Nat.log2 num : Int) - Nat.log2 den
  let ge : Bool := match a with
    | .ofNat k => decide (den * 2 ^ k ≤ num)
    | .negSucc k => decide (den ≤ num * 2 ^ (k + 1))
  if ge then a else a - 1

/-- Whether the upper neighbour is taken, from the parity of the lower one and the discarded part rem/den in (0, 1)
(06 R131, R132). -/
def roundUp (mode : RMode) (neg odd : Bool) (rem den : Nat) : Bool :=
  match mode with
  | .rne => decide (den < 2 * rem) || (decide (2 * rem = den) && odd)
  | .rtz => false
  | .rdn => neg
  | .rup => !neg
  | .sr r => decide (r * den < rem * 65536)

/-- Infinity as a format delivers it: E4M3 has none and gives its canonical NaN (06 R133). -/
def finf (f : Fmt) (neg : Bool) : Nat :=
  match f.infCode with
  | some c => c + fsign f neg
  | none => f.nanCode

/-- What a magnitude beyond the largest finite value rounds to: infinity, or the largest finite value. `excess` and `ulp`
are (|x| - max) and max's spacing over one denominator (06 R131, R132). -/
def overflowsToInf (mode : RMode) (neg : Bool) (excess ulp : Nat) : Bool :=
  match mode with
  | .rne => decide (ulp ≤ 2 * excess)
  | .rtz => false
  | .rdn => neg
  | .rup => !neg
  | .sr r => decide (ulp ≤ excess) || decide (r * ulp < excess * 65536)

/-- Rounding of the exact ± num/den to a format (06 R131 to R133). A zero keeps the sign given. -/
def roundRat (f : Fmt) (mode : RMode) (neg : Bool) (num den : Nat) : FRes :=
  if num = 0 then { code := fsign f neg }
  else
    match fdecode f f.maxCode with
    | .fin _ mm me =>
      let (mn, md) := scale2 mm me
      let (un, ud) := scale2 1 me
      if mn * den < num * md then
        -- |x| - max = (num·md - mn·den)/(den·md), spacing un/ud
        if overflowsToInf mode neg ((num * md - mn * den) * ud) (un * (den * md)) then
          { code := finf f neg, flags := fOVF }
        else { code := f.maxCode + fsign f neg }
      else
        let e := max (floorLog2 num den) (1 - (f.bias : Int))
        let (a, b) := scale2 1 (e - f.w)          -- one ulp is a/b
        let q := num * b / (den * a)
        let r := num * b % (den * a)
        let q' := if r = 0 then q else if roundUp mode neg (q % 2 == 1) r (den * a) then q + 1 else q
        { code := (e + f.bias - 1).toNat * 2 ^ f.w + q' + fsign f neg }
    | _ => { code := f.nanCode }

/-- Rounding of an exact value (06 R130, R131): NaN to the canonical NaN, infinity to infinity. -/
def fround (f : Fmt) (mode : RMode) (v : FVal) : FRes :=
  match v with
  | .nan => { code := f.nanCode }
  | .inf neg => { code := finf f neg }
  | .fin neg m e => let (n, d) := scale2 m e; roundRat f mode neg n d

/-! ### Exact arithmetic (06 R130) -/

def FVal.isNan : FVal → Bool
  | .nan => true
  | _ => false
def FVal.isZero : FVal → Bool
  | .fin _ m _ => m == 0
  | _ => false
def FVal.neg : FVal → FVal
  | .nan => .nan
  | .inf n => .inf (!n)
  | .fin n m e => .fin (!n) m e
def FVal.isNeg : FVal → Bool
  | .nan => false
  | .inf n => n
  | .fin n _ _ => n

/-- A signed integer mantissa. -/
def signedM (neg : Bool) (m : Nat) : Int := if neg then -(m : Int) else m

/-- An exact value with a signed mantissa; a zero takes the sign `zneg`. -/
def ofSigned (zneg : Bool) (i : Int) (e : Int) : FVal :=
  if i = 0 then .fin zneg 0 0 else .fin (decide (i < 0)) i.natAbs e

/-- The exact sum; the flag says that the operation is invalid. `down` is round-down, whose exact zero is −0. -/
def FVal.add (down : Bool) (a b : FVal) : FVal × Bool :=
  match a, b with
  | .nan, _ => (.nan, false)
  | _, .nan => (.nan, false)
  | .inf x, .inf y => if x = y then (.inf x, false) else (.nan, true)
  | .inf x, .fin .. => (.inf x, false)
  | .fin .., .inf y => (.inf y, false)
  | .fin x m e, .fin y n g =>
    if m = 0 ∧ n = 0 then (.fin (if x = y then x else down) 0 0, false)
    else if m = 0 then (.fin y n g, false)
    else if n = 0 then (.fin x m e, false)
    else
      let h := min e g
      let i := signedM x m * 2 ^ (e - h).toNat + signedM y n * 2 ^ (g - h).toNat
      (ofSigned down i h, false)

/-- The exact product. -/
def FVal.mul (a b : FVal) : FVal × Bool :=
  match a, b with
  | .nan, _ => (.nan, false)
  | _, .nan => (.nan, false)
  | .inf x, .inf y => (.inf (x != y), false)
  | .inf x, .fin y n _ => if n = 0 then (.nan, true) else (.inf (x != y), false)
  | .fin x m _, .inf y => if m = 0 then (.nan, true) else (.inf (x != y), false)
  | .fin x m e, .fin y n g => (.fin (x != y) (m * n) (e + g), false)

/-- Flags of an invalid operation. -/
def invFlag (inv : Bool) : BitVec 4 := if inv then fINV else 0

/-- Is the mode round-down (the sign of an exact zero sum, 06 R130)? -/
def RMode.isDown : RMode → Bool
  | .rdn => true
  | _ => false

/-- a + b, rounded once. -/
def fadd (f : Fmt) (mode : RMode) (a b : FVal) : FRes :=
  let (v, inv) := FVal.add mode.isDown a b
  let r := fround f mode v
  { r with flags := r.flags ||| invFlag inv }

/-- a × b, rounded once. -/
def fmul (f : Fmt) (mode : RMode) (a b : FVal) : FRes :=
  let (v, inv) := FVal.mul a b
  let r := fround f mode v
  { r with flags := r.flags ||| invFlag inv }

/-- a × b + c, rounded once; a NaN operand raises no flag. -/
def ffma (f : Fmt) (mode : RMode) (a b c : FVal) : FRes :=
  let (p, i1) := FVal.mul a b
  let (v, i2) := FVal.add mode.isDown p c
  let r := fround f mode v
  { r with flags := r.flags ||| invFlag ((i1 || i2) && !(a.isNan || b.isNan || c.isNan)) }

/-- Order of two values that are not NaN: −1, 0 or 1, with −0 equal to +0. -/
def FVal.compare (a b : FVal) : Int :=
  match a, b with
  | .inf x, .inf y => if x = y then 0 else if x then -1 else 1
  | .inf x, _ => if x then -1 else 1
  | _, .inf y => if y then 1 else -1
  | .fin x m e, .fin y n g =>
    let h := min e g
    let i := signedM x m * 2 ^ (e - h).toNat
    let j := signedM y n * 2 ^ (g - h).toNat
    if i < j then -1 else if i = j then 0 else 1
  | _, _ => 0

def feq (a b : FVal) : Bool := !a.isNan && !b.isNan && decide (FVal.compare a b = 0)
def flt (a b : FVal) : Bool := !a.isNan && !b.isNan && decide (FVal.compare a b < 0)
def fle (a b : FVal) : Bool := !a.isNan && !b.isNan && decide (FVal.compare a b ≤ 0)
def funord (a b : FVal) : Bool := a.isNan || b.isNan

/-- a comes before b in the order of minimum and maximum: −0 below +0 (06 R130). -/
def fbelow (a b : FVal) : Bool :=
  decide (FVal.compare a b < 0) || (decide (FVal.compare a b = 0) && a.isNeg && !b.isNeg)

/-- FMIN and VMIN (06 R130): exact, the other operand where one is NaN. -/
def fmin (a b : FVal) : FVal := if a.isNan then b else if b.isNan then a else if fbelow b a then b else a
def fmax (a b : FVal) : FVal := if a.isNan then b else if b.isNan then a else if fbelow a b then b else a

/-- An integer as an exact value; zero is +0. -/
def ofInt (i : Int) : FVal := .fin (decide (i < 0)) i.natAbs 0

/-- The exact value rounded to an integer under a mode (06 R136), for a finite value. -/
def roundInt (mode : RMode) (neg : Bool) (m : Nat) (e : Int) : Int :=
  let (n, d) := scale2 m e
  let q := n / d
  let r := n % d
  let q' := if r = 0 then q else if roundUp mode neg (q % 2 == 1) r d then q + 1 else q
  signedM neg q'

/-- Clamping to [lo, hi] with ISAT (06 R129). -/
def clampInt (lo hi i : Int) : Int × BitVec 4 :=
  if i < lo then (lo, fISAT) else if hi < i then (hi, fISAT) else (i, 0)

/-- Float to integer (06 R136). -/
def ftoInt (mode : RMode) (lo hi : Int) (v : FVal) : Int × BitVec 4 :=
  match v with
  | .nan => (0, fINV)
  | .inf neg => (if neg then lo else hi, fISAT)
  | .fin neg m e => clampInt lo hi (roundInt mode neg m e)

/-- The exact sum of many terms under 06 R138: NaN where a term is NaN or both infinities occur; an exact zero is +0
unless every term is −0. -/
def sumAcc : List FVal → FVal → Bool → FVal × Bool
  | [], acc, allNegZero => (acc, allNegZero)
  | v :: t, acc, az =>
    sumAcc t (match acc, v with
      | .fin x m e, .fin y n g =>
        let h := if m = 0 then g else if n = 0 then e else min e g
        ofSigned false (signedM x m * 2 ^ (e - h).toNat + signedM y n * 2 ^ (g - h).toNat) h
      | a, b => (FVal.add false a b).1) (az && v.isZero && v.isNeg)

def exactSum (ts : List FVal) : FVal :=
  match sumAcc ts (.fin false 0 0) true with
  | (.fin x m e, az) => if m = 0 then .fin (az && !ts.isEmpty) 0 0 else .fin x m e
  | (v, _) => v

end Sys2Proof.Machine
end

