-- ==== Sys2Proof/Machine/Flags.lean ====
section
/-! DEFINITION. Integer results and the SATF flags they raise (04 R94, 06 R129, 17 R359, 18 R378 to R405, 19 R407). -/
namespace Sys2Proof.Machine

/-- A 64-bit result with the flags it raises at its write clk. -/
structure IRes where
  value : Word
  flags : BitVec 4 := 0
  deriving DecidableEq, Repr

/-- The exact signed integer clamped to s64, ISAT when it clamps (06 R129). -/
def sat64 (i : Int) : IRes :=
  let c := clampInt (-(2 ^ 63)) (2 ^ 63 - 1) i
  { value := BitVec.ofInt 64 c.1, flags := c.2 }

def aluAdd (a b : Word) : IRes := { value := a + b }
def aluAddSat (a b : Word) : IRes := sat64 (a.toInt + b.toInt)
def aluAnd (a b : Word) : IRes := { value := a &&& b }
def aluAndn (a b : Word) : IRes := { value := a &&& ~~~b }
def aluOr (a b : Word) : IRes := { value := a ||| b }
def aluXor (a b : Word) : IRes := { value := a ^^^ b }
def aluSub (a b : Word) : IRes := { value := a - b }
def aluSubSat (a b : Word) : IRes := sat64 (a.toInt - b.toInt)

/-- Leading zero bits; 64 when a = 0 (17 R359). -/
def aluClz (a : Word) : IRes :=
  { value := if a.toNat = 0 then 64 else BitVec.ofNat 64 (63 - Nat.log2 a.toNat) }

/-- Trailing zero bits below bit n of a number. -/
def ctzNat : Nat → Nat → Nat
  | 0, _ => 0
  | n + 1, a => if a % 2 = 1 then 0 else ctzNat n (a / 2) + 1

/-- Trailing zero bits; 64 when a = 0 (17 R359). -/
def aluCtz (a : Word) : IRes := { value := BitVec.ofNat 64 (ctzNat 64 a.toNat) }

/-- One bits among the n low bits. -/
def popNat : Nat → Nat → Nat
  | 0, _ => 0
  | n + 1, a => a % 2 + popNat n (a / 2)

/-- Number of 1 bits (19 R407). -/
def aluPopc (a : Word) : IRes := { value := BitVec.ofNat 64 (popNat 64 a.toNat) }

/-- The shifts take the whole of b as an unsigned count (19 R408). -/
def aluShl (a b : Word) : IRes := { value := if 64 ≤ b.toNat then 0 else a <<< b.toNat }
def aluShr (a b : Word) : IRes := { value := if 64 ≤ b.toNat then 0 else a >>> b.toNat }
def aluSar (a b : Word) : IRes := { value := a.sshiftRight (min b.toNat 63) }

def aluMax (a b : Word) : IRes := { value := if a.slt b then b else a }
def aluMin (a b : Word) : IRes := { value := if b.slt a then b else a }
def aluMaxN (a b : Word) : IRes := { value := if a.ult b then b else a }
def aluMinN (a b : Word) : IRes := { value := if b.ult a then b else a }

/-- The low and high halves of the exact product (18 R405). -/
def aluMul (a b : Word) : IRes := { value := a * b }
def aluMulh (a b : Word) : IRes := { value := BitVec.ofInt 64 (a.toInt * b.toInt / 2 ^ 64) }
def aluMulhN (a b : Word) : IRes := { value := BitVec.ofNat 64 (a.toNat * b.toNat / 2 ^ 64) }

/-- Quotients truncate towards zero; the remainder has the dividend's sign (18 R378). The divisor is not 0. -/
def aluDiv (a b : Word) : Word := BitVec.ofInt 64 (a.toInt.tdiv b.toInt)
def aluDivN (a b : Word) : Word := BitVec.ofNat 64 (a.toNat / b.toNat)
def aluDivR (a b : Word) : Word := BitVec.ofInt 64 (a.toInt.tmod b.toInt)
def aluDivRn (a b : Word) : Word := BitVec.ofNat 64 (a.toNat % b.toNat)

/-- The control fields of EXT and INS: POS [5:0], LEN [14:8] with 65 to 127 acting as 64, SX [15] (18 R383). -/
def bfPos (c : Word) : Nat := c.toNat % 64
def bfLen (c : Word) : Nat := min (c.toNat / 256 % 128) 64
def bfSx (c : Word) : Bool := c.toNat / 2 ^ 15 % 2 == 1

/-- EXT (18 R383). -/
def aluExt (a c : Word) : Word :=
  let n := bfLen c
  let f := a.toNat / 2 ^ bfPos c % 2 ^ n
  if bfSx c ∧ 0 < n ∧ f / 2 ^ (n - 1) % 2 = 1 then BitVec.ofInt 64 ((f : Int) - 2 ^ n) else BitVec.ofNat 64 f

/-- INS (18 R383): the field of a merged into d. -/
def aluIns (d a c : Word) : Word :=
  let m := BitVec.ofNat 64 ((2 ^ bfLen c - 1) * 2 ^ bfPos c)
  (d &&& ~~~m) ||| ((a <<< bfPos c) &&& m)

/-- The conditions of CMP (17 R366). -/
def cmpEq (a b : Word) : Bool := a == b
def cmpNe (a b : Word) : Bool := a != b
def cmpLt (a b : Word) : Bool := a.slt b
def cmpLe (a b : Word) : Bool := a.sle b
def cmpLtn (a b : Word) : Bool := a.ult b
def cmpLen (a b : Word) : Bool := a.ule b

/-- PLOG: T[2a + b] (19 R409). -/
def plogBit (t : BitVec 4) (a b : Bool) : Bool := t.getLsbD (2 * a.toNat + b.toNat)

/-- 1 or 0, as a compare's latch receives it (17 R366). -/
def boolWord (b : Bool) : Word := if b then 1 else 0

/-- A float result in [31:0] with [63:32] zero (18 R384). -/
def fresWord (r : FRes) : IRes := { value := BitVec.ofNat 64 r.code, flags := r.flags }

/-- The FP32 value in bits [31:0] of a register (18 R384). -/
def f32Of (a : Word) : FVal := fdecode fp32 (a.toNat % 2 ^ 32)

/-- The mode that a rounding code of RMODE names (04 R95); code 4 draws r. -/
def modeOf (code r : Nat) : RMode :=
  match code with
  | 0 => .rne
  | 1 => .rtz
  | 2 => .rdn
  | 3 => .rup
  | _ => .sr r

/-- FADD, FMUL, FFMA, FMIN, FMAX on registers (18 R384). -/
def fpAdd (m : RMode) (a b : Word) : IRes := fresWord (fadd fp32 m (f32Of a) (f32Of b))
def fpMul (m : RMode) (a b : Word) : IRes := fresWord (fmul fp32 m (f32Of a) (f32Of b))
def fpFma (m : RMode) (a b c : Word) : IRes := fresWord (ffma fp32 m (f32Of a) (f32Of b) (f32Of c))
def fpMin (a b : Word) : IRes := fresWord (fround fp32 .rne (fmin (f32Of a) (f32Of b)))
def fpMax (a b : Word) : IRes := fresWord (fround fp32 .rne (fmax (f32Of a) (f32Of b)))

/-- FCVT (18 R386). -/
def fpCvtFs (m : RMode) (a : Word) : IRes :=
  let r := ftoInt m (-(2 ^ 63)) (2 ^ 63 - 1) (f32Of a)
  { value := BitVec.ofInt 64 r.1, flags := r.2 }
def fpCvtSf (m : RMode) (a : Word) : IRes := fresWord (fround fp32 m (ofInt a.toInt))
def fpCvtFb (m : RMode) (a : Word) : IRes := fresWord (fround bf16 m (f32Of a))
def fpCvtBf (a : Word) : IRes := fresWord (fround fp32 .rne (fdecode bf16 (a.toNat % 2 ^ 16)))

/-- Largest value of a signed element type (05 R114): s32, s16, s8. -/
def typeMax (type : Nat) : Int :=
  match type with
  | 4 => 2 ^ 31 - 1
  | 5 => 2 ^ 15 - 1
  | _ => 2 ^ 7 - 1

/-- A node of a reduction, or its combination with a sum latch, by operator (0 add, 1 max, 2 min) and type (06 R139,
R141, 08 R173): FP32 for floats, saturating or signed sign-extended values for s32, s16 and s8, n64 for n32. -/
def redNode (op type : Nat) (a b : Word) : IRes :=
  if type < 4 then
    match op with
    | 0 => fpAdd .rne a b
    | 1 => fpMax a b
    | _ => fpMin a b
  else if type = 7 then
    match op with
    | 0 => aluAdd a b
    | 1 => aluMaxN a b
    | _ => aluMinN a b
  else
    match op with
    | 0 =>
      let r := clampInt (-(typeMax type) - 1) (typeMax type) (a.toInt + b.toInt)
      { value := BitVec.ofInt 64 r.1, flags := r.2 }
    | 1 => aluMax a b
    | _ => aluMin a b

end Sys2Proof.Machine
end

