-- ==== Sys2Proof/Machine/Sparse.lean ====
section
/-! DEFINITION. Sparse maps: lists of (key, value) pairs with rising keys, no entry equal to the default that an
unlisted key reads as. Register files, counters and memory use one form. -/
namespace Sys2Proof.Machine

/-- A map from Nat to α as data; an unlisted key reads as a default that the reader names. -/
abbrev Sparse (α : Type) := List (Nat × α)

/-- The value at key k, d where none is listed. -/
def Sparse.get {α : Type} (d : α) (m : Sparse α) (k : Nat) : α :=
  match m with
  | [] => d
  | (a, v) :: t => if a = k then v else Sparse.get d t k

/-- The map without its entries at k. -/
def Sparse.drop {α : Type} (m : Sparse α) (k : Nat) : Sparse α :=
  match m with
  | [] => []
  | (a, v) :: t => if a = k then Sparse.drop t k else (a, v) :: Sparse.drop t k

/-- The map with (k, v) put before the first larger key. -/
def Sparse.put {α : Type} (m : Sparse α) (k : Nat) (v : α) : Sparse α :=
  match m with
  | [] => [(k, v)]
  | (a, w) :: t => if k < a then (k, v) :: (a, w) :: t else (a, w) :: Sparse.put t k v

/-- The map with v at k. Writing the default removes the entry, so that equal maps are equal lists. -/
def Sparse.set {α : Type} [DecidableEq α] (d : α) (m : Sparse α) (k : Nat) (v : α) : Sparse α :=
  if v = d then Sparse.drop m k else Sparse.put (Sparse.drop m k) k v

/-- Keys strictly rising, all above lo. -/
def Sparse.risingFrom {α : Type} (lo : Nat) (m : Sparse α) : Bool :=
  match m with
  | [] => true
  | (a, _) :: t => decide (lo ≤ a) && Sparse.risingFrom (a + 1) t

/-- The canonical form: keys strictly rising and no default listed. -/
def Sparse.wf {α : Type} [DecidableEq α] (d : α) (m : Sparse α) : Bool :=
  Sparse.risingFrom 0 m && m.all (fun p => decide (p.2 ≠ d))

/-- The keys listed. -/
def Sparse.keys {α : Type} (m : Sparse α) : List Nat := m.map (fun p => p.1)

end Sys2Proof.Machine
end

