-- ==== Sys2Proof/Machine/State.lean ====
section
/-! DEFINITION. The state of the machine as plain data: everything that the spec gives the module, its tiles, their
contexts and its virtual functions (INVENTORY.md lists each piece with its rule and its reset value). -/
namespace Sys2Proof.Machine

/-! ### Causes -/

/-- The trap causes of 15 R318. -/
inductive Cause where
  | illop | misalign | kbound | kright | kstale | kstaleMid | page | perm | priv | trapi | ringerr | shape | divz
  | watch | memue | matchk | baddesc | colfail | logfail
  deriving DecidableEq, Repr

/-! ### Registers of a context -/

/-- A capability register or a 16-byte unit of tagged memory (04 R82, 10 R205). -/
structure TCap where
  bits : Word128 := 0
  tag  : Bool := false
  deriving DecidableEq, Repr

/-- A sum latch with its EMPTY flag, kept as FULL so that the reset latch is empty (08 R172). -/
structure SumLatch where
  bits : Word := 0
  full : Bool := false
  deriving DecidableEq, Repr

/-- The operator of a reduction that lands in a sum latch (08 R172, R173). -/
inductive RedOp where
  | add | max | min
  deriving DecidableEq, Repr

/-- One write of a fixed-latency result, performed at its write clk (04 R88). -/
inductive Wr where
  /-- A scalar register. -/
  | sreg (r : Nat) (v : Word)
  /-- A capability register. -/
  | kreg (r : Nat) (v : TCap)
  /-- A predicate. -/
  | preg (n : Nat) (v : Bool)
  /-- A fixed-latency bypass latch. -/
  | latch (n : Nat) (v : Word)
  /-- The bits of mask in shadow i (0-3 mw, 4-7 ew) (04 R84). -/
  | shadow (i : Nat) (mask v : Word)
  /-- A scale register. -/
  | scale (n : Nat) (v : Scales)
  /-- A CSR, as CWR writes it. -/
  | csr (n : Nat) (v : Word)
  /-- Flags that the result sets in SATF (04 R94). -/
  | satf (v : BitVec 4)
  /-- The bits of mask in a vector register of cluster c. -/
  | vreg (c r : Nat) (mask v : Vec)
  /-- The bits of mask in a vector predicate of cluster c. -/
  | vpred (c n : Nat) (mask v : VPred)
  /-- A vector latch of cluster c. -/
  | vlatch (c n : Nat) (v : Vec)
  /-- A reduction result that lands in a sum latch of cluster c, of an element type (08 R172). -/
  | sum (c n : Nat) (op : RedOp) (type : Nat) (v : Word)
  /-- The target register of ERET (15 R329). -/
  | ertgt (v : Word)
  /-- A ring's registers, by the tile (07 R153). -/
  | ring (n : Nat) (base slots slotsz : Nat)
  deriving DecidableEq, Repr

/-- The class of a Mould entry (03 R63, R64); `none` for results of latency 1, which are never captured. -/
inductive MouldClass where
  | s | k | v | a | none
  deriving DecidableEq, Repr

/-- A fixed-latency result on its way (04 R88) or captured (03 R63): its write clk (or OFFSET once captured), the class,
cluster, slot word, bundle and issue clk that produced it, and its writes. -/
structure Pending where
  due     : Nat
  issued  : Nat := 0
  cls     : MouldClass
  cluster : Nat
  slot    : Nat
  ipc     : Nat
  writes  : List Wr
  deriving DecidableEq, Repr

/-- A read-modify-write (17 R352, R356): the new value from the old one and the operand. -/
inductive AtomOp where
  | add | and | or | xor | max | maxN | min | minN | xchg | fadd32 | faddBf16
  /-- Compare and swap: the operand is the new value. -/
  | cas (expected : Word128)
  deriving DecidableEq, Repr

/-- An access through a capability, with its address resolved: a scratchpad offset of the tile, or a virtual address of a
PASID with the object of the capability, by which it is filed in Mortar (10 R203, R207, 11 R229). -/
inductive Place where
  | spad (off : Nat)
  | virt (pasid va : Nat) (obj : Option Nat)
  deriving DecidableEq, Repr

/-- How an access reaches memory: as a relaxed plain one, through L1 unless it is host memory; at the home slice (orders at a
scope wider than crew, 12 R251); through L1 whatever the memory (orders at crew scope and narrower, 16 R340). -/
inductive Via where
  | plain | home | crew
  deriving DecidableEq, Repr

/-- A read that owes an entry of a return port (10 R211). -/
inductive ReadKind where
  /-- LD, LD.n, LDC: size in bytes, sign, destination registers of its members, how it reaches memory, and whether it takes
  the constant path (12 R267). -/
  | load (size : Nat) (signed : Bool) (dst : List Nat) (via : Via) (constant : Bool)
  /-- An atomic that returns its old value: n bytes, whether the value is sign-extended, its order, FACQ, and the
  sync-object word that it names (17 R352 to R357). -/
  | atomic (n : Nat) (op : AtomOp) (opnd : Word128) (signed : Bool) (order : Nat) (facq : Bool)
      (sync : Option (Nat × Nat))
  /-- KLD into a capability register (18 R393). -/
  | kld (dst : Nat) (via : Via)
  /-- VLD and VGATH: the lanes (16m + i) with their offsets from the base, members, cluster, destination, NW, and
  whether a miss fills L1 (20 R449, R450). -/
  | vec (lanes : List (Nat × Nat)) (g cl dst : Nat) (nw stream : Bool)
  /-- VPART, whose header lies at the place: number, indices with their outcomes, capability, cluster, destination, NW
  (08 R170, R171). -/
  | part (id : Nat) (xs : List (Nat × Bool)) (cap : TCap) (cl dst : Nat) (nw : Bool)
  deriving DecidableEq, Repr

/-- A read that waits for a translation, for a logged store of its strand, or for older results of its port: its
place, and how many side-log entries had been made when it issued (10 R211, R212). -/
structure Held where
  place : Place
  kind  : ReadKind
  seq   : Nat
  /-- Its number among the strand's reads and fences, by which those before it are known (12 R256). -/
  num   : Nat := 0
  /-- Acquire order: later accesses wait for it (12 R251). -/
  acq   : Bool := false
  /-- The clk of its issue, up to which the constant path may choose (12 R267). -/
  at_   : Nat := 0
  deriving DecidableEq, Repr

/-- One entry of a return port (04 R90): its value, whether it has arrived, the register writes owed, and the cause
with which a bundle that reads it traps (10 R211). -/
structure PortEntry where
  /-- The value read from the port: the low 64 bits for a scalar port, the whole register for vb4. -/
  value  : Vec := 0
  arrived : Bool := false
  /-- The engine command whose status it will hold; none once that is known (04 R90). -/
  cmd    : Option Nat := none
  /-- The second entry of an ACAS.w: its value is the high half of the entry before it (17 R356). -/
  twin   : Bool := false
  /-- Discarded by an overflow: only its register writes are still owed (04 R90). -/
  lost   : Bool := false
  writes : List Wr := []
  /-- A translation fault of the access: cause code and TRAPA. -/
  failed : Option (Cause × Word) := none
  /-- The entry of a KLD: removed when its register is written, never read (18 R393). -/
  kld    : Option Nat := none
  /-- The read that the entry still waits for (10 R211). -/
  held   : Option Held := none
  deriving DecidableEq, Repr

/-- A store, masked store or reduction in its strand's request path: its number among the strand's accesses and fences, its
place and bytes, its byte mask, the operator of a reduction, order, scope, the tag that a KST stores, whether it goes past
L1, the sync-object word that a reduction names, and whether it is a REL (12 R248, R256, R259, 08 R165, 20 R450). -/
structure QueuedStore where
  num   : Nat
  place : Place
  data  : List Byte
  mask  : Option Nat := none
  aop   : Option AtomOp := none
  order : Nat := 0
  scope : Nat := 0
  tag   : Option Bool := none
  poc   : Bool := false
  sync  : Option (Nat × Nat) := none
  rel   : Bool := false
  deriving DecidableEq, Repr

/-- An entry of the loop stack (18 R399). -/
structure LoopEntry where
  start : Nat
  stop  : Nat
  rem   : Nat
  deriving DecidableEq, Repr

/-- An entry of the binding table: the region's bounds and the sync object's word (12 R257). -/
structure Binding where
  region  : TCap
  syncObj : Nat
  syncGen : Nat
  syncOff : Nat
  deriving DecidableEq, Repr

/-- A cause raised by an engine for a strand, queued until the strand takes it (15 R321). -/
structure EngineCause where
  cause : Cause
  info  : Word
  deriving DecidableEq, Repr

/-- Why a bundle blocks (03 R56). -/
inductive BlockWhy where
  /-- A return port without an arrived head: b3, b5, b6, b8-b14 by number, vb4 of cluster c as 16 + c. -/
  | port (n : Nat)
  /-- A capability register that a KLD has yet to write (18 R393). -/
  | kreg (n : Nat)
  /-- The matrix queue is full. -/
  | matrixQueue
  /-- The queue of the engine that serves opcode `op` is full. -/
  | engineQueue (op : Nat)
  /-- Sixteen collective commands of the strand are not complete (17 R364). -/
  | collectives
  /-- ct(n) below v (20 R454). -/
  | waitc (n : Nat) (v : Word)
  /-- The comparison of WAITV fails: 0 eq, 1 ne, 2 ge; capability k, offset, size in bytes, value (20 R455). -/
  | waitv (cond k off size : Nat) (v : Word)
  /-- A crew barrier episode is not complete (17 R361). -/
  | barc
  /-- A gang barrier episode is not complete (17 R361). -/
  | barg
  /-- BARG.a in an episode in which the strand has arrived (17 R361). -/
  | bargA
  /-- ACQ's count is below its value (12 R260). -/
  | acq (k off : Nat) (v : Word)
  /-- REL on a word of a sync object waits for logged stores of its regions (12 R259). -/
  | rel (obj off : Nat)
  /-- The tile's request queue is full. -/
  | requestQueue
  /-- An arrival waits until every earlier access of the strand has been performed, those in the side log too where `log`
  (12 R264). -/
  | drain (log : Bool)
  /-- The access waits for an earlier store or summary operation of the strand (09 R181). -/
  | structure
  /-- The side log is full (10 R212). -/
  | sideLog
  /-- Every probe slot is pinned or filling (10 R218). -/
  | probe
  /-- The translation of the bundle's own address is missing (10 R210). -/
  | fetch (vaddr : Nat)
  deriving DecidableEq, Repr

/-- What a context is doing (02 R32, R52, 15 R322, R331, 18 R381). -/
inductive RunState where
  /-- Holds no strand. -/
  | idle
  | ready
  | running
  | blocked (why : BlockWhy)
  | trapped
  | fatal
  /-- EXIT has issued; results and log entries are still owed (18 R381). -/
  | exiting
  | retired
  /-- A dormant context that runs no handler (02 R52). -/
  | dormant
  deriving DecidableEq, Repr

/-- A fence in the request queue (12 R256): 0 FENCE, 1 FENCE.ld, 2 FENCE.st, with its scope and its number among the
strand's reads and fences. -/
structure Fence where
  kind  : Nat
  scope : Nat
  num   : Nat
  deriving DecidableEq, Repr

/-- A hardware context (04 R82). Sparse files read 0 where nothing is listed. -/
structure Ctx where
  run      : RunState := .idle
  /-- One of the crew's DORM contexts, and whether it is running a landing handler (02 R52). -/
  dormant  : Bool := false
  handler  : Bool := false
  /-- Byte offset within CODE of the bundle to issue next (02 R32). -/
  pc       : Nat := 0
  /-- The bundle that transferred control to pc, until it is fetched (04 R78). -/
  fromPc   : Option Nat := none
  /-- pc is the first bundle of a landing handler, not yet fetched (02 R53). -/
  entry    : Bool := false
  /-- The transfer that the issuing bundle makes, and whether it is a rotation point: 1 after the quantum, 2 at once
  (02 R49). -/
  npc      : Option Nat := none
  rot      : Nat := 0
  /-- A LOOP with count 0 is skipping to the bundle after END (18 R399). -/
  skip     : Bool := false
  s        : Sparse Word := []
  k        : Sparse TCap := []
  p        : BitVec 16 := 0
  /-- b0, b1, b2, b4, b7, b15. -/
  b        : Sparse Word := []
  /-- Return ports: b3 ... b14 by number, vb4 of cluster c at 16 + c. -/
  ports    : Sparse (List PortEntry) := []
  /-- Ports whose head the issuing bundle has read (04 R90). -/
  popped   : List Nat := []
  /-- mh0-mh3 at 0-3, mw at 4-7, eh at 8-11, ew at 12-15. -/
  shape    : Sparse Word := []
  sc       : Sparse Scales := []
  /-- v(r) of cluster c at 64c + r. -/
  v        : Sparse Vec := []
  /-- vp(n) of cluster c at 16c + n. -/
  vp       : Sparse VPred := []
  /-- sum(n) of cluster c at 4c + n. -/
  sum      : Sparse SumLatch := []
  /-- vb(n) of cluster c at 8c + n, but vb4. -/
  vb       : Sparse Vec := []
  /-- The stored CSRs of 04 R92 by number. -/
  csr      : Sparse Word := []
  callStack : List Nat := []
  loops    : List LoopEntry := []
  /-- Draw counters n(0)-n(8) (06 R134). -/
  draws    : Sparse Nat := []
  /-- Binding table by entry 0-7 (12 R257). -/
  binds    : Sparse (Option Binding) := []
  ertgt    : Word := 0
  tjHandle : Word := 0
  /-- RELEASED bits of the crew and the gang barrier (17 R361). -/
  relCrew  : Bool := false
  relGang  : Bool := false
  /-- The counter named by a BARG.a that has arrived in the current gang episode. -/
  bargA    : Option Nat := none
  pending  : List Pending := []
  /-- Results captured at a trap or pre-emption, due at OFFSET after the first bundle (03 R62, R70). -/
  capture  : List Pending := []
  causes   : List EngineCause := []
  causeOvf : Bool := false
  /-- Collective and block commands issued and not complete (17 R364, 19 R423). -/
  nColl    : Nat := 0
  nBlock   : Nat := 0
  fences   : List Fence := []
  /-- Reads and fences issued so far. -/
  num      : Nat := 0
  /-- Stores and reductions that wait in the request path, oldest first. -/
  storeQ   : List QueuedStore := []
  /-- The byte offset that sequential fetch reaches after the issuing bundle (04 R78). -/
  seqpc    : Nat := 0
  /-- A virtual address whose page request failed while the strand was blocked on it (20 R456). -/
  pageFail : Option Nat := none
  /-- Watches are off for the next bundle (15 R329). -/
  watchOff : Bool := false
  /-- The strand's bundles issued since it last became resident, and Mould replays wait for the first (03 R70). -/
  fresh    : Bool := false
  /-- A trap of a bundle that ERET re-enters at the bundle after it: its length is resolved at the next fetch. -/
  skipOne  : Bool := false
  /-- The class of the trap taken last, as its record's KIND had it. -/
  trapKind : Nat := 0
  deriving DecidableEq, Repr

/-! ### Engine operations -/

/-- A range of virtual addresses that a capability named when the supervisor gave it (15 R323, R326, 03 R65). -/
structure Region where
  pasid : Nat
  va    : Nat
  len   : Nat
  deriving DecidableEq, Repr

/-- The strand that issued an engine operation: its gang, CREWIDX, context, virtual function and PASID; how many reads and
fences it had issued, and how many side-log entries its tile had made (12 R262). -/
structure Issuer where
  gang  : Nat
  crew  : Nat
  ctx   : Nat
  vf    : Nat
  pasid : Nat
  num   : Nat := 0
  seq   : Nat := 0
  deriving DecidableEq, Repr

/-- A ring (07 R145); unconfigured with 0 slots. -/
structure Ring where
  base   : Nat := 0
  slots  : Nat := 0
  slotsz : Nat := 0
  head   : Nat := 0
  tail   : Nat := 0
  count  : Nat := 0
  deriving DecidableEq, Repr

/-- An entry of the matrix queue (07 R158): its number in order of entry, strand, opcode and M-slot word, the shape
registers and scales latched at issue (scales from ESB up), MQPRIO, the clk of entry, the k index (or 16-row block) that
comes next, and failed computations of the present step (R163). -/
structure MqEntry where
  id      : Nat
  iss     : Issuer
  op      : Nat
  word    : Nat
  mh      : List Word
  scales  : List Scales
  prio    : Nat
  entered : Nat
  k       : Nat := 0
  fails   : Nat := 0
  deriving DecidableEq, Repr

/-- The operation that holds the array: its entry, its priority as it started, whether an array step (or block) of it is
in progress, which step of its k index, and the clk in which that ends (07 R156, R158, R159). -/
structure MRun where
  id    : Nat
  prio  : Nat
  busy  : Bool
  step  : Nat
  due   : Nat
  deriving DecidableEq, Repr

/-- A registered tensor (11 R226, R231, R236, R240): its object, the fields of its descriptor, pin mode, slice or die,
and halo service. -/
structure Tensor where
  obj    : Nat
  pasid  : Nat
  vabase : Nat
  fmt    : Nat
  rank   : Nat
  halo   : List Nat
  dim    : List Nat
  stride : List Nat
  scoff  : Nat
  tile   : List Nat
  off    : Nat
  mode   : Nat := 0
  slice  : Nat := 0
  haloOn : Bool := false
  deriving DecidableEq, Repr

/-- One side of a copy, once its checks have been made (17 R371): linear, with the capability, the place of offset 0 of it,
address and strides; a tile of a tensor by coordinate, or its box with the halo; staging, with slice, offset and strides;
a ring; the pattern of CPYZ. -/
inductive Side where
  | linear (cap : TCap) (zero : Place) (addr : Nat) (strides : List Nat)
  | tile (cap : TCap) (t : Tensor) (coord : List Nat) (box : Bool)
  | staging (slice off : Nat) (strides : List Nat)
  | ring (n : Nat)
  | pattern (x : Nat)
  deriving DecidableEq, Repr

/-- A copy command (17 R370 to R376): number, opcode, strand, where its descriptor lies, its bytes once read, the
capability registers as they stood at issue, counter and INC, whether it returns a status, priority, handler, clk of
entry, bytes done in iteration order, IDX once read, the follow-on of a CPYF, and its sides once they are checked. -/
structure CopyCmd where
  id      : Nat
  op      : Nat
  iss     : Issuer
  place   : Place
  desc    : Option (List Byte)
  caps    : Sparse TCap
  ct      : Nat
  inc     : Nat
  nr      : Bool
  qprio   : Nat
  hnd     : Nat
  entered : Nat
  cursor  : Nat := 0
  idx     : List Nat := []
  follow  : Option MqEntry := none
  sides   : Option (Side × Side) := none
  /-- Scratchpad offset of the first byte written; none while none is, or where that is elsewhere (02 R52). -/
  first   : Option Nat := none
  /-- Pages of the last byte moved at the source and at the destination (10 R209). -/
  pageS   : Option Nat := none
  pageD   : Option Nat := none
  deriving DecidableEq, Repr

/-- A CSET or SIGC in the counter-signal queue (17 R377, 19 R415). -/
structure SignalCmd where
  id     : Nat
  op     : Nat
  iss    : Issuer
  target : Word
  value  : Word
  ct     : Nat
  nr     : Bool
  deriving DecidableEq, Repr

/-- A summary operation in the tile's request path (09 R181): its numbers as an operation and among the strand's reads
and fences, strand, opcode, cluster, capability, structure offset and place, whether values are bf16, active elements of
srcA (or its lanes), the lanes that receive a query's result, COINM as issued, and the bytes of a SKCLR's area. -/
structure SumOp where
  id    : Nat
  num   : Nat
  iss   : Issuer
  op    : Nat
  cl    : Nat
  cap   : TCap
  off   : Nat
  place : Place
  bf    : Bool
  elems : List Nat
  act   : VPred
  coin  : Nat
  size  : Nat
  deriving DecidableEq, Repr

/-- A Mortar, Crown or Brim command (11 R234, 14 R304, R314): number, opcode, tile, strand, counter, NR, argument
field, handler, the value of its s register, the place of its descriptor, its capability and the registers k0-k31 as
they stood at issue, and the stencil of MTFET. -/
structure EngCmd where
  id    : Nat
  op    : Nat
  tile  : Nat
  iss   : Issuer
  ct    : Nat
  nr    : Bool
  arg   : Nat
  hnd   : Nat
  sval  : Word
  place : Option Place
  cap   : TCap
  caps  : Sparse TCap
  mask  : Word
  /-- Die of the tile that issued it. -/
  die   : Nat
  /-- A broadcast that the command waits for (14 R306): set and version. -/
  bc    : Option (Nat × Nat) := none
  /-- It has reached the hub die (14 R308, R316). -/
  here  : Bool := false
  deriving DecidableEq, Repr

/-- A delivery held for a crew (03 R61, 02 R52): bytes of scratchpad by offset, counter, increment, handler, payload
length and offset. -/
structure Landing where
  cells : List (Nat × Byte)
  ct    : Nat
  inc   : Nat
  hnd   : Nat
  len   : Nat
  off   : Nat
  /-- The chunks of a collective that it lands: communicator, rank, collective and chunks; and for each its counter, its length
  and its offset. -/
  coll  : Option (Nat × Nat × Nat × List Nat) := none
  signals : List (Nat × Nat × Nat) := []
  deriving DecidableEq, Repr

/-- A slot of the probe cache (10 R218): a block is a virtual page of a PASID. -/
structure ProbeSlot where
  valid   : Bool := false
  pending : Bool := false
  pasid   : Nat := 0
  blk     : Nat := 0
  deriving DecidableEq, Repr

/-- A probe fill on its way (10 R218): the scratchpad offset of its slot, its block, capability, counter and strand, and
whether its tag may still become valid (R217). -/
structure ProbeFill where
  dst   : Nat
  pasid : Nat
  blk   : Nat
  cap   : TCap
  off   : Nat
  ct    : Nat
  iss   : Issuer
  live  : Bool := true
  deriving DecidableEq, Repr

/-! ### Tiles -/

/-- The state of a tile (01 R24). -/
inductive TileState where
  | unassigned | learner | actor | moving | disabled
  deriving DecidableEq, Repr

/-- The crew resident on a tile (02 R32, R36). -/
structure Crew where
  /-- The gang's number in State.gangs. -/
  gang    : Nat
  idx     : Nat
  strands : Nat
  dorm    : Nat
  spad    : Nat
  rings   : Nat
  acc     : Nat
  /-- The bytes of CODE: CODE's LOW and length in the virtual space of the crew's PASID (02 R32). -/
  code    : Region
  /-- A pre-empt request has reached the tile; its engines have stopped (03 R60, R61). -/
  frozen  : Bool := false
  stopped : Bool := false
  /-- Its state has been read back; fetch restarts when its log and its held landings are done (03 R70). -/
  resuming : Bool := false
  /-- No strand of it has issued a bundle since it resumed (03 R70). -/
  waits : Bool := false
  deriving DecidableEq, Repr

/-- The tag of a Mortar line (11 R225), with the virtual address of the sector filed under it and the object through which it
was filed (11 R229). -/
structure MTag where
  vf    : Nat
  pasid : Nat
  tid   : Nat
  c     : Nat
  line  : Nat
  va    : Nat := 0
  obj   : Option Nat := none
  deriving DecidableEq, Repr

/-- A sector of the L1 data cache (10 R200): 64 bytes with their tags and poison, the clk of its fill, the bytes
written since it was last clean with the clk of the first such write, and its line's tag in Mortar. -/
structure L1Sector where
  data   : Vec
  tags   : BitVec 4
  poison : Bool := false
  /-- Its poison arose in the tile (15 R334). -/
  own    : Bool := false
  fill   : Nat
  dirty  : Option Nat := none
  dmask  : BitVec 64 := 0
  mtag   : MTag
  deriving DecidableEq, Repr

/-- An entry of the side log (10 R213), with its number in the order of entry. -/
structure LogEntry where
  seq    : Nat
  ctx    : Nat
  pasid  : Nat
  va     : Nat
  /-- 0 store, 1 masked store, 2 reduction. -/
  op     : Nat
  order  : Nat
  scope  : Nat
  aop    : Option AtomOp
  mask   : Nat
  data   : List Byte
  /-- The tag that a KST stores. -/
  tag    : Option Bool := none
  /-- The number of its access, its object, whether it goes past L1, and the sync-object word that a reduction names. -/
  num    : Nat := 0
  obj    : Option Nat := none
  poc    : Bool := false
  sync   : Option (Nat × Nat) := none
  deriving DecidableEq, Repr

/-- A tile (01 R17 to R19). -/
structure Tile where
  owner    : Option Nat := none
  tstate   : TileState := .unassigned
  crew     : Option Crew := none
  ctxs     : Sparse Ctx := []
  /-- The context that holds the core. -/
  running  : Option Nat := none
  /-- The context that last ran (02 R50). -/
  last     : Nat := 3
  /-- The first clk in which the next bundle may issue (02 R50). -/
  nextIssue : Nat := 0
  /-- clk for which the running context has held the core while another was ready, and whether its quantum has expired
  (02 R49). -/
  quantum  : Nat := 0
  expired  : Bool := false
  /-- ct0-ct255 (02 R32). -/
  ct       : Sparse Word := []
  /-- Accumulators: element (a, row, column) at 16384a + 128row + column (07 R146). -/
  acc      : Sparse Word32 := []
  /-- Scratchpad bytes and the tags of its 16-byte units (01 R18, 10 R205). -/
  spad     : Sparse Byte := []
  spadTag  : Sparse Bool := []
  spadPoison : Sparse Bool := []
  /-- Poison of accumulators, by 16 elements (15 R334). -/
  accPoison : Sparse Bool := []
  /-- L1 sectors by physical sector number (10 R200). -/
  l1       : Sparse (Option L1Sector) := []
  /-- Side log in log order, and the number of entries made (10 R212). -/
  sideLog  : List LogEntry := []
  logSeq   : Nat := 0
  /-- Event counters 0-7 of 48 bits (16 R348). -/
  evc      : Sparse Nat := []
  /-- VF0 of cluster c is held until this clk (04 R89). -/
  vf0      : Sparse Nat := []
  /-- The Mould bank (03 R62). -/
  mould    : List Pending := []
  /-- Rings by number (07 R145). -/
  rings    : Sparse Ring := []
  /-- The matrix queue in order of entry, entries made so far, and the running operation (07 R158). -/
  mq       : List MqEntry := []
  mqSeq    : Nat := 0
  mrun     : Option MRun := none
  /-- Follow-on entries that wait for room in the matrix queue (07 R161). -/
  follows  : List MqEntry := []
  /-- The copy engine's queue, oldest first (17 R373). -/
  cq       : List CopyCmd := []
  /-- The counter-signal queue (19 R415). -/
  sigq     : List SignalCmd := []
  /-- Summary operations not yet performed (09 R181). -/
  sumq     : List SumOp := []
  /-- Deliveries held for the crew (03 R61). -/
  landings : List Landing := []
  /-- PROBECFG of the crew, tag table, pseudo-LRU bits and fills (10 R217, R218). -/
  probecfg : Word := 0
  probe    : Sparse ProbeSlot := []
  pl       : BitVec 128 := 0
  fills    : Sparse (Option ProbeFill) := []
  /-- clk of the MATCHKs that the tile raised (15 R336). -/
  matchks  : List Nat := []
  deriving DecidableEq, Repr

/-! ### Units of work -/

/-- A launch record as parsed (02 R34 to R36). -/
structure Rec where
  code    : TCap
  ctab    : TCap
  seed    : Word
  fmt     : Nat
  ncap    : Nat
  gangs   : Nat
  crews   : Nat
  dorm    : Nat
  strands : Nat
  part    : Nat
  coloc   : Bool
  prio    : Nat
  nvar    : Nat
  ndep    : Nat
  gbar    : Bool
  acc     : Nat
  rings   : Nat
  spad    : Nat
  energy  : Nat
  wc      : Nat
  sigmode : Bool
  /-- Counter and value of each dependence. -/
  deps    : List (Nat × Nat)
  /-- Footprint and entry of each variant. -/
  vars    : List (Nat × Nat)
  args    : List Word
  /-- The bytes of CODE, and the entries of the capability table. -/
  region  : Region := { pasid := 0, va := 0, len := 0 }
  caps    : List TCap := []
  deriving DecidableEq, Repr

/-- A wave: its queue and record, the variant chosen, gangs admitted and retired (02 R33, R41, R44). -/
structure Wave where
  vf       : Nat
  part     : Nat
  queue    : Nat
  index    : Nat
  mark     : Nat
  record   : Rec
  variant  : Nat := 0
  admitted : Nat := 0
  retired  : Nat := 0
  /-- The clk in which its first gang was admitted (12 R267). -/
  since    : Nat := 0
  deriving DecidableEq, Repr

/-- Progress of a gang's pre-emption (03 R60, R69, R70): no request; saving; saved and eligible to resume; saved until
RESTORE names it; on its new tiles, not yet fetching. -/
inductive GangRun where
  | running | saving | eligible | parked | resuming
  deriving DecidableEq, Repr

/-- A gang that is admitted and not retired (02 R29 to R33). -/
structure Gang where
  vf      : Nat
  part    : Nat
  wave    : Nat
  pasid   : Nat
  /-- The mark of its queue at admission: 0 ordinary, 1 supervisory, 2 PF supervisory (15 R328). -/
  mark    : Nat
  /-- GANGID in its wave. -/
  gangId  : Nat
  /-- Its gang-barrier identifier, where its record sets GBAR (02 R31). -/
  gbar    : Option Nat
  /-- The tiles of its crews, by CREWIDX; none while pre-empted. -/
  tiles   : List (Option Nat)
  /-- Crews retired. -/
  retired : List Nat := []
  /-- Energy charged since admission in µJ (16 R347). -/
  charge  : Nat := 0
  run     : GangRun := .running
  /-- Context-table entries of the crews that are pre-empted, in order of CREWIDX, and whether the gang is held for RESTORE
  (03 R65, R69). -/
  entries : List Nat := []
  hold    : Bool := false
  /-- RESTORE has named it (19 R426). -/
  restored : Bool := false
  /-- Its turn among those that wait to resume: 256 times the clk of its save and its lowest source tile (22 R466). -/
  turn    : Nat := 0
  /-- A strand of a crew that retired before a pre-emption was FATAL. -/
  fatal   : Bool := false
  deriving DecidableEq, Repr

/-- What a saved crew holds beside the bytes of its save area (03 R66, R67). -/
structure Saved where
  gang  : Nat
  crew  : Crew
  tile  : Tile
  src   : Nat
  /-- The save area. -/
  area  : Region
  /-- Increments of its saved counters that its area has yet to take (02 R53, 03 R61). -/
  owed  : Sparse Nat := []
  /-- The bytes that were written to the area, by which what the supervisor changes there is known (03 R68). -/
  base  : Sparse Byte := []
  deriving DecidableEq, Repr

/-- A launch queue (02 R39, 15 R328): its ring, size in records, HEAD, TAIL, HALT, mark, the clk in which its head became
head, the head record once it has been checked, and its wave in admission. -/
structure LaunchQ where
  ring  : Option Region := none
  size  : Nat := 0
  head  : BitVec 32 := 0
  tail  : BitVec 32 := 0
  halt  : Bool := false
  mark  : Nat := 0
  since : Nat := 0
  checked : Option Rec := none
  wave  : Option Nat := none
  deriving DecidableEq, Repr

/-- A block command (19 R421 to R425): number, subcode, issuing tile and strand, whether it is a PF supervisor, its
block, counter, NC. -/
structure BlockCmd where
  id    : Nat
  sub   : Nat
  tile  : Nat
  iss   : Issuer
  pf    : Bool
  place : Place
  cap   : TCap
  ct    : Nat
  nc    : Bool
  /-- Set when it has been accepted: the virtual function it names, RES so far, and what it waits for. -/
  taken : Option (Nat × Nat × List Nat) := none
  /-- What it waited for has been abandoned by an FLR (03 R74). -/
  lost  : Bool := false
  deriving DecidableEq, Repr

/-- A Course line move or change of owner on one die (03 R71, R72): tiles that move, the actor count they move to, and the
owner that they pass to. -/
structure Move where
  vf    : Nat
  die   : Nat
  tiles : List Nat
  count : Nat
  /-- 16 for none. -/
  owner : Nat
  /-- Tiles whose scrub has not completed. -/
  left  : List Nat
  /-- Gangs that it pre-empted. -/
  gangs : List Nat := []
  deriving DecidableEq, Repr

/-- A trajectory ring (14 R311, R314). -/
structure TjRing where
  region : Option Region := none
  slots  : Nat := 0
  maxrec : Nat := 0
  seqid  : Word := 0
  epoch  : BitVec 16 := 0
  deriving DecidableEq, Repr

/-- A slot of a Crown weight set (14 R302): its buffer and the registers of its entry; STATE 0 FREE, 1 BUILDING,
2 PUBLISHED, 3 RETIRING. -/
structure CrownSlot where
  cap     : TCap := {}
  region  : Option Region := none
  ver     : BitVec 32 := 0
  readers : BitVec 32 := 0
  state   : BitVec 2 := 0
  deriving DecidableEq, Repr

/-- A broadcast in which this module's Crown takes part (14 R307): its set, version, communicator, slot (none while it
waits for one), whether it is the publisher, and the status of its CLBC once that has ended. -/
structure Broadcast where
  set   : Nat
  ver   : Nat
  comm  : Nat
  slot  : Option Nat
  root  : Bool
  ended : Option Nat := none
  /-- Ports whose VC2 credits are held while it waits for a slot. -/
  owed  : List Nat := []
  deriving DecidableEq, Repr

/-! ### Collectives and links -/

/-- A sharding layout (13 R287): for each dimension the axes that split it, major first, and the axes along which a shard
holds partial sums. -/
structure Layout where
  lists : List (List Nat)
  pend  : Nat
  /-- Between the all-to-alls of a reshard (13 R288): the mask of the axes that have moved, and the lists they have moved to. -/
  moved : Nat := 0
  goal  : List (List Nat) := []
  deriving DecidableEq, Repr

/-- One step of a collective over a group (13 R276, R288): 0 all-gather, 1 reduce-scatter, 2 all-reduce, 3 broadcast,
4 barrier, 5 all-to-all; axis mask, bytes of the step's vector, chunks before it, and for CLRSH the layouts before and
after it. -/
structure CollStep where
  kind  : Nat
  mask  : Nat
  vec   : Nat
  base  : Nat
  fromL : Layout := { lists := [], pend := 0 }
  toL   : Layout := { lists := [], pend := 0 }
  deriving DecidableEq, Repr

/-- An optimiser attached by CLOPT (13 R290): its descriptor's place and bytes, and where the shard's weights and moments
lie. -/
structure Optimiser where
  place : Place
  bytes : List Byte
  mw    : Place
  mom   : Place
  /-- The capabilities of the weights and the moments, whose generations the Hod looks at (10 R209). -/
  caps  : List TCap := []
  deriving DecidableEq, Repr

/-- A collective command at a member (13 R276 to R281): number, sequence number in its communicator, opcode, strand,
counter, NR, handler, CSEQ argument, place of its descriptor; once that has been read its head, source and destination
with their capabilities, per-chunk counters and steps; chunks begun, landed here and held for a crew; the attached
optimiser; the Crown's set and slot where a Crown issued it; and the status with RES once it has ended. -/
structure CollCmd where
  id     : Nat
  n      : Nat := 0
  op     : Nat
  tile   : Nat
  iss    : Issuer
  ct     : Nat
  nr     : Bool
  hnd    : Nat
  cseq   : Nat
  place  : Option Place
  desc   : List Byte := []
  head   : Option CollHead := none
  src    : Option (TCap × Place) := none
  dst    : Option (TCap × Place) := none
  pcn    : Nat := 0
  pcb    : Nat := 0
  steps  : List CollStep := []
  begun  : Nat := 0
  landed : List Nat := []
  held   : List Nat := []
  opt    : Option Optimiser := none
  /-- SRC and DST of a CLRS.sum that waits for the outcome of a CLOPT before it (13 R290). -/
  raw    : Option (TCap × TCap) := none
  /-- Set and slot of a Crown's command, and the version it broadcasts (14 R307). -/
  crown  : Option (Nat × Nat) := none
  ver    : Nat := 0
  ended  : Option (Nat × Nat) := none
  deriving DecidableEq, Repr

/-- The outcome of a collective that CLST can read (13 R296). -/
structure CollOutcome where
  n      : Nat
  st     : Nat
  late   : Bool
  lost   : Option Nat
  chunks : Nat
  landed : List Nat
  deriving DecidableEq, Repr

/-- A rank of a communicator on this module (13 R273, R280): its die, number of its next collective, commands in issue
order, the last 16 outcomes, the optimisers attached and the last collectives that one fed, by strand. -/
structure Member where
  die     : Nat
  next    : Nat := 0
  cmds    : List CollCmd := []
  history : List CollOutcome := []
  opts    : Sparse (Option Optimiser) := []
  fed     : Sparse (Option CollCmd) := []
  paused  : Bool := false
  /-- The gang whose pre-emption asked for a pause (13 R295). -/
  asked   : Option Nat := none
  deriving DecidableEq, Repr

/-- A staged contribution, or one whose sender holds a credit for it (13 R281, R284): collective, rank, the chunk it belongs to
(the step of a CLRSH, 0 for a summary), the runs that have arrived by offset; the dies whose Hods take it, and the buffers that
it needs in each. -/
structure Contrib where
  n     : Nat
  rank  : Nat
  chunk : Nat
  parts : List (Nat × List Byte)
  dies  : List Nat := []
  bufs  : Nat := 0
  deriving DecidableEq, Repr

/-- A contribution whose sender asks for buffers in the Hods of some dies here (13 R284). -/
structure Ask where
  n    : Nat
  rank : Nat
  unit : Nat
  bufs : Nat
  dies : List Nat
  deriving DecidableEq, Repr

/-- Bytes of a contribution that wait for a module's credit (13 R284): where they were read, their offset and the module. -/
structure Offer where
  n     : Nat
  rank  : Nat
  unit  : Nat
  dest  : Nat
  addr  : Nat
  off   : Nat
  bytes : List Byte
  deriving DecidableEq, Repr

/-- A registered communicator (13 R274, R275): the object's fields and bytes without MYRANK, the rank table as (NODEID,
tile), slot in each die's Hod, Crown set, members here by rank, heads and contributions that have arrived, abort, lost
rank; the broadcasts that ranks have received whole; the ranks that ask for a pause, what each member has begun and the stop chunk (R295); and the clk since which it is a
candidate at each die (R285). -/
structure Comm where
  vf      : Nat
  cid     : Nat
  nax     : Nat
  prio    : Nat
  vc      : Nat
  axes    : List Nat
  nrank   : Nat
  stg     : List Nat
  image   : List Byte
  table   : List (Nat × Nat)
  digest  : Nat
  slots   : Sparse (Option Nat) := []
  crown   : Option Nat := none
  members : Sparse (Option Member) := []
  heads   : List (Nat × Nat × CollHead) := []
  staged  : List Contrib := []
  /-- Contributions that ask for buffers here, bytes that wait for credit elsewhere, and the credits that modules have given:
  collective, rank, unit, module (R284). -/
  asks    : List Ask := []
  offers  : List Offer := []
  rooms   : List (Nat × Nat × Nat × Nat) := []
  reached : List (Nat × Nat) := []
  aborted : Bool := false
  lost    : Option Nat := none
  pausers : List Nat := []
  stop    : Option Nat := none
  begun   : List (Nat × Nat) := []
  since   : Sparse Nat := []
  deriving DecidableEq, Repr

/-- A port of the Dravy Link (13 R297 to R300): next sequence number to send, next expected, the replay buffer of
unacknowledged flits, flits that wait for a credit, credits by channel, shares of the receive buffer and credits granted
from it, consecutive failed replays, the last flit discarded since a nak as its distance from the one asked for, the clk since
which it retrains, whether it is down, and the channel served last. -/
structure LinkPort where
  txSeq   : Nat := 0
  rxSeq   : Nat := 0
  replay  : List Flit := []
  waiting : List Flit := []
  /-- By channel; 32 for VC0 where nothing is listed, as R299 divides the buffer. -/
  credits : Sparse (Option Nat) := []
  shares  : Sparse Nat := []
  granted : Sparse (Option Nat) := []
  fails   : Nat := 0
  nakked  : Option Nat := none
  retrain : Option Nat := none
  down    : Bool := false
  rr      : Nat := 0
  deriving DecidableEq, Repr

/-- What has been taken of a module's messages: all below a number, and some above it (12 R270). -/
structure Seen where
  low  : Nat := 0
  more : List Nat := []
  deriving DecidableEq, Repr

/-! ### Virtual functions -/

/-- An entry of an object table (10 R207). -/
structure ObjEntry where
  vabase : Nat
  len    : Nat
  gen    : Nat
  tid    : Nat
  pasid  : Nat
  vf     : Nat
  tier   : Nat
  nodem  : Bool
  valid  : Bool
  deriving DecidableEq, Repr

/-- A watch range (15 R330). -/
structure Watch where
  obj    : Nat
  low    : Nat
  len    : Nat
  reads  : Bool
  writes : Bool
  deriving DecidableEq, Repr

/-- A supervisor queue (15 R326): its memory and its slots. -/
structure SupQ where
  region : Region
  slots  : Nat
  deriving DecidableEq, Repr

/-- A virtual function (01 R20 to R23). -/
structure Vf where
  /-- Object table: count, memory, and the entries held by the tiles and ports (10 R207, R208). -/
  objCount : Nat := 0
  objBase  : Option Region := none
  objs     : Sparse (Option ObjEntry) := []
  /-- Registered tensors by TID (11 R225). -/
  tensors  : Sparse (Option Tensor) := []
  trapArea : Option Region := none
  supq     : Option SupQ := none
  /-- Watch ranges 0-3. -/
  watches  : Sparse (Option Watch) := []
  /-- FLR in progress and the Transactions Pending bit (15 R332). -/
  flr      : Bool := false
  privileged : Bool := false
  /-- Clamp balance in µJ, signed (16 R345). -/
  balance : Int := 0
  /-- Reservations RV and the registers SHARE and CAP, and whether its tiles are gated (16 R345, R346). -/
  rv      : Nat := 0
  share   : Nat := 0
  cap     : Nat := 0
  gated   : Bool := false
  /-- HBM4E budget B in bytes (02 R44). -/
  budget  : Nat := 0
  /-- A(v, d) by die (01 R23). -/
  actors  : Sparse Nat := []
  /-- Launch queues by 64 · partition + queue, rotating pointer and reserving queue by partition (02 R39, R47, R48). -/
  queues  : Sparse LaunchQ := []
  rot     : Sparse Nat := []
  reserve : Sparse (Option Nat) := []
  /-- Wave counters (02 R42). -/
  wc      : Sparse Word := []
  /-- Gang-barrier identifiers in use: 16 · partition + identifier (02 R31). -/
  gbars   : Sparse Bool := []
  /-- Context table: its memory and count of entries (03 R65). -/
  ctxTab  : Option Region := none
  ctxLen  : Nat := 0
  /-- Block commands in arrival order, accepted ones first in their own list (19 R424). -/
  blockQ  : List BlockCmd := []
  accepted : List BlockCmd := []
  /-- Staging windows: slice, base, length (11 R244). -/
  windows : List (Nat × Nat × Nat) := []
  /-- Watermarks HI · 2^32 + LO by tier (10 R222). -/
  twm     : Sparse Word := []
  /-- Tiers from which the migration engine is demoting, above HI until at or below LO (10 R223). -/
  demoting : Sparse Bool := []
  /-- Trajectory rings (14 R311). -/
  tjrings : Sparse TjRing := []
  deriving DecidableEq, Repr

/-! ### Memory -/

/-- A page whose translation the host has given, with its access bit (10 R210, R223), and whether an ATC still holds it. -/
structure AtcEntry where
  map      : PageMap
  held     : Bool := true
  accessed : Bool := false
  /-- Successive sweeps that found the access bit set. -/
  swept    : Nat := 0
  deriving DecidableEq, Repr

/-- An outstanding request for a page: by ATS, or by PRI after the host found none (10 R210). -/
structure PageReq where
  pasid : Nat
  vpage : Nat
  pri   : Bool
  /-- The host has brought the page since (12 R267). -/
  brought : Bool := false
  deriving DecidableEq, Repr

/-- A sector held in Mortar (11 R224, R225): the tag of its line and whether it is dirty. -/
structure MortarSector where
  tag   : MTag
  dirty : Bool
  deriving DecidableEq, Repr

/-- A write of bytes of one sector at its home slice (11 R224): the tag of its line, the bytes, the tags of the 16-byte units
that it touches, and what becomes of the sector's poison. -/
structure SectorWrite where
  tag    : MTag
  cells  : List (Nat × Byte)
  units  : List (Nat × Bool)
  poison : Option Bool := none
  deriving DecidableEq, Repr

/-- A page move in progress (10 R223): where the page goes. -/
structure PageMove where
  pasid : Nat
  vpage : Nat
  dest  : Nat
  deriving DecidableEq, Repr

/-- A write by the device: its virtual function, place (with the object, where a capability names it) and bytes, and the strand (tile and context) that becomes FATAL
where the page request for it fails (15 R323). -/
structure DevWrite where
  vf    : Nat
  pasid : Nat
  va    : Nat
  bytes : List Byte
  obj   : Option Nat := none
  fatal : Option (Nat × Nat) := none
  /-- The trap record that follows the write (15 R319). -/
  record : Option (List Byte) := none
  deriving DecidableEq, Repr

/-- What the device still has to write when a page is mapped: bytes, or a record for a queue (16: the physical
function's) (03 R74, 15 R326). -/
inductive Deferred where
  | write (w : DevWrite)
  | post (vf : Nat) (bytes : List Byte)
  deriving DecidableEq, Repr

/-- A monitor counter of a Hod or a die bank (16 R349): its source, the virtual function it is filtered by, its count. -/
structure Monitor where
  source : Nat := 0
  vf     : Option Nat := none
  count  : Nat := 0
  deriving DecidableEq, Repr

/-- Boot (16 R343, R344): the image in flash, the fused anti-rollback counter, whether the module runs or stays in
recovery, and the tile assignment and shares that measurement 5 covers. -/
structure Boot where
  flash    : Firmware := { verified := true, version := 0 }
  fuse     : Nat := 0
  /-- ZIDENT, which this part was made with (00 R11), and the tiles that its test fuses remove (01 R24). -/
  zident   : Word := 0x010910F208301000
  fused    : List Nat := []
  running  : Bool := true
  measured : List Nat := []
  deriving DecidableEq, Repr

/-! ### The module -/

/-- The module. -/
structure State where
  /-- clk counted since cold reset (04 R92). -/
  clk    : Nat := 0
  /-- The model's: the first tile that has not had its turn in this clk, and the tile whose running context a slot
  instruction acts on. -/
  cursor : Nat := 0
  cur    : Nat := 0
  /-- The model's: the engine and host steps that come before the next bundle, and the outside world's inputs with
  the clk in which each arrives. -/
  agenda : List Instr := []
  inputs : List (Nat × Instr) := []
  /-- The model's: how many free values have been taken. -/
  free   : Nat := 0
  /-- Bytes of T0, T1 and T2 by physical address, tags by 16-byte unit, poison by 64-byte sector (10 R205, R219, R222). -/
  mem    : Sparse Byte := []
  tags   : Sparse Bool := []
  poison : Sparse Bool := []
  /-- Sectors whose poison arose in Mortar (15 R334). -/
  poisonM : Sparse Bool := []
  /-- Mortar's sectors by physical sector number, and the bytes and tags that are dirty there (11 R224). -/
  mortar : Sparse (Option MortarSector) := []
  mdata  : Sparse (Option Byte) := []
  mtags  : Sparse (Option Bool) := []
  /-- Sectors that the host may hold, and the writes that wait at their home slices for its back-invalidate answer, oldest
  first (16 R339). -/
  hostHeld : Sparse Bool := []
  biQ    : List SectorWrite := []
  /-- Values that an aligned dword held before, with the clk of their replacement (12 R267). -/
  hist   : Sparse (List (Nat × Word)) := []
  /-- Translations by 2^45 · PASID + virtual page, and outstanding page requests (10 R210, R211). -/
  atc    : Sparse (Option AtcEntry) := []
  pageReqs : List PageReq := []
  /-- The physical function's supervisor queue and DROPREC (15 R327). -/
  pfSupq : Option SupQ := none
  dropRec : Word := 0
  tiles  : Sparse Tile := []
  gangs  : Sparse (Option Gang) := []
  waves  : Sparse (Option Wave) := []
  vfs    : Sparse Vf := []
  /-- The model's: the next gang, wave and engine operation to be numbered. -/
  nextGang : Nat := 0
  nextWave : Nat := 0
  nextOp : Nat := 0
  /-- The model's: engine steps come only from `inputs`, not as soon as they can be made. -/
  manual : Bool := false
  /-- Crews that are saved or retired with their gang still in being, by 256 · gang + CREWIDX. -/
  saves  : Sparse (Option Saved) := []
  moves  : List Move := []
  pageMoves : List PageMove := []
  /-- Writes of the device that wait for a page (03 R74). -/
  deferred : List Deferred := []
  /-- Staging bytes and tags, by 2^22 · slice + offset (11 R244). -/
  staging : Sparse Byte := []
  stagingTags : Sparse Bool := []
  stagingPoison : Sparse Bool := []
  /-- Commands of the Mortar, Crown and Brim engines in arrival order (11 R243, 14 R308, R316). -/
  mortarQ : List EngCmd := []
  crownQ : List EngCmd := []
  brimQ  : List EngCmd := []
  /-- Owners of the weight sets, their slots by 4 · set + slot, and broadcasts (14 R301 to R307). -/
  crownOwner : Sparse (Option Nat) := []
  crown  : Sparse CrownSlot := []
  broadcasts : List Broadcast := []
  /-- Communicators by 2^24 · virtual function + CID; the Hods' rotating pointers by die (13 R275, R285). -/
  comms  : Sparse (Option Comm) := []
  /-- Collective commands whose descriptors have not been read, in arrival order (13 R277). -/
  hodQ   : List CollCmd := []
  hodPtr : Sparse Nat := []
  /-- NODEID, routing table by 8 · destination + lane, ports, flits sent (13 R297, R300). -/
  nodeId : BitVec 12 := 0
  routes : Sparse (List Nat) := []
  links  : Sparse LinkPort := []
  /-- Messages sent to each module, and taken from each, by NODEID (12 R270). -/
  linkTx : Sparse Nat := []
  linkSeen : Sparse Seen := []
  sent   : List (Nat × Flit) := []
  /-- PNRP, activate counts by channel, and resets so far, which number the draws of E (10 R221). -/
  pnrp   : Word := 8
  activates : Sparse Word := []
  resets : Nat := 0
  /-- Soft-error counters by 16 · unit + class: dies 0-3, hub 4 (15 R337). -/
  secnt  : Sparse (BitVec 32) := []
  /-- Monitors by 8 · unit + counter (16 R349). -/
  monitors : Sparse Monitor := []
  /-- CXL ports that are down, and the module's last answer to the host: CXL.mem or snoop data, SPDM (16 R338, R344). -/
  cxlDown : List Nat := []
  hostRead : List Byte := []
  doe    : List Byte := []
  boot   : Boot := {}
  deriving DecidableEq, Repr

/-- Why the machine stops with a fault. -/
inductive Fault where
  /-- Raised by HOST_MEM_READ and HOST_MEM_WRITE at an address that is no memory: no HDM decoder covers it, and it is not
  the host's own (16 R339). Safe: the spec gives such an access no effect on the module. -/
  | hdmUndecoded
  deriving DecidableEq, Repr

/-- Why an instruction has no meaning. -/
inductive Refusal where
  /-- Raised by a dispatch arm without a meaning. Safe: the machine stops. -/
  | notModelled (mnemonic : String)
  deriving DecidableEq, Repr

/-- The module right after cold reset (16 R350). -/
def State.reset : State := {}

end Sys2Proof.Machine
end

