-- ==== Sys2Proof/Machine/Res.lean ====
section
/-! DEFINITION. What a slot does in its issue clk: it takes effect, traps (15 R318) or blocks its bundle (03 R56). -/
namespace Sys2Proof.Machine

/-- The outcome of a slot, or of one of its steps. -/
inductive Res (α : Type) where
  | ok (a : α)
  | trap (cause : Cause) (info : Word)
  | block (why : BlockWhy)
  deriving DecidableEq, Repr

/-- One step after another: the first trap or block decides. -/
def Res.bind {α β : Type} (r : Res α) (k : α → Res β) : Res β :=
  match r with
  | .ok a => k a
  | .trap c i => .trap c i
  | .block w => .block w

/-- A check: traps unless the condition holds. -/
def Res.need (b : Bool) (c : Cause) (info : Word) : Res Unit := if b then .ok () else .trap c info

/-- Every element of a list, in order. -/
def Res.all {α β : Type} (f : α → Res β) : List α → Res (List β)
  | [] => .ok []
  | a :: t => (f a).bind fun b => (Res.all f t).bind fun bs => .ok (b :: bs)

/-- The cause codes of 15 R318. -/
def causeCode : Cause → Nat
  | .illop => 0x01
  | .misalign => 0x02
  | .kbound => 0x03
  | .kright => 0x04
  | .kstale => 0x05
  | .kstaleMid => 0x06
  | .page => 0x07
  | .perm => 0x08
  | .priv => 0x09
  | .trapi => 0x0A
  | .ringerr => 0x0B
  | .shape => 0x0C
  | .divz => 0x0D
  | .watch => 0x0E
  | .memue => 0x10
  | .matchk => 0x11
  | .baddesc => 0x12
  | .colfail => 0x13
  | .logfail => 0x14

end Sys2Proof.Machine
end

