-- ==== Sys2Proof/Machine/Operands.lean ====
section
/-! DEFINITION. The operand forms of the slots (04 R82 to R90, 05 R105 to R119): registers that read a constant, latches,
return ports, groups, immediates, vector elements and lane masks. -/
namespace Sys2Proof.Machine

/-! ### Registers -/

/-- s0 reads zero (04 R82). -/
def Ctx.readS (c : Ctx) (r : Nat) : Word := if r = 0 then 0 else Sparse.get 0 c.s r
/-- Writes to s0 are discarded. -/
def Ctx.writeS (c : Ctx) (r : Nat) (v : Word) : Ctx := if r = 0 then c else { c with s := Sparse.set 0 c.s r v }
/-- p0 reads true (04 R82). -/
def Ctx.readP (c : Ctx) (n : Nat) : Bool := n == 0 || c.p.getLsbD n
/-- Writes to p0 are discarded. -/
def Ctx.writeP (c : Ctx) (n : Nat) (v : Bool) : Ctx :=
  if n = 0 then c
  else { c with p := if v then c.p ||| BitVec.twoPow 16 n else c.p &&& ~~~BitVec.twoPow 16 n }
def Ctx.readK (c : Ctx) (r : Nat) : TCap := Sparse.get {} c.k r
def Ctx.writeK (c : Ctx) (r : Nat) (v : TCap) : Ctx := { c with k := Sparse.set {} c.k r v }
def Ctx.readB (c : Ctx) (n : Nat) : Word := Sparse.get 0 c.b n
def Ctx.writeB (c : Ctx) (n : Nat) (v : Word) : Ctx := { c with b := Sparse.set 0 c.b n v }
def Ctx.readCsr (c : Ctx) (n : Nat) : Word := Sparse.get 0 c.csr n
def Ctx.writeCsr (c : Ctx) (n : Nat) (v : Word) : Ctx := { c with csr := Sparse.set 0 c.csr n v }
def Ctx.readV (c : Ctx) (cl r : Nat) : Vec := Sparse.get 0 c.v (64 * cl + r)
def Ctx.writeV (c : Ctx) (cl r : Nat) (v : Vec) : Ctx := { c with v := Sparse.set 0 c.v (64 * cl + r) v }
/-- vp(n), n = 1-15. -/
def Ctx.readVp (c : Ctx) (cl n : Nat) : VPred := Sparse.get 0 c.vp (16 * cl + n)
def Ctx.writeVp (c : Ctx) (cl n : Nat) (v : VPred) : Ctx := { c with vp := Sparse.set 0 c.vp (16 * cl + n) v }
def Ctx.readVb (c : Ctx) (cl n : Nat) : Vec := Sparse.get 0 c.vb (8 * cl + n)
def Ctx.writeVb (c : Ctx) (cl n : Nat) (v : Vec) : Ctx := { c with vb := Sparse.set 0 c.vb (8 * cl + n) v }
def Ctx.readSum (c : Ctx) (cl n : Nat) : SumLatch := Sparse.get {} c.sum (4 * cl + n)
def Ctx.writeSum (c : Ctx) (cl n : Nat) (v : SumLatch) : Ctx := { c with sum := Sparse.set {} c.sum (4 * cl + n) v }
def Ctx.readSc (c : Ctx) (n : Nat) : Scales := Sparse.get 0 c.sc n
def Ctx.writeSc (c : Ctx) (n : Nat) (v : Scales) : Ctx := { c with sc := Sparse.set 0 c.sc n v }
/-- Shape register i: mh 0-3, mw 4-7, eh 8-11, ew 12-15. -/
def Ctx.readShape (c : Ctx) (i : Nat) : Word := Sparse.get 0 c.shape i
def Ctx.writeShape (c : Ctx) (i : Nat) (v : Word) : Ctx := { c with shape := Sparse.set 0 c.shape i v }
def Ctx.readDraw (c : Ctx) (n : Nat) : Nat := Sparse.get 0 c.draws n
def Ctx.writeDraw (c : Ctx) (n v : Nat) : Ctx := { c with draws := Sparse.set 0 c.draws n (v % 2 ^ 48) }
/-- The entries of a return port. -/
def Ctx.port (c : Ctx) (n : Nat) : List PortEntry := Sparse.get [] c.ports n
def Ctx.setPort (c : Ctx) (n : Nat) (es : List PortEntry) : Ctx := { c with ports := Sparse.set [] c.ports n es }

/-- The exchange of two banks of four shape registers (04 R80): mh with mw (base 0), eh with ew (base 8). -/
def Ctx.swapShapes (c : Ctx) (base : Nat) : Ctx :=
  (List.range 4).foldl (fun d i => (d.writeShape (base + i) (c.readShape (base + 4 + i))).writeShape
    (base + 4 + i) (c.readShape (base + i))) c

/-! ### Latches and return ports -/

/-- The latches that are return ports (03 R56, 04 R90). -/
def isPort (n : Nat) : Bool := [3, 5, 6, 8, 9, 10, 11, 12, 13, 14].contains n

/-- The entry at the head of a return port, past those that an overflow has discarded (04 R90). -/
def Ctx.portHead (c : Ctx) (n : Nat) : Option PortEntry := (c.port n).find? (fun e => !e.lost)

/-- The head of return port n: blocks while it is empty or has not arrived (04 R90), or while it is a KLD's (18 R393);
traps with the cause of a failed access (10 R211). -/
def readPort (c : Ctx) (n : Nat) : Res Vec :=
  match c.portHead n with
  | none => .block (.port n)
  | some e =>
    match e.failed with
    | some (cause, info) => .trap cause info
    | none => if e.kld.isSome || !e.arrived then .block (.port n) else .ok e.value

/-- The port is read by the bundle that issues; its head is removed once (04 R90). -/
def Ctx.markPort (c : Ctx) (n : Nat) : Ctx :=
  if c.popped.contains n then c else { c with popped := c.popped ++ [n] }

/-- A latch b(n) as a source: its content and the context with the port marked. -/
def readLatch (c : Ctx) (n : Nat) : Res (Word × Ctx) :=
  if isPort n then (readPort c n).bind fun v => .ok (v.setWidth 64, c.markPort n)
  else .ok (c.readB n, c)

/-- A scalar source code (05 R106): a group of g registers, or one latch. -/
def readCode (c : Ctx) (code g : Nat) : Res (List Word × Ctx) :=
  if code < 64 then .ok ((List.range g).map (fun i => c.readS (code + i)), c)
  else (readLatch c (code - 64)).bind fun r => .ok ([r.1], r.2)

/-- The immediate of srcB, sign-extended to 64 bits (05 R106). -/
def srcBImm (b : BitVec 8) : Word := (b.setWidth 7).signExtend 64

/-- srcB (05 R106, 04 R83): an immediate is applied to every element. -/
def readSrcB (c : Ctx) (b : BitVec 8) (g : Nat) : Res (List Word × Ctx) :=
  if srcBIsImm b then .ok (List.replicate g (srcBImm b), c) else readCode c b.toNat g

/-- srcB of the scalar FP instructions: an immediate is the FP32 value of its integer (05 R106). -/
def readSrcBFp (c : Ctx) (b : BitVec 8) (g : Nat) : Res (List Word × Ctx) :=
  if srcBIsImm b then
    .ok (List.replicate g (BitVec.ofNat 64 (fround fp32 .rne (ofInt (srcBImm b).toInt)).code), c)
  else readCode c b.toNat g

/-- A guard holds when p(pred) xor sense = 1 (05 R111). -/
def guardHolds (c : Ctx) (pred : BitVec 4) (sense : BitVec 1) : Bool := (c.readP pred.toNat) != (sense == 1)

/-- The offset that an address register gives: its low 48 bits (05 R108). -/
def offset48 (w : Word) : Nat := w.toNat % 2 ^ 48

/-- A capability register named in a slot field: while a KLD owes its write, the bundle blocks, or traps when that KLD
failed (18 R393). -/
def readCapReg (c : Ctx) (n : Nat) : Res TCap :=
  match (c.port 3).find? (fun e => e.kld == some n) with
  | none => .ok (c.readK n)
  | some e => match e.failed with
    | some (cause, info) => .trap cause info
    | none => .block (.kreg n)

/-! ### Vector elements -/

/-- Elements per register (08 R164). -/
def elemsPer (w : Nat) : Nat := 512 / w

/-- Element i of a register, of w bits (08 R164). -/
def elemOf (w : Nat) (v : Vec) (i : Nat) : Nat := v.toNat / 2 ^ (w * i) % 2 ^ w

/-- The elements of a register, in order. -/
def vecElems (w : Nat) (v : Vec) : List Nat := (List.range (elemsPer w)).map (elemOf w v)

/-- The number whose digits of w bits are the list, the first lowest. -/
def packNat (w : Nat) : List Nat → Nat
  | [] => 0
  | x :: t => x % 2 ^ w + 2 ^ w * packNat w t

/-- A register from its elements. -/
def vecOf (w : Nat) (es : List Nat) : Vec := BitVec.ofNat 512 (packNat w (es.take (elemsPer w)))

/-- The elements of a group, element e = m·L + l (08 R164). -/
def groupElems (w : Nat) (vs : List Vec) : List Nat := vs.flatMap (vecElems w)

/-- g registers from elements. -/
def groupOf (w : Nat) : Nat → List Nat → List Vec
  | 0, _ => []
  | g + 1, es => vecOf w es :: groupOf w g (es.drop (elemsPer w))

/-- The bits of the active lanes: 32 ones for each bit of a predicate (05 R115, 08 R166). -/
def laneMask (p : VPred) : Vec :=
  BitVec.ofNat 512 (packNat 32 ((List.range 16).map (fun i => if p.getLsbD i then 2 ^ 32 - 1 else 0)))

/-- The lanes that a pred field leaves active in a cluster (05 R115). -/
def activeLanes (c : Ctx) (cl : Nat) (pred : BitVec 4) : VPred := if pred = 0 then 0xFFFF else c.readVp cl pred.toNat

/-- The clusters that a V slot reaches (04 R76). -/
def clustersOf : VTarget → List Nat
  | .broadcast => List.range 8
  | .cluster c => [c.val]

/-- Members of a group (04 R83). -/
def groupSize (w : BitVec 2) : Nat := 2 ^ w.toNat

/-- The float format of a type code (05 R114). -/
def typeFmt (t : Nat) : Fmt :=
  match t with
  | 0 => fp32
  | 1 => bf16
  | 2 => e4m3
  | _ => e5m2

/-- A float type code. -/
def isFloatType (t : Nat) : Bool := decide (t < 4)

/-- The element that the 12-bit immediate gives to a type (04 R85): bit for bit for f32 and bf16, rounded for e4m3 and
e5m2. -/
def immElem (t : Nat) (i : BitVec 12) : Nat :=
  if t = 0 then i.toNat * 2 ^ 20
  else if t = 1 then i.toNat * 2 ^ 4
  else if isFloatType t then (fround (typeFmt t) .rne (fdecode fp32 (i.toNat * 2 ^ 20))).code
  else (i.signExtend 64).toNat % 2 ^ typeBits t

/-- Every element of a register the same. -/
def splat (w x : Nat) : Vec := vecOf w (List.replicate (elemsPer w) x)

/-- A group of registers of a cluster. -/
def readVGroup (c : Ctx) (cl r g : Nat) : List Vec := (List.range g).map (fun m => c.readV cl (r + m))

/-- The latch vb(n) of a cluster as a source; vb4 is a return port (04 R90). -/
def readVLatch (c : Ctx) (cl n : Nat) : Res (Vec × Ctx) :=
  if n = 4 then (readPort c (16 + cl)).bind fun v => .ok (v, c.markPort (16 + cl))
  else .ok (c.readVb cl n, c)

/-- srcB of a V slot in a cluster as g registers, by its bsel form (05 R113, 20 R431). -/
def readVSrcB (c : Ctx) (cl : Nat) (f : VFields) : Res (List Vec × Ctx) :=
  let g := groupSize f.width
  let w := typeBits f.type.toNat
  match f.bsel.toNat with
  | 0 => .ok (readVGroup c cl f.srcB.toNat g, c)
  | 1 => (readVLatch c cl f.srcB.toNat).bind fun r => .ok ([r.1], r.2)
  | 2 => .ok (List.replicate g (splat w ((c.readS f.srcB.toNat).toNat % 2 ^ w)), c)
  | _ => .ok (List.replicate g (splat w (immElem f.type.toNat (vImm f))), c)

end Sys2Proof.Machine
end

