-- ==== Sys2Proof/Machine/Memory.lean ====
section
/-! DEFINITION. Memory: physical bytes behind Mortar and the L1 caches, scratchpad, capabilities and their checks,
translation, and single reads, writes and atomics at each point of coherence (10, 11 R224 to R232, 12, 16 R339, R340). -/
namespace Sys2Proof.Machine

/-! ### Numbers from bytes -/

/-- The number that bytes hold, the first lowest (00 R2). -/
def bytesNat : List Byte → Nat
  | [] => 0
  | b :: t => b.toNat + 256 * bytesNat t

/-- n bytes of a number, the lowest first. -/
def natBytes : Nat → Nat → List Byte
  | 0, _ => []
  | n + 1, x => BitVec.ofNat 8 x :: natBytes n (x / 256)

/-- The bits [hi:lo] of a number. -/
def bits (x hi lo : Nat) : Nat := x / 2 ^ lo % 2 ^ (hi + 1 - lo)

/-- The mixer of 09 R183. -/
def mix64 (x : Word) : Word :=
  let x := x + 0x6A09E667F3BCC909
  let x := x ^^^ (x >>> 31)
  let x := x * 0xD6E8FEB86659FD93
  let x := x ^^^ (x >>> 29)
  let x := x * 0xA54FF53A5F1D36F1
  x ^^^ (x >>> 32)

/-- W(c, n) of 06 R134. -/
def drawWord (seed : Word) (c n : Nat) : Word := mix64 (seed ^^^ mix64 (BitVec.ofNat 64 (c * 2 ^ 48 + n)))

/-- The r of source element e of an operation that draws, issued with counter value n0 (06 R134). -/
def drawFor (seed : Word) (c n0 e : Nat) : Nat :=
  bits (drawWord seed c ((n0 + e / 4) % 2 ^ 48)).toNat (16 * (e % 4) + 15) (16 * (e % 4))

/-! ### Tiles and contexts -/

def State.tile (s : State) (t : Nat) : Tile := Sparse.get {} s.tiles t
def State.setTile (s : State) (t : Nat) (v : Tile) : State := { s with tiles := Sparse.set {} s.tiles t v }
def Tile.ctx (t : Tile) (c : Nat) : Ctx := Sparse.get {} t.ctxs c
def Tile.setCtx (t : Tile) (c : Nat) (v : Ctx) : Tile := { t with ctxs := Sparse.set {} t.ctxs c v }
def State.ctxAt (s : State) (t c : Nat) : Ctx := (s.tile t).ctx c
def State.setCtxAt (s : State) (t c : Nat) (v : Ctx) : State := s.setTile t ((s.tile t).setCtx c v)
def State.vf (s : State) (v : Nat) : Vf := Sparse.get {} s.vfs v
def State.setVf (s : State) (v : Nat) (x : Vf) : State := { s with vfs := Sparse.set {} s.vfs v x }
def State.gang (s : State) (g : Nat) : Option Gang := Sparse.get none s.gangs g

/-- The virtual function that owns a tile; 16 where none does. -/
def State.tileVf (s : State) (t : Nat) : Nat := (s.tile t).owner.getD 16

/-- A fresh free value; the counter advances. -/
def State.takeFree (s : State) : Word × State := (Config.freeWord s.free, { s with free := s.free + 1 })

/-! ### Physical memory at its point of coherence -/

/-- The tier of a physical address: T0, then T1, then host memory T2. (log 10: DESIGN CHOICE) -/
def tierOf (pa : Nat) : Nat :=
  if pa < Config.t0Bytes then 0 else if pa < Config.t0Bytes + Config.t1Bytes then 1 else 2

/-- A physical address lies in a bank of wave counters (02 R42). (log 11: DESIGN CHOICE) -/
def inWcBank (pa : Nat) : Bool := decide (Config.wcBank ≤ pa) && decide (pa < Config.wcBank + 16 * 8192)

/-- A byte of a bank of wave counters. -/
def State.wcByte (s : State) (pa : Nat) : Byte :=
  let o := pa - Config.wcBank
  BitVec.ofNat 8 ((Sparse.get 0 (s.vf (o / 8192)).wc (o % 8192 / 8)).toNat / 256 ^ (o % 8))

/-- A byte at its point of coherence, as every agent of the device, and the host, reads it there (12 R249, R271).
(log 4: DESIGN CHOICE) -/
def State.pocByte (s : State) (pa : Nat) : Byte :=
  if inWcBank pa then s.wcByte pa
  else match Sparse.get none s.mdata pa with
  | some b => b
  | none => Sparse.get 0 s.mem pa

def State.pocBytes (s : State) (pa n : Nat) : List Byte := (List.range n).map (fun i => s.pocByte (pa + i))

/-- The tag of a 16-byte unit; host memory holds none (10 R205). -/
def State.pocTag (s : State) (u : Nat) : Bool :=
  match Sparse.get none s.mtags u with
  | some b => b
  | none => Sparse.get false s.tags u

/-- The dword that holds a physical address, at its point of coherence. -/
def State.pocDword (s : State) (d : Nat) : Word := BitVec.ofNat 64 (bytesNat (s.pocBytes (8 * d) 8))

/-- The value that an aligned dword held is kept for the constant path (12 R267). -/
def State.keepHist (s : State) (d : Nat) (old : Word) : State :=
  { s with hist := Sparse.set [] s.hist d (Sparse.get [] s.hist d ++ [(s.clk, old)]) }

/-- Mortar writes a sector back to memory; it stays present and clean (11 R224). -/
def State.mortarWriteBack (s : State) (sec : Nat) : State :=
  let s := (List.range 64).foldl (fun (s : State) i =>
    match Sparse.get none s.mdata (64 * sec + i) with
    | some b => { s with mem := Sparse.set 0 s.mem (64 * sec + i) b,
                         mdata := Sparse.set none s.mdata (64 * sec + i) none }
    | none => s) s
  let s := (List.range 4).foldl (fun (s : State) i =>
    match Sparse.get none s.mtags (4 * sec + i) with
    | some b => { s with tags := Sparse.set false s.tags (4 * sec + i) b,
                         mtags := Sparse.set none s.mtags (4 * sec + i) none }
    | none => s) s
  { s with mortar := Sparse.set none s.mortar sec ((Sparse.get none s.mortar sec).map (fun m => { m with dirty := false })) }

/-- Mortar drops a sector with any dirty data (11 R241). -/
def State.mortarDrop (s : State) (sec : Nat) : State :=
  let s := (List.range 64).foldl (fun (s : State) i =>
    { s with mdata := Sparse.set none s.mdata (64 * sec + i) none }) s
  let s := (List.range 4).foldl (fun (s : State) i =>
    { s with mtags := Sparse.set none s.mtags (4 * sec + i) none }) s
  { s with mortar := Sparse.set none s.mortar sec none }

/-! ### Lines and their slices (11 R224, R225, R231, R244) -/

/-- Two sectors' tags name the same line: (VF, PASID, TID, C, LINE) (11 R225). -/
def MTag.sameLine (a b : MTag) : Bool :=
  a.vf == b.vf && a.pasid == b.pasid && a.tid == b.tid && a.c == b.c && a.line == b.line

/-- The home slice of a tile of a tensor by its pin mode (11 R231). -/
def sliceOf (mode slice tid c : Nat) : Nat :=
  let h := (mix64 (BitVec.ofNat 64 (tid * 2 ^ 48 + c))).toNat
  if mode = 1 then 32 * slice + h % 32 else if mode = 2 then slice else h % 128

/-- The home slice of a line; that of the flat space is hashed over the module. -/
def State.homeOf (s : State) (g : MTag) : Nat :=
  match Sparse.get none (s.vf g.vf).tensors g.tid with
  | some t => sliceOf t.mode t.slice g.tid g.c
  | none => sliceOf 0 0 g.tid g.c

/-- Lines that a slice of 4 MiB holds beside the staging windows set aside in it (11 R224, R244). -/
def State.sliceLines (s : State) (slice : Nat) : Nat :=
  let windows := s.vfs.flatMap (fun v => v.2.windows.filter (fun w => w.1 == slice))
  (2 ^ 22 - (windows.map (fun w => w.2.2)).sum) / 128

/-- A sector is present under the requester's tag: a lookup matches no other (01 R21, 11 R225). -/
def State.mortarHit (s : State) (sec : Nat) (tag : MTag) : Bool :=
  match Sparse.get none s.mortar sec with
  | some m => m.tag.sameLine tag
  | none => false

/-- The sectors of a line are evicted, a dirty one written back (11 R224). -/
def State.mortarEvict (s : State) (tag : MTag) : State :=
  (s.mortar.filter (fun x => match x.2 with | some m => m.tag.sameLine tag | none => false)).foldl
    (fun (s : State) x => (s.mortarWriteBack x.1).mortarDrop x.1) s

/-- The tags of the lines that are homed in a slice, one each. -/
def State.linesIn (s : State) (slice : Nat) : List MTag :=
  let tags := s.mortar.filterMap (fun x => x.2.map (fun m => m.tag))
  (tags.filter (fun g => s.homeOf g == slice)).foldl (fun l g => if l.any (fun h => h.sameLine g) then l else l ++ [g]) []

/-- A slice is brought down to n lines, with victims by free choice: the spec gives no replacement (10 R200). -/
def State.mortarTrim (s : State) (slice n : Nat) : Nat → State
  | 0 => s
  | k + 1 =>
    let ls := s.linesIn slice
    if ls.length ≤ n then s
    else
      let r := s.takeFree
      match ls[r.1.toNat % ls.length]? with
      | some g => (r.2.mortarEvict g).mortarTrim slice n k
      | none => s

/-- Room for a line in its home slice: a full slice evicts a line (10 R200, 11 R231). A slice that holds fewer lines than its
least capacity needs none. -/
def State.mortarRoom (s : State) (tag : MTag) : State :=
  if s.mortar.length < 16384 then s
  else
    let slice := s.homeOf tag
    if (s.linesIn slice).any (fun g => g.sameLine tag) then s
    else s.mortarTrim slice (s.sliceLines slice - 1) s.mortar.length

/-- A sector is present in Mortar under a tag (11 R224): what another virtual function or another filing left of it is
written back first, and a full slice makes room. -/
def State.mortarTouch (s : State) (sec : Nat) (tag : MTag) (dirty : Bool) : State :=
  match Sparse.get none s.mortar sec with
  | some m =>
    if m.tag.sameLine tag then { s with mortar := Sparse.set none s.mortar sec (some { m with dirty := m.dirty || dirty }) }
    else
      let s := ((s.mortarWriteBack sec).mortarDrop sec).mortarRoom tag
      { s with mortar := Sparse.set none s.mortar sec (some { tag, dirty }) }
  | none =>
    let s := s.mortarRoom tag
    { s with mortar := Sparse.set none s.mortar sec (some { tag, dirty }) }

/-! ### Writes at the home slice (11 R224, 16 R339) -/

/-- One byte written at its home slice. (log 28: DEDUCED) -/
def State.pocPut (s : State) (pa : Nat) (b : Byte) : State := { s with mdata := Sparse.set none s.mdata pa (some b) }

/-- The tag of a unit written at its home slice. -/
def State.pocPutTag (s : State) (u : Nat) (b : Bool) : State := { s with mtags := Sparse.set none s.mtags u (some b) }

/-- A write of bytes of one sector is performed at its home slice: the values that its dwords held are kept, the tags of the
units that it touches are set or cleared (10 R205), and a full sector clears poison (10 R219). -/
def State.sectorStore (s : State) (w : SectorWrite) : State :=
  match w.cells with
  | [] => s
  | (pa, _) :: _ =>
    let ds := (w.cells.map (fun x => x.1 / 8)).eraseDups
    let s := ds.foldl (fun s d => s.keepHist d (s.pocDword d)) (s.mortarTouch (pa / 64) w.tag true)
    let s := w.cells.foldl (fun s x => s.pocPut x.1 x.2) s
    let s := w.units.foldl (fun s u => s.pocPutTag u.1 u.2) s
    match w.poison with
    | some b => { s with poison := Sparse.set false s.poison (pa / 64) b }
    | none => s

/-- A write to a sector waits at its home slice: behind another, or for the host that may hold the sector. -/
def State.pending (s : State) (sec : Nat) : Bool := s.biQ.any (fun w => w.cells.any (fun x => x.1 / 64 == sec))

/-- A sector must be had from the host, or waits for it already (16 R339). -/
def State.awaits (s : State) (sec : Nat) : Bool := Sparse.get false s.hostHeld sec || s.pending sec

/-- A write of bytes of one sector reaches its home slice: it is performed, or waits there for the host's answer to a
back-invalidate snoop (16 R339). -/
def State.sectorWrite (s : State) (w : SectorWrite) : State :=
  match w.cells with
  | [] => s
  | (pa, _) :: _ => if s.awaits (pa / 64) then { s with biQ := s.biQ ++ [w] } else s.sectorStore w

/-- A write of some bytes of one sector at its point of coherence: it clears the tags of the units it touches, or sets
them for a tagged unit. -/
def State.pocWrite (s : State) (tag : MTag) (setTag : Bool) (cells : List (Nat × Byte)) : State :=
  s.sectorWrite {
    tag, cells, units := (cells.map (fun x => x.1 / 16)).eraseDups.map (fun u => (u, setTag))
    poison := if cells.length = 64 then some false else none }

/-! ### Filing in Mortar (11 R225, R228, R229) -/

def nth (l : List Nat) (i : Nat) : Nat := l.getD i 0

/-- Bits of an element of a tensor format (11 R226). -/
def tensorBits (fmt : Nat) : Nat :=
  match fmt with
  | 1 | 7 | 10 => 32
  | 2 | 8 => 16
  | 5 => 4
  | _ => 8

/-- Bytes of the extent of a tensor (11 R227). -/
def tensorExtent (t : Tensor) : Nat :=
  (nth t.dim 1 - 1) * nth t.stride 0 + (nth t.dim 2 - 1) * nth t.stride 1 + (nth t.dim 3 - 1) * nth t.stride 2 +
    nth t.dim 0 * tensorBits t.fmt / 8

/-- The element that lies at a byte offset of a tensor's object, where one does (11 R229). -/
def tensorElem (t : Tensor) (off : Nat) : Option (List Nat) :=
  if off < t.off ∨ t.off + tensorExtent t ≤ off then none
  else
    let w := tensorBits t.fmt
    let cut := fun (i : Nat) (r : Nat) => if nth t.stride i = 0 then (0, r) else (r / nth t.stride i, r % nth t.stride i)
    let (e3, r) := cut 2 (off - t.off)
    let (e2, r) := cut 1 r
    let (e1, r) := cut 0 r
    if nth t.dim 1 ≤ e1 ∨ nth t.dim 2 ≤ e2 ∨ nth t.dim 3 ≤ e3 ∨ nth t.dim 0 * w / 8 ≤ r then none
    else some [8 * r / w, e1, e2, e3]

/-- Tile coordinate C of an element (11 R225, R228). -/
def tensorCoord (t : Tensor) (e : List Nat) : Nat :=
  (List.range 4).foldl (fun c d => c + nth e d / nth t.tile d * 4096 ^ d) 0

/-- Byte of an element within its tile image (11 R228). -/
def tensorImageByte (t : Tensor) (e : List Nat) : Nat :=
  let l := fun d => nth e d % nth t.tile d
  (((l 3 * nth t.tile 2 + l 2) * nth t.tile 1 + l 1) * nth t.tile 0 + l 0) * tensorBits t.fmt / 8

/-- The flat tag of a virtual address (11 R225). -/
def flatTag (vf pasid va : Nat) (obj : Option Nat) : MTag :=
  { vf, pasid, tid := 0, c := va / 4096, line := va % 4096 / 128, va := va / 64 * 64, obj }

/-- The object entry that the tiles and ports hold: as OBJTAB, OBJINV and the Mortar commands left it (10 R206 to R208). -/
def State.objEntry (s : State) (vf idx : Nat) : Option ObjEntry :=
  if (s.vf vf).objCount ≤ idx then none else Sparse.get none (s.vf vf).objs idx

/-- The tag under which a sector is filed: by the tensor that the entry of the access's object names, else flat (11 R229). -/
def State.fileTag (s : State) (vf pasid va : Nat) (obj : Option Nat) : MTag :=
  match obj.bind (s.objEntry vf) with
  | none => flatTag vf pasid va obj
  | some o =>
    match if o.tid = 0 then none else Sparse.get none (s.vf vf).tensors o.tid with
    | none => flatTag vf pasid va obj
    | some t =>
      match tensorElem t (va - o.vabase) with
      | some e => { vf, pasid, tid := o.tid, c := tensorCoord t e, line := tensorImageByte t e / 128, va := va / 64 * 64, obj }
      | none => flatTag vf pasid va obj

/-! ### Translation (10 R210, R211) -/

/-- What a translation gives. -/
inductive Xlat where
  | mapped (pa : Nat)
  | missing
  | forbidden
  deriving DecidableEq, Repr

/-- The key of a page: its PASID and its number. (log 29: DESIGN CHOICE) -/
def atcKey (pasid vpage : Nat) : Nat := 2 ^ 45 * pasid + vpage

/-- Pages of 4 KiB in a translation (10 R210). -/
def mapPages (m : PageMap) : Nat := if m.size = 0 then 1 else if m.size = 1 then 512 else 2 ^ 18

/-- The first page of a translation of a size that would cover a page. -/
def pageBase (vpage size : Nat) : Nat := if size = 0 then vpage else if size = 1 then vpage / 512 * 512 else vpage / 2 ^ 18 * 2 ^ 18

/-- The page, of whatever size, that covers a page of 4 KiB: its first page, and its entry. -/
def State.pageAt (s : State) (pasid vpage : Nat) : Option (Nat × AtcEntry) :=
  [0, 1, 2].findSome? (fun z => match Sparse.get none s.atc (atcKey pasid (pageBase vpage z)) with
    | some e => if vpage < pageBase vpage z + mapPages e.map then some (pageBase vpage z, e) else none
    | none => none)

/-- A page is being moved (10 R223). -/
def State.moving (s : State) (pasid vpage : Nat) : Bool := s.pageMoves.any (fun m => m.pasid == pasid && m.vpage == vpage)

/-- The translation of a virtual address, for a read or for a write. A page that is being moved is held as though it had none
(10 R223). -/
def State.lookupVa (s : State) (pasid va : Nat) (write : Bool) : Xlat :=
  match s.pageAt pasid (va / 4096) with
  | none => .missing
  | some (b, e) =>
    if !e.held || s.moving pasid b then .missing
    else if (if write then !e.map.writable || inWcBank (4096 * e.map.ppage) else !e.map.readable) then .forbidden
    else .mapped ((e.map.ppage + (va / 4096 - b)) * 4096 + va % 4096)

/-- Where a virtual address lies, whatever its page allows. -/
def State.physOf (s : State) (pasid va : Nat) : Option Nat :=
  match s.lookupVa pasid va false, s.lookupVa pasid va true with
  | .mapped pa, _ => some pa
  | _, .mapped pa => some pa
  | _, _ => none

/-- A page is used: its access bit is set, or a request for it is raised once (10 R210, R223). -/
def State.touchPage (s : State) (pasid va : Nat) : State :=
  let ask :=
    if s.pageReqs.any (fun r => r.pasid == pasid && r.vpage == va / 4096) then s
    else { s with pageReqs := s.pageReqs ++ [{ pasid, vpage := va / 4096, pri := false }] }
  match s.pageAt pasid (va / 4096) with
  | none => ask
  | some (b, e) =>
    if !e.held then ask
    else if e.accessed then s
    else { s with atc := Sparse.set none s.atc (atcKey pasid b) (some { e with accessed := true }) }

/-! ### The L1 data cache (10 R200) -/

def bytesVec (bs : List Byte) : Vec := BitVec.ofNat 512 (bytesNat bs)
def vecByte (v : Vec) (i : Nat) : Byte := BitVec.ofNat 8 (v.toNat / 2 ^ (8 * i))
/-- Byte i replaced. -/
def vecPutByte (v : Vec) (i : Nat) (b : Byte) : Vec :=
  (v &&& ~~~(0xFF#512 <<< (8 * i))) ||| (b.setWidth 512 <<< (8 * i))

/-- A sector as a fill takes it from the point of coherence. -/
def State.freshSector (s : State) (sec : Nat) (tag : MTag) : L1Sector :=
  { data := bytesVec (s.pocBytes (64 * sec) 64),
    tags := (List.range 4).foldl (fun b i => if s.pocTag (4 * sec + i) then b ||| BitVec.twoPow 4 i else b) 0,
    poison := Sparse.get false s.poison sec, fill := s.clk, mtag := tag }

def Tile.l1Get (t : Tile) (sec : Nat) : Option L1Sector := Sparse.get none t.l1 sec
def Tile.l1Set (t : Tile) (sec : Nat) (x : Option L1Sector) : Tile := { t with l1 := Sparse.set none t.l1 sec x }

/-- The sectors of the lines of 128 bytes that a tile's L1 holds in a set. -/
def Tile.l1Lines (t : Tile) (set : Nat) : List Nat :=
  ((t.l1.map (fun x => x.1 / 2)).eraseDups).filter (fun l => Config.l1Set l % 512 == set)

/-- The dirty bytes of an L1 sector reach their home slice, and its poison with them (10 R219); the copy stays, clean
(10 R200). -/
def State.l1WriteBack (s : State) (t sec : Nat) : State :=
  match (s.tile t).l1Get sec with
  | some x =>
    if x.dirty.isNone then s
    else
      let dirty := fun (i : Nat) => x.dmask.getLsbD i
      let w : SectorWrite := {
        tag := s.fileTag x.mtag.vf x.mtag.pasid x.mtag.va x.mtag.obj
        cells := ((List.range 64).filter dirty).map (fun i => (64 * sec + i, vecByte x.data i))
        units := ((List.range 4).filter (fun i => bits x.dmask.toNat (16 * i + 15) (16 * i) != 0)).map
          (fun i => (4 * sec + i, x.tags.getLsbD i))
        poison := if x.poison then some true else if x.dmask = BitVec.allOnes 64 then some false else none }
      (s.sectorWrite w).setTile t ((s.tile t).l1Set sec (some { x with dirty := none, dmask := 0 }))
  | none => s

/-- A dirty sector of a tile, or a write that has left it, must wait for the host (16 R339). -/
def State.hostOwes (s : State) (t : Nat) : Bool :=
  !s.biQ.isEmpty || (s.tile t).l1.any (fun x => match x.2 with
    | some d => d.dirty.isSome && s.awaits x.1
    | none => false)

def State.l1Drop (s : State) (t sec : Nat) : State := s.setTile t ((s.tile t).l1Set sec none)

/-- The tile's copy of a sector is written back and dropped (12 R251, R261). -/
def State.l1Flush (s : State) (t sec : Nat) : State := (s.l1WriteBack t sec).l1Drop t sec

/-- Room for the line of a sector in a tile's L1 of 512 sets of ten lines (01 R18): a full set gives up a line, by free
choice (10 R200). Fewer than ten sectors fill no set. -/
def State.l1Room (s : State) (t sec : Nat) : State :=
  let x := s.tile t
  if x.l1.length < 10 then s
  else
    let ls := x.l1Lines (Config.l1Set (sec / 2) % 512)
    if ls.length < 10 || ls.contains (sec / 2) then s
    else
      let r := s.takeFree
      let v := ls.getD (r.1.toNat % ls.length) 0
      (r.2.l1Flush t (2 * v)).l1Flush t (2 * v + 1)

/-- The sector is in the tile's L1: filled from the point of coherence where it is not. (log 12: DESIGN CHOICE) -/
def State.l1Ensure (s : State) (t sec : Nat) (tag : MTag) : State :=
  match (s.tile t).l1Get sec with
  | some _ => s
  | none =>
    let s := s.l1Room t sec
    let x := s.freshSector sec tag
    (s.mortarTouch sec tag false).setTile t ((s.tile t).l1Set sec (some x))

/-- Bytes of a sector written in L1 by a context: the sector is dirty from the first such write (10 R200). -/
def State.l1Write (s : State) (t : Nat) (setTag : Bool) (cells : List (Nat × Byte)) : State :=
  match cells with
  | [] => s
  | (pa, _) :: _ =>
    let sec := pa / 64
    match (s.tile t).l1Get sec with
    | none => s
    | some x =>
      let ds := (cells.map (fun y => y.1 / 8)).eraseDups
      let s := ds.foldl (fun s d => s.keepHist d
        (BitVec.ofNat 64 (x.data.toNat / 2 ^ (64 * (d % 8))))) s
      let us := (cells.map (fun y => y.1 / 16 % 4)).eraseDups
      let data := cells.foldl (fun v y => vecPutByte v (y.1 % 64) y.2) x.data
      let dmask := cells.foldl (fun m y => m ||| BitVec.twoPow 64 (y.1 % 64)) x.dmask
      let tags := us.foldl (fun b u => if setTag then b ||| BitVec.twoPow 4 u else b &&& ~~~BitVec.twoPow 4 u) x.tags
      let x := { x with data, dmask, tags, dirty := some (x.dirty.getD s.clk),
                        poison := x.poison && cells.length != 64 }
      s.setTile t ((s.tile t).l1Set sec (some x))

/-! ### Scratchpad (10 R201, R203, R205) -/

def State.spadByte (s : State) (t off : Nat) : Byte := Sparse.get 0 (s.tile t).spad off
def State.spadBytes (s : State) (t off n : Nat) : List Byte := (List.range n).map (fun i => s.spadByte t (off + i))
def Tile.spadPut (t : Tile) (off : Nat) (b : Byte) : Tile :=
  { t with spad := Sparse.set 0 t.spad off b, spadTag := Sparse.set false t.spadTag (off / 16) false }
/-- A write of bytes to the scratchpad clears the tags of the units it touches (10 R205). -/
def Tile.spadCells (t : Tile) (cells : List (Nat × Byte)) : Tile :=
  let t := cells.foldl (fun x y => x.spadPut y.1 y.2) t
  -- a write of a whole sector clears its poison (10 R219)
  { t with spadPoison := t.spadPoison.filter (fun p => (cells.filter (fun y => y.1 / 64 == p.1)).length < 64) }
def State.spadWrite (s : State) (t : Nat) (cells : List (Nat × Byte)) : State :=
  s.setTile t ((s.tile t).spadCells cells)
def State.spadSetTag (s : State) (t u : Nat) (b : Bool) : State :=
  s.setTile t { s.tile t with spadTag := Sparse.set false (s.tile t).spadTag u b }

/-! ### Capabilities (10 R202 to R206) -/

def capGen (c : TCap) : Nat := bits c.bits.toNat 127 112
def capObj (c : TCap) : Nat := bits c.bits.toNat 111 88
/-- The rights R 32, W 16, A 8, B 4, D 2, E 1. -/
def capRights (c : TCap) : Nat := bits c.bits.toNat 87 82
def capKind (c : TCap) : Nat := bits c.bits.toNat 81 80
def capLow (c : TCap) : Nat := bits c.bits.toNat 79 40
def capLen (c : TCap) : Nat := bits c.bits.toNat 39 0
def capIsSpad (c : TCap) : Bool := capObj c == 0xFFFFFF

/-- A capability from its fields (10 R202). -/
def mkCap (gen obj rights kind low len : Nat) : TCap :=
  { bits := BitVec.ofNat 128 (gen * 2 ^ 112 + obj * 2 ^ 88 + rights * 2 ^ 82 + kind * 2 ^ 80 + low * 2 ^ 40 + len),
    tag := true }

def rR : Nat := 32
def rW : Nat := 16
def rA : Nat := 8
def rB : Nat := 4
def rD : Nat := 2
def rE : Nat := 1

/-- How an instruction uses a capability, for the KIND test (10 R204). -/
inductive Use where
  | load | store | atomic | sync | engine | untested
  deriving DecidableEq, Repr

def kindAllowed (u : Use) (kind : Nat) : Bool :=
  match u with
  | .load | .atomic | .untested => true
  | .store | .engine => kind != 1
  | .sync => kind == 1

/-- The fields of an object entry (10 R207); reserved fields or a LEN of 2^40 and more make it not VALID. -/
def decodeObj (bs : List Byte) : ObjEntry :=
  let f := fun (o n : Nat) => bytesNat ((bs.drop o).take n)
  let own := f 0x14 4
  { vabase := f 0 8, len := f 8 8, gen := f 0x10 2, tid := f 0x12 2, pasid := bits own 19 0, vf := bits own 23 20,
    tier := bits (f 0x18 1) 1 0, nodem := bits (f 0x18 1) 2 2 == 1,
    valid := bits own 31 31 == 1 && bits own 30 24 == 0 && f 0 8 < 2 ^ 57 && f 8 8 < 2 ^ 40 &&
      bits (f 0x18 1) 7 3 == 0 && f 0x19 7 == 0 }

/-- Bytes of a region of virtual memory as they stand at the point of coherence; none where a page has no translation. -/
def State.spaceBytes (s : State) (r : Region) (off n : Nat) : Option (List Byte) :=
  (List.range n).foldr (fun i acc => match acc, s.lookupVa r.pasid (r.va + off + i) false with
    | some bs, .mapped pa => some (s.pocByte pa :: bs)
    | _, _ => none) (some [])

/-- A write to a byte of a region waits at its home slice. -/
def State.regionPending (s : State) (r : Region) (off n : Nat) : Bool :=
  !s.biQ.isEmpty && (List.range n).any (fun i => match s.lookupVa r.pasid (r.va + off + i) false with
    | .mapped pa => s.pending (pa / 64)
    | _ => false)

/-- Bytes of a region as an access reads them, behind the writes that wait at their home slices; none while one does, or
where a page has no translation. -/
def State.regionBytes (s : State) (r : Region) (off n : Nat) : Option (List Byte) :=
  if s.regionPending r off n then none else s.spaceBytes r off n

/-- cap_check (10 R206): the checks in order, for an access of n bytes at offset off. `need` are the rights, `align` the
alignment asked for, `vf` and `spad` the virtual function and the SPAD of the crew. Answers where the access lies. -/
def State.capCheck (s : State) (vf spad : Nat) (cap : TCap) (off n need align : Nat) (u : Use) : Res Place :=
  let info := BitVec.ofNat 64 off
  (Res.need (cap.tag && kindAllowed u (capKind cap) && (capRights cap &&& need == need)) .kright info).bind fun _ =>
  (Res.need (decide (capLow cap ≤ off) && decide (off + n ≤ capLow cap + capLen cap) &&
    (!capIsSpad cap || decide (off + n ≤ spad))) .kbound info).bind fun _ =>
  (Res.need (off % align == 0) .misalign info).bind fun _ =>
  if capIsSpad cap then
    (Res.need (capGen cap == 0) .kstale info).bind fun _ => .ok (.spad off)
  else match s.objEntry vf (capObj cap) with
    | none => .trap .kstale info
    | some e =>
      (Res.need (e.valid && e.vf == vf && e.gen == capGen cap) .kstale info).bind fun _ =>
      (Res.need (decide (off + n ≤ e.len)) .kbound info).bind fun _ =>
      .ok (.virt e.pasid (e.vabase + off) (some (capObj cap)))

/-! ### Atomics (17 R352 to R356) -/

/-- Lane-wise float addition over k lanes of a format (17 R354). -/
def laneAdd (f : Fmt) : Nat → Nat → Nat → Nat
  | 0, _, _ => 0
  | k + 1, a, b =>
    (fadd f .rne (fdecode f (a % 2 ^ f.bits)) (fdecode f (b % 2 ^ f.bits))).code +
      2 ^ f.bits * laneAdd f k (a / 2 ^ f.bits) (b / 2 ^ f.bits)

/-- The signed reading of the low n bytes. -/
def signedBytes (n x : Nat) : Int := (BitVec.ofNat (8 * n) x).toInt

/-- The new value of an atomic over n bytes (17 R352, R356). -/
def atomNew (n : Nat) (op : AtomOp) (old opnd : Nat) : Nat :=
  match op with
  | .add => (old + opnd) % 2 ^ (8 * n)
  | .and => old &&& opnd
  | .or => old ||| opnd
  | .xor => old ^^^ opnd
  | .max => if signedBytes n old < signedBytes n opnd then opnd else old
  | .min => if signedBytes n opnd < signedBytes n old then opnd else old
  | .maxN => max old opnd
  | .minN => min old opnd
  | .xchg => opnd
  | .fadd32 => laneAdd fp32 (n / 4) old opnd
  | .faddBf16 => laneAdd bf16 (n / 2) old opnd
  | .cas e => if old = e.toNat % 2 ^ (8 * n) then opnd else old

/-- Whether an atomic writes: a compare and swap only when it succeeds (17 R357). -/
def atomWrites (n : Nat) (op : AtomOp) (old : Nat) : Bool :=
  match op with
  | .cas e => old == e.toNat % 2 ^ (8 * n)
  | _ => true

/-- Cells of n bytes from an address. -/
def cellsFrom (a : Nat) (bs : List Byte) : List (Nat × Byte) := bs.zipIdx.map (fun x => (a + x.2, x.1))

/-- An atomic at a physical address, performed at its ALU after the tile's copy has been written back and dropped
(12 R261): the old value. -/
def State.atomicAt (s : State) (t : Nat) (tag : MTag) (pa n : Nat) (op : AtomOp) (opnd : Nat) : Nat × State :=
  let s := s.l1Flush t (pa / 64)
  let old := bytesNat (s.pocBytes pa n)
  let new := atomNew n op old (opnd % 2 ^ (8 * n))
  (old, if atomWrites n op old then s.pocWrite tag false (cellsFrom pa (natBytes n new))
        else s.mortarTouch (pa / 64) tag false)

/-- An atomic on the scratchpad, at the ALU of its bank (10 R201). -/
def State.atomicSpad (s : State) (t off n : Nat) (op : AtomOp) (opnd : Nat) : Nat × State :=
  let old := bytesNat (s.spadBytes t off n)
  let new := atomNew n op old (opnd % 2 ^ (8 * n))
  (old, if atomWrites n op old then s.spadWrite t (cellsFrom off (natBytes n new)) else s)

end Sys2Proof.Machine
end

