-- ==== Sys2Proof/Machine/Device.lean ====
section
/-! DEFINITION. What the device itself writes and reads in memory: bytes of a virtual space at the point of coherence,
supervisor queues and their records (15 R325 to R327), soft-error and event counters (15 R337, 16 R348), engine
completions of a strand (04 R90, 02 R52), and Crown holds (14 R303). -/
namespace Sys2Proof.Machine

/-! ### Virtual memory at the point of coherence -/

/-- Bytes of a virtual space; none where a page has no translation. -/
def State.vaRead (s : State) (pasid va n : Nat) : Option (List Byte) := s.regionBytes { pasid, va, len := n } 0 n

/-- The parts of a byte range that lie in one sector each: offset from its start, and length. -/
def sectorParts (va : Nat) : Nat → List (Nat × Nat)
  | 0 => []
  | n + 1 =>
    match sectorParts va n with
    | [] => [(0, 1)]
    | ps => if (va + n) % 64 = 0 then ps ++ [(n, 1)] else ps.dropLast ++ [((ps.getLastD (0, 0)).1, (ps.getLastD (0, 0)).2 + 1)]

/-- Pages of a range. -/
def pagesOf (va n : Nat) : List Nat :=
  if n = 0 then [] else (List.range ((va + n - 1) / 4096 - va / 4096 + 1)).map (fun i => va / 4096 + i)

/-- Every page of a range is used (10 R210). -/
def State.touchRange (s : State) (pasid va n : Nat) : State :=
  (pagesOf va n).foldl (fun s p => s.touchPage pasid (4096 * p)) s

/-- What a range's translations say together: forbidden before missing. -/
def State.rangeXlat (s : State) (pasid va n : Nat) (write : Bool) : Xlat :=
  (pagesOf va n).foldl (fun x p => match x, s.lookupVa pasid (4096 * p) write with
    | .forbidden, _ => .forbidden
    | _, .forbidden => .forbidden
    | .missing, _ => .missing
    | _, .missing => .missing
    | x, _ => x) (.mapped 0)

/-- A sector of a mapped range satisfies a test. -/
def State.anySector (s : State) (pasid va n : Nat) (test : Nat → Bool) : Bool :=
  (sectorParts va n).any (fun x => match s.physOf pasid (va + x.1) with
    | some pa => test (pa / 64)
    | none => false)

/-- A sector of a range must be had from the host. -/
def State.rangeHeld (s : State) (pasid va n : Nat) : Bool := s.anySector pasid va n s.awaits

/-- A write to a sector of a range waits for the host. -/
def State.rangePending (s : State) (pasid va n : Nat) : Bool := !s.biQ.isEmpty && s.anySector pasid va n s.pending

/-- Cells of a virtual space written at the point of coherence, a sector at a time; each page is mapped. -/
def State.vaPut (s : State) (vf pasid : Nat) (obj : Option Nat) (setTag : Bool) (cells : List (Nat × Byte)) : State :=
  ((cells.map (fun x => x.1 / 64)).eraseDups).foldl (fun (s : State) sec =>
    match s.lookupVa pasid (64 * sec) true with
    | .mapped pa => s.pocWrite (s.fileTag vf pasid (64 * sec) obj) setTag
        ((cells.filter (fun x => x.1 / 64 == sec)).map (fun x => (pa + x.1 % 64, x.2)))
    | _ => s) s

/-- A range of virtual memory that a capability names (15 R323, 03 R65). -/
def State.capRegion (s : State) (vf : Nat) (c : TCap) : Option Region :=
  match s.objEntry vf (capObj c) with
  | some e => if e.valid && e.vf == vf && e.gen == capGen c && decide (capLow c + capLen c ≤ e.len)
      then some { pasid := e.pasid, va := e.vabase + capLow c, len := capLen c } else none
  | none => none

/-- TIER of an object's entry. -/
def State.objTier (s : State) (vf obj : Nat) : Option Nat := (s.objEntry vf obj).map (fun e => e.tier)

/-- The capability in a 16-byte unit of a virtual space, with its tag, as KLD reads it; none where its page is not mapped. -/
def State.vaCap (s : State) (pasid va : Nat) : Option TCap :=
  match s.vaRead pasid va 16, s.lookupVa pasid va false with
  | some bs, .mapped pa => some { bits := BitVec.ofNat 128 (bytesNat bs), tag := tierOf pa != 2 && s.pocTag (pa / 16) }
  | _, _ => none

/-! ### Supervisor queues (15 R325 to R327) -/

/-- One record posted to one queue, where its pages are mapped. -/
def State.postTo (s : State) (q : SupQ) (vf : Nat) (bytes : List Byte) : Option State :=
  match s.vaRead q.region.pasid q.region.va 24 with
  | none => none
  | some cb =>
    let posted := bytesNat (cb.take 8)
    let taken := bytesNat ((cb.drop 8).take 8)
    let lost := bytesNat (cb.drop 16)
    let put := fun (s : State) (off n x : Nat) =>
      s.vaPut vf q.region.pasid none false (cellsFrom (q.region.va + off) (natBytes n x))
    let s := s.touchPage q.region.pasid q.region.va
    if (posted + 2 ^ 64 - taken) % 2 ^ 64 == q.slots then some (put s 0x10 8 ((lost + 1) % 2 ^ 64))
    else
      let slot := q.region.va + 0x40 + 64 * (posted % q.slots)
      match s.lookupVa q.region.pasid slot true with
      | .mapped pa =>
        -- the count follows the record, which must be performed first (15 R326, 16 R339)
        if s.awaits (pa / 64) then none else
        let s := (s.touchPage q.region.pasid slot).vaPut vf q.region.pasid none false (cellsFrom slot ((bytes ++ List.replicate 64 0).take 64))
        some (put s 0 8 ((posted + 1) % 2 ^ 64))
      | _ => none

/-- The queue of a virtual function, or of the physical function (16). -/
def State.queueOf (s : State) (vf : Nat) : Option SupQ := if vf = 16 then s.pfSupq else (s.vf vf).supq

/-- A record sent to a queue: written now, or when its page is mapped. -/
def State.postOne (s : State) (vf : Nat) (bytes : List Byte) : State :=
  match s.queueOf vf with
  | none => s
  | some q =>
    match s.postTo q vf bytes with
    | some s' => s'
    | none =>
      let s := (s.touchRange q.region.pasid q.region.va 24).touchRange q.region.pasid
        (q.region.va + 0x40) (64 * q.slots)
      { s with deferred := s.deferred ++ [.post vf bytes] }

/-- SUP set in the KIND byte of a record. -/
def withSup (bytes : List Byte) : List Byte := bytes.set 1 ((bytes.getD 1 0) ||| 0x40)

/-- A trap record posted for a virtual function: to its queue, else to the physical function's with SUP, else counted in
DROPREC (15 R327). A record of a virtual function under FLR is dropped (R333). (log 96: DEDUCED) -/
def State.post (s : State) (vf : Nat) (bytes : List Byte) : State :=
  if (s.vf vf).flr then s
  else match s.queueOf vf, s.pfSupq with
  | some _, _ => s.postOne vf bytes
  | none, some _ => s.postOne 16 (withSup bytes)
  | none, none => { s with dropRec := s.dropRec + 1 }

/-- An error record, posted to both queues (10 R220, 15 R326). -/
def State.postError (s : State) (vf : Nat) (bytes : List Byte) : State :=
  if (s.vf vf).flr then s
  else match s.queueOf vf, s.pfSupq with
  | some _, some _ => (s.postOne vf bytes).postOne 16 bytes
  | some _, none => s.postOne vf bytes
  | none, some _ => s.postOne 16 bytes
  | none, none => { s with dropRec := s.dropRec + 1 }

/-- The 32 bytes of a trap record (15 R325). -/
def recordBytes (cause kind ctx tile own pc info clk : Nat) : List Byte :=
  natBytes 1 cause ++ natBytes 1 kind ++ natBytes 1 ctx ++ natBytes 1 tile ++ natBytes 4 own ++
    natBytes 8 pc ++ natBytes 8 info ++ natBytes 8 clk

/-- OWN of a record: PASID, virtual function, partition. -/
def recordOwn (pasid vf part : Nat) : Nat := pasid % 2 ^ 20 + 2 ^ 20 * (vf % 16) + 2 ^ 24 * (part % 2)

/-- A record without a strand: a launch queue or a save-area check (15 R325). -/
def State.postQueueRecord (s : State) (vf part : Nat) (cause : Cause) (info : Nat) : State :=
  s.post vf (recordBytes (causeCode cause) 3 0 0 (recordOwn 0 vf part) 0 info s.clk)

/-- A write by the device that waits for a translation (03 R74, 15 R323); the record that follows it is posted once it is
made (15 R319). -/
def State.devWrite (s : State) (w : DevWrite) : State :=
  match if w.record.isSome && s.rangeHeld w.pasid w.va w.bytes.length then .missing
    else s.rangeXlat w.pasid w.va w.bytes.length true with
  | .mapped _ =>
    let s := (s.touchRange w.pasid w.va w.bytes.length).vaPut w.vf w.pasid w.obj false (cellsFrom w.va w.bytes)
    match w.record with
    | some r => s.post w.vf r
    | none => s
  | _ => { s.touchRange w.pasid w.va w.bytes.length with deferred := s.deferred ++ [.write w] }

/-! ### Launch queues (02 R39, R40) -/

def Vf.queue (v : Vf) (part q : Nat) : LaunchQ := Sparse.get {} v.queues (64 * part + q)
def Vf.setQueue (v : Vf) (part q : Nat) (x : LaunchQ) : Vf :=
  { v with queues := Sparse.set {} v.queues (64 * part + q) x }
def State.setQueue (s : State) (v part q : Nat) (x : LaunchQ) : State := s.setVf v ((s.vf v).setQueue part q x)

/-- A queue halts: a reservation for it ends, and BADDESC is posted with the offset; a head that has been checked, and a wave
in admission, go on from there after SYSC restarts the queue (R38, R40, R48). -/
def State.haltQueue (s : State) (v part q : Nat) (x : LaunchQ) (off : Nat) : State :=
  let w := (s.vf v).setQueue part q { x with halt := true }
  let w := if Sparse.get none w.reserve part = some q then { w with reserve := Sparse.set none w.reserve part none } else w
  (s.setVf v w).postQueueRecord v part .baddesc (q + 128 * part + 256 * off)

/-- A write of TAIL: the records up to it are available; one that would overfill the ring is refused, and the queue
halts. -/
def State.writeTail (s : State) (v part q : Nat) (tail : BitVec 32) : State :=
  let x := (s.vf v).queue part q
  if x.size < (tail - x.head).toNat then s.haltQueue v part q x 0xFF
  else s.setQueue v part q { x with tail, since := if x.head = x.tail then s.clk else x.since }

/-- The virtual function whose doorbell page holds a physical address, and the place in its page (16 R342).
(log 112: DESIGN CHOICE) -/
def doorbellAt (pa : Nat) : Option (Nat × Nat) :=
  if Config.doorbell ≤ pa ∧ pa < Config.doorbell + 16 * 4096 then
    some ((pa - Config.doorbell) / 4096, (pa - Config.doorbell) % 4096) else none

/-- Bytes stored to a doorbell page: a whole TAIL among them is written, its queue's place in the page being that of its pair
of registers in BAR0 (02 R39, R40, 16 R342). -/
def State.ring (s : State) (v : Nat) (cells : List (Nat × Byte)) : State :=
  ((cells.map (fun x => x.1 / 16)).eraseDups).foldl (fun (s : State) k =>
    let bs := (List.range 4).filterMap (fun i => (cells.find? (fun x => x.1 == 16 * k + i)).map (fun x => x.2))
    if bs.length = 4 ∧ k < 128 then s.writeTail v (k / 64) (k % 64) (BitVec.ofNat 32 (bytesNat bs)) else s) s

/-! ### Trajectory rings (14 R311 to R314) -/

/-- Fields of a strand's handle. -/
def tjOpen (h : Word) : Bool := h.getLsbD 63
def tjRingOf (h : Word) : Nat := bits h.toNat 5 0
def tjSlotOf (h : Word) : Nat := bits h.toNat 31 16
def tjEpochOf (h : Word) : Nat := bits h.toNat 47 32

def State.tjRing (s : State) (vf r : Nat) : TjRing := Sparse.get {} (s.vf vf).tjrings r

/-- The address of a sequence slot's header. -/
def TjRing.slotVa (r : TjRing) (g : Region) (j : Nat) : Nat := g.va + j * (64 + 16 * r.maxrec)

/-- A handle is open and its ring is still the one in which its sequence was opened. -/
def State.tjCurrent (s : State) (vf : Nat) (h : Word) : Bool :=
  tjOpen h && (s.tjRing vf (tjRingOf h)).region.isSome && (s.tjRing vf (tjRingOf h)).epoch.toNat == tjEpochOf h

/-- The sequence of a strand that ends is freed as if it had never been opened (14 R314). -/
def State.tjFree (s : State) (vf : Nat) (h : Word) : State :=
  if !s.tjCurrent vf h then s
  else
    let r := s.tjRing vf (tjRingOf h)
    match r.region with
    | some g => s.devWrite { vf, pasid := g.pasid, va := r.slotVa g (tjSlotOf h) + 0x28, bytes := [0] }
    | none => s

/-! ### Counters -/

/-- Soft-error counter: class n of a unit, saturating (15 R337). -/
def State.softError (s : State) (unit n : Nat) : State :=
  let k := 16 * unit + n
  let x := Sparse.get 0 s.secnt k
  { s with secnt := Sparse.set 0 s.secnt k (if x = BitVec.allOnes 32 then x else x + 1) }

/-- EVSELn of a context selects a source (04 R96). -/
def Ctx.selects (c : Ctx) (n src : Nat) : Bool :=
  let e := (c.readCsr (0x10 + n)).toNat
  bits e 7 7 == 1 && bits e 5 0 == src

/-- k events of a source attributed to a strand (16 R348). -/
def State.count (s : State) (t c src k : Nat) : State :=
  let x := s.tile t
  let ns := (List.range 8).filter (fun n => (x.ctx c).selects n src)
  if ns.isEmpty then s
  else s.setTile t { x with evc := ns.foldl (fun m n => Sparse.set 0 m n ((Sparse.get 0 m n + k) % 2 ^ 48)) x.evc }

/-- k events with no issuing strand: once per counter that any context selects (16 R348). -/
def State.countTile (s : State) (t src k : Nat) : State :=
  let x := s.tile t
  let ns := (List.range 8).filter (fun n => (List.range 4).any (fun c => (x.ctx c).selects n src))
  if ns.isEmpty then s
  else s.setTile t { x with evc := ns.foldl (fun m n => Sparse.set 0 m n ((Sparse.get 0 m n + k) % 2 ^ 48)) x.evc }

/-- The monitor counters of a unit that count a source add k (16 R349). -/
def State.monitor (s : State) (unit source vf k : Nat) : State :=
  (List.range 8).foldl (fun (s : State) n =>
    let m := Sparse.get {} s.monitors (8 * unit + n)
    if m.source == source && (m.vf.isNone || m.vf == some vf) then
      { s with monitors := Sparse.set {} s.monitors (8 * unit + n) { m with count := (m.count + k) % 2 ^ 48 } }
    else s) s

/-- Sources of the monitors, which the spec names without numbers (16 R349). (log 97: DESIGN CHOICE) -/
def monChunks : Nat := 0
def monBytes (vc : Nat) : Nat := 1 + vc
def monStalls : Nat := 9
def monReplays (port : Nat) : Nat := 16 + port
def monBridge (direction : Nat) : Nat := direction
def monAts : Nat := 2

/-! ### Crews and strands wherever they are -/

/-- The key of a crew among the saved ones. -/
def crewKey (gang crew : Nat) : Nat := 256 * gang + crew

/-- The tile on which a crew is resident. -/
def State.crewTile (s : State) (gang crew : Nat) : Option Nat :=
  match s.gang gang with
  | some g => g.tiles.getD crew none
  | none => none

/-- Completion counter n of a tile. -/
def Tile.readCt (t : Tile) (n : Nat) : Word := Sparse.get 0 t.ct n
def Tile.setCt (t : Tile) (n : Nat) (v : Word) : Tile := { t with ct := Sparse.set 0 t.ct n v }
def Tile.bumpCt (t : Tile) (n k : Nat) : Tile := t.setCt n (t.readCt n + BitVec.ofNat 64 k)

/-- A change by k of a saved counter: in the save area, or owed to it where its page has no translation, or a write to it waits
(03 R61). -/
def State.bumpSaved (s : State) (key n k : Nat) : State :=
  match Sparse.get none s.saves key with
  | none => s
  | some y =>
    let va := y.area.va + 0x400 + 8 * n
    match s.vaRead y.area.pasid va 8, s.gang y.gang with
    | some bs, some g => s.devWrite { vf := g.vf, pasid := y.area.pasid, va, bytes := natBytes 8 ((bytesNat bs + k) % 2 ^ 64) }
    | _, _ => { s with saves := Sparse.set none s.saves key (some { y with owed := Sparse.set 0 y.owed n (Sparse.get 0 y.owed n + k) }) }

/-- The change of a saved crew's tile state, its counters in the save area with it. -/
def State.onSaved (s : State) (key : Nat) (y : Saved) (new : Tile) : State :=
  ((y.tile.ct.map (fun e => e.1) ++ new.ct.map (fun e => e.1)).eraseDups).foldl (fun (s : State) n =>
    let k := (new.readCt n - y.tile.readCt n).toNat
    if k = 0 then s else s.bumpSaved key n k)
    { s with saves := Sparse.set none s.saves key (some { y with tile := new }) }

/-- A change of a crew's tile state, resident or saved; nothing where the crew has retired. -/
def State.onCrew (s : State) (gang crew : Nat) (f : Tile → Tile) : State :=
  match s.crewTile gang crew with
  | some t => s.setTile t (f (s.tile t))
  | none =>
    match Sparse.get none s.saves (crewKey gang crew) with
    | some x => s.onSaved (crewKey gang crew) x (f x.tile)
    | none => s

/-- The tile state of a crew, resident or saved. -/
def State.crewState (s : State) (gang crew : Nat) : Option Tile :=
  match s.crewTile gang crew with
  | some t => some (s.tile t)
  | none => (Sparse.get none s.saves (crewKey gang crew)).map (fun x => x.tile)

/-- A change of a strand. -/
def State.onStrand (s : State) (i : Issuer) (f : Ctx → Ctx) : State :=
  s.onCrew i.gang i.crew (fun t => t.setCtx i.ctx (f (t.ctx i.ctx)))

/-- An engine operation's counter increment, on the crew's tile or in its saved state (02 R53). -/
def State.bump (s : State) (i : Issuer) (n k : Nat) : State := s.onCrew i.gang i.crew (fun t => t.bumpCt n k)

/-- A status or result becomes known for the port entry of command id (04 R90). -/
def Ctx.answer (c : Ctx) (port id : Nat) (v : Vec) (writes : List Wr) : Ctx :=
  c.setPort port ((c.port port).map (fun e =>
    if e.cmd == some id then { e with cmd := none, value := v, writes } else e))

/-- The status entry of an engine operation (04 R90); none with NR. -/
def State.status (s : State) (i : Issuer) (nr : Bool) (port id v : Nat) : State :=
  if nr then s else s.onStrand i (fun c => c.answer port id (BitVec.ofNat 512 v) [])

/-- A port entry taken by a producer in issue order (04 R90). -/
def Ctx.pushPort (c : Ctx) (port : Nat) (e : PortEntry) : Ctx := c.setPort port (c.port port ++ [e])

/-- The bytes of a dirty sector that its tile has not written, as the point of coherence holds them. -/
def State.refreshed (s : State) (sec : Nat) (x : L1Sector) : L1Sector :=
  let y := s.freshSector sec x.mtag
  { x with
    data := (List.range 64).foldl (fun v i => if x.dmask.getLsbD i then v else vecPutByte v i (vecByte y.data i)) x.data
    tags := (List.range 4).foldl (fun b i => if bits x.dmask.toNat (16 * i + 15) (16 * i) != 0 then b
      else (b &&& ~~~BitVec.twoPow 4 i) ||| (y.tags &&& BitVec.twoPow 4 i)) x.tags
    poison := x.poison || (y.poison && x.dmask != BitVec.allOnes 64) }

/-- Clean sectors leave the L1 of a tile: the effect of FENCE.ld and of a join (12 R256, R263). Of a dirty one the bytes
leave that the tile has not written: they are read anew, so that what has been delivered is seen there too (R254). -/
def State.dropClean (s : State) (t : Nat) : State :=
  s.setTile t { s.tile t with l1 := (s.tile t).l1.filterMap (fun x => match x.2 with
    | some d => if d.dirty.isSome then some (x.1, some (s.refreshed x.1 d)) else none
    | none => none) }

/-- A read of the strand before number n has not yet taken its value. -/
def Ctx.owesBefore (c : Ctx) (n : Nat) : Bool :=
  c.ports.any (fun p => p.2.any (fun e => e.failed.isNone && match e.held with
    | some h => decide (h.num < n)
    | none => false))

/-- A read of the strand has not yet taken its value. -/
def Ctx.owesRead (c : Ctx) : Bool := c.owesBefore (c.num + 1)

/-- A strand observes an operation's completion, with the force of a FENCE.ld at device scope: at once, or as a fence of its
request queue where earlier reads have yet to take their values (12 R263). -/
def State.join (s : State) (t c : Nat) : State :=
  let x := s.ctxAt t c
  if x.owesRead then
    s.setCtxAt t c { x with num := x.num + 1, fences := x.fences ++ [{ kind := 1, scope := 4, num := x.num }] }
  else s.dropClean t

/-- Every dirty sector of a tile reaches its point of coherence: the effect of FENCE.st and of a fork, which carry what was
delivered to the strand beside its own writes (12 R254, R256, R262, R266). -/
def State.flushTile (s : State) (t : Nat) : State := (s.tile t).l1.foldl (fun s x => s.l1WriteBack t x.1) s

/-- The context that a landing starts at its handler: the lowest dormant one (02 R52, R53). The offset is the handler's
64-byte number; frozen crews and those with a FATAL strand get the counter alone (15 R331). (log 61: DEDUCED) -/
def Tile.handlerCtx (t : Tile) (hnd : Nat) : Option Nat :=
  match t.crew with
  | none => none
  | some w =>
    if hnd = 0 || w.frozen || (List.range 4).any (fun c => (t.ctx c).run == .fatal) then none
    else (List.range 4).find? (fun c => (t.ctx c).run == .dormant)

/-- The context of a landing at its handler. -/
def Ctx.startHandler (x : Ctx) (l : Landing) : Ctx :=
  let x := { x with run := .ready, handler := true, pc := 64 * l.hnd, fromPc := none, npc := none, entry := true }
  ((x.writeS 1 (BitVec.ofNat 64 l.ct)).writeS 2 (BitVec.ofNat 64 l.len)).writeS 3 (BitVec.ofNat 64 l.off)

/-- A landing at the crew on a tile; a handler's start is a join (12 R263). (log 113: DEDUCED) -/
def State.landOn (s : State) (t : Nat) (l : Landing) : State :=
  let x := (s.tile t).bumpCt l.ct l.inc
  match x.handlerCtx l.hnd with
  | some c => (s.setTile t (x.setCtx c ((x.ctx c).startHandler l))).dropClean t
  | none => s.setTile t x

/-- A landing at the crew of an issuer: one that is not resident gets the counter alone. -/
def State.landAt (s : State) (i : Issuer) (l : Landing) : State :=
  match s.crewTile i.gang i.crew with
  | some t => s.landOn t l
  | none => s.bump i l.ct l.inc

/-! ### Crown holds (14 R303) -/

def State.crownSlot (s : State) (w j : Nat) : CrownSlot := Sparse.get {} s.crown (4 * w + j)
def State.setCrownSlot (s : State) (w j : Nat) (x : CrownSlot) : State :=
  { s with crown := Sparse.set {} s.crown (4 * w + j) x }

/-- A reader leaves an entry; a RETIRING one without readers is FREE (14 R303). -/
def CrownSlot.leave (x : CrownSlot) : CrownSlot :=
  let r := x.readers - 1
  { x with readers := r, state := if x.state = 3 ∧ r = 0 then 0 else x.state }

/-- The slot of a set that holds a version, among the states given. -/
def State.crownFind (s : State) (w : Nat) (states : List Nat) (ver : Option (BitVec 32)) : Option Nat :=
  (List.range 4).find? (fun j =>
    let x := s.crownSlot w j
    states.contains x.state.toNat && (ver.isNone || ver == some x.ver))

/-- The slot of a set that a virtual function holds in which a version has a reader. -/
def State.heldSlot (s : State) (vf w : Nat) (ver : BitVec 32) : Option Nat :=
  if Sparse.get none s.crownOwner w = some vf then
    (s.crownFind w [2, 3] (some ver)).filter (fun j => (s.crownSlot w j).readers != 0) else none

/-- The hold of a version is dropped where it is held; otherwise nothing changes (20 R458). -/
def State.dropHold (s : State) (vf w : Nat) (ver : BitVec 32) : State :=
  match s.heldSlot vf w ver with
  | some j => s.setCrownSlot w j (s.crownSlot w j).leave
  | none => s

/-- Fields of ADOPT (14 R310). -/
def adoptVer (a : Word) : BitVec 32 := (a >>> 32).setWidth 32
def adoptSlot (a : Word) : Nat := bits a.toNat 25 24
def adoptSet (a : Word) : Nat := bits a.toNat 23 18
def adoptHeld (a : Word) : Bool := bits a.toNat 17 17 == 1
def adoptLag (a : Word) : Nat := bits a.toNat 15 8
def adoptMode (a : Word) : Nat := bits a.toNat 1 0
/-- ADOPT from its fields. -/
def mkAdopt (ver : BitVec 32) (slot set : Nat) (held : Bool) (lag mode : Nat) : Word :=
  BitVec.ofNat 64 (ver.toNat * 2 ^ 32 + slot * 2 ^ 24 + set * 2 ^ 18 + held.toNat * 2 ^ 17 + lag * 2 ^ 8 + mode)

/-- The adoption hold of a strand is released (14 R310): the state with READERS lower, for an ADOPT value. -/
def State.releaseAdopt (s : State) (vf : Nat) (a : Word) : State :=
  if adoptHeld a then s.dropHold vf (adoptSet a) (adoptVer a) else s

end Sys2Proof.Machine
end

