-- ==== Sys2Proof/Machine/Ops.lean ====
section
/-! DEFINITION. The shared operations of a strand: landing of results (04 R88), blocking and leaving the core (03 R56 to
R58, 02 R50), taking a synchronous or engine-raised cause and returning from it (15 R319 to R331), barriers (17 R361),
and how a slot's outcome becomes the machine's next state. -/
namespace Sys2Proof.Machine

/-! ### The strand that acts -/

/-- The context that holds the core of the current tile. -/
def State.curCtx (s : State) : Nat := ((s.tile s.cur).running).getD 0
def State.ctx (s : State) : Ctx := s.ctxAt s.cur s.curCtx
def State.setCtx (s : State) (c : Ctx) : State := s.setCtxAt s.cur s.curCtx c
def State.curVf (s : State) : Nat := s.tileVf s.cur
def State.curCrew (s : State) : Option Crew := (s.tile s.cur).crew

/-- SPAD of the crew on a tile (02 R36). -/
def Tile.crewSpad (t : Tile) : Nat := match t.crew with | some w => w.spad | none => 0

/-- The gang of the crew on a tile. -/
def State.tileGang (s : State) (t : Nat) : Option Gang :=
  match (s.tile t).crew with
  | some w => s.gang w.gang
  | none => none

/-- The wave of a gang. -/
def State.gangWave (s : State) (g : Gang) : Option Wave := Sparse.get none s.waves g.wave

/-- The identity of a strand of a tile (15 R325). -/
def State.issuer (s : State) (t c : Nat) : Issuer :=
  match (s.tile t).crew with
  | some w => { gang := w.gang, crew := w.idx, ctx := c, vf := s.tileVf t,
                pasid := match s.gang w.gang with | some g => g.pasid | none => 0
                num := (s.ctxAt t c).num, seq := (s.tile t).logSeq }
  | none => { gang := 0, crew := 0, ctx := c, vf := s.tileVf t, pasid := 0 }

/-- Supervisor standing: the mark its gang was admitted with (15 R328). -/
def State.curMark (s : State) : Nat :=
  match s.tileGang s.cur with
  | some g => g.mark
  | none => 0

/-! ### Pending results (04 R88) -/

/-- Results of one issue of a bundle with one class, cluster and write clk are written together (04 R88). -/
def Ctx.emit (c : Ctx) (p : Pending) : Ctx :=
  match c.pending.find? (fun q => q.due == p.due && q.cls == p.cls && q.cluster == p.cluster && q.ipc == p.ipc &&
      q.issued == p.issued && p.cls != .none) with
  | some _ => { c with pending := c.pending.map (fun q =>
      if q.due == p.due && q.cls == p.cls && q.cluster == p.cluster && q.ipc == p.ipc && q.issued == p.issued then
        { q with slot := q.slot ||| p.slot, writes := q.writes ++ p.writes } else q) }
  | none => { c with pending := c.pending ++ [p] }

/-- A result of latency n of the bundle that issues now; latency 1 is never captured (03 R63). -/
def State.emit (s : State) (cls : MouldClass) (cluster slot n : Nat) (ws : List Wr) : State :=
  let c := s.ctx
  s.setCtx (c.emit { due := s.clk + n, issued := s.clk, cls := if n ≤ 1 then .none else cls, cluster, slot, ipc := c.pc, writes := ws })

/-- Bits of mask replaced. -/
def mergeBits {w : Nat} (mask old new : BitVec w) : BitVec w := (old &&& ~~~mask) ||| (new &&& mask)

def redCode : RedOp → Nat
  | .add => 0
  | .max => 1
  | .min => 2

/-- The bits of a sum latch as a landing instruction of a type reads them: 32 bits of FP32, an element of s32, s16 or s8, or
all 64 (08 R172, R173). (log 118: DEDUCED) -/
def latchAs (type : Nat) (b : Word) : Word :=
  if type < 4 then BitVec.ofNat 64 (b.toNat % 2 ^ 32)
  else if type = 7 then b
  else BitVec.ofInt 64 (BitVec.ofNat (typeBits type) b.toNat).toInt

/-- A reduction result arrives at a sum latch: it takes the value when EMPTY, else combines with it (08 R172). -/
def SumLatch.land (l : SumLatch) (op : RedOp) (type : Nat) (v : Word) : IRes :=
  if l.full then redNode (redCode op) type (latchAs type l.bits) v else { value := v }

/-- A write that stays within the context. -/
def Ctx.applyWr (c : Ctx) (w : Wr) : Ctx :=
  match w with
  | .sreg r v => c.writeS r v
  | .kreg r v => c.writeK r v
  | .preg n v => c.writeP n v
  | .latch n v => c.writeB n v
  | .shadow i mask v =>
    let k := if i < 4 then 4 + i else 8 + i
    c.writeShape k (mergeBits mask (c.readShape k) v)
  | .scale n v => c.writeSc n v
  | .satf v => c.writeCsr 0x0B (c.readCsr 0x0B ||| v.setWidth 64)
  | .vreg cl r mask v => c.writeV cl r (mergeBits mask (c.readV cl r) v)
  | .vpred cl n mask v => c.writeVp cl n (mergeBits mask (c.readVp cl n) v)
  | .vlatch cl n v => c.writeVb cl n v
  | .sum cl n op type v =>
    let r := (c.readSum cl n).land op type v
    (c.writeSum cl n { bits := r.value, full := true }).writeCsr 0x0B (c.readCsr 0x0B ||| r.flags.setWidth 64)
  | .ertgt v => { c with ertgt := v }
  | .csr _ _ => c
  | .ring _ _ _ _ => c

/-- The bits of each CSR that a CWR changes (04 R92 to R96, 10 R217, 14 R310); the others are RO or reserved. -/
def csrMask (n : Nat) : Word :=
  if n = 0x02 then 0x7
  else if n = 0x07 then 0xFCFF03
  else if n = 0x0B then 0xF
  else if n = 0x0C then 0x3F
  else if n = 0x0D then 0xFFFFFFFFFFFFFFFF
  else if 0x10 ≤ n ∧ n ≤ 0x17 then 0xBF
  else if n = 0x18 then 0x1FFFFFFFFFFFF
  else if n = 0x1A then 0x3
  else if n = 0x1B then 0x7
  else 0

/-- A change of EN, BASE or NSLOT of PROBECFG invalidates the tags; fills on their way lose theirs (10 R217). -/
def Tile.setProbecfg (t : Tile) (v : Word) : Tile :=
  let keep := fun (w : Word) => (bits w.toNat 48 48, bits w.toNat 31 24, bits w.toNat 23 0)
  if keep t.probecfg == keep v then { t with probecfg := v }
  else { t with
    probecfg := v, pl := 0,
    probe := t.probe.filterMap (fun x =>
      if x.2.pending then some (x.1, { x.2 with valid := false }) else none),
    fills := t.fills.map (fun x => (x.1, x.2.map (fun f => { f with live := false }))) }

/-- A CWR's write lands (17 R369). -/
def State.landCsr (s : State) (t c n : Nat) (v : Word) : State :=
  let x := s.ctxAt t c
  let old := x.readCsr n
  if n = 0x00 then s.setCtxAt t c (x.writeCsr 0 (old &&& ~~~(v &&& 0x38)))
  else if n = 0x07 then
    let new := mergeBits (csrMask n) old v
    if adoptSet new = adoptSet old then s.setCtxAt t c (x.writeCsr n new)
    else (s.releaseAdopt (s.tileVf t) old).setCtxAt t c (x.writeCsr n (new &&& ~~~(0x20000 : Word)))
  else if n = 0x0D then s.setCtxAt t c { x.writeCsr n v with draws := [] }
  else if n = 0x18 then s.setTile t ((s.tile t).setProbecfg (mergeBits (csrMask n) 0 v))
  else s.setCtxAt t c (x.writeCsr n (mergeBits (csrMask n) old v))

/-- A ring is configured (07 R153). -/
def Tile.setRing (t : Tile) (n : Nat) (r : Ring) : Tile := { t with rings := Sparse.set {} t.rings n r }

/-- One write of a result at its write clk. -/
def State.applyWr (t c : Nat) (s : State) (w : Wr) : State :=
  match w with
  | .csr n v => s.landCsr t c n v
  | .ring n base slots slotsz => s.setTile t ((s.tile t).setRing n { base, slots, slotsz })
  | w => s.setCtxAt t c ((s.ctxAt t c).applyWr w)

/-- The earliest of the results due by a clk, the first issued among equals. -/
def earliest (clk : Nat) : List Pending → Option Pending
  | [] => none
  | p :: t =>
    match earliest clk t with
    | none => if p.due ≤ clk then some p else none
    | some q => if p.due ≤ q.due then some p else some q

/-- The writes of a result. -/
def State.writesOf (s : State) (t c : Nat) (p : Pending) : State := p.writes.foldl (State.applyWr t c) s

/-- Results due by a clk are written, in the order of their write clks and then of issue (04 R88). (log 124: DESIGN CHOICE) -/
def State.landBy (s : State) (t c clk : Nat) : Nat → State
  | 0 => s
  | n + 1 =>
    let x := s.ctxAt t c
    match earliest clk x.pending with
    | none => s
    | some p =>
      ((s.setCtxAt t c { x with pending := x.pending.erase p }).writesOf t c p).landBy t c clk n

/-- RESULT_WRITEBACK: the results of a context due by now are written. -/
def State.landDue (s : State) (t c : Nat) : State := s.landBy t c s.clk (s.ctxAt t c).pending.length

/-! ### Leaving the core -/

/-- The fixed-latency latches are cleared: b0, b1, b2, b4, b7, b15 and vb0-vb3, vb5-vb7 of every cluster (03 R58). -/
def Ctx.clearLatches (c : Ctx) : Ctx := { c with b := [], vb := [] }

/-- The core leaves a context: the next one issues 2 clk later at the earliest (02 R50). -/
def Tile.leave (t : Tile) (c clk : Nat) : Tile :=
  if t.running = some c then
    { t with running := none, last := c, nextIssue := clk + Config.switchClk, quantum := 0, expired := false }
  else t

/-- What the issuing bundle has marked is dropped: it did not issue. -/
def Ctx.unissue (c : Ctx) : Ctx := { c with popped := [], npc := none, rot := 0 }

/-- The captured results of a strand that issues again fall due at g + OFFSET, before those of its new bundles
(03 R70). -/
def Ctx.release (c : Ctx) (clk : Nat) : Ctx :=
  { c with pending := c.capture.map (fun p => { p with due := clk + p.due }) ++ c.pending, capture := [] }

/-- The strand blocks: no slot has effect, its latches are cleared, the core leaves it (03 R57, R58); results still to be
replayed are written before it runs again (R70). One that blocks at BARG has arrived there, which includes FENCE.st
(12 R264). -/
def State.block (s : State) (t c : Nat) (why : BlockWhy) : State :=
  let s := if why = .barg then s.flushTile t else s
  let x := s.tile t
  let k := ((x.ctx c).clearLatches.unissue).release s.clk
  let s := s.setTile t ((x.setCtx c { k with run := .blocked why }).leave c s.clk)
  s.count t c 11 1

/-! ### Barriers (17 R360, R361) -/

/-- A context holds a strand that still takes part in barriers. -/
def Ctx.participates (c : Ctx) : Bool :=
  !c.dormant && c.run != .idle && c.run != .retired && c.run != .fatal

/-- A strand has arrived at the crew barrier. -/
def Ctx.atBarc (c : Ctx) : Bool := c.run == .blocked .barc && !c.relCrew
/-- A strand has arrived at the gang barrier; a TRAPPED one has not (15 R322). -/
def Ctx.atBarg (c : Ctx) : Bool := (c.run == .blocked .barg && !c.relGang) || (c.bargA.isSome && c.run != .trapped)

/-- The crew's episode completes when every participant has arrived. -/
def Tile.crewEpisode (t : Tile) : Tile :=
  let cs := (List.range 4).filter (fun c => (t.ctx c).participates)
  if cs.isEmpty || !cs.all (fun c => (t.ctx c).atBarc) then t
  else cs.foldl (fun t c => t.setCtx c { t.ctx c with relCrew := true }) t

/-- The strands of a tile state that take part in the gang's barrier. -/
def Tile.participants (t : Tile) : List Nat := (List.range 4).filter (fun c => (t.ctx c).participates)

/-- The episode's end at one crew: RELEASED bits of those held at BARG, and the counters of BARG.a arrivals. -/
def Tile.gangRelease (t : Tile) : Tile :=
  t.participants.foldl (fun t c =>
    let x := t.ctx c
    match x.bargA with
    | some n => (t.setCtx c { x with bargA := none, relGang := x.relGang || x.run == .blocked .barg }).bumpCt n 1
    | none => t.setCtx c { x with relGang := true }) t

/-- The gang's episode completes when every participant of every crew has arrived. -/
def State.gangEpisode (s : State) (gang : Nat) : State :=
  match s.gang gang with
  | none => s
  | some g =>
    let crews := (List.range g.tiles.length).filter (fun j => !g.retired.contains j)
    let ts := crews.filterMap (fun j => s.crewState gang j)
    if ts.all (fun t => t.participants.isEmpty) || !ts.all (fun t => t.participants.all (fun c => (t.ctx c).atBarg))
    then s
    else crews.foldl (fun s j => s.onCrew gang j Tile.gangRelease) s

/-- Both barriers are evaluated after a change of the strands of a tile (17 R361). -/
def State.episodes (s : State) (t : Nat) : State :=
  let s := s.setTile t (s.tile t).crewEpisode
  match (s.tile t).crew with
  | some w => s.gangEpisode w.gang
  | none => s

/-! ### The Mould bank (03 R62 to R64) -/

/-- Bytes of a value of a write in a Mould payload. -/
def wrBytes : Wr → List Byte
  | .sreg _ v => natBytes 8 v.toNat
  | .kreg _ v => natBytes 16 v.bits.toNat ++ [if v.tag then 1 else 0]
  | .preg _ v => [if v then 1 else 0]
  | .latch _ v => natBytes 8 v.toNat
  | .shadow _ _ v => natBytes 8 v.toNat
  | .scale _ v => natBytes 1536 v.toNat
  | .csr _ v => natBytes 8 v.toNat
  | .satf _ => []
  | .vreg _ _ _ v => natBytes 64 v.toNat
  | .vpred _ _ _ v => natBytes 2 v.toNat
  | .vlatch _ _ v => natBytes 64 v.toNat
  | .sum _ _ _ _ v => natBytes 8 v.toNat
  | .ertgt v => natBytes 8 v.toNat
  | .ring _ _ _ _ => []

/-- The latch write repeats the value of the lowest register and takes no bytes where one was written. -/
def wrStored (ws : List Wr) (w : Wr) : Bool :=
  match w with
  | .latch _ _ => !ws.any (fun x => match x with | .sreg _ _ => true | .preg _ _ => true | .shadow _ _ _ => true | _ => false)
  | .vlatch _ _ _ => !ws.any (fun x => match x with | .vreg _ _ _ _ => true | .vpred _ _ _ _ => true | _ => false)
  | _ => true

/-- The payload of a result. -/
def mouldPayload (p : Pending) : List Byte := (p.writes.filter (wrStored p.writes)).flatMap wrBytes

/-- SATFOR: the flags that an entry sets. -/
def mouldFlags (ws : List Wr) : Nat := ws.foldl (fun n w => match w with | .satf v => n ||| v.toNat | _ => n) 0

/-- Results of one capture that make one entry: S0's and S1's of one bundle (03 R63). -/
def sameEntry (p q : Pending) : Bool := p.cls == .s && q.cls == .s && p.ipc == q.ipc && p.issued == q.issued

/-- The entries of a capture, each with its results in order of issue. -/
def mouldGroups : List Pending → List (Pending × List Pending)
  | [] => []
  | p :: t =>
    match mouldGroups t with
    | (q, g) :: r => if sameEntry p q then (p, q :: g) :: r else (p, []) :: (q, g) :: r
    | [] => [(p, [])]

/-- OFFSET of an entry: that of its first result to be written. (log 137: DEDUCED) -/
def groupDue (p : Pending) (g : List Pending) : Nat := g.foldl (fun n q => Nat.min n q.due) p.due

def mouldClassCode : MouldClass → Nat
  | .s => 0
  | .k => 1
  | .v => 2
  | .a => 3
  | .none => 0

/-- An entry's bytes: header and payload, rounded up to 32 (03 R64); the results of S0 and S1 make one, their payloads one
after the other. -/
def mouldBytes (e : Pending × List Pending) : List Byte :=
  let ps := e.1 :: e.2
  let pay := ps.flatMap mouldPayload
  let w0 := mouldClassCode e.1.cls * 2 ^ 62 + e.1.cluster * 2 ^ 59 + groupDue e.1 e.2 % 8 * 2 ^ 56 +
    mouldFlags (ps.flatMap (fun q => q.writes)) * 2 ^ 48 + pay.length * 2 ^ 32
  natBytes 8 w0 ++ natBytes 16 (ps.foldl (fun n q => n ||| q.slot) 0) ++ natBytes 8 e.1.ipc ++ pay ++
    List.replicate ((32 - pay.length % 32) % 32) 0

/-- The entries of a capture, packed. -/
def captureEntries (ps : List Pending) : List Byte := (mouldGroups ps).flatMap mouldBytes

/-- What a trap area takes: the count of entries in 64 bytes, then the entries (15 R323). -/
def captureBytes (ps : List Pending) : List Byte := natBytes 64 (mouldGroups ps).length ++ captureEntries ps

/-- A value taken back from payload bytes, and the bytes that remain. -/
def wrRefill (ws : List Wr) (w : Wr) (bs : List Byte) : Wr × List Byte :=
  if !wrStored ws w then (w, bs)
  else
    let n := (wrBytes w).length
    let x := bytesNat (bs.take n)
    let r := bs.drop n
    match w with
    | .sreg a _ => (.sreg a (BitVec.ofNat 64 x), r)
    | .kreg a _ => (.kreg a { bits := BitVec.ofNat 128 x, tag := x / 2 ^ 128 % 2 == 1 }, r)
    | .preg a _ => (.preg a (x % 2 == 1), r)
    | .latch a _ => (.latch a (BitVec.ofNat 64 x), r)
    | .shadow a m _ => (.shadow a m (BitVec.ofNat 64 x), r)
    | .scale a _ => (.scale a (BitVec.ofNat 12288 x), r)
    | .csr a _ => (.csr a (BitVec.ofNat 64 x), r)
    | .satf v => (.satf v, r)
    | .vreg a b m _ => (.vreg a b m (BitVec.ofNat 512 x), r)
    | .vpred a b m _ => (.vpred a b m (BitVec.ofNat 16 x), r)
    | .vlatch a b _ => (.vlatch a b (BitVec.ofNat 512 x), r)
    | .sum a b o t _ => (.sum a b o t (BitVec.ofNat 64 x), r)
    | .ertgt _ => (.ertgt (BitVec.ofNat 64 x), r)
    | .ring a b c d => (.ring a b c d, r)

/-- The first register value of a list of writes, for the latch that repeats it: of a vector register the active lanes,
zero elsewhere; of a vector predicate all bits of the active lanes that are true (08 R166). -/
def firstValue (ws : List Wr) : Option (Word × Vec) :=
  ws.findSome? (fun w => match w with
    | .sreg _ v => some (v, 0)
    | .preg _ v => some (boolWord v, 0)
    | .shadow _ _ v => some (v, 0)
    | .vreg _ _ m v => some (0, v &&& m)
    | .vpred _ _ m v => some (0, laneMask (v &&& m))
    | _ => none)

/-- The writes of a result with the values of its payload bytes. -/
def mouldRefill (p : Pending) (pay : List Byte) : Pending :=
  let r := p.writes.foldl (fun (x : List Wr × List Byte) w =>
    let y := wrRefill p.writes w x.2
    (x.1 ++ [y.1], y.2)) ([], pay)
  let ws := r.1.map (fun w => match w, firstValue r.1 with
    | .latch n v, some x => if wrStored r.1 w then .latch n v else .latch n x.1
    | .vlatch c n v, some x => if wrStored r.1 w then .vlatch c n v else .vlatch c n x.2
    | w, _ => w)
  { p with writes := ws }

/-- SATFOR as an entry now has it: with its first result, where it was changed. -/
def mouldSatfor (flags : Nat) (ps : List Pending) : List Pending :=
  if mouldFlags (ps.flatMap (fun q => q.writes)) = flags then ps
  else (ps.map (fun q => { q with writes := q.writes.filter (fun w => match w with | .satf _ => false | _ => true) })).zipIdx.map
    (fun q => if q.2 = 0 then { q.1 with writes := q.1.writes ++ [.satf (BitVec.ofNat 4 flags)] } else q.1)

/-- The results of an entry read back: OFFSET moves them together, and each takes its part of the payload. -/
def groupRefill (move : Nat → Nat) : List Pending → List Byte → List Pending
  | [], _ => []
  | p :: t, pay =>
    let n := (mouldPayload p).length
    { mouldRefill p (pay.take n) with due := move p.due } :: groupRefill move t (pay.drop n)

/-- Entries read back from packed bytes, with the shapes of those that were written. -/
def mouldReadBack : List (Pending × List Pending) → List Byte → List Pending
  | [], _ => []
  | e :: t, bs =>
    let w0 := bytesNat (bs.take 8)
    let due := groupDue e.1 e.2
    mouldSatfor (bits w0 51 48) (groupRefill (fun d => bits w0 58 56 + (d - due)) (e.1 :: e.2) (bs.drop 32)) ++
      mouldReadBack t (bs.drop (mouldBytes e).length)

/-- A capture read back. -/
def captureBack (ps : List Pending) (bs : List Byte) : List Pending := mouldReadBack (mouldGroups ps) bs

/-- The results of a context captured at clk f (03 R63): those due later, with their OFFSET. -/
def Ctx.captureAt (c : Ctx) (f : Nat) : Ctx :=
  { c with capture := c.capture ++ c.pending.map (fun p => { p with due := p.due - f }), pending := [] }

/-! ### Traps (15 R319 to R327) -/

/-- The 64 KiB block of a context in its virtual function's trap area (15 R323). (log 95: DEDUCED) -/
def trapBlock (t c : Nat) : Nat := 65536 * (4 * t + c)

/-- The trap area of a virtual function is large enough and its block lies in it. -/
def State.trapRegion (s : State) (vf t c : Nat) : Option Region :=
  match (s.vf vf).trapArea with
  | some r => if trapBlock t c + 65536 ≤ r.len then
      some { pasid := r.pasid, va := r.va + trapBlock t c, len := 65536 } else none
  | none => none

/-- The causes, to find the one of a code. -/
def allCauses : List Cause :=
  [.illop, .misalign, .kbound, .kright, .kstale, .kstaleMid, .page, .perm, .priv, .trapi, .ringerr, .shape, .divz, .watch,
   .memue, .matchk, .baddesc, .colfail, .logfail]

/-- Kinds of a trap record (15 R325). -/
def kindSync : Nat := 0
def kindEngine : Nat := 1
def kindFatal : Nat := 2

/-- OVF: a cause of the strand was dropped since its last record (15 R321, R325). -/
def Ctx.ovfBit (c : Ctx) : Nat := if c.causeOvf then 8 else 0

/-- The record of a strand on a tile. `extra` holds the bits of KIND beside the class and OVF. -/
def State.strandRecord (s : State) (t c kind extra : Nat) (cause : Cause) (info : Word) (pc : Nat) : List Byte :=
  let x := s.ctxAt t c
  let i := s.issuer t c
  let part := match s.tileGang t with | some g => g.part | none => 0
  recordBytes (causeCode cause) (kind + extra + x.ovfBit) (c + 4 * x.handler.toNat) t (recordOwn i.pasid i.vf part) pc
    info.toNat s.clk

/-- The record of a strand is posted, and OVF has been told. -/
def State.postTrap (s : State) (t c kind extra : Nat) (cause : Cause) (info : Word) (pc : Nat) : State :=
  (s.setCtxAt t c { s.ctxAt t c with causeOvf := false }).post (s.issuer t c).vf (s.strandRecord t c kind extra cause info pc)

/-- The operations of a context in its tile's engines, its logged stores and its probe fills are discarded (15 R331). -/
def Tile.discard (t : Tile) (c : Nat) : Tile :=
  let gone := fun (i : Issuer) => i.ctx == c
  { t with
    mrun := match t.mrun with
      | some r => if t.mq.any (fun e => e.id == r.id && gone e.iss) then none else some r
      | none => none
    mq := t.mq.filter (fun e => !gone e.iss), follows := t.follows.filter (fun e => !gone e.iss)
    cq := t.cq.filter (fun e => !gone e.iss), sigq := t.sigq.filter (fun e => !gone e.iss)
    sumq := t.sumq.filter (fun e => !gone e.iss), sideLog := t.sideLog.filter (fun e => e.ctx != c)
    probe := t.probe.map (fun x => match Sparse.get none t.fills x.1 with
      | some f => if gone f.iss then (x.1, { x.2 with pending := false, valid := false }) else x
      | none => x)
    fills := t.fills.filter (fun x => match x.2 with | some f => !gone f.iss | none => false) }

/-- A strand that ends FATAL keeps nothing that it has asked for. -/
def Ctx.fatal (x : Ctx) : Ctx :=
  { x.unissue with
    run := .fatal, pending := [], capture := [], ports := [], causes := [], causeOvf := false, fences := [], storeQ := []
    nColl := 0, nBlock := 0 }

/-- The commands of some strands at the Mortar, Crown, Brim and Hod engines and the hub are discarded (15 R331): those
accepted by the hub have been drained, and a rank's later collectives keep their numbers. -/
def State.dropIssued (s : State) (gone : Issuer → Bool) : State :=
  let keep := fun (c : CollCmd) => !(gone c.iss && c.ended.isNone && c.crown.isNone)
  let member := fun (m : Member) => { m with cmds := m.cmds.filter keep }
  { s with
    mortarQ := s.mortarQ.filter (fun c => !gone c.iss), crownQ := s.crownQ.filter (fun c => !gone c.iss)
    brimQ := s.brimQ.filter (fun c => !gone c.iss), hodQ := s.hodQ.filter (fun c => !gone c.iss)
    comms := s.comms.map (fun x => (x.1, x.2.map (fun y =>
      { y with members := y.members.map (fun m => (m.1, m.2.map member)) })))
    vfs := s.vfs.map (fun x => (x.1, { x.2 with blockQ := x.2.blockQ.filter (fun c => !gone c.iss) })) }

/-- A strand becomes FATAL (15 R331): it never issues again, and what it has asked of its tile and of the engines is
discarded. (log 19: DEDUCED) -/
def State.makeFatal (s : State) (t c : Nat) : State :=
  let x := (s.tile t).discard c
  let s := match x.crew with
    | some w => s.dropIssued (fun i => i.gang == w.gang && i.crew == w.idx && i.ctx == c)
    | none => s
  (s.setTile t ((x.setCtx c (x.ctx c).fatal).leave c s.clk)).episodes t

/-- NOAREA set in the KIND byte of a record (15 R323, R325). -/
def withNoArea (bytes : List Byte) : List Byte := bytes.set 1 ((bytes.getD 1 0) ||| 0x10)

/-- A write of the device that can no longer be made: a capture's strand is FATAL, and its record has NOAREA (15 R323). -/
def State.lostWrite (s : State) (w : DevWrite) : State :=
  let s := match w.record with
    | some r => s.post w.vf (withNoArea r)
    | none => s
  match w.fatal with
  | some (t, c) => s.makeFatal t c
  | none => s

/-- The capture of a trapped strand goes to its trap area, and its record follows; without a usable area the strand is FATAL
and the record has NOAREA (15 R323 to R325). -/
def State.captureOut (s : State) (t c kind extra : Nat) (cause : Cause) (info : Word) (pc : Nat) : State :=
  let bytes := captureBytes (s.ctxAt t c).capture
  match (s.trapRegion (s.tileVf t) t c).filter (fun r => s.rangeXlat r.pasid r.va bytes.length true != .forbidden) with
  | some r =>
    let w : DevWrite := {
      vf := s.tileVf t, pasid := r.pasid, va := r.va, bytes, fatal := some (t, c)
      record := some (s.strandRecord t c kind extra cause info pc) }
    (s.setCtxAt t c { s.ctxAt t c with causeOvf := false }).devWrite w
  | none => (s.postTrap t c kind (extra + 16) cause info pc).makeFatal t c

/-- Trap entry (15 R319): results due are written, later ones captured and written to the trap area, the CSRs and the
record take the cause, and the strand is TRAPPED; without a usable trap area it is FATAL with NOAREA (R323). -/
def State.trapAt (s : State) (t c kind : Nat) (cause : Cause) (info : Word) : State :=
  let s := s.landDue t c
  let x := s.tile t
  let k := x.ctx c
  let pc := k.pc
  let k := (k.captureAt s.clk).clearLatches.unissue
  let k := ((k.writeCsr 0x08 (BitVec.ofNat 64 (causeCode cause))).writeCsr 0x09 (BitVec.ofNat 64 pc)).writeCsr 0x0A info
  let k := { k with run := .trapped, trapKind := kind }
  let s := s.setTile t (({ x with mould := [] }.setCtx c k).leave c s.clk)
  let s := s.count t c 11 1
  s.captureOut t c kind 0 cause info pc

/-- The synchronous trap of the bundle that issues (15 R319). -/
def State.takeTrap (s : State) (cause : Cause) (info : Word) : State := s.trapAt s.cur s.curCtx kindSync cause info

/-- The return of a trapped strand (15 R329): its capture is read back, PC is the trapping bundle or the one after it,
watches are off once after WATCH, and it is ready. What an earlier return left to do stays, where a queued cause displaced its
bundle, and a target of a transfer is presented again as one. (log 125: DEDUCED) -/
def State.returnAt (s : State) (t c : Nat) (skip : Bool) : State :=
  let k := s.ctxAt t c
  let k := match s.trapRegion (s.tileVf t) t c with
    | some r =>
      match s.vaRead r.pasid (r.va + 64) (captureEntries k.capture).length with
      | some bs => { k with capture := captureBack k.capture bs }
      | none => k
    | none => k
  let cause := (k.readCsr 0x08).toNat
  (s.setCtxAt t c { k with
    run := .ready, pc := (k.readCsr 0x09).toNat, fresh := true
    skipOne := k.skipOne || skip || cause == causeCode .trapi, watchOff := k.watchOff || cause == causeCode .watch }).episodes t

/-! ### Engine-raised causes (15 R321) -/

/-- A cause raised for a strand by an engine: queued while 8 find room; a retired strand's record is posted at once. -/
def State.raise (s : State) (i : Issuer) (cause : Cause) (info : Word) : State :=
  match s.crewState i.gang i.crew with
  | none => s.post i.vf (recordBytes (causeCode cause) (kindEngine + 4) i.ctx 0 (recordOwn i.pasid i.vf
      (match s.gang i.gang with | some g => g.part | none => 0)) 0 info.toNat s.clk)
  | some t =>
    let x := t.ctx i.ctx
    if x.run == .retired || x.run == .exiting then
      (s.onStrand i (fun x => { x with causeOvf := false })).post i.vf (recordBytes (causeCode cause) (kindEngine + 4 + x.ovfBit)
        (i.ctx + 4 * x.handler.toNat) ((s.crewTile i.gang i.crew).getD 0) (recordOwn i.pasid i.vf
          (match s.gang i.gang with | some g => g.part | none => 0)) (x.readCsr 0x09).toNat info.toNat s.clk)
    else s.onStrand i (fun x =>
      if 8 ≤ x.causes.length then { x with causeOvf := true } else { x with causes := x.causes ++ [{ cause, info }] })

/-! ### Uncorrectable data (10 R220, 15 R331) -/

/-- The 64 bytes of an error record (10 R220); channel, bank, syndrome and row are `site`. -/
def errorBytes (src : Nat) (site : List Byte × List Byte) (pasid vf pa va clk : Nat) : List Byte :=
  natBytes 1 0x10 ++ natBytes 1 src ++ site.1 ++ natBytes 4 (pasid % 2 ^ 20 + 2 ^ 20 * (vf % 16)) ++
    natBytes 8 (pa / 4096) ++ site.2 ++ natBytes 4 0 ++ natBytes 8 clk ++ natBytes 8 va ++ natBytes 8 0

/-- CHAN and BANK, and SYND and ROW: the spec does not say where an address lies, so each is a free value. -/
def State.errorSite (s : State) : List Byte × List Byte :=
  let w := fun k => (Config.freeWord (s.free + k)).toNat
  (natBytes 1 (w 0) ++ natBytes 1 (w 0 / 256 % 64), natBytes 8 (w 1) ++ natBytes 8 (w 2) ++ natBytes 4 (w 3))

/-- The unit that counts the soft errors of a physical address: its stack's die, or the hub die (15 R337).
(log 34: DESIGN CHOICE) -/
def memUnit (pa : Nat) : Nat := if pa < Config.t0Bytes then (Config.memDie (pa / 64)).toNat else 4

/-- SRC of the error record of a poison read: a tile's memories (2), Mortar and the Hods (3), else HBM4E or LPDDR (10 R220,
15 R334). -/
def State.errorSrc (s : State) (src pa : Nat) : Nat :=
  4 + (if src = 2 ∨ src = 3 then src else if Sparse.get false s.poisonM (pa / 64) then 3 else if tierOf pa = 1 then 1 else 0)

/-- A context holds a strand that MEMUE makes FATAL. -/
def Ctx.mayFail (k : Ctx) : Bool := k.run != .idle && k.run != .retired && k.run != .fatal

/-- TRAPC, TRAPPC and TRAPA of a MEMUE: the bundle that the strand would have issued next. -/
def Ctx.memueCsr (k : Ctx) (va : Nat) : Ctx :=
  ((k.writeCsr 0x08 0x10).writeCsr 0x09 (BitVec.ofNat 64 k.pc)).writeCsr 0x0A (BitVec.ofNat 64 va)

/-- MEMUE for the strands of a tile, each with its record. -/
def State.memueTile (s : State) (t va : Nat) : State :=
  (List.range 4).foldl (fun (s : State) c =>
    let k := s.ctxAt t c
    if !k.mayFail then s
    else
      let s := s.setCtxAt t c (k.memueCsr va)
      (s.postTrap t c kindFatal 0 .memue (BitVec.ofNat 64 va) k.pc).makeFatal t c) s

/-- MEMUE for the strands of a saved crew: their records name the tile that they were saved from. -/
def State.memueSaved (s : State) (i : Issuer) (y : Saved) (va : Nat) : State :=
  let part := match s.gang y.gang with | some g => g.part | none => 0
  ((List.range 4).foldl (fun (s : State) c =>
    let k := y.tile.ctx c
    if !k.mayFail then s
    else
      let s := s.post i.vf (recordBytes 0x10 (kindFatal + k.ovfBit) (c + 4 * k.handler.toNat) y.src (recordOwn i.pasid i.vf part) k.pc va s.clk)
      let s := s.dropIssued (fun j => j.gang == y.gang && j.crew == y.crew.idx && j.ctx == c)
      s.onCrew y.gang y.crew.idx (fun t => (t.discard c).setCtx c ((t.ctx c).memueCsr va).fatal)) s).gangEpisode y.gang

/-- MEMUE: every strand of the PASID in the virtual function is FATAL, the error record is posted, and the context's own
record (10 R220, 15 R331). (log 18: DEDUCED) -/
def State.memue (s : State) (i : Issuer) (src pa va : Nat) : State :=
  let unit := if src = 2 ∨ (src = 3 ∧ pa = 0) then (s.crewTile i.gang i.crew).getD 0 / 64 else memUnit pa
  let s := { (s.softError unit 15).postError i.vf (errorBytes (s.errorSrc src pa) s.errorSite i.pasid i.vf pa va s.clk) with
    free := s.free + 2 }
  let mine := fun (g : Nat) => match s.gang g with | some g => g.vf == i.vf && g.pasid == i.pasid | none => false
  let hits := s.tiles.filter (fun x => match x.2.crew with | some w => mine w.gang | none => false)
  let saved := s.saves.filterMap (fun x => x.2.bind (fun y => if mine y.gang then some y else none))
  let s := hits.foldl (fun (s : State) x => s.memueTile x.1 va) s
  saved.foldl (fun (s : State) y => s.memueSaved i y va) s

/-- A strand's own state can no longer be read: it is FATAL, with an error record and its own (15 R331, R334, 03 R74). -/
def State.lostStrand (s : State) (t c src pa va : Nat) : State :=
  let k := s.ctxAt t c
  if !k.mayFail then s
  else
    let i := s.issuer t c
    let s := { s.postError i.vf (errorBytes src s.errorSite i.pasid i.vf pa va s.clk) with free := s.free + 2 }
    let s := s.setCtxAt t c (k.memueCsr va)
    (s.postTrap t c kindFatal 0 .memue (BitVec.ofNat 64 va) k.pc).makeFatal t c

/-! ### Outcome of a slot -/

/-- A slot takes effect, traps its bundle, or blocks it: in each case the machine goes on. -/
def settle (s : State) (r : Res State) : Host.Outcome State Fault Refusal :=
  match r with
  | .ok s' => .next s'
  | .trap cause info => .next (s.takeTrap cause info)
  | .block why => .next ((s.block s.cur s.curCtx why).episodes s.cur)

/-- ILLOP with a reason and the position of the slot class (04 R81). -/
def illopInfo (reason pos : Nat) : Word := BitVec.ofNat 64 (reason + 256 * pos)

end Sys2Proof.Machine
end

