-- ==== Sys2Proof/Machine/FpFun.lean ====
section
/-! DEFINITION. The transcendental functions (06 R142) by enclosure in fixed point of 256 fraction bits, and the block
formats SC24, E2M1 and PP8 with packing and unpacking (06 R125 to R128, R137, 08 R177, R178). -/
namespace Sys2Proof.Machine

/-! ### Fixed point -/

/-- Fraction bits. -/
def fixBits : Nat := 256
def fixOne : Nat := 2 ^ fixBits
/-- ln 2. -/
def fixLn2 : Nat := 0xb17217f7d1cf79abc9e3b39803f2f6af40f343267298b62d8a0d175b8baafa2b
/-- What every enclosure below allows for: the sum of its rounding errors is less. -/
def fixErr : Nat := 2 ^ 24

/-- Terms of the exponential series from the k-th, of an argument r in [0, 1). -/
def expSeries (r : Nat) : Nat → Nat → Nat → Nat
  | 0, _, _ => 0
  | n + 1, k, term => term + expSeries r n (k + 1) (term * r / fixOne / (k + 1))

/-- e^r for 0 ≤ r < 1. -/
def expFix (r : Nat) : Nat := expSeries r 80 0 fixOne

/-- Terms of atanh from the odd k on: pow is z^k. -/
def atanhSeries (z2 : Nat) : Nat → Nat → Nat → Nat
  | 0, _, _ => 0
  | n + 1, k, pow => pow / k + atanhSeries z2 n (k + 2) (pow * z2 / fixOne)

/-- ln m for m in [1, 2). -/
def lnFix (m : Nat) : Nat :=
  let z := (m - fixOne) * fixOne / (m + fixOne)
  2 * atanhSeries (z * z / fixOne) 100 1 z

/-- The integer square root, its bits from k - 1 down. -/
def isqrtBits (n : Nat) : Nat → Nat → Nat
  | 0, r => r
  | k + 1, r => isqrtBits n k (if (r + 2 ^ k) * (r + 2 ^ k) ≤ n then r + 2 ^ k else r)

/-- e^x for a magnitude x = m · 2^e below 2^10: (E, n) with e^x = E · 2^n in fixed point, E in [1, 2). -/
def expParts (m : Nat) (e : Int) : Nat × Nat :=
  let x := scale2 m (e + fixBits)
  let x := x.1 / x.2
  (expFix (x % fixLn2), x / fixLn2)

/-- Rounding of a value known to lie between two fractions: where they round apart, the value is free. (log 45: DEDUCED) -/
def roundBetween (f : Fmt) (op code : Nat) (neg : Bool) (lo hi : Nat × Nat) : FRes :=
  let a := roundRat f .rne neg lo.1 lo.2
  let b := roundRat f .rne neg hi.1 hi.2
  if a = b then a else { code := (Config.closeCase op code).toNat % 2 ^ f.bits }

/-- n · 2^e as a fraction. -/
def fixFrac (n : Nat) (e : Int) : Nat × Nat := scale2 n (e - fixBits)

/-- The magnitude is at least 2^k. -/
def magAtLeast (m : Nat) (e k : Int) : Bool := m != 0 && decide (k ≤ (Nat.log2 m : Int) + e)

/-! ### The six functions (06 R142) -/

/-- 2^x. -/
def fexp2 (f : Fmt) (code : Nat) : FRes :=
  match fdecode f code with
  | .nan => { code := f.nanCode }
  | .inf neg => { code := if neg then 0 else finf f false }
  | .fin neg m e =>
    if m = 0 then roundRat f .rne false 1 1
    else if magAtLeast m e 10 then if neg then { code := 0 } else { code := finf f false, flags := fOVF }
    else
      let x := scale2 m (e + fixBits)
      let i := signedM neg (x.1 / x.2)
      let n := i / (fixOne : Int)
      let r := (i % (fixOne : Int)).toNat
      if r = 0 then let p := scale2 1 n; roundRat f .rne false p.1 p.2
      else
        let v := expFix (r * fixLn2 / fixOne)
        roundBetween f 0 code false (fixFrac (v - fixErr) n) (fixFrac (v + fixErr) n)

/-- log2 x. -/
def flog2 (f : Fmt) (code : Nat) : FRes :=
  match fdecode f code with
  | .nan => { code := f.nanCode }
  | .inf neg => if neg then { code := f.nanCode, flags := fINV } else { code := finf f false }
  | .fin neg m e =>
    if m = 0 then { code := finf f true }
    else if neg then { code := f.nanCode, flags := fINV }
    else
      let k := Nat.log2 m
      let x := e + k
      if m = 2 ^ k then fround f .rne (ofInt x)
      else
        let v := x * (fixOne : Int) + (lnFix (m * 2 ^ (fixBits - k)) * fixOne / fixLn2 : Nat)
        roundBetween f 1 code (decide (v < 0)) (fixFrac (v.natAbs - fixErr) 0) (fixFrac (v.natAbs + fixErr) 0)

/-- 1/x. -/
def frcp (f : Fmt) (code : Nat) : FRes :=
  match fdecode f code with
  | .nan => { code := f.nanCode }
  | .inf neg => { code := fsign f neg }
  | .fin neg m e =>
    if m = 0 then { code := finf f neg }
    else let p := scale2 m e; roundRat f .rne neg p.2 p.1

/-- 1/√x. -/
def frsq (f : Fmt) (code : Nat) : FRes :=
  match fdecode f code with
  | .nan => { code := f.nanCode }
  | .inf neg => if neg then { code := f.nanCode, flags := fINV } else { code := 0 }
  | .fin neg m e =>
    if m = 0 then { code := finf f neg }
    else if neg then { code := f.nanCode, flags := fINV }
    else
      let odd := e % 2 = 1
      let m := if odd then 2 * m else m
      let h := (if odd then e - 1 else e) / 2
      let s := isqrtBits (2 ^ (2 * fixBits) / m) (fixBits + 2) 0
      if s * s * m = 2 ^ (2 * fixBits) then let p := fixFrac s (-h); roundRat f .rne false p.1 p.2
      else roundBetween f 2 code false (fixFrac s (-h)) (fixFrac (s + 1) (-h))

/-- 1/(1 + e^-x); the value that R142 states for -30 in f32 is taken as it stands. (log 46: DEDUCED) -/
def fsig (f : Fmt) (code : Nat) : FRes :=
  match fdecode f code with
  | .nan => { code := f.nanCode }
  | .inf neg => if neg then { code := 0 } else roundRat f .rne false 1 1
  | .fin neg m e =>
    if f = fp32 ∧ code = 0xC1F00000 then { code := 0x29D2B914 }
    else if m = 0 then roundRat f .rne false 1 2
    else if magAtLeast m e 9 then if neg then { code := 0 } else roundRat f .rne false 1 1
    else
      let p := expParts m e
      let big := fun (v : Nat) => v * 2 ^ p.2
      let lo := big (p.1 - fixErr)
      let hi := big (p.1 + fixErr)
      if neg then roundBetween f 3 code false (fixOne, fixOne + hi) (fixOne, fixOne + lo)
      else roundBetween f 3 code false (lo, fixOne + lo) (hi, fixOne + hi)

/-- tanh x; below 2^-13 it rounds to x. -/
def ftanh (f : Fmt) (code : Nat) : FRes :=
  match fdecode f code with
  | .nan => { code := f.nanCode }
  | .inf neg => roundRat f .rne neg 1 1
  | .fin neg m e =>
    if !magAtLeast m e (-13) then { code }
    else if magAtLeast m e 8 then roundRat f .rne neg 1 1
    else
      let p := expParts m (e + 1)
      let lo := (p.1 - fixErr) * 2 ^ p.2
      let hi := (p.1 + fixErr) * 2 ^ p.2
      roundBetween f 4 code neg (lo - fixOne, lo + fixOne) (hi - fixOne, hi + fixOne)

/-! ### Block formats (06 R125 to R128, R137) -/

/-- SC24 as a format: no sign, 16 fraction bits. -/
def sc24 : Fmt := { bits := 25, w := 16, ebits := 8, bias := 127, maxCode := 0xFEFFFF, infCode := some 0xFF0000, nanCode := 0xFFFFFF }
/-- E2M1; it has neither infinity nor NaN. -/
def e2m1 : Fmt := { bits := 4, w := 1, ebits := 2, bias := 1, maxCode := 7, infCode := none, nanCode := 16 }

/-- t(x) · 64 of PP8 (06 R128). -/
def pp8Term (x : Nat) : Int := if x = 7 then 0 else (64 / 2 ^ x : Nat)
/-- 64 times the value of a PP8 byte. -/
def pp8Value (b : Nat) : Int :=
  (if b / 128 % 2 = 1 then -pp8Term (b / 16 % 8) else pp8Term (b / 16 % 8)) +
    (if b / 8 % 2 = 1 then -pp8Term (b % 8) else pp8Term (b % 8))

/-- The exact value of a PP8 byte: zero is +0. -/
def pp8Dec (b : Nat) : FVal := ofSigned false (pp8Value b) (-6)

/-- The scale of a block whose largest magnitude over Q is num/den: the least that is not below it (08 R177). -/
def packScale (num den : Nat) : Nat :=
  if num = 0 then 0x7F0000
  else let r := roundRat sc24 .rup false num den; if r.code = 0xFF0000 then 0xFEFFFF else r.code

/-- x/σ as a fraction, for finite x and a finite nonzero scale. -/
def quotient (x sc : FVal) : Nat × Nat :=
  match x, sc with
  | .fin _ m e, .fin _ n g => let p := scale2 m (e - g); (p.1, p.2 * n)
  | _, _ => (0, 1)

/-- E2M1 code of a quotient: beyond 6 it is 6 (06 R137). -/
def toE2m1 (mode : RMode) (neg : Bool) (q : Nat × Nat) : Nat :=
  if 6 * q.2 < q.1 then 7 + fsign e2m1 neg else (roundRat e2m1 mode neg q.1 q.2).code

/-- The better of two PP8 bytes for 64q = n/d: nearer, then of smaller magnitude, then the lower byte. -/
def pp8Better (n : Int) (d a b : Nat) : Nat :=
  let dist := fun (x : Nat) => (pp8Value x * d - n).natAbs
  if dist b < dist a ∨ (dist b = dist a ∧ (pp8Value b).natAbs < (pp8Value a).natAbs) then b else a

/-- PP8 byte of a quotient (06 R137). -/
def toPp8 (neg : Bool) (q : Nat × Nat) : Nat :=
  (List.range 256).foldl (pp8Better (signedM neg (64 * q.1)) q.2) 0

/-- |x|. -/
def FVal.magnitude (v : FVal) : FVal := if v.isNeg then v.neg else v

/-- A block of 32 FP32 values packed: elements with their flags, and the scale (08 R177); E2M1 with four set, else PP8. -/
def packBlock (four : Bool) (modes : List RMode) (xs : List Nat) : List FRes × Nat :=
  let vs := xs.map (fdecode fp32)
  let bad := vs.any (fun v => match v with | .fin _ _ _ => false | _ => true)
  if bad then
    (vs.map (fun v => { code := if four then 0 else 8, flags := invFlag v.isNan }), 0xFFFFFF)
  else
    let amax := vs.foldl (fun (a : FVal) v => if 0 < FVal.compare v.magnitude a then v.magnitude else a) (.fin false 0 0)
    let q := if four then 6 else 2
    let s := match amax with
      | .fin _ m e => let p := scale2 m e; packScale p.1 (p.2 * q)
      | _ => 0xFFFFFF
    let sv := fdecode sc24 s
    let pack := fun (x : FVal × RMode) =>
      if four then toE2m1 x.2 x.1.isNeg (quotient x.1 sv) else toPp8 x.1.isNeg (quotient x.1 sv)
    ((vs.zip modes).map (fun x => { code := pack x }), s)

/-- The value of an element of a block (06 R127, R128): its product with the scale. -/
def blockValue (el sc : FVal) : FVal :=
  match sc with
  | .nan => .nan
  | .inf _ => if el.isZero then .nan else .inf el.isNeg
  | .fin .. => (FVal.mul el sc).1

/-- Scale code to value; only the low 24 bits count. -/
def scaleVal (x : Nat) : FVal := fdecode sc24 (x % 2 ^ 24)

end Sys2Proof.Machine
end

