-- ==== Sys2Proof/Machine/Summary.lean ====
section
/-! DEFINITION. The three mergeable summaries as byte images: quantile sketches, heavy-hitter lists and distinct counts,
with insertion, merge and queries (09 R182 to R198). Tiles and Hods use the same functions. -/
namespace Sys2Proof.Machine

/-! ### Images -/

/-- n bytes of an image as a number. -/
def imgNat (img : List Byte) (o n : Nat) : Nat := bytesNat ((img.drop o).take n)
/-- n bytes of an image replaced. -/
def imgPut (img : List Byte) (o n x : Nat) : List Byte := img.take o ++ natBytes n x ++ img.drop (o + n)
/-- Saturation at 2^32 - 1. -/
def sat32 (x : Nat) : Nat := min x (2 ^ 32 - 1)

/-- TYPE bytes. -/
def tSketch : Nat := 0x51
def tHitter : Nat := 0x48
def tDistinct : Nat := 0x44

/-- A header field is outside its limits (R184, R191, R195), by its 32 bytes; an unknown TYPE has no limits to keep. -/
def headBad (h : List Byte) : Bool :=
  let ty := imgNat h 0 1
  if ty = tSketch then
    let lmax := imgNat h 3 1
    let k := imgNat h 4 2
    imgNat h 1 1 % 4 == 3 || k < 16 || 1024 < k || k % 16 != 0 || lmax == 0 || 32 < lmax || imgNat h 2 1 == 0 ||
      lmax < imgNat h 2 1
  else if ty = tHitter then (imgNat h 2 2 != 64 && imgNat h 2 2 != 256) || imgNat h 2 2 < imgNat h 4 4
  else if ty = tDistinct then imgNat h 1 1 < 10 || 14 < imgNat h 1 1
  else false

/-- Bytes of the area of a structure with a well-formed header; 64 where there is none, or where TYPE is unknown: the spec
gives such a structure no area. (log 119: DESIGN CHOICE) -/
def areaLen (h : List Byte) : Nat :=
  let ty := imgNat h 0 1
  if headBad h then 64
  else if ty = tSketch then 64 + imgNat h 3 1 * (64 + 4 * imgNat h 4 2)
  else if ty = tHitter then 32 + 12 * imgNat h 2 2
  else if ty = tDistinct then 32 + 2 ^ imgNat h 1 1
  else 64

/-- The shape that a merge's two structures must share: TYPE, K, M or P (R182, R199). -/
def shapeOf (h : List Byte) : Nat × Nat :=
  let ty := imgNat h 0 1
  (ty, if ty = tSketch then imgNat h 4 2 else if ty = tHitter then imgNat h 2 2 else imgNat h 1 1)

/-- An element put in order before the first that it does not follow. -/
def insertBy {α : Type} (le : α → α → Bool) (x : α) : List α → List α
  | [] => [x]
  | y :: t => if le x y then x :: y :: t else y :: insertBy le x t

/-- A stable sort. -/
def sortBy {α : Type} (le : α → α → Bool) : List α → List α
  | [] => []
  | x :: t => insertBy le x (sortBy le t)

/-! ### Quantile sketches (R184 to R189) -/

/-- An FP32 encoding that is not NaN as a number of the same order; -0 is never stored. -/
def f32Key (x : Nat) : Int := if 2 ^ 31 ≤ x then -((x : Int) - 2 ^ 31) else x

/-- A level: FILL, CIDX and its K words. -/
structure Level where
  fill : Nat
  cidx : Nat
  vals : List Nat
  deriving DecidableEq, Repr

/-- A sketch, with SEED of the strand, cluster and draw counter for coin source 2; a Hod has none (R187). -/
structure Sketch where
  cm     : Nat
  ovfl   : Bool
  levels : Nat
  k      : Nat
  n      : Nat
  min    : Nat
  max    : Nat
  coin   : Nat
  nans   : Nat
  seed   : Word
  lv     : List Level
  draw   : Option (Word × Nat × Nat)
  deriving DecidableEq, Repr

/-- The level at byte b of an image. -/
def readLevel (img : List Byte) (k b : Nat) : Level :=
  { fill := imgNat img b 4, cidx := imgNat img (b + 4) 4, vals := (List.range k).map (fun j => imgNat img (b + 64 + 4 * j) 4) }

/-- The sketch of an image. -/
def readSketch (img : List Byte) (draw : Option (Word × Nat × Nat)) : Sketch :=
  let k := imgNat img 4 2
  { cm := imgNat img 1 1 % 4, ovfl := imgNat img 1 1 / 128 == 1, levels := imgNat img 2 1, k, n := imgNat img 8 8
    min := imgNat img 0x10 4, max := imgNat img 0x14 4, coin := imgNat img 0x18 4, nans := imgNat img 0x1C 4
    seed := BitVec.ofNat 64 (imgNat img 0x20 8)
    lv := (List.range (imgNat img 3 1)).map (fun l => readLevel img k (64 + l * (64 + 4 * k))), draw }

/-- A FILL of a level in use is K or more (R184). -/
def Sketch.overfull (q : Sketch) : Bool := (q.lv.take q.levels).any (fun v => decide (q.k ≤ v.fill))

/-- A sketch written over its image; reserved bytes and levels that are not in use stay. -/
def writeSketch (img : List Byte) (q : Sketch) : List Byte :=
  let h := imgPut (imgPut (imgPut (imgPut (imgPut img 1 1 (q.cm + 128 * q.ovfl.toNat)) 2 1 q.levels) 8 8 q.n)
    0x10 4 q.min) 0x14 4 q.max
  let h := imgPut (imgPut h 0x18 4 q.coin) 0x1C 4 q.nans
  (q.lv.take q.levels).zipIdx.foldl (fun img x =>
    let b := 64 + x.2 * (64 + 4 * q.k)
    imgPut (imgPut img b 8 (x.1.fill + 2 ^ 32 * x.1.cidx)) (b + 64) (4 * q.k)
      (bytesNat (x.1.vals.flatMap (natBytes 4)))) h

def Sketch.level (q : Sketch) (l : Nat) : Level := q.lv.getD l { fill := 0, cidx := 0, vals := [] }
def Sketch.setLevel (q : Sketch) (l : Nat) (v : Level) : Sketch := { q with lv := q.lv.set l v }

/-- Every level up to l is opened, empty. -/
def Sketch.openTo (q : Sketch) (l : Nat) : Sketch :=
  if l < q.levels then q
  else { q with
    lv := q.lv.zipIdx.map (fun x => if q.levels ≤ x.2 ∧ x.2 ≤ l then { x.1 with fill := 0, cidx := 0 } else x.1)
    levels := l + 1 }

/-- The coin of a compaction at level l (R187). -/
def Sketch.flip (q : Sketch) (l : Nat) : Nat × Sketch :=
  let one := (mix64 (q.seed ^^^ mix64 (BitVec.ofNat 64 (l * 2 ^ 32 + (q.level l).cidx)))).toNat % 2
  match q.cm, q.draw with
  | 0, _ => (q.coin / 2 ^ l % 2, { q with coin := Nat.xor q.coin (2 ^ l) })
  | 2, some (seed, c, n) => ((drawWord seed c n).toNat % 2, { q with draw := some (seed, c, (n + 1) % 2 ^ 48) })
  | _, _ => (one, q)

/-- Values at even or odd positions. -/
def everyOther (c : Nat) (vs : List Nat) : List Nat := (vs.zipIdx.filter (fun x => x.2 % 2 == c)).map (fun x => x.1)

/-- append(x, l) with the compactions that it causes (R186); the first argument bounds the levels above. -/
def Sketch.append : Nat → Sketch → Nat → Nat → Sketch
  | 0, q, _, _ => q
  | n + 1, q, x, l =>
    let q := q.openTo l
    let v := q.level l
    let v := { v with vals := v.vals.set v.fill x, fill := v.fill + 1 }
    if v.fill != q.k then q.setLevel l v
    else
      let vs := sortBy (fun a b => decide (f32Key a ≤ f32Key b)) v.vals
      let (c, q) := (q.setLevel l { v with vals := vs }).flip l
      let cidx := (v.cidx + 1) % 2 ^ 32
      if l + 1 = q.lv.length then
        { q with ovfl := true }.setLevel l { fill := q.k / 2, cidx, vals := everyOther c vs ++ vs.drop (q.k / 2) }
      else
        let q := (everyOther c vs).foldl (fun q y => Sketch.append n q y (l + 1)) q
        q.setLevel l { (q.level l) with fill := 0, cidx }

/-- Insertion of one FP32 value (R186). -/
def Sketch.insert (q : Sketch) (x : Nat) : Sketch :=
  if (fdecode fp32 x).isNan then { q with nans := sat32 (q.nans + 1) }
  else
    let x := if x = 0x80000000 then 0 else x
    let q := { q with n := (q.n + 1) % 2 ^ 64
                      min := if f32Key x < f32Key q.min then x else q.min
                      max := if f32Key q.max < f32Key x then x else q.max }
    Sketch.append 33 q x 0

/-- The merge of a source into a destination (R188). -/
def Sketch.merge (d s : Sketch) : Sketch :=
  let top := d.lv.length - 1
  let q := { d with
    n := (d.n + s.n) % 2 ^ 64
    min := if f32Key s.min < f32Key d.min then s.min else d.min
    max := if f32Key d.max < f32Key s.max then s.max else d.max
    nans := sat32 (d.nans + s.nans), ovfl := d.ovfl || s.ovfl }
  (s.lv.take s.levels).zipIdx.foldl (fun q v =>
    (v.1.vals.take v.1.fill).foldl (fun (q : Sketch) x =>
      Sketch.append 33 (if top < v.2 then { q with ovfl := true } else q) x (Nat.min v.2 top)) q) q

/-- The stored values with their levels, ascending and lower levels first among equals. -/
def Sketch.items (q : Sketch) : List (Nat × Nat) :=
  sortBy (fun a b => decide (f32Key a.1 < f32Key b.1) || (f32Key a.1 == f32Key b.1 && decide (a.2 ≤ b.2)))
    ((q.lv.take q.levels).zipIdx.flatMap (fun v => (v.1.vals.take v.1.fill).map (fun x => (x, v.2))))

/-- The first value whose cumulative weight reaches tg. -/
def firstReaching (tg : Nat) : List (Nat × Nat) → Nat → Option Nat
  | [], _ => none
  | x :: t, cum => if tg ≤ cum + 2 ^ x.2 then some x.1 else firstReaching tg t (cum + 2 ^ x.2)

/-- SKQRY.q of a q in [0, 1] on a sketch that is not empty (R189). -/
def Sketch.quantile (q : Sketch) (x : Nat) : Nat :=
  match fdecode fp32 x with
  | .fin _ m e =>
    if m = 0 then q.min
    else
      let p := scale2 m e
      if p.1 = p.2 then q.max
      else
        let w := (q.items.map (fun i => 2 ^ i.2)).sum
        let tg := (p.1 * w + p.2 - 1) / p.2
        (firstReaching tg q.items 0).getD q.max
  | _ => 0

/-- SKQRY.r (R189). -/
def Sketch.rank (q : Sketch) (x : Nat) : Nat :=
  let x := if x = 0x80000000 then 0 else x
  ((q.items.filter (fun i => decide (f32Key i.1 ≤ f32Key x))).map (fun i => 2 ^ i.2)).sum

/-! ### Heavy-hitter lists (R191 to R194) -/

/-- An entry: KEY, COUNT, ERR. -/
structure Hitter where
  key   : Nat
  count : Nat
  err   : Nat
  deriving DecidableEq, Repr

/-- A list: M, N, D and the entries in use. -/
structure Hitters where
  m  : Nat
  n  : Nat
  d  : Nat
  es : List Hitter
  deriving DecidableEq, Repr

def readHitters (img : List Byte) : Hitters :=
  { m := imgNat img 2 2, n := imgNat img 8 8, d := imgNat img 0x10 8,
    es := (List.range (imgNat img 4 4)).map (fun i =>
      { key := imgNat img (32 + 12 * i) 4, count := imgNat img (36 + 12 * i) 4, err := imgNat img (40 + 12 * i) 4 }) }

def writeHitters (img : List Byte) (h : Hitters) : List Byte :=
  let img := imgPut (imgPut (imgPut img 4 4 h.es.length) 8 8 h.n) 0x10 8 h.d
  h.es.zipIdx.foldl (fun img x =>
    imgPut img (32 + 12 * x.2) 12 (x.1.key + 2 ^ 32 * x.1.count + 2 ^ 64 * x.1.err)) img

/-- COUNT descending, then KEY ascending. -/
def hitterLe (a b : Hitter) : Bool := decide (b.count < a.count) || (a.count == b.count && decide (a.key ≤ b.key))

/-- Insertion of one key (R192). -/
def Hitters.insert (h : Hitters) (x : Nat) : Hitters :=
  let n := (h.n + 1) % 2 ^ 64
  if h.es.any (fun e => e.key == x) then
    let es := h.es.map (fun (e : Hitter) => if e.key = x then { e with count := sat32 (e.count + 1) } else e)
    { h with n, es := sortBy hitterLe es }
  else if h.es.length < h.m then
    { h with n, es := sortBy hitterLe (h.es ++ [({ key := x, count := 1, err := sat32 h.d } : Hitter)]) }
  else
    let es := (h.es.map (fun (e : Hitter) => { e with count := e.count - 1 })).filter (fun e => e.count != 0)
    { h with n, es := sortBy hitterLe es, d := (h.d + 1) % 2 ^ 64 }

/-- What a list holds of a key: count and error. -/
def Hitters.about (h : Hitters) (x : Nat) : Nat × Nat :=
  match h.es.find? (fun e => e.key == x) with
  | some e => (e.count, e.err)
  | none => (0, sat32 h.d)

/-- The merge (R193). -/
def Hitters.merge (d s : Hitters) : Hitters :=
  let keys := (d.es.map (fun e => e.key) ++ s.es.map (fun e => e.key)).eraseDups
  let all := sortBy hitterLe (keys.map (fun x =>
    { key := x, count := (d.about x).1 + (s.about x).1, err := (d.about x).2 + (s.about x).2 }))
  let cut := (all.getD d.m { key := 0, count := 0, err := 0 }).count
  let less := fun (e : Hitter) => ({ e with count := e.count - cut, err := e.err + cut } : Hitter)
  let left := sortBy hitterLe ((all.map less).filter (fun e => e.count != 0))
  -- saturation may make counts equal: the order is that of the stored counts
  let es := sortBy hitterLe ((left.take d.m).map (fun (e : Hitter) => { e with count := sat32 e.count, err := sat32 e.err }))
  { d with n := (d.n + s.n) % 2 ^ 64, d := (d.d + s.d + cut) % 2 ^ 64, es }

/-! ### Distinct counts (R195 to R198) -/

/-- Register and value of a key (R196). -/
def distinctOf (p x : Nat) : Nat × Nat :=
  let h := (mix64 (BitVec.ofNat 64 x)).toNat
  let w := h % 2 ^ (64 - p)
  (h / 2 ^ (64 - p), if w = 0 then 65 - p else 64 - p - Nat.log2 w)

/-- A key counted in an image. -/
def distinctInsert (img : List Byte) (x : Nat) : List Byte :=
  let r := distinctOf (imgNat img 1 1) x
  imgPut (imgPut img (32 + r.1) 1 (max (imgNat img (32 + r.1) 1) r.2)) 8 8 ((imgNat img 8 8 + 1) % 2 ^ 64)

/-- The merge of two images (R197). -/
def distinctMerge (d s : List Byte) : List Byte :=
  imgPut (d.take 32 ++ List.zipWith (fun a b => if a.toNat < b.toNat then b else a) (d.drop 32) (s.drop 32))
    8 8 ((imgNat d 8 8 + imgNat s 8 8) % 2 ^ 64)

/-- The estimate (R198): α·m²/Z, or m·ln(m/V), rounded once. -/
def distinctEstimate (img : List Byte) : Nat :=
  let m := 2 ^ imgNat img 1 1
  let rs := (img.drop 32).take m |>.map (fun b => b.toNat)
  let z := (rs.map (fun r => 2 ^ (255 - r))).sum
  let v := (rs.filter (fun r => r == 0)).length
  -- α = 7213·m / (10·(1000·m + 1079)), Z = z / 2^255
  let num := 7213 * m * m * m * 2 ^ 255
  let den := 10 * (1000 * m + 1079) * z
  if 0 < v ∧ 2 * num ≤ 5 * m * den then
    if v = m then 0
    else
      let k := Nat.log2 (m / v)
      let l := k * fixLn2 + lnFix (m * fixOne / (v * 2 ^ k))
      (roundBetween fp32 5 (m * 2 ^ 16 + v) false (fixFrac (m * (l - fixErr)) 0) (fixFrac (m * (l + fixErr)) 0)).code
  else (roundRat fp32 .rne false num den).code

/-! ### Merging images -/

/-- The reason for which two images cannot be merged, the lowest that applies (R182). -/
def mergeBad (ty : Nat) (d s : List Byte) : Option Nat :=
  let full := fun (i : List Byte) => headBad i || (imgNat i 0 1 == tSketch && (readSketch i none).overfull)
  if imgNat d 0 1 ≠ ty ∨ imgNat s 0 1 ≠ ty ∨ shapeOf d ≠ shapeOf s then some 1
  else if full d || full s then some 2 else none

/-- Two images of one kind and shape merged, and the draws left (R188, R193, R197). -/
def mergeImages (d s : List Byte) (draw : Option (Word × Nat × Nat)) : List Byte × Option (Word × Nat × Nat) :=
  let ty := imgNat d 0 1
  if ty = tSketch then
    let q := (readSketch d draw).merge (readSketch s none)
    (writeSketch d q, q.draw)
  else if ty = tHitter then (writeHitters d ((readHitters d).merge (readHitters s)), draw)
  else (distinctMerge d s, draw)

end Sys2Proof.Machine
end

