-- ==== Sys2Proof/Machine/Access.lean ====
section
/-! DEFINITION. A strand's accesses: fences and the request queue (12 R251, R256), watch ranges (15 R330), reads through
return ports (10 R211), stores and reductions with the side log (10 R212 to R215), bound regions (12 R257 to R260). -/
namespace Sys2Proof.Machine

/-! ### Fences and order -/

/-- Acquire order, and release order, of an access (12 R251). -/
def acquires (order : Nat) : Bool := order % 2 == 1
def releases (order : Nat) : Bool := order / 2 % 2 == 1

/-- An access with acquire order before number n has not yet taken its value; of those in the side log, one made before
`seq` (12 R251). -/
def Tile.owesAcquire (t : Tile) (c n seq : Nat) : Bool :=
  let x := t.ctx c
  x.ports.any (fun p => p.2.any (fun e => e.failed.isNone && match e.held with
    | some h => h.acq && decide (h.num < n)
    | none => false)) ||
  x.storeQ.any (fun q => acquires q.order && q.aop.isSome && decide (q.num < n)) ||
  t.sideLog.any (fun e => e.ctx == c && acquires e.order && e.aop.isSome && decide (e.seq < seq))

/-- A summary operation of a context before number n is not yet performed (09 R181). -/
def Tile.owesSummary (t : Tile) (c n : Nat) : Bool := t.sumq.any (fun o => o.iss.ctx == c && decide (o.num < n))

/-- A context has entries in the side log. -/
def Tile.logged (t : Tile) (c : Nat) : Bool := t.sideLog.any (fun e => e.ctx == c)

/-- A context has entries in the side log of accesses before number n. -/
def Tile.loggedBefore (t : Tile) (c n : Nat) : Bool := t.sideLog.any (fun e => e.ctx == c && decide (e.num < n))

/-- A store of a context before number n waits in the request path. -/
def Ctx.storeBefore (c : Ctx) (n : Nat) : Bool := c.storeQ.any (fun q => decide (q.num < n))

/-- What a fence waits for holds (12 R256). -/
def Tile.fenceReady (t : Tile) (c : Nat) (f : Fence) : Bool :=
  (f.kind == 2 || !(t.ctx c).owesBefore f.num) &&
    (f.kind == 1 || (!t.loggedBefore c f.num && !t.owesSummary c f.num && !(t.ctx c).storeBefore f.num))

/-- Accesses and fences that wait in a tile's request queue. -/
def Tile.requests (t : Tile) : Nat :=
  (t.ctxs.map (fun c => c.2.fences.length + c.2.storeQ.length +
    (c.2.ports.map (fun p => (p.2.filter (fun e => e.held.isSome)).length)).sum)).sum

/-- The tile's request queue is full (03 R56): the spec gives no size, so that how many it holds is free.
(log 135: DESIGN CHOICE) -/
def Tile.requestFull (t : Tile) : Bool :=
  if t.requests = 0 then false else decide (Config.requestSlots < t.requests)

/-- The effect of a complete fence on L1: wider than crew, FENCE.st writes back and FENCE.ld drops (12 R256).
(log 13: DEDUCED) -/
def State.fenceEffect (s : State) (t : Nat) (f : Fence) : State :=
  if f.scope ≤ 1 then s
  else
    let s := if f.kind = 1 then s else s.flushTile t
    if f.kind = 2 then s else s.dropClean t

/-- A fence of system scope holds for the host when none of the tile's writes waits for it (12 R249, 16 R339). -/
def State.hostReady (s : State) (t : Nat) (f : Fence) : Bool := f.kind == 1 || decide (f.scope < 5) || !s.hostOwes t

/-- Fences at the head of the request queue complete while they can. -/
def State.drainFences (s : State) (t c : Nat) : Nat → State
  | 0 => s
  | n + 1 =>
    let x := s.ctxAt t c
    match x.fences with
    | [] => s
    | f :: rest =>
      if (s.tile t).fenceReady c f && s.hostReady t f then
        ((s.setCtxAt t c { x with fences := rest }).fenceEffect t f).drainFences t c n
      else s

/-- The fences of a context that can complete do so. -/
def State.runFences (s : State) (t c : Nat) : State := s.drainFences t c (s.ctxAt t c).fences.length

/-- A read takes its value only after the fences before it that hold loads, and after earlier reads with acquire order;
one that also writes, after every earlier fence and read (12 R248, R251, R256). (log 23: DEDUCED) -/
def Tile.mayRead (t : Tile) (c : Nat) (h : Held) : Bool :=
  let x := t.ctx c
  !t.owesAcquire c h.num h.seq && match h.kind with
    | .atomic _ _ _ _ order _ _ => !x.fences.any (fun f => decide (f.num < h.num)) && !x.owesBefore h.num &&
        (!releases order || (!x.storeBefore h.num && !t.owesSummary c h.num))
    | _ => !x.fences.any (fun f => f.kind != 2 && decide (f.num < h.num))

/-- A store waits for fences that hold stores, and, so that it is not visible before an earlier load has taken its value
(12 R248), for reads that are still owed. -/
def Ctx.heldBack (c : Ctx) : Bool := c.fences.any (fun f => f.kind != 1) || c.owesRead || !c.storeQ.isEmpty

/-- Every earlier access of a strand has been performed at its tile: what an arrival at crew scope waits for (12 R251,
R264). -/
def Tile.settled (t : Tile) (c : Nat) : Bool := !(t.ctx c).heldBack && !t.owesSummary c (t.ctx c).num

/-- The accesses that come before an engine operation in its strand's program have been performed, also where the strand's
crew is saved (12 R262). -/
def State.forkReady (s : State) (i : Issuer) : Bool :=
  match s.crewState i.gang i.crew with
  | none => true
  | some x =>
    let c := x.ctx i.ctx
    !c.owesBefore i.num && !c.storeBefore i.num &&
      !x.sideLog.any (fun e => e.ctx == i.ctx && decide (e.seq < i.seq)) &&
      !x.sumq.any (fun o => o.iss.ctx == i.ctx && decide (o.num < i.num))

/-- The fork of an operation that begins: what its strand has written and seen stands at its point of coherence. -/
def State.fork (s : State) (i : Issuer) : State :=
  match s.crewTile i.gang i.crew with
  | none => s
  | some t => s.flushTile t

/-! ### Checks -/

/-- The first byte of an access that any enabled watch range of a matching kind covers (15 R330). (log 22: DEDUCED) -/
def watchHit (v : Vf) (obj off n : Nat) (read write : Bool) : Option Nat :=
  (v.watches.filterMap (fun x => x.2.bind (fun w =>
    if w.obj = obj ∧ ((read ∧ w.reads) ∨ (write ∧ w.writes)) ∧ off < w.low + w.len ∧ w.low < off + n
      ∧ 0 < w.len then some (max off w.low) else none))).min?

/-- cap_check of the current strand (10 R206). (log 20: DEDUCED) -/
def State.check (s : State) (cap : TCap) (off n need align : Nat) (u : Use) : Res Place :=
  s.capCheck s.curVf (s.tile s.cur).crewSpad cap off n need align u

/-- WATCH, once the capability has passed: TRAPA is the virtual address of the first overlapping byte. -/
def State.watch (s : State) (cap : TCap) (off n : Nat) (read write : Bool) (p : Place) : Res Unit :=
  match p with
  | .spad _ => .ok ()
  | .virt _ va _ =>
    if s.ctx.watchOff then .ok ()
    else match watchHit (s.vf s.curVf) (capObj cap) off n read write with
      | some a => .trap .watch (BitVec.ofNat 64 (va + (a - off)))
      | none => .ok ()

/-- The tier of the memory that a place names at present; none where its page has no translation. -/
def State.placeTier (s : State) (p : Place) : Option Nat :=
  match p with
  | .spad _ => none
  | .virt pasid va _ => (s.physOf pasid va).map tierOf

/-- The scope of a relaxed plain access: crew in the scratchpad, system in host memory, device elsewhere (05 R109); memory
whose page has no translation yet counts as the device's. (log 136: DEDUCED) -/
def State.plainScope (s : State) (p : Place) : Nat :=
  match p with
  | .spad _ => 1
  | .virt _ _ _ => if s.placeTier p == some 2 then 5 else 4

/-! ### Bound regions (12 R257 to R260) -/

/-- The sync-object word that an entry names. -/
def Binding.word (b : Binding) : Nat × Nat := (b.syncObj, b.syncOff)

/-- The virtual range of a binding's region, while both generations still match (12 R257). -/
def State.bindRegion (s : State) (vf : Nat) (b : Binding) : Option Region :=
  let sync := if b.syncObj = 0xFFFFFF then some b.syncGen else (s.objEntry vf b.syncObj).map (fun o => o.gen)
  match s.objEntry vf (capObj b.region) with
  | some e =>
    if e.gen == capGen b.region && sync == some b.syncGen then
      some { pasid := e.pasid, va := e.vabase + capLow b.region, len := capLen b.region } else none
  | none => none

/-- The regions that a strand has bound to a sync-object word. -/
def State.regionsOf (s : State) (t c obj off : Nat) : List Region :=
  (s.ctxAt t c).binds.filterMap (fun x => match x.2 with
    | some b => if b.word = (obj, off) then s.bindRegion (s.tileVf t) b else none
    | none => none)

/-- A physical sector holds a byte of a region, under some translation of its PASID. -/
def State.sectorIn (s : State) (sec : Nat) (r : Region) : Bool :=
  s.atc.any (fun x => match x.2 with
    | some e =>
      let va := (x.1 % 2 ^ 45 + (sec / 64 - e.map.ppage)) * 4096 + 64 * sec % 4096
      x.1 / 2 ^ 45 == r.pasid && decide (e.map.ppage ≤ sec / 64) && decide (sec / 64 < e.map.ppage + mapPages e.map) &&
        decide (va < r.va + r.len) && decide (r.va < va + 64)
    | none => false)

/-- The release of a sync object's regions: their dirty sectors in the tile's L1 are written back (12 R259).
(log 26: DEDUCED) -/
def State.releaseRegions (s : State) (t : Nat) (rs : List Region) : State :=
  ((s.tile t).l1.filter (fun x => rs.any (fun r => s.sectorIn x.1 r))).foldl (fun s x => s.l1WriteBack t x.1) s

/-- The acquire of a sync object's regions: the tile's clean sectors of them are dropped (12 R260), and of the dirty ones the
bytes that it has not written. -/
def State.acquireRegions (s : State) (t : Nat) (rs : List Region) : State :=
  let x := s.tile t
  s.setTile t { x with l1 := x.l1.filterMap (fun y => match y.2 with
    | some d =>
      if !rs.any (fun r => s.sectorIn y.1 r) then some y
      else if d.dirty.isSome then some (y.1, some (s.refreshed y.1 d)) else none
    | none => none) }

/-- Before an atomic on a sync-object word: with rel or ar order it releases the regions bound to it (12 R260). -/
def State.syncBefore (s : State) (t c order : Nat) (sync : Option (Nat × Nat)) : State :=
  match sync with
  | some w => if releases order then s.releaseRegions t (s.regionsOf t c w.1 w.2) else s
  | none => s

/-- After it: with acq or ar order it acquires them. -/
def State.syncAfter (s : State) (t c order : Nat) (sync : Option (Nat × Nat)) : State :=
  match sync with
  | some w => if acquires order then s.acquireRegions t (s.regionsOf t c w.1 w.2) else s
  | none => s

/-- The sync-object word that an access names. -/
def syncWord (cap : TCap) (off : Nat) : Option (Nat × Nat) :=
  if capKind cap = 1 then some (capObj cap, off) else none

/-! ### Reading -/

/-- An access goes past L1 to the home slice of a physical address: by its order, or as a plain one to host memory (05 R109,
12 R251, 16 R340). -/
def Via.past (v : Via) (pa : Nat) : Bool :=
  match v with
  | .plain => tierOf pa == 2
  | .home => true
  | .crew => false

/-- How an access with an order and a scope reaches memory (12 R251). -/
def viaOf (order scope : Nat) : Via := if order = 0 then .plain else if 2 ≤ scope then .home else .crew

/-- Bytes of one sector at a physical address as an access of tile t reads them: at the point of coherence after the tile's own
copy has been written back; without a fill (`stream`); else through L1. -/
def State.readSector (s : State) (t c : Nat) (tag : MTag) (pa n : Nat) (via : Via) (stream : Bool) : List Byte × State :=
  let sec := pa / 64
  let hit := ((s.tile t).l1Get sec).isSome
  let s := s.count t c (if hit then 17 else 18) 1
  let s := if hit then s else s.count t c (if s.mortarHit sec tag then 19 else 20) 1
  if via.past pa || (stream && !hit) then
    let s := (s.l1Flush t sec).mortarTouch sec tag false
    (s.pocBytes pa n, s)
  else
    let s := s.l1Ensure t sec tag
    match (s.tile t).l1Get sec with
    | some x => ((List.range n).map (fun i => vecByte x.data (pa % 64 + i)), s)
    | none => (s.pocBytes pa n, s)

/-- A sector is poisoned as tile t sees it. -/
def State.sectorPoison (s : State) (t sec : Nat) : Bool :=
  match (s.tile t).l1Get sec with
  | some x => x.poison
  | none => Sparse.get false s.poison sec

/-- A sector must be had from its home slice, behind a write that waits there for the host: one that the tile's L1 does not
hold, or that an access past L1 has to write back first (16 R339). -/
def State.sectorBusy (s : State) (t sec : Nat) (past : Bool) : Bool :=
  match (s.tile t).l1Get sec with
  | some x => past && (s.pending sec || (x.dirty.isSome && s.awaits sec))
  | none => s.pending sec

/-- A sector of a virtual range must be waited for. -/
def State.rangeBusy (s : State) (t pasid va n : Nat) (via : Via) : Bool :=
  (sectorParts va n).any (fun x => match s.physOf pasid (va + x.1) with
    | some pa => s.sectorBusy t (pa / 64) (via.past pa)
    | none => false)

/-- Poison that a read meets was written by the tile itself, or came with a fill: the source of the error (15 R334). -/
def State.poisonSrc (s : State) (t sec : Nat) : Nat :=
  match (s.tile t).l1Get sec with
  | some x => if x.own then 2 else 4
  | none => 4

/-- Bytes of a virtual range as a tile reads them; none where a page has no translation, or a sector must be waited for.
Poisoned data is MEMUE for the strand that asked (10 R220). -/
def State.readVirt (s : State) (t c vf pasid va : Nat) (obj : Option Nat) (n : Nat) (via : Via) (stream : Bool) : Option (List Byte × State) :=
  match if s.rangeBusy t pasid va n via then .missing else s.rangeXlat pasid va n false with
  | .mapped _ =>
    let s := s.touchRange pasid va n
    some ((sectorParts va n).foldl (fun (r : List Byte × State) p =>
      let s := r.2
      match s.lookupVa pasid (va + p.1) false with
      | .mapped pa =>
        let bad := s.sectorPoison t (pa / 64)
        let src := s.poisonSrc t (pa / 64)
        let x := s.readSector t c (s.fileTag vf pasid (va + p.1) obj) pa p.2 via stream
        (r.1 ++ x.1, if bad then x.2.memue (x.2.issuer t c) src pa (va + p.1) else x.2)
      | _ => r) ([], s))
  | _ => none

/-- A sector of a range of the scratchpad is poisoned. -/
def State.spadBad (s : State) (t off n : Nat) : Bool :=
  (sectorParts off n).any (fun x => Sparse.get false (s.tile t).spadPoison ((off + x.1) / 64))

/-- Bytes at a place. -/
def State.readPlace (s : State) (t c : Nat) (p : Place) (n : Nat) (via : Via) (stream : Bool) : Option (List Byte × State) :=
  match p with
  | .spad off => some (s.spadBytes t off n, if s.spadBad t off n then s.memue (s.issuer t c) 2 0 0 else s)
  | .virt pasid va obj => s.readVirt t c (s.tileVf t) pasid va obj n via stream

/-- A place further on. -/
def Place.add (p : Place) (k : Nat) : Place :=
  match p with
  | .spad off => .spad (off + k)
  | .virt pasid va obj => .virt pasid (va + k) obj

/-- A page of a range at a place exists and forbids reading it (10 R211). -/
def State.placeFault (s : State) (p : Place) (n : Nat) : Bool :=
  match p with
  | .spad _ => false
  | .virt pasid va _ => s.rangeXlat pasid va n false == .forbidden

/-- The address that a place names. -/
def Place.addr (p : Place) : Nat :=
  match p with
  | .spad off => off
  | .virt _ va _ => va

/-- The tag of the 16-byte unit at a place, as the tile's L1 or the point of coherence holds it; none in host memory. -/
def State.readTag (s : State) (t : Nat) (p : Place) (via : Via) : Bool :=
  match p with
  | .spad off => Sparse.get false (s.tile t).spadTag (off / 16)
  | .virt pasid va _ =>
    match s.lookupVa pasid va false with
    | .mapped pa =>
      if tierOf pa == 2 then false
      else match (s.tile t).l1Get (pa / 64), via.past pa with
        | some x, false => x.tags.getLsbD (pa % 64 / 16)
        | _, _ => s.pocTag (pa / 16)
    | _ => false

/-- A value of n bytes, sign- or zero-extended to 64 bits (18 R394). -/
def extend (n : Nat) (signed : Bool) (x : Nat) : Word :=
  if signed then BitVec.ofInt 64 (signedBytes n x) else BitVec.ofNat 64 x

/-- The dwords of bytes. -/
def dwords : Nat → List Byte → List Word
  | 0, _ => []
  | k + 1, bs => BitVec.ofNat 64 (bytesNat (bs.take 8)) :: dwords k (bs.drop 8)

/-- A logged entry of a context covers a byte of a range (10 R212); `seq` limits it to entries made before. -/
def Tile.logCovers (t : Tile) (c seq pasid va n : Nat) : Bool :=
  t.sideLog.any (fun e => e.ctx == c && decide (e.seq < seq) && e.pasid == pasid &&
    decide (e.va < va + n) && decide (va < e.va + e.data.length))

/-- The values of a history of replacements that were held at some time from clk a to clk b; `from_` is when the first was
written. -/
def heldIn (a b : Nat) : Nat → List (Nat × Word) → List Word
  | _, [] => []
  | from_, (c, w) :: t => (if a ≤ c ∧ from_ ≤ b then [w] else []) ++ heldIn a b c t

/-- Values that the constant path may return for the aligned dword of a location, to an LDC that issued at clk `at_`: what it has
held from the admission of the wave's first gang until then, there or in the tile's L1 (12 R267). -/
def State.constants (s : State) (t pa at_ : Nat) : List Word :=
  let since := match s.tileGang t with
    | some g => match s.gangWave g with | some w => w.since | none => 0
    | none => 0
  let now := match (s.tile t).l1Get (pa / 64) with
    | some x => [BitVec.ofNat 64 (x.data.toNat / 2 ^ (8 * (pa % 64 / 8 * 8)))]
    | none => []
  let h := Sparse.get [] s.hist (pa / 8)
  let old := heldIn since at_ 0 h
  -- what the location holds now is one of them unless it was written after the issue
  if (h.getLast?.map (fun x => decide (x.1 ≤ at_))).getD true || old.isEmpty then (old ++ now ++ [s.pocDword (pa / 8)]).eraseDups
  else old.eraseDups

/-- The constant path's value of n bytes at a place: one of those allowed, by a free choice where there are several.
(log 14: DESIGN CHOICE) -/
def State.readConstant (s : State) (t c : Nat) (p : Place) (n at_ : Nat) : Option (List Byte × State) :=
  match p with
  | .spad _ => s.readPlace t c p n .plain false
  | .virt pasid va _ =>
    match s.lookupVa pasid va false with
    | .mapped pa =>
      let vs := s.constants t pa at_
      let v := if vs.length = 1 then vs.headD 0 else vs.getD (Config.constantChoice s.free % vs.length) 0
      let bad := s.sectorPoison t (pa / 64)
      let s := { s.touchPage pasid va with free := s.free + 1 }
      some ((natBytes 8 v.toNat).drop (pa % 8) |>.take n, if bad then s.memue (s.issuer t c) (s.poisonSrc t (pa / 64)) pa va else s)
    | _ => none

/-- A lane's four bytes put into a register. -/
def lanePut (v : Vec) (lane : Nat) (x : Nat) : Vec :=
  mergeBits (0xFFFFFFFF#512 <<< (32 * lane)) v (BitVec.ofNat 512 x <<< (32 * lane))

/-- One lane (16m + i) of a vector read arrives in its port entry (20 R449). -/
def PortEntry.lane (e : PortEntry) (k x : Nat) : PortEntry :=
  { e with
    value := if k < 16 then lanePut e.value k x else e.value
    writes := e.writes.zipIdx.map (fun w => match w.1 with
      | .vreg c r m v => if w.2 = k / 16 then .vreg c r m (lanePut v (k % 16) x) else .vreg c r m v
      | y => y) }

/-- The old value of an atomic as b5 receives it (17 R352, R356): words extended by sign or zero; 16 bytes whole, of which
a reader takes the low dword. -/
def atomicValue (n : Nat) (signed : Bool) (old : Nat) : Vec :=
  if n ≤ 8 then (extend n signed old).setWidth 512 else BitVec.ofNat 512 old

/-- Two ranges of the same space share a byte. -/
def overlap (p q : Place) (n m : Nat) : Bool :=
  match p, q with
  | .spad a, .spad b => decide (a < b + m) && decide (b < a + n)
  | .virt x a _, .virt y b _ => x == y && decide (a < b + m) && decide (b < a + n)
  | _, _ => false

/-- A waiting store of the strand before number k writes a byte of a range. -/
def Ctx.storesTo (c : Ctx) (k : Nat) (p : Place) (n : Nat) : Bool :=
  c.storeQ.any (fun q => decide (q.num < k) && overlap q.place p q.data.length n)

/-! ### The partition instruction (08 R168 to R171) -/

/-- A number of n bytes in the scratchpad. -/
def State.spadNat (s : State) (t off n : Nat) : Nat := bytesNat (s.spadBytes t off n)

/-- One index appended to the list that its outcome names: NT, NF and the state, from those before. (log 51: DEDUCED) -/
def partStep (t o size : Nat) (acc : Nat × Nat × State) (x : Nat) (yes : Bool) : Nat × Nat × State :=
  let (nt, nf, s) := acc
  let n := if yes then nt else nf
  let spot := o + 16 + (if yes then 0 else 4 * size) + 4 * n
  let s := if n < size then s.spadWrite t (cellsFrom spot (natBytes 4 x)) else s
  if yes then ((nt + 1) % 2 ^ 32, nf, s) else (nt, (nf + 1) % 2 ^ 32, s)

/-- VPART applied to the area at o: the counts and the status, and the state (08 R170). -/
def State.partition (s : State) (t o : Nat) (xs : List (Nat × Bool)) (cap : TCap) : List Nat × State :=
  let nt := s.spadNat t o 4
  let nf := s.spadNat t (o + 4) 4
  let size := s.spadNat t (o + 8) 4
  let status :=
    if size = 0 ∨ 2 ^ 20 < size then 2
    else match s.capCheck (s.tileVf t) (s.tile t).crewSpad cap o (16 + 8 * size) (rR + rW) 16 .engine with
      | .ok _ => 0
      | _ => 1
  if status != 0 then ([nt, nf, status], s)
  else
    let r := xs.foldl (fun acc x => if x.1 = 0xFFFFFFFF then acc else partStep t o size acc x.1 x.2) (nt, nf, s)
    ([r.1, r.2.1, 0], r.2.2.spadWrite t (cellsFrom o (natBytes 4 r.1 ++ natBytes 4 r.2.1)))

/-- A VPART of a tile that issued before number id is still owed: they are applied in issue order (08 R171). -/
def Tile.owesPart (t : Tile) (id : Nat) : Bool :=
  t.ctxs.any (fun c => c.2.ports.any (fun p => p.2.any (fun e => match e.held with
    | some h => match h.kind with
      | .part i _ _ _ _ _ => decide (i < id)
      | _ => false
    | none => false)))

/-! ### Structures that summary operations wait to use (09 R181) -/

/-- Opcodes that merge. -/
def isMerge (op : Nat) : Bool := op == 0x83 || op == 0x84 || op == 0x85

/-- The most bytes that a structure of an operation can have. -/
def maxArea (op : Nat) : Nat :=
  if op = 0x83 ∨ op = 0x86 ∨ op = 0x87 ∨ op = 0x88 then 133184 else if op = 0x82 ∨ op = 0x84 then 3104 else 16416

/-- The place of another offset of the operation's capability. -/
def SumOp.placeAt (o : SumOp) (off : Nat) : Place :=
  match o.place with
  | .spad _ => .spad off
  | .virt pasid va obj => .virt pasid (va + off - o.off) obj

/-- The source offset of a merge: lanes 0 and 1, 48 bits (09 R179). -/
def SumOp.source (o : SumOp) : Nat := (o.elems.getD 0 0 + 2 ^ 32 * o.elems.getD 1 0) % 2 ^ 48

/-- The areas that an operation reads or writes, as the structures stand. -/
def State.sumAreas (s : State) (t : Nat) (o : SumOp) : List (Place × Nat) :=
  let len := fun (p : Place) => match s.readPlace t o.iss.ctx p 32 .plain false with
    | some r => areaLen r.1
    | none => maxArea o.op
  if o.op = 0x80 then [(o.place, o.size)]
  else if isMerge o.op then [(o.place, len o.place), (o.placeAt o.source, len (o.placeAt o.source))]
  else [(o.place, len o.place)]

/-- A summary operation of the strand before number num uses a byte of a range. -/
def State.behindSummary (s : State) (t c num : Nat) (p : Place) (n : Nat) : Bool :=
  (s.tile t).sumq.any (fun o => o.iss.ctx == c && decide (o.num < num) &&
    (s.sumAreas t o).any (fun a => overlap a.1 p a.2 n))

/-- The addresses that a held read waits on. -/
def Held.spans (h : Held) : List (Place × Nat) :=
  match h.kind with
  | .load size _ dst _ _ => [(h.place, size * max 1 dst.length)]
  | .atomic n _ _ _ _ _ _ => [(h.place, n)]
  | .kld _ _ => [(h.place, 16)]
  | .vec lanes _ _ _ _ _ => lanes.map (fun l => (h.place.add l.2, 4))
  | .part _ _ _ _ _ _ => [(h.place, 16)]

/-- The bytes that a held read has yet to take, a VPART's whole area among them. -/
def State.spansOf (s : State) (t : Nat) (h : Held) : List (Place × Nat) :=
  match h.kind, h.place with
  | .part _ _ _ _ _ _, .spad o => [(h.place, 16 + 8 * min (s.spadNat t (o + 8) 4) (2 ^ 20))]
  | _, _ => h.spans

/-- An earlier read of the strand has yet to take a byte of a range: values are taken in order (12 R247). -/
def State.behindRead (s : State) (t c num : Nat) (p : Place) (n : Nat) : Bool :=
  (s.ctxAt t c).ports.any (fun q => q.2.any (fun e => e.failed.isNone && match e.held with
    | some h => decide (h.num < num) && (s.spansOf t h).any (fun a => overlap a.1 p a.2 n)
    | none => false))

/-- A read of a strand's bytes by an access of number num must wait for an earlier store, summary operation, read or logged
entry of the strand on them (09 R181, 10 R212, 12 R247). -/
def State.readBlocked (s : State) (t c num seq : Nat) (p : Place) (n : Nat) : Bool :=
  (s.ctxAt t c).storesTo num p n || s.behindSummary t c num p n || s.behindRead t c num p n || match p with
    | .spad _ => false
    | .virt pasid va _ => (s.tile t).logCovers c seq pasid va n

/-- A page of a held read exists and forbids it: the address (10 R211). -/
def State.readFault (s : State) (h : Held) : Option Nat :=
  h.spans.findSome? (fun x => match x.1 with
    | .virt pasid va _ => if s.rangeXlat pasid va x.2 false = .forbidden then some va else none
    | .spad _ => none)

/-- What a read that owes a port entry does now: the entry it leaves, still held where it waits for a translation or for a
logged store of its strand (10 R211, R212). -/
def State.tryRead (s : State) (t c : Nat) (h : Held) (e : PortEntry) : PortEntry × State :=
  let stay := ({ e with held := some h }, s)
  let done := { e with held := none }
  let blocked := s.readBlocked t c h.num h.seq
  let constant := match h.kind with | .load _ _ _ _ k => k | _ => false
  -- the constant path waits for no fence (12 R267)
  if !constant && !(s.tile t).mayRead c h then stay
  else match s.readFault h with
  | some va => ({ e with held := some h, failed := some (.perm, BitVec.ofNat 64 va) }, s)
  | none => match h.kind with
  | .load size signed dst via _ =>
    let n := size * max 1 dst.length
    if blocked h.place n then stay
    else match if constant then s.readConstant t c h.place n h.at_ else s.readPlace t c h.place n via false with
      | none => stay
      | some (bs, s') =>
        if dst.length ≤ 1 then
          let v := extend size signed (bytesNat bs)
          ({ done with value := v.setWidth 512, writes := dst.map (fun r => .sreg r v) }, s')
        else
          let ws := dwords dst.length bs
          ({ done with value := (ws.headD 0).setWidth 512, writes := (dst.zip ws).map (fun x => .sreg x.1 x.2) }, s')
  | .atomic n op opnd signed order facq sync =>
    if blocked h.place n then stay
    else match h.place with
      | .spad off =>
        let bad := s.spadBad t off n
        let writes := atomWrites n op (bytesNat (s.spadBytes t off n))
        let r := (if writes then s.syncBefore t c order sync else s).atomicSpad t off n op opnd.toNat
        let s := r.2.syncAfter t c (if writes then order else facq.toNat) sync
        ({ done with value := atomicValue n signed r.1 }, if bad then s.memue (s.issuer t c) 2 0 0 else s)
      | .virt pasid va obj =>
        match s.lookupVa pasid va true with
        | .mapped pa =>
          -- the ALU has the sector to itself (16 R339, R340), and a release what its regions hold
          if s.awaits (pa / 64) || (releases order && sync.isSome && s.hostOwes t) then stay else
          let s := s.touchPage pasid va
          let bad := s.sectorPoison t (pa / 64)
          let src := s.poisonSrc t (pa / 64)
          let old := bytesNat ((s.l1Flush t (pa / 64)).pocBytes pa n)
          let s := if atomWrites n op old then s.syncBefore t c order sync else s
          let r := s.atomicAt t (s.fileTag (s.tileVf t) pasid va obj) pa n op opnd.toNat
          let s := r.2.syncAfter t c (if atomWrites n op r.1 then order else facq.toNat) sync
          ({ done with value := atomicValue n signed r.1 }, if bad then s.memue (s.issuer t c) src pa va else s)
        | .forbidden => ({ done with failed := some (.perm, BitVec.ofNat 64 va) }, s)
        | .missing => stay
  | .kld dst via =>
    if blocked h.place 16 then stay
    else match s.readPlace t c h.place 16 via false with
      | none => stay
      | some (bs, s') =>
        let tag := s'.readTag t h.place via
        ({ done with writes := [.kreg dst { bits := BitVec.ofNat 128 (bytesNat bs), tag }] }, s')
  | .vec lanes g cl dst nw stream =>
    let r := lanes.foldl (fun (a : PortEntry × State × List (Nat × Nat)) l =>
      let p := h.place.add l.2
      if blocked p 4 then (a.1, a.2.1, a.2.2 ++ [l])
      else match a.2.1.readPlace t c p 4 .plain stream with
        | none => (a.1, a.2.1, a.2.2 ++ [l])
        | some (bs, s') => (a.1.lane l.1 (bytesNat bs), s', a.2.2)) (done, s, [])
    if r.2.2.isEmpty then (r.1, r.2.1)
    else ({ r.1 with held := some { h with kind := .vec r.2.2 g cl dst nw stream } }, r.2.1)
  | .part id xs cap cl dst nw =>
    match h.place with
    | .virt _ _ _ => stay
    | .spad o =>
      let size := s.spadNat t (o + 8) 4
      if blocked h.place (16 + 8 * min size (2 ^ 20)) || (s.tile t).owesPart id then stay
      else
        let bad := s.spadBad t o 12
        let r := s.partition t o xs cap
        let v := vecOf 32 r.1
        ({ done with value := v, writes := if nw then [] else [.vreg cl dst (laneMask 0xFFFF) v] },
          if bad then r.2.memue (r.2.issuer t c) 2 0 0 else r.2)

/-- The pages of a held read without a translation are asked for (10 R210). -/
def State.request (s : State) (t c : Nat) (h : Held) : State :=
  h.spans.foldl (fun s x => match x.1 with
    | .spad _ => s
    | .virt pasid va _ =>
      match s.rangeXlat pasid va x.2 false with
      | .missing => (s.touchRange pasid va x.2).count t c 26 1
      | _ => s) s

/-- A read issues: it takes its entry of the port, in order, and its value where it can (04 R90, 10 R211). -/
def State.issueRead (s : State) (t c port : Nat) (h : Held) (e : PortEntry) : State :=
  let r := s.tryRead t c h e
  let s := r.2.setCtxAt t c ((r.2.ctxAt t c).pushPort port r.1)
  match r.1.held with
  | some h' => if r.1.failed.isSome then s else s.request t c h'
  | none => s

/-- The second entry of an ACAS.w takes its half, or its failure, once the first has been performed (17 R356). -/
def PortEntry.untwin (e : PortEntry) (before : Option PortEntry) : PortEntry :=
  match before with
  | some b => if e.twin && b.held.isNone then { e with twin := false, value := b.value >>> 64, failed := b.failed } else e
  | none => e

/-- The held reads of a port are tried again, oldest first. -/
def State.retryPort (s : State) (t c port : Nat) : State :=
  let es := (s.ctxAt t c).port port
  let r := es.foldl (fun (a : List PortEntry × State) e =>
    match e.held, e.failed with
    | some h, none => let x := a.2.tryRead t c h e; (a.1 ++ [x.1], x.2)
    | _, _ => (a.1 ++ [e.untwin a.1.getLast?], a.2)) ([], s)
  r.2.setCtxAt t c ((r.2.ctxAt t c).setPort port r.1)

/-- A page request has failed: the held reads that need the page are marked (10 R211). -/
def State.failReads (s : State) (pasid vpage : Nat) : State :=
  let fail := fun (e : PortEntry) => match e.held with
    | some h =>
      match h.spans.find? (fun x => match x.1 with
        | .virt p va _ => p == pasid && (pagesOf va x.2).contains vpage
        | .spad _ => false) with
      | some (.virt _ va _, _) => { e with failed := some (.page, BitVec.ofNat 64 va) }
      | _ => e
    | none => e
  { s with tiles := s.tiles.map (fun x => (x.1, { x.2 with ctxs := x.2.ctxs.map (fun y =>
      (y.1, { y.2 with ports := y.2.ports.map (fun p => (p.1, p.2.map fail)) })) })) }

/-! ### Writing -/

/-- Cells of a virtual range written by a tile: through L1, or at the point of coherence after the tile's copy has been written
back and dropped. Every page is mapped. -/
def State.writeVirt (s : State) (t vf pasid : Nat) (obj : Option Nat) (via : Via) (setTag : Bool) (cells : List (Nat × Byte)) : State :=
  ((cells.map (fun x => x.1 / 64)).eraseDups).foldl (fun (s : State) sec =>
    let s := s.touchPage pasid (64 * sec)
    match s.lookupVa pasid (64 * sec) true with
    | .mapped pa =>
      let tag := s.fileTag vf pasid (64 * sec) obj
      let phys := (cells.filter (fun x => x.1 / 64 == sec)).map (fun x => (pa + x.1 % 64, x.2))
      if let some (v, off) := doorbellAt pa then (s.flushTile t).ring v (phys.map (fun x => (off + (x.1 - pa), x.2)))
      else if via.past pa then (s.l1Flush t (pa / 64)).pocWrite tag setTag phys
      else (s.l1Ensure t (pa / 64) tag).l1Write t setTag phys
    | _ => s) s

/-- A place stands in a doorbell page: a store there is a release of what its strand has written (02 R40, 12 R265). -/
def State.rings (s : State) (p : Place) : Bool :=
  match p with
  | .spad _ => false
  | .virt pasid va _ => match s.physOf pasid va with
    | some pa => (doorbellAt pa).isSome
    | none => false

/-- Bytes of a masked store by bit of the mask. -/
def maskCells (mask : Nat) (cells : List (Nat × Byte)) : List (Nat × Byte) :=
  (cells.zipIdx.filter (fun x => mask / 2 ^ x.2 % 2 == 1)).map (fun x => x.1)

/-- A store, masked store or reduction as the strand issues it: virtual address, bytes, mask, reduction, order, scope. -/
structure StoreReq where
  pasid : Nat
  va    : Nat
  data  : List Byte
  mask  : Option Nat := none
  aop   : Option AtomOp := none
  order : Nat := 0
  scope : Nat := 0
  tag   : Option Bool := none
  /-- Performed at the point of coherence whatever its order (20 R450). -/
  poc   : Bool := false
  num   : Nat := 0
  obj   : Option Nat := none
  sync  : Option (Nat × Nat) := none
  deriving DecidableEq, Repr

/-- The request that a store of the path makes of memory. -/
def QueuedStore.req (q : QueuedStore) (pasid va : Nat) (obj : Option Nat) : StoreReq :=
  { pasid, va, obj, data := q.data, mask := q.mask, aop := q.aop, order := q.order, scope := q.scope, tag := q.tag, poc := q.poc
    num := q.num, sync := q.sync }

/-- A store or reduction finds its sectors at hand: it needs no sector of which a write waits for the host, and a reduction none
that the host may hold (16 R339, R340). -/
def State.pathHeld (s : State) (t : Nat) (r : StoreReq) : Bool :=
  s.anySector r.pasid r.va r.data.length (fun sec =>
    if r.aop.isSome then s.awaits sec else s.pending sec && ((s.tile t).l1Get sec).isNone) ||
  ((s.rings (.virt r.pasid r.va r.obj) || (releases r.order && r.sync.isSome)) && s.hostOwes t)

/-- A store or reduction of a context performed; its pages are mapped. A reduction reads its sector: poisoned data is MEMUE
(10 R220). -/
def State.perform (s : State) (t c : Nat) (r : StoreReq) : State :=
  match r.aop with
  | some op =>
    match s.lookupVa r.pasid r.va true with
    | .mapped pa =>
      let bad := s.sectorPoison t (pa / 64)
      let src := s.poisonSrc t (pa / 64)
      let s := ((s.syncBefore t c r.order r.sync).touchPage r.pasid r.va)
      let s := (s.atomicAt t (s.fileTag (s.tileVf t) r.pasid r.va r.obj) pa r.data.length op (bytesNat r.data)).2
      let s := s.syncAfter t c r.order r.sync
      if bad then s.memue (s.issuer t c) src pa r.va else s
    | _ => s
  | none =>
    let cells := cellsFrom r.va r.data
    let cells := match r.mask with | some m => maskCells m cells | none => cells
    s.writeVirt t (s.tileVf t) r.pasid r.obj (if r.poc then .home else viaOf r.order r.scope) (r.tag == some true) cells

/-- The side-log entries of a store: one for each 32 bytes (10 R212). (log 27: DEDUCED) -/
def logEntries (seq c : Nat) (r : StoreReq) : Nat → List LogEntry
  | 0 => []
  | k + 1 =>
    logEntries seq c r k ++ [{
      seq := seq + k, ctx := c, pasid := r.pasid, va := r.va + 32 * k
      op := if r.aop.isSome then 2 else if r.mask.isSome then 1 else 0
      order := r.order, scope := r.scope, aop := r.aop
      mask := r.mask.getD 0 / 2 ^ (32 * k) % 2 ^ 32, data := (r.data.drop (32 * k)).take 32, tag := r.tag
      num := r.num, obj := r.obj, poc := r.poc, sync := r.sync }]

/-- Access number n of a context has been given out. -/
def State.numberedFrom (s : State) (t c n : Nat) : State :=
  s.setCtxAt t c { s.ctxAt t c with num := max (s.ctxAt t c).num (n + 1) }

/-- Entries that a store takes. -/
def logCount (n : Nat) : Nat := (n + 31) / 32

/-- A store or reduction of a strand to memory: performed, or retired into the side log where its translation is missing or
forbids it, or where the strand already has entries there of accesses before it; a full log blocks (10 R211, R212). -/
def State.store (s : State) (t c : Nat) (r : StoreReq) : Res State :=
  let x := s.tile t
  let ok := match s.rangeXlat r.pasid r.va r.data.length true with | .mapped _ => true | _ => false
  if ok && !x.loggedBefore c r.num then .ok (s.perform t c r)
  else
    let k := logCount r.data.length
    if 256 < x.sideLog.length + k then .block .sideLog
    else
      let s := s.setTile t { x with sideLog := x.sideLog ++ logEntries x.logSeq c r k, logSeq := x.logSeq + k }
      let s := s.numberedFrom t c r.num
      let s := s.count t c 21 k
      let s := if ok then s else s.count t c 26 1
      .ok (match s.rangeXlat r.pasid r.va r.data.length true with
        | .missing => s.touchRange r.pasid r.va r.data.length
        | _ => s)

/-- A logged store of the strand lies in a region bound to a sync-object word (12 R259). -/
def State.relWaits (s : State) (t c obj off : Nat) : Bool :=
  (s.regionsOf t c obj off).any (fun r => (s.tile t).sideLog.any (fun e =>
    e.ctx == c && e.pasid == r.pasid && decide (e.va < r.va + r.len) && decide (r.va < e.va + e.data.length)))

/-- A store or reduction on the scratchpad, performed (10 R201, R205). -/
def State.spadStore (s : State) (t c off : Nat) (q : QueuedStore) : State :=
  match q.aop with
  | some op =>
    let bad := s.spadBad t off q.data.length
    let s := ((s.syncBefore t c q.order q.sync).atomicSpad t off q.data.length op (bytesNat q.data)).2.syncAfter t c q.order q.sync
    if bad then s.memue (s.issuer t c) 2 0 0 else s
  | none =>
    let cells := cellsFrom off q.data
    let s := s.spadWrite t (match q.mask with | some m => maskCells m cells | none => cells)
    if q.tag == some true then s.spadSetTag t (off / 16) true else s

/-- What the first store of a strand's request path waits for: an earlier summary operation on its bytes, or with release
order any; a logged access with acquire order, where the store does not go behind it into the log; and for a REL the logged
stores of its regions (09 R181, 12 R251, R259). -/
def State.storeWaits (s : State) (t c : Nat) (q : QueuedStore) : Bool :=
  let x := s.tile t
  s.behindSummary t c q.num q.place q.data.length || ((releases q.order || s.rings q.place) && x.owesSummary c q.num) ||
    (match q.place with
      | .spad _ => x.sideLog.any (fun e => e.ctx == c && acquires e.order && e.aop.isSome)
      | .virt pasid va obj => s.pathHeld t (q.req pasid va obj)) ||
    (q.rel && match q.sync with | some w => s.relWaits t c w.1 w.2 | none => false)

/-- The first store of a strand's request path, once fences and reads let it go: to the scratchpad at once, or to memory. -/
def State.doStore (s : State) (t c : Nat) (q : QueuedStore) : Res State :=
  if s.storeWaits t c q then .block .structure
  else match q.place with
  | .spad off => .ok (s.spadStore t c off q)
  | .virt pasid va obj => s.store t c (q.req pasid va obj)

/-- The waiting stores of a context are performed in order while they can be; n bounds them. A tagged unit that has come to
lie in host memory is PERM (18 R392). -/
def State.drainStores (s : State) (t c : Nat) : Nat → State
  | 0 => s
  | n + 1 =>
    let x := s.ctxAt t c
    match x.storeQ with
    | [] => s
    | q :: rest =>
      let u := s.setCtxAt t c { x with storeQ := rest }
      if x.fences.any (fun f => f.kind != 1 && decide (f.num < q.num)) || x.owesBefore q.num then s
      else if q.tag.isSome && s.placeTier q.place == some 2 then
        (u.raise (u.issuer t c) .perm (BitVec.ofNat 64 q.place.addr)).drainStores t c n
      else match u.doStore t c q with
        | .ok s' => s'.drainStores t c n
        | _ => s

/-- A store or reduction issues: it is performed, or it waits in the request path behind fences, owed reads, waiting stores
and what it waits for itself. Of the A slot, it blocks where the side log is full (03 R56). -/
def State.issueStore (s : State) (t c : Nat) (aSlot : Bool) (q : QueuedStore) : Res State :=
  let x := s.ctxAt t c
  let wait := (s.setCtxAt t c { x with storeQ := x.storeQ ++ [q] }).numberedFrom t c q.num
  if x.heldBack then .ok wait
  else match s.doStore t c q with
    | .block .sideLog => if aSlot then .block .sideLog else .ok wait
    | .block _ => .ok wait
    | r => r

/-- Fences complete, waiting stores are performed and held reads take their values while they can; n bounds the rounds. -/
def State.serve (s : State) (t c : Nat) : Nat → State
  | 0 => s
  | n + 1 =>
    let s := (s.runFences t c).drainStores t c (s.ctxAt t c).storeQ.length
    ((s.ctxAt t c).ports.foldl (fun (s : State) p => s.retryPort t c p.1) s).serve t c n

/-- The held reads and the fences of every context of every tile are tried once again. -/
def State.sweepReads (s : State) : State :=
  s.tiles.foldl (fun (s : State) x => x.2.ctxs.foldl (fun (s : State) y =>
    s.serve x.1 y.1 (y.2.fences.length + (y.2.ports.map (fun p => p.2.length)).sum + 1)) s) s

/-- VPARTs that are still owed: one may wait for another of its tile, in a context that a sweep has left behind (08 R171). -/
def State.heldParts (s : State) : Nat :=
  (s.tiles.map (fun x => (x.2.ctxs.map (fun c => (c.2.ports.map (fun p => (p.2.filter (fun e => match e.held with
    | some h => match h.kind with
      | .part _ _ _ _ _ _ => true
      | _ => false
    | none => false)).length)).sum)).sum)).sum

/-- n sweeps. -/
def State.sweeps (s : State) : Nat → State
  | 0 => s
  | n + 1 => s.sweepReads.sweeps n

/-- The held reads and the fences of every context of every tile are tried again, as often as one may have waited for
another. -/
def State.retryReads (s : State) : State := s.sweepReads.sweeps s.heldParts

/-- The request of a logged entry (10 R213). -/
def LogEntry.req (e : LogEntry) : StoreReq :=
  { pasid := e.pasid, va := e.va, data := e.data, mask := if e.op = 1 then some e.mask else none, aop := e.aop
    order := e.order, scope := e.scope, tag := e.tag, poc := e.poc, num := e.num, obj := e.obj, sync := e.sync }

/-- The entries of a context from a given one on leave the log; the strand takes the cause (10 R215). -/
def State.dropLog (s : State) (t : Nat) (e : LogEntry) (cause : Cause) : State :=
  let x := s.tile t
  let s := s.setTile t { x with sideLog := x.sideLog.filter (fun y => y.ctx != e.ctx || decide (y.seq < e.seq)) }
  s.raise (s.issuer t e.ctx) cause (BitVec.ofNat 64 e.va)

/-- The oldest entry whose page is mapped, or forbids it, that finds its sectors at hand, and behind which no older entry of its
strand stays (10 R214). -/
def State.replayable (s : State) (held : LogEntry → Bool) (log : List LogEntry) (waiting : List Nat) : Option LogEntry :=
  match log with
  | [] => none
  | e :: t =>
    if waiting.contains e.ctx then s.replayable held t waiting
    else match s.rangeXlat e.pasid e.va e.data.length true with
      | .missing => s.replayable held t (waiting ++ [e.ctx])
      | .forbidden => some e
      | .mapped _ => if held e then s.replayable held t (waiting ++ [e.ctx]) else some e

/-- The entry of a tile's side log that is replayed next. -/
def State.replayNext (s : State) (t : Nat) : Option LogEntry :=
  s.replayable (fun e => s.pathHeld t e.req) (s.tile t).sideLog []

/-- SIDE_LOG_REPLAY: the oldest entry that can be replayed is performed, with its order and scope; where the page forbids
it, it and the later entries of its strand are dropped with PERM (10 R211, R214). -/
def State.replayLog (s : State) (t : Nat) : State :=
  match s.replayNext t with
  | none => s
  | some e =>
    match s.rangeXlat e.pasid e.va e.data.length true with
    | .mapped _ =>
      if e.tag.isSome && s.placeTier (.virt e.pasid e.va e.obj) == some 2 then (s.dropLog t e .perm).retryReads
      else
        let x := s.tile t
        let s := s.setTile t { x with sideLog := x.sideLog.filter (fun y => y.seq != e.seq) }
        (s.perform t e.ctx e.req).retryReads
    | _ => (s.dropLog t e .perm).retryReads

/-- A page request has failed: the first logged entry of each strand that needs the page, and those behind it, are dropped
with LOGFAIL (10 R215). -/
def State.failLog (s : State) (t pasid vpage : Nat) : Nat → State
  | 0 => s
  | n + 1 =>
    match (s.tile t).sideLog.find? (fun e => e.pasid == pasid && (pagesOf e.va e.data.length).contains vpage) with
    | some e => (s.dropLog t e .logfail).failLog t pasid vpage n
    | none => s

end Sys2Proof.Machine
end

