-- ==== Sys2Proof/Machine/Ports.lean ====
section
/-! DEFINITION. Return ports (04 R90): delivery in issue order, the entries that a bundle takes, and overflow. -/
namespace Sys2Proof.Machine

/-- The value of an entry is known: it waits for no read, no engine and no other entry. -/
def PortEntry.ready (e : PortEntry) : Bool := (e.held.isNone && e.cmd.isNone && !e.twin) || e.failed.isSome

/-- The writes that an entry owes, performed at its strand. -/
def Ctx.writeBack (c : Ctx) (e : PortEntry) : Ctx := e.writes.foldl Ctx.applyWr c

/-- The entries before the first that has not arrived, that entry, and those behind it. -/
def firstOwed : List PortEntry → Option (List PortEntry × PortEntry × List PortEntry)
  | [] => none
  | e :: t =>
    if e.arrived then (firstOwed t).map (fun r => (e :: r.1, r.2)) else some ([], e, t)

/-- The oldest owed entry of a port arrives, where its value is known: its register is written in issue order. A KLD's is
removed when it has reached the head; a discarded entry is removed; a failed one stays for the bundle that reads it.
(log 114: DEDUCED) -/
def Ctx.deliver (c : Ctx) (n : Nat) : Ctx :=
  match firstOwed (c.port n) with
  | none => c
  | some (pre, e, post) =>
    if !e.ready then c
    else if e.failed.isSome then
      if e.lost then c.setPort n (pre ++ post)
      else if e.kld.isSome then c
      else c.setPort n (pre ++ { e with arrived := true } :: post)
    else if e.kld.isSome then
      if (pre.filter (fun x => !x.lost)).isEmpty then (c.setPort n (pre ++ post)).writeBack e else c
    else if e.lost then (c.setPort n (pre ++ post)).writeBack e
    else (c.setPort n (pre ++ { e with arrived := true } :: post)).writeBack e

/-- RETURN_PORT_DELIVER. -/
def State.deliver (s : State) (t c n : Nat) : State := s.setCtxAt t c ((s.ctxAt t c).deliver n)

/-- Delivery at a port would change it: the model makes such deliveries as soon as they can be made. -/
def Ctx.canDeliver (c : Ctx) (n : Nat) : Bool := c.deliver n != c

/-- The head of a port leaves it. -/
def dropHead : List PortEntry → List PortEntry
  | [] => []
  | e :: t => if e.lost then e :: dropHead t else t

/-- The oldest entry of an overfull port is discarded; its register write is still owed (04 R90). -/
def loseHead : List PortEntry → List PortEntry
  | [] => []
  | e :: t => if e.lost then e :: loseHead t else if e.arrived then t else { e with lost := true } :: t

/-- Entries of a port beyond its depth are discarded, oldest first; PLOST is set. -/
def Ctx.trimPort (c : Ctx) (n : Nat) : Nat → Ctx
  | 0 => c
  | k + 1 =>
    if Config.portDepth n < ((c.port n).filter (fun e => !e.lost)).length then
      ((c.setPort n (loseHead (c.port n))).writeCsr 0 (c.readCsr 0 ||| 0x20)).trimPort n k
    else c

/-- Entries that overflow discards from a context's ports. -/
def Ctx.overflow (c : Ctx) : Nat :=
  (c.ports.map (fun p => (p.2.filter (fun e => !e.lost)).length - Config.portDepth p.1)).sum

/-- The status ports of engines, whose reading joins an operation (12 R263). -/
def joinPorts : List Nat := [8, 9, 10, 11, 12, 13]

/-- The bundle that issued takes the heads of the ports it has read; reading a status entry joins its operation: clean
sectors leave the tile's L1 (04 R90, 12 R263). -/
def State.takePorts (s : State) (t c : Nat) : State :=
  let x := s.ctxAt t c
  let y := x.popped.foldl (fun (y : Ctx) n => y.setPort n (dropHead (y.port n))) { x with popped := [] }
  let lost := y.overflow
  let y := y.ports.foldl (fun (y : Ctx) p => y.trimPort p.1 p.2.length) y
  let s := s.setCtxAt t c y
  let s := if x.popped.any (fun n => joinPorts.contains n) then s.join t c else s
  if lost = 0 then s else s.count t c 30 lost

end Sys2Proof.Machine
end

