-- ==== Sys2Proof/Machine/Csr.lean ====
section
/-! DEFINITION. Control and status registers as CRD reads them (04 R92 to R97, 10 R216), the values that a CWR refuses
(04 R95, 10 R217), and the strand's random source (06 R134). -/
namespace Sys2Proof.Machine

/-- Die of a tile (01 R16). -/
def dieOf (t : Nat) : Nat := t / 64

/-- A tile of a virtual function on a die. -/
def State.ownedOn (s : State) (v d : Nat) : Nat :=
  ((List.range 64).filter (fun i => (s.tile (64 * d + i)).owner == some v)).length

/-- STAT (04 R93): stored W1C bits, and views of the handler flag, the tile's role and the virtual function's mark. -/
def State.statView (s : State) (t c : Nat) : Word :=
  let x := s.ctxAt t c
  let b := fun (p : Bool) (v : Word) => if p then v else 0
  (x.readCsr 0 &&& 0x38) ||| b x.handler 4 ||| b ((s.tile t).tstate == .actor) 2 |||
    b (s.vf (s.tileVf t)).privileged 1

/-- SPLIT (04 R97). -/
def State.splitView (s : State) (t : Nat) : Word :=
  let v := s.tileVf t
  BitVec.ofNat 64 (s.ownedOn v (dieOf t) * 2 ^ 16 + Sparse.get 0 (s.vf v).actors (dieOf t) * 2 ^ 8 +
    ((s.tile t).tstate == .actor).toNat)

/-- LOGST (10 R216). -/
def State.logView (s : State) (t c : Nat) : Word :=
  BitVec.ofNat 64 ((s.tile t).sideLog.length * 2 ^ 16 + ((s.tile t).sideLog.filter (fun e => e.ctx == c)).length)

/-- The energy that a gang's record estimated, less its charge (16 R347). -/
def State.nrgView (s : State) (t : Nat) : Word :=
  match s.tileGang t with
  | some g => match s.gangWave g with
    | some w => BitVec.ofInt 64 ((w.record.energy : Int) - g.charge)
    | none => 0
  | none => 0

/-- CSR n as a CRD that issues now reads it (17 R368). -/
def State.csrView (s : State) (t c n : Nat) : Word :=
  if n = 0x00 then s.statView t c
  else if n = 0x01 then BitVec.ofNat 64 c
  else if n = 0x03 then BitVec.ofNat 64 (s.tileVf t)
  else if n = 0x04 then BitVec.ofNat 64 t
  else if n = 0x05 then match s.tileGang t with | some g => BitVec.ofNat 64 g.gangId | none => 0
  else if n = 0x06 then match (s.tile t).crew with | some w => BitVec.ofNat 64 w.idx | none => 0
  else if n = 0x0E then BitVec.ofNat 64 s.clk
  else if n = 0x0F then BitVec.ofInt 64 (s.vf (s.tileVf t)).balance
  else if n = 0x18 then (s.tile t).probecfg
  else if n = 0x19 then s.splitView t
  else if n = 0x1C then s.logView t c
  else (s.ctxAt t c).readCsr n

/-- Fields of PROBECFG (10 R217). -/
def probeOn (v : Word) : Bool := bits v.toNat 48 48 == 1
def probeCt (v : Word) : Nat := bits v.toNat 47 40
def probePinned (v : Word) : Nat := bits v.toNat 39 32
def probeSlots (v : Word) : Nat := bits v.toNat 31 24
def probeBase (v : Word) : Nat := bits v.toNat 23 0

/-- A CWR is refused: a reserved code of RMODE or COINM (04 R95), or a PROBECFG beyond R217's limits. -/
def cwrRefuses (n spad : Nat) (v : Word) : Bool :=
  if n = 0x0C then decide (3 < bits v.toNat 5 3) || decide (4 < bits v.toNat 2 0)
  else if n = 0x1A then bits v.toNat 1 0 == 3
  else if n = 0x18 then
    decide (128 < probeSlots v) || decide (128 < probePinned v) || decide (probeSlots v < probePinned v) ||
      probeBase v % 4096 != 0 || (probeSlots v != 0 && decide (spad < probeBase v + 4096 * probeSlots v))
  else false

/-- SRM and VRM (04 R95). -/
def Ctx.srm (c : Ctx) : RMode := modeOf (bits (c.readCsr 0x0C).toNat 5 3) 0
def Ctx.vrm (c : Ctx) : Nat := bits (c.readCsr 0x0C).toNat 2 0

/-- The flags of results, as a write. -/
def flagWr (fs : List (BitVec 4)) : List Wr :=
  let f := fs.foldl (fun a b => a ||| b) 0
  if f = 0 then [] else [.satf f]

/-- The next number among the strand's reads and fences. -/
def State.takeNum (s : State) : Nat × State := (s.ctx.num, s.setCtx { s.ctx with num := s.ctx.num + 1 })

end Sys2Proof.Machine
end

