-- ==== Sys2Proof/Machine/Address.lean ====
section
/-! DEFINITION. The address and memory slot A and the scale and immediate slot K: loads, stores, atomics, fences, entry
consistency and capabilities (05 R108 to R110, R119, 12 R256 to R261, 17 R352 to R358, 18 R387 to R398, 19 R411, R418). -/
namespace Sys2Proof.Machine

/-! ### Operands -/

/-- The offset that s gives (05 R108). -/
def State.aOff (s : State) (f : AFields) : Nat := offset48 (s.ctx.readS f.s.toNat)
/-- Members of a relaxed plain access: bits [14:13] (05 R109). -/
def aMembers (f : AFields) : Nat := if f.order = 0 then 2 ^ (f.scope.toNat % 4) else 1
/-- Bytes of one member. -/
def aBytes (f : AFields) : Nat := 2 ^ f.size.toNat
/-- Bytes of an atomic: W selects a dword (17 R352). -/
def atomBytes (f : AFields) : Nat := if f.size.toNat % 2 = 1 then 8 else 4
/-- RET of an atomic, FACQ of a compare and swap (05 R110). -/
def aRet (f : AFields) : Bool := f.size.toNat / 2 == 1
/-- The scope that orders an access; a relaxed plain access has none (05 R109). -/
def aScope (f : AFields) : Nat := f.scope.toNat

/-- A result of the A slot after n clk, without a latch (04 R87, 18 R390, R391, R397). -/
def State.aEmit (s : State) (op : Nat) (f : AFields) (n : Nat) (ws : List Wr) : State := s.emit .a 0 (packA op f) n ws

/-- A read of the strand that issues, with its entry of a port. -/
def State.aRead (s : State) (port : Nat) (place : Place) (acq : Bool) (kind : ReadKind) (e : PortEntry) : State :=
  let n := s.takeNum
  n.2.issueRead s.cur s.curCtx port { place, kind, seq := (s.tile s.cur).logSeq, num := n.1, acq, at_ := s.clk } e

/-- An access of the A slot finds room in the tile's request queue (03 R56). -/
def State.room (s : State) : Res Unit := if (s.tile s.cur).requestFull then .block .requestQueue else .ok ()

/-- A store or reduction of the A slot issues. -/
def State.aStore (s : State) (q : QueuedStore) : Res State := s.issueStore s.cur s.curCtx true { q with num := s.ctx.num }

/-! ### Loads (18 R394, R395) -/

/-- LD, LD.n and LDC. -/
def State.load (s : State) (f : AFields) (signed constant : Bool) : Res State :=
  let c := s.ctx
  let off := s.aOff f
  let g := (aMembers f)
  (readCapReg c f.k.toNat).bind fun cap =>
  (s.check cap off ((aBytes f) * g) rR (aBytes f) .load).bind fun p =>
  (s.watch cap off ((aBytes f) * g) true false p).bind fun _ =>
  s.room.bind fun _ =>
  let dst := if f.data = 0 ∧ g = 1 then [] else (List.range g).map (fun i => f.data.toNat + i)
  .ok (s.aRead 3 p (f.order == 1) (.load (aBytes f) signed dst (viaOf f.order.toNat (aScope f)) constant) {})

def execLd (f : AFields) (s : State) : Host.Outcome State Fault Refusal := settle s (s.load f true false)
def execLdN (f : AFields) (s : State) : Host.Outcome State Fault Refusal := settle s (s.load f false false)
def execLdc (f : AFields) (s : State) : Host.Outcome State Fault Refusal := settle s (s.load f true true)

/-! ### Stores (19 R418 to R420) -/

/-- A checked write of bytes: its scope is the one that it names, or that of the memory for a relaxed plain one (05 R109). -/
def State.put (s : State) (p : Place) (f : AFields) (bs : List Byte) (mask : Option Nat) (tag : Option Bool) :
    Res State :=
  s.room.bind fun _ =>
  s.aStore { num := 0, place := p, data := bs, mask, order := f.order.toNat, tag
             scope := if f.order = 0 ∧ tag.isNone then s.plainScope p else aScope f }

def execSt (f : AFields) (s : State) : Host.Outcome State Fault Refusal :=
  settle s (
    let off := s.aOff f
    let g := (aMembers f)
    (readCapReg s.ctx f.k.toNat).bind fun cap =>
    (s.check cap off ((aBytes f) * g) rW (aBytes f) .store).bind fun p =>
    (s.watch cap off ((aBytes f) * g) false true p).bind fun _ =>
    let bs := (List.range g).flatMap (fun i => natBytes (aBytes f) (s.ctx.readS (f.data.toNat + i)).toNat)
    s.put p f bs none none)

/-- STM: the byte mask is in bits [7:0] of the odd register (19 R419). -/
def execStm (f : AFields) (s : State) : Host.Outcome State Fault Refusal :=
  settle s (
    let off := s.aOff f
    (readCapReg s.ctx f.k.toNat).bind fun cap =>
    (s.check cap off 8 rW 8 .store).bind fun p =>
    (s.watch cap off 8 false true p).bind fun _ =>
    s.put p f (natBytes 8 (s.ctx.readS f.data.toNat).toNat) (some ((s.ctx.readS (f.data.toNat + 1)).toNat % 256)) none)

/-! ### Capabilities in memory (18 R392, R393) -/

def execKld (f : AFields) (s : State) : Host.Outcome State Fault Refusal :=
  settle s (
    let off := s.aOff f
    let d := f.data.toNat % 32
    (readCapReg s.ctx f.k.toNat).bind fun cap =>
    (readCapReg s.ctx d).bind fun _ =>
    (s.check cap off 16 rR 16 .load).bind fun p =>
    (s.watch cap off 16 true false p).bind fun _ =>
    s.room.bind fun _ =>
    .ok (s.aRead 3 p (f.order == 1) (.kld d (viaOf f.order.toNat (aScope f))) { kld := some d }))

/-- KST stores the register with its tag; to host memory it traps PERM. -/
def execKst (f : AFields) (s : State) : Host.Outcome State Fault Refusal :=
  settle s (
    let off := s.aOff f
    (readCapReg s.ctx f.k.toNat).bind fun cap =>
    (readCapReg s.ctx (f.data.toNat % 32)).bind fun v =>
    (s.check cap off 16 rW 16 .store).bind fun p =>
    (s.watch cap off 16 false true p).bind fun _ =>
    if s.placeTier p == some 2 then
      .trap .perm (match p with | .virt _ va _ => BitVec.ofNat 64 va | .spad o => BitVec.ofNat 64 o)
    else s.put p f (natBytes 16 v.bits.toNat) none (some v.tag))

/-! ### Atomics (17 R352 to R357) -/

/-- A read-modify-write that pushes its old value to b5, or that returns nothing and may enter the side log (17 R355). -/
def State.atomic (s : State) (f : AFields) (op : AtomOp) (signed : Bool) : Res State :=
  let off := s.aOff f
  let n := (atomBytes f)
  (readCapReg s.ctx f.k.toNat).bind fun cap =>
  (s.check cap off n rA n .atomic).bind fun p =>
  (s.watch cap off n true true p).bind fun _ =>
  let opnd := (s.ctx.readS f.data.toNat).toNat % 2 ^ (8 * n)
  let sync := syncWord cap off
  let order := f.order.toNat
  s.room.bind fun _ =>
  if aRet f then
    .ok (s.aRead 5 p (acquires order) (.atomic n op (BitVec.ofNat 128 opnd) signed order false sync) {})
  else s.aStore { num := 0, place := p, data := natBytes n opnd, aop := some op, order, scope := aScope f, sync }

def execAadd (f : AFields) (s : State) : Host.Outcome State Fault Refusal := settle s (s.atomic f .add true)
def execAand (f : AFields) (s : State) : Host.Outcome State Fault Refusal := settle s (s.atomic f .and false)
def execAfaddF32 (f : AFields) (s : State) : Host.Outcome State Fault Refusal := settle s (s.atomic f .fadd32 false)
def execAfaddBf16 (f : AFields) (s : State) : Host.Outcome State Fault Refusal := settle s (s.atomic f .faddBf16 false)
def execAmax (f : AFields) (s : State) : Host.Outcome State Fault Refusal := settle s (s.atomic f .max true)
def execAmaxN (f : AFields) (s : State) : Host.Outcome State Fault Refusal := settle s (s.atomic f .maxN false)
def execAmin (f : AFields) (s : State) : Host.Outcome State Fault Refusal := settle s (s.atomic f .min true)
def execAminN (f : AFields) (s : State) : Host.Outcome State Fault Refusal := settle s (s.atomic f .minN false)
def execAor (f : AFields) (s : State) : Host.Outcome State Fault Refusal := settle s (s.atomic f .or false)
def execAxchg (f : AFields) (s : State) : Host.Outcome State Fault Refusal := settle s (s.atomic f .xchg false)
def execAxor (f : AFields) (s : State) : Host.Outcome State Fault Refusal := settle s (s.atomic f .xor false)

/-- A compare and swap over n bytes with its expected and new values; it always returns the old one (17 R356). -/
def State.compareSwap (s : State) (f : AFields) (n expected new : Nat) : Res State :=
  let off := s.aOff f
  (readCapReg s.ctx f.k.toNat).bind fun cap =>
  (s.check cap off n rA n .atomic).bind fun p =>
  (s.watch cap off n true true p).bind fun _ =>
  s.room.bind fun _ =>
  let order := f.order.toNat
  let s := s.aRead 5 p (acquires order || aRet f) (.atomic n (.cas (BitVec.ofNat 128 (expected % 2 ^ (8 * n))))
    (BitVec.ofNat 128 (new % 2 ^ (8 * n))) false order (aRet f) (syncWord cap off)) {}
  .ok (if n = 16 then (s.setCtx (s.ctx.pushPort 5 { twin := true })).retryPort s.cur s.curCtx 5 else s)

def execAcas (f : AFields) (s : State) : Host.Outcome State Fault Refusal :=
  settle s (s.compareSwap f (atomBytes f) (s.ctx.readS f.data.toNat).toNat (s.ctx.readS (f.data.toNat + 1)).toNat)
def execAcasW (f : AFields) (s : State) : Host.Outcome State Fault Refusal :=
  let d := f.data.toNat
  settle s (s.compareSwap f 16
    ((s.ctx.readS d).toNat + 2 ^ 64 * (s.ctx.readS (d + 1)).toNat)
    ((s.ctx.readS (d + 2)).toNat + 2 ^ 64 * (s.ctx.readS (d + 3)).toNat))

/-! ### Fences (12 R256) -/

/-- A fence enters the request queue, and completes at once where it can. -/
def State.fence (s : State) (f : AFields) (kind : Nat) : State :=
  let n := s.takeNum
  let c := n.2.ctx
  (n.2.setCtx { c with fences := c.fences ++ [{ kind, scope := (aScope f), num := n.1 }] }).runFences s.cur s.curCtx

def execFence (f : AFields) (s : State) : Host.Outcome State Fault Refusal := settle s (.ok (s.fence f 0))
def execFenceLd (f : AFields) (s : State) : Host.Outcome State Fault Refusal := settle s (.ok (s.fence f 1))
def execFenceSt (f : AFields) (s : State) : Host.Outcome State Fault Refusal := settle s (.ok (s.fence f 2))

/-! ### Entry consistency (12 R257 to R260) -/

/-- The region capability of BIND: tagged, with R or W, and no sync object, or KRIGHT (12 R258). -/
def bindable (rg : TCap) : Bool := rg.tag && (capRights rg &&& (rR + rW)) != 0 && capKind rg != 1

/-- An entry equal to a region's bounds and a sync object. (log 25: DEDUCED) -/
def Binding.same (b : Binding) (rg : TCap) (obj off : Nat) : Bool :=
  capObj b.region == capObj rg && capLow b.region == capLow rg && capLen b.region == capLen rg &&
    b.syncObj == obj && b.syncOff == off

/-- The checks that BIND and BIND.u share. (log 21: DEDUCED) -/
def State.bindCheck (s : State) (f : AFields) : Res (TCap × TCap) :=
  let off := s.aOff f
  (readCapReg s.ctx f.k.toNat).bind fun cap =>
  (readCapReg s.ctx (f.data.toNat % 32)).bind fun rg =>
  (s.check cap off 8 rB 8 .sync).bind fun _ =>
  (Res.need (bindable rg) .kright (BitVec.ofNat 64 off)).bind fun _ => .ok (cap, rg)

def execBind (f : AFields) (s : State) : Host.Outcome State Fault Refusal :=
  settle s ((s.bindCheck f).bind fun r =>
    let c := s.ctx
    let off := s.aOff f
    if c.binds.any (fun x => match x.2 with | some b => b.same r.2 (capObj r.1) off | none => false) then .ok s
    else match (List.range 8).find? (fun i => (Sparse.get none c.binds i).isNone) with
      | none => .trap .baddesc 8
      | some i => .ok (s.setCtx { c with binds := Sparse.set none c.binds i (some {
          region := { r.2 with tag := false }, syncObj := capObj r.1, syncGen := capGen r.1, syncOff := off }) }))

def execBindU (f : AFields) (s : State) : Host.Outcome State Fault Refusal :=
  settle s ((s.bindCheck f).bind fun r =>
    let c := s.ctx
    .ok (s.setCtx { c with binds := c.binds.filter (fun x => match x.2 with
      | some b => !b.same r.2 (capObj r.1) (s.aOff f)
      | none => false) }))

def execRel (f : AFields) (s : State) : Host.Outcome State Fault Refusal :=
  settle s (
    let off := s.aOff f
    (readCapReg s.ctx f.k.toNat).bind fun cap =>
    (s.check cap off 8 rB 8 .sync).bind fun p =>
    (s.watch cap off 8 true true p).bind fun _ =>
    if s.relWaits s.cur s.curCtx (capObj cap) off then .block (.rel (capObj cap) off)
    else s.aStore { num := 0, place := p, data := natBytes 8 1, aop := some .add, order := 2, scope := aScope f
                    sync := some (capObj cap, off), rel := true })

/-- The word at a place as its point of coherence holds it; none where its page has no translation, or where the strand's
next read would have to wait (12 R247, R251, R256). -/
def State.pollDword (s : State) (t c : Nat) (p : Place) (n : Nat) : Option (Nat × State) :=
  let num := (s.ctxAt t c).num
  let seq := (s.tile t).logSeq
  if !(s.tile t).mayRead c { place := p, kind := .load n false [] .home false, seq, num } || s.readBlocked t c num seq p n then none
  else (s.readPlace t c p n .home false).map (fun r => (bytesNat r.1, r.2))

/-- A strand polls a word: it blocks where the page is missing, and traps PAGE where the request for it has failed
(20 R456). (log 24: DEDUCED) -/
def State.poll (s : State) (p : Place) (n : Nat) (why : BlockWhy) : Res (Nat × State) :=
  match s.pollDword s.cur s.curCtx p n with
  | some r => .ok r
  | none =>
    if s.placeFault p n then .trap .perm (BitVec.ofNat 64 p.addr) else
    match p, s.ctx.pageFail with
    | .virt _ va _, some w => if va / 4096 = w / 4096 then .trap .page (BitVec.ofNat 64 va) else .block why
    | _, _ => .block why

def execAcq (f : AFields) (s : State) : Host.Outcome State Fault Refusal :=
  settle s (
    let off := s.aOff f
    let v := s.ctx.readS f.data.toNat
    (readCapReg s.ctx f.k.toNat).bind fun cap =>
    (s.check cap off 8 (rB + rR) 8 .sync).bind fun p =>
    (s.watch cap off 8 true false p).bind fun _ =>
    (s.poll p 8 (.acq f.k.toNat off v)).bind fun r =>
    if r.1 < v.toNat then .block (.acq f.k.toNat off v)
    else .ok (r.2.acquireRegions s.cur (s.regionsOf s.cur s.curCtx (capObj cap) off)))

/-! ### Capability registers (18 R388 to R391, R397) -/

def execKchk (f : AFields) (s : State) : Host.Outcome State Fault Refusal :=
  settle s (
    (readCapReg s.ctx f.k.toNat).bind fun cap =>
    (s.check cap (s.aOff f) (aBytes f) f.data.toNat (aBytes f) .untested).bind fun _ => .ok s)

/-- The capability that KDER derives, by its checks in order (18 R390). -/
def derive (c : TCap) (p q : Word) (sealed : Bool) : Res TCap :=
  let low := bits p.toNat 39 0
  let len := bits q.toNat 39 0
  let rights := bits q.toNat 45 40
  let kind := bits q.toNat 47 46
  (Res.need (bits p.toNat 63 40 == 0 && bits q.toNat 63 48 == 0) .baddesc 1).bind fun _ =>
  (Res.need (c.tag && (capRights c &&& rD == rD)) .kright (BitVec.ofNat 64 low)).bind fun _ =>
  (Res.need (rights &&& capRights c == rights) .kright (BitVec.ofNat 64 low)).bind fun _ =>
  (Res.need (kind == capKind c || (capKind c == 0 && (kind == 2 || kind == 3))) .kright (BitVec.ofNat 64 low)).bind
    fun _ =>
  (Res.need (decide (capLow c ≤ low) && decide (low + len ≤ capLow c + capLen c)) .kbound (BitVec.ofNat 64 low)).bind
    fun _ =>
  .ok (mkCap (capGen c) (capObj c) (if sealed then rights - (rights &&& rD) else rights) kind low len)

def State.kder (s : State) (op : Nat) (f : AFields) (sealed : Bool) : Res State :=
  let c := s.ctx
  (readCapReg c f.k.toNat).bind fun cap =>
  (readCapReg c (f.data.toNat % 32)).bind fun _ =>
  (derive cap (c.readS f.s.toNat) (c.readS (f.s.toNat + 1)) sealed).bind fun n =>
  .ok (s.aEmit op f 2 [.kreg (f.data.toNat % 32) n])

def execKder (f : AFields) (s : State) : Host.Outcome State Fault Refusal := settle s (s.kder 0x74 f false)
def execKderS (f : AFields) (s : State) : Host.Outcome State Fault Refusal := settle s (s.kder 0x75 f true)

/-- KINFO writes one half of the bits, of a tagged register or not. -/
def execKinfo (f : AFields) (s : State) : Host.Outcome State Fault Refusal :=
  settle s (
    (readCapReg s.ctx f.k.toNat).bind fun cap =>
    .ok (s.aEmit 0x76 f 1 [.sreg f.data.toNat (if f.size = 0 then cap.bits.setWidth 64
      else (cap.bits >>> 64).setWidth 64)]))

/-- LEA: the checks of R206, with no right and no KIND; the address, or the scratchpad offset. -/
def execLea (f : AFields) (s : State) : Host.Outcome State Fault Refusal :=
  settle s (
    (readCapReg s.ctx f.k.toNat).bind fun cap =>
    (s.check cap (s.aOff f) (aBytes f) 0 (aBytes f) .untested).bind fun p =>
    .ok (s.aEmit 0x7C f 2 [.sreg f.data.toNat (match p with
      | .spad o => BitVec.ofNat 64 o
      | .virt _ va _ => BitVec.ofNat 64 va)]))

/-! ### The K slot (18 R396, R398) -/

/-- The scales of 1,536 bytes: scale 4v + b stands at index 4v + b (vector-major) or 128b + v (block-major). -/
def scalesOf (blockMajor : Bool) (bs : List Byte) : Scales :=
  BitVec.ofNat 12288 (packNat 24 ((List.range 512).map (fun j =>
    bytesNat ((bs.drop (3 * (if blockMajor then 128 * (j % 4) + j / 4 else j))).take 3))))

/-- LDS: KBOUND before MISALIGN; the register is written after 4 clk. -/
def State.loadScales (s : State) (op : Nat) (f : KFields) (blockMajor : Bool) : Res State :=
  let off := offset48 (s.ctx.readS f.base.toNat) + 64 * f.disp.toNat
  let info := BitVec.ofNat 64 off
  (Res.need (decide (off + 1536 ≤ (s.tile s.cur).crewSpad)) .kbound info).bind fun _ =>
  (Res.need (off % 64 == 0) .misalign info).bind fun _ =>
  if s.readBlocked s.cur s.curCtx s.ctx.num 0 (.spad off) 1536 then .block .structure
  else match s.readPlace s.cur s.curCtx (.spad off) 1536 .plain false with
  | some r => .ok (r.2.emit .k 0 (packK op f) 4 [.scale f.sc.toNat (scalesOf blockMajor r.1)])
  | none => .ok s

def execLdsA (f : KFields) (s : State) : Host.Outcome State Fault Refusal := settle s (s.loadScales 0xD6 f false)
def execLdsB (f : KFields) (s : State) : Host.Outcome State Fault Refusal := settle s (s.loadScales 0xD7 f true)
/-- LIMM: b15, 1 clk later. -/
def execLimm (imm : BitVec 24) (s : State) : Host.Outcome State Fault Refusal :=
  settle s (.ok (s.emit .none 0 0 1 [.latch 15 (imm.signExtend 64)]))

end Sys2Proof.Machine
end

