-- ==== Sys2Proof/Machine/Control.lean ====
section
/-! DEFINITION. The control slot C: barriers, transfers of control, waits, PROBE, TRAP and ERET, and the issue of SYSC
(05 R111, R112, 10 R218, 17 R360 to R363, 18 R380, R381, R399, R400, 19 R410, R412, R421 to R424, R430, 20 R454 to R460). -/
namespace Sys2Proof.Machine

/-! ### Guards and fields -/

/-- A guarded-off instruction does nothing (05 R111). (log 42: DEDUCED) -/
def State.guarded (s : State) (f : CFields) (r : Res State) : Res State :=
  if guardHolds s.ctx f.pred f.sense then r else .ok s

/-- The operand field as a number. -/
def opn (f : CFields) : Nat := f.opnd.toNat

/-- B + 2 × OFF as a byte offset within CODE, modulo 2^64 (05 R112). -/
def targetOf (pc : Nat) (off : Int) : Nat := (BitVec.ofInt 64 ((pc : Int) + 2 * off)).toNat

/-- The target of BR, BRC and CALL. -/
def State.branchTarget (s : State) (f : CFields) : Nat := targetOf s.ctx.pc f.opnd.toInt

/-- The bundle transfers control to t. -/
def Ctx.goto (c : Ctx) (t : Nat) : Ctx := { c with npc := some t }

/-! ### Barriers (17 R360, R361, 12 R264) -/

/-- BARC presented: it issues with its RELEASED bit cleared, or completes the episode, or blocks. Arrival is a release and
departure an acquire at crew scope. -/
def State.barrierCrew (s : State) : Res State :=
  let c := s.ctx
  if c.relCrew then .ok (s.setCtx { c with relCrew := false })
  else if !(s.tile s.cur).settled s.curCtx then .block (.drain false)
  else
    let t := (s.setCtx { c with run := .blocked .barc }).tile s.cur
    let t := t.crewEpisode
    let x := t.ctx s.curCtx
    if x.relCrew then .ok (s.setTile s.cur (t.setCtx s.curCtx { x with relCrew := false, run := c.run }))
    else .block .barc

def execBarc (f : CFields) (s : State) : Host.Outcome State Fault Refusal :=
  settle s (s.guarded f (if s.ctx.handler then .trap .baddesc 1 else s.barrierCrew))

/-- BARG and BARG.a in a gang without GBAR trap ILLOP, which comes first (15 R320), and in a handler BADDESC (17 R360). -/
def State.gangBarrier (s : State) (k : Nat → Res State) : Res State :=
  match s.tileGang s.cur, (s.tile s.cur).crew with
  | some g, some w =>
    if g.gbar.isNone then .trap .illop (illopInfo 0x0A 1)
    else if s.ctx.handler then .trap .baddesc 2
    else k w.gang
  | _, _ => .trap .illop (illopInfo 0x0A 1)

/-- Arrival includes FENCE.st at gang scope: earlier stores are performed first (12 R264). -/
def State.arriveFence (s : State) : Res State :=
  if !(s.tile s.cur).settled s.curCtx || (s.tile s.cur).logged s.curCtx then .block (.drain true)
  else .ok (s.flushTile s.cur)

/-- Departure includes FENCE.ld at gang scope. -/
def State.departFence (s : State) : State := s.join s.cur s.curCtx

def execBarg (f : CFields) (s : State) : Host.Outcome State Fault Refusal :=
  settle s (s.guarded f (s.gangBarrier fun gang =>
    let c := s.ctx
    if c.relGang then .ok (s.setCtx { c with relGang := false }).departFence
    else s.arriveFence.bind fun s =>
      let s' := (s.setCtx { s.ctx with run := .blocked .barg }).gangEpisode gang
      let x := s'.ctx
      if x.relGang then .ok (s'.setCtx { x with relGang := false, run := c.run }).departFence
      else .block .barg))

def execBargA (f : CFields) (s : State) : Host.Outcome State Fault Refusal :=
  settle s (s.guarded f (s.gangBarrier fun gang =>
    if s.ctx.bargA.isSome then .block .bargA
    else s.arriveFence.bind fun s =>
      .ok ((s.setCtx { s.ctx with bargA := some (bits (opn f) 18 11) }).gangEpisode gang)))

/-! ### Transfers of control (17 R362, R363, 18 R399, R400, 19 R412) -/

/-- A taken BR or BRC: it pops the loop entries that do not contain the target, and is a rotation point when it does not
go upward (02 R49). -/
def Ctx.branch (c : Ctx) (t : Nat) : Ctx :=
  { c.goto t with loops := c.loops.filter (fun e => decide (e.start ≤ t) && decide (t ≤ e.stop))
                  rot := if t ≤ c.pc ∨ 2 ^ 63 ≤ t then 1 else 0 }

def execBr (f : CFields) (s : State) : Host.Outcome State Fault Refusal :=
  settle s (.ok (s.setCtx (s.ctx.branch (s.branchTarget f))))
/-- The guard is the branch condition (05 R111). -/
def execBrc (f : CFields) (s : State) : Host.Outcome State Fault Refusal :=
  settle s (s.guarded f (.ok (s.setCtx (s.ctx.branch (s.branchTarget f)))))
/-- CALL pushes the offset that sequential fetch reaches next. -/
def execCall (f : CFields) (s : State) : Host.Outcome State Fault Refusal :=
  let c := s.ctx
  settle s (s.guarded f (
    if 16 ≤ c.callStack.length then .trap .baddesc 0x10
    else .ok (s.setCtx { c.goto (s.branchTarget f) with callStack := c.seqpc :: c.callStack, rot := 1 })))
def execRet (f : CFields) (s : State) : Host.Outcome State Fault Refusal :=
  let c := s.ctx
  settle s (s.guarded f (match c.callStack with
    | [] => .trap .baddesc 0x12
    | t :: rest => .ok (s.setCtx { c.goto t with callStack := rest, rot := 1 })))
/-- LOOP: with a count of 0, fetch goes to the bundle after the one at END, whose header alone is fetched. -/
def execLoop (f : CFields) (s : State) : Host.Outcome State Fault Refusal :=
  let c := s.ctx
  let stop := c.pc + 2 * bits (opn f) 12 0
  let count := (c.readS (bits (opn f) 18 13)).toNat % 2 ^ 32
  settle s (s.guarded f (
    if count = 0 then .ok (s.setCtx { c.goto stop with skip := true })
    else if 4 ≤ c.loops.length then .trap .baddesc 0x11
    else .ok (s.setCtx { c with loops := { start := c.seqpc, stop, rem := count } :: c.loops })))
/-- YIELD: a rotation point whether or not the quantum has expired (20 R460). -/
def execYield (f : CFields) (s : State) : Host.Outcome State Fault Refusal :=
  settle s (s.guarded f (.ok (s.setCtx { s.ctx with rot := 2 })))

/-- The loop end (18 R400): a bundle at END of the top entry that transfers no control repeats the body, a rotation point,
or pops the entry. -/
def Ctx.loopEnd (c : Ctx) : Ctx :=
  match c.npc, c.loops with
  | none, e :: rest =>
    if e.stop = c.pc then
      if 1 < e.rem then { c with npc := some e.start, loops := { e with rem := e.rem - 1 } :: rest, rot := max c.rot 1 }
      else { c with loops := rest }
    else c
  | _, _ => c

/-! ### EXIT, TRAP and ERET (18 R380, R381, 19 R430, 15 R329) -/

/-- EXIT stops fetch of the strand once its bundle has issued (18 R381). -/
def execExit (f : CFields) (s : State) : Host.Outcome State Fault Refusal :=
  settle s (s.guarded f (.ok (s.setCtx { s.ctx with run := .exiting })))
def execTrap (f : CFields) (s : State) : Host.Outcome State Fault Refusal :=
  settle s (s.guarded f (.trap .trapi (BitVec.ofNat 64 (opn f % 2 ^ 16))))

/-- A set ERTGT has bit 63 (the model's mark of a set target, 0 being unset). (log 44: DEDUCED) -/
def ertgtSet (w : Word) : Bool := w.getLsbD 63
/-- The target of ERTGT. -/
def ertgtTile (w : Word) : Nat := bits w.toNat 7 0
def ertgtCtx (w : Word) : Nat := bits w.toNat 9 8
def ertgtSkip (w : Word) : Bool := w.getLsbD 16

def execEret (f : CFields) (s : State) : Host.Outcome State Fault Refusal :=
  settle s (s.guarded f (
    let c := s.ctx
    let w := c.ertgt
    let t := ertgtTile w
    if s.curMark = 0 then .trap .priv 0
    else if !ertgtSet w || (s.ctxAt t (ertgtCtx w)).run != .trapped || s.tileVf t != s.curVf then
      .trap .baddesc (w &&& 0x7FFFFFFFFFFFFFFF)
    else .ok ((s.setCtx { c with ertgt := 0, rot := max c.rot 1 }).returnAt t (ertgtCtx w) (ertgtSkip w))))

/-! ### Waits (20 R454 to R456) -/

/-- WAITC: an issued one joins every operation whose increment it has observed (12 R263). -/
def execWaitc (f : CFields) (s : State) : Host.Outcome State Fault Refusal :=
  let n := bits (opn f) 18 11
  let v := s.ctx.readS (bits (opn f) 10 5)
  settle s (s.guarded f (if ((s.tile s.cur).readCt n).ult v then .block (.waitc n v) else .ok s.departFence))

/-- The comparison of WAITV: 0 equal, 1 not equal, 2 at least. -/
def waitvHolds (cond m v : Nat) : Bool :=
  match cond with
  | 0 => m == v
  | 1 => m != v
  | _ => decide (v ≤ m)

/-- WAITV: the word is read at its point of coherence; the read that satisfies it is an acquire there. -/
def State.waitv (s : State) (f : CFields) (cond : Nat) : Res State :=
  let c := s.ctx
  let k := bits (opn f) 18 14
  let off := offset48 (c.readS (bits (opn f) 13 8))
  let n := if opn f % 4 = 3 then 8 else 4
  let v := c.readS (bits (opn f) 7 2)
  let why := BlockWhy.waitv cond k off n v
  s.guarded f (
    (readCapReg c k).bind fun cap =>
    (s.check cap off n rR n .load).bind fun p =>
    (s.watch cap off n true false p).bind fun _ =>
    (s.poll p n why).bind fun r =>
    if waitvHolds cond r.1 (v.toNat % 2 ^ (8 * n)) then .ok r.2 else .block why)

def execWaitvEq (f : CFields) (s : State) : Host.Outcome State Fault Refusal := settle s (s.waitv f 0)
def execWaitvNe (f : CFields) (s : State) : Host.Outcome State Fault Refusal := settle s (s.waitv f 1)
def execWaitvGe (f : CFields) (s : State) : Host.Outcome State Fault Refusal := settle s (s.waitv f 2)

/-! ### PROBE (10 R218, 19 R410) -/

def Tile.probeSlot (t : Tile) (j : Nat) : ProbeSlot := Sparse.get {} t.probe j
def Tile.setProbeSlot (t : Tile) (j : Nat) (x : ProbeSlot) : Tile := { t with probe := Sparse.set {} t.probe j x }

/-- Leaf l lies in the subtree of node n of the pseudo-LRU tree. -/
def inSubtree (n l : Nat) : Bool := (List.range 8).any (fun k => l / 2 ^ k == n)

/-- A slot may take a fill. -/
def Tile.eligible (t : Tile) (j : Nat) : Bool :=
  decide (probePinned t.probecfg ≤ j) && decide (j < probeSlots t.probecfg) && !(t.probeSlot j).pending

/-- A subtree holds an eligible slot. -/
def Tile.subtreeEligible (t : Tile) (n : Nat) : Bool :=
  (List.range 128).any (fun j => t.eligible j && inSubtree n (128 + j))

/-- The walk from node n by k levels: the child that PL names where it holds an eligible slot. -/
def Tile.victimFrom (t : Tile) (n : Nat) : Nat → Nat
  | 0 => n
  | k + 1 =>
    let m := 2 * n + (t.pl.getLsbD n).toNat
    t.victimFrom (if t.subtreeEligible m then m else 2 * n + 1 - (t.pl.getLsbD n).toNat) k

/-- touch(j). -/
def Tile.touchSlot (t : Tile) (j : Nat) : Tile :=
  { t with pl := (List.range 7).foldl (fun pl k =>
      let n := (128 + j) / 2 ^ (k + 1)
      if inSubtree (2 * n) (128 + j) then pl ||| BitVec.twoPow 128 n else pl &&& ~~~BitVec.twoPow 128 n) t.pl }

/-- The slot that holds a block, or into which it is being filled. -/
def Tile.probeFind (t : Tile) (pasid blk : Nat) (pending : Bool) : Option Nat :=
  (List.range 128).find? (fun j =>
    let x := t.probeSlot j
    (if pending then x.pending else x.valid) && x.pasid == pasid && x.blk == blk)

/-- The lookup, by the checks that give a block. -/
def State.probeBlock (s : State) (miss pasid blk : Nat) (cap : TCap) (off : Nat) : Res State :=
  let x := s.tile s.cur
  let push := fun (s : State) (j : Nat) => s.setCtx (s.ctx.pushPort 14 { value := BitVec.ofNat 512 j })
  match x.probeFind pasid blk false, x.probeFind pasid blk true with
  | some j, _ => .ok (push ((s.setTile s.cur (x.touchSlot j)).count s.cur s.curCtx 27 1) j)
  | none, some j =>
    let s := push (s.count s.cur s.curCtx 28 1) j
    .ok (s.setCtx (s.ctx.goto miss))
  | none, none =>
    if !x.subtreeEligible 1 then .block .probe
    else
      let j := x.victimFrom 1 7 - 128
      let fill : ProbeFill := { dst := probeBase x.probecfg + 4096 * j, pasid, blk, cap, off, ct := probeCt x.probecfg,
                                iss := s.issuer s.cur s.curCtx }
      let x := ((x.setProbeSlot j { valid := false, pending := true, pasid, blk }).touchSlot j)
      let s := s.setTile s.cur { x with fills := Sparse.set none x.fills j (some fill) }
      let s := push (s.count s.cur s.curCtx 28 1) j
      .ok (s.setCtx (s.ctx.goto miss))

def execProbe (f : CFields) (s : State) : Host.Outcome State Fault Refusal :=
  let cfg := (s.tile s.cur).probecfg
  let off := offset48 (s.ctx.readS (bits (opn f) 13 8))
  let miss := targetOf s.ctx.pc (BitVec.ofNat 8 (opn f)).toInt
  settle s (s.guarded f (
    (readCapReg s.ctx (bits (opn f) 18 14)).bind fun cap =>
    if !probeOn cfg || probeSlots cfg == 0 then .trap .baddesc 0
    else
      (s.check cap off 1 rR 1 .load).bind fun p =>
      match p with
      | .spad _ => .trap .kright (BitVec.ofNat 64 off)
      | .virt pasid va _ =>
        let d := va % 4096
        if off < d then .trap .kbound (BitVec.ofInt 64 ((off : Int) - d))
        else (s.check cap (off - d) 4096 rR 1 .load).bind fun _ =>
          s.probeBlock miss pasid (va / 4096) cap (off - d)))

/-! ### SYSC (19 R421 to R424) -/

/-- The guard, then standing: PRIV for a strand that is no supervisor strand, and for a PF subcode of one that is no PF
supervisor strand. -/
def State.syscGate (s : State) (f : SyscFields) (pf : Bool) (k : Res State) : Res State :=
  if !guardHolds s.ctx f.pred f.sense then .ok s
  else if s.curMark = 0 then .trap .priv 0
  else if pf && s.curMark != 2 then .trap .priv 0
  else k

/-- TSEL: ERTGT is written 1 clk after issue (19 R421). -/
def execSyscTsel (f : SyscFields) (s : State) : Host.Outcome State Fault Refusal :=
  settle s (s.syscGate f false (
    let v := s.ctx.readS f.arg.toNat
    .ok (s.emit .none 0 0 1 [.ertgt ((v &&& 0x103FF) ||| 0x8000000000000000)])))

/-- A block command (19 R422, R423): the block's checks, CTL, and at most 8 of a strand; then it is forked to the hub. -/
def State.blockCommand (s : State) (f : SyscFields) (sub : Nat) (pf : Bool) (size : Nat) : Res State :=
  s.syscGate f pf (
    let c := s.ctx
    let ctl := c.readS f.arg.toNat
    let cap := c.readK (bits ctl.toNat 52 48)
    (s.check cap (bits ctl.toNat 47 0) size (rR + rW) size .engine).bind fun p =>
    (Res.need (bits ctl.toNat 63 62 == 0) .baddesc ctl).bind fun _ =>
    (Res.need (decide (c.nBlock < 8)) .baddesc 9).bind fun _ =>
    let s := s.setCtx { c with nBlock := c.nBlock + 1 }
    let cmd : BlockCmd := {
      id := s.nextOp, sub, tile := s.cur, iss := s.issuer s.cur s.curCtx, pf := s.curMark == 2
      place := p, cap, ct := bits ctl.toNat 60 53, nc := ctl.getLsbD 61 }
    let v := s.vf s.curVf
    .ok { s.setVf s.curVf { v with blockQ := v.blockQ ++ [cmd] } with nextOp := s.nextOp + 1 })

def execSyscCourse (f : SyscFields) (s : State) : Host.Outcome State Fault Refusal :=
  settle s (s.blockCommand f 0x02 false 64)
def execSyscSave (f : SyscFields) (s : State) : Host.Outcome State Fault Refusal :=
  settle s (s.blockCommand f 0x03 false 64)
def execSyscRestore (f : SyscFields) (s : State) : Host.Outcome State Fault Refusal :=
  settle s (s.blockCommand f 0x04 false 64)
def execSyscFlr (f : SyscFields) (s : State) : Host.Outcome State Fault Refusal :=
  settle s (s.blockCommand f 0x05 true 64)
def execSyscWarm (f : SyscFields) (s : State) : Host.Outcome State Fault Refusal :=
  settle s (s.blockCommand f 0x06 true 64)
def execSyscAssign (f : SyscFields) (s : State) : Host.Outcome State Fault Refusal :=
  settle s (s.blockCommand f 0x07 true 64)
def execSyscVfcfg (f : SyscFields) (s : State) : Host.Outcome State Fault Refusal :=
  settle s (s.blockCommand f 0x08 true 64)
def execSyscLqcfg (f : SyscFields) (s : State) : Host.Outcome State Fault Refusal :=
  settle s (s.blockCommand f 0x09 false 64)
def execSyscWcset (f : SyscFields) (s : State) : Host.Outcome State Fault Refusal :=
  settle s (s.blockCommand f 0x0A false 64)
def execSyscCtxtab (f : SyscFields) (s : State) : Host.Outcome State Fault Refusal :=
  settle s (s.blockCommand f 0x0B false 64)
def execSyscObjtab (f : SyscFields) (s : State) : Host.Outcome State Fault Refusal :=
  settle s (s.blockCommand f 0x0C false 64)
def execSyscObjinv (f : SyscFields) (s : State) : Host.Outcome State Fault Refusal :=
  settle s (s.blockCommand f 0x0D false 64)
def execSyscTraparea (f : SyscFields) (s : State) : Host.Outcome State Fault Refusal :=
  settle s (s.blockCommand f 0x0E false 64)
def execSyscSupq (f : SyscFields) (s : State) : Host.Outcome State Fault Refusal :=
  settle s (s.blockCommand f 0x0F false 64)
def execSyscWatch (f : SyscFields) (s : State) : Host.Outcome State Fault Refusal :=
  settle s (s.blockCommand f 0x10 false 64)
def execSyscTwm (f : SyscFields) (s : State) : Host.Outcome State Fault Refusal :=
  settle s (s.blockCommand f 0x11 false 64)
def execSyscPnrp (f : SyscFields) (s : State) : Host.Outcome State Fault Refusal :=
  settle s (s.blockCommand f 0x12 true 64)
def execSyscStage (f : SyscFields) (s : State) : Host.Outcome State Fault Refusal :=
  settle s (s.blockCommand f 0x13 false 64)
def execSyscComreg (f : SyscFields) (s : State) : Host.Outcome State Fault Refusal :=
  settle s (s.blockCommand f 0x14 false 64)
def execSyscVcshare (f : SyscFields) (s : State) : Host.Outcome State Fault Refusal :=
  settle s (s.blockCommand f 0x15 true 64)
def execSyscNode (f : SyscFields) (s : State) : Host.Outcome State Fault Refusal :=
  settle s (s.blockCommand f 0x16 true 64)
def execSyscRoute (f : SyscFields) (s : State) : Host.Outcome State Fault Refusal :=
  settle s (s.blockCommand f 0x17 true 64)
def execSyscCrownset (f : SyscFields) (s : State) : Host.Outcome State Fault Refusal :=
  settle s (s.blockCommand f 0x18 false 128)
def execSyscTjring (f : SyscFields) (s : State) : Host.Outcome State Fault Refusal :=
  settle s (s.blockCommand f 0x19 false 64)
def execSyscSecnt (f : SyscFields) (s : State) : Host.Outcome State Fault Refusal :=
  settle s (s.blockCommand f 0x1A false 64)
def execSyscMonsel (f : SyscFields) (s : State) : Host.Outcome State Fault Refusal :=
  settle s (s.blockCommand f 0x1B true 64)

end Sys2Proof.Machine
end

