-- ==== Sys2Proof/Machine/Fetch.lean ====
section
/-! DEFINITION. Fetch and its checks (04 R78), bundles that are passed over (18 R399, 15 R329), and the taking of a queued
cause in place of the next bundle (15 R321). -/
namespace Sys2Proof.Machine

/-! ### Fetch (04 R78) -/

/-- The bytes of CODE of the crew on a tile. -/
def Tile.code (t : Tile) : Region := match t.crew with | some w => w.code | none => { pasid := 0, va := 0, len := 0 }

/-- The offset that sequential fetch reaches after a bundle: a halfword at line offset 62 is padding. -/
def seqNext (base off len : Nat) : Nat := if (base + off + len) % 64 = 62 then off + len + 2 else off + len

/-- TRAPA of a trap at fetch: the bundle that transferred control; a free value where none did. (log 16: DEDUCED)
(log 17: DESIGN CHOICE) -/
def State.fetchInfo (s : State) (c : Ctx) : Word :=
  match c.fromPc with
  | some b => BitVec.ofNat 64 b
  | none => Config.freeWord s.free

/-- n bytes of CODE at an offset, as they stand at their point of coherence. (log 15: DESIGN CHOICE) -/
def State.codeBytes (s : State) (t : Nat) (c : Ctx) (off n : Nat) : Res (List Byte) :=
  let r := (s.tile t).code
  match s.spaceBytes r off n with
  | some bs => .ok bs
  | none => if s.rangeXlat r.pasid (r.va + off) n false = .forbidden then .trap .perm (BitVec.ofNat 64 (r.va + off))
    else match c.pageFail with
    | some va => .trap .page (BitVec.ofNat 64 va)
    | none => .block (.fetch (((pagesOf (r.va + off) n).find? (fun p => match s.lookupVa r.pasid (4096 * p) false with
        | .mapped _ => false
        | _ => true)).getD 0 * 4096))

/-- The header at pc, after the first two checks: in CODE and not at line offset 62, and a length within the line. -/
def State.fetchHeader (s : State) (t : Nat) (c : Ctx) : Res Nat :=
  let r := (s.tile t).code
  (Res.need (c.fromPc.isNone || (r.va + c.pc) % 64 != 62) .misalign (s.fetchInfo c)).bind fun _ =>
  (Res.need (!c.entry || decide (c.pc < r.len)) .baddesc (BitVec.ofNat 64 (c.pc / 64))).bind fun _ =>
  (Res.need (decide (c.pc + 4 ≤ r.len)) .kbound (s.fetchInfo c)).bind fun _ =>
  (s.codeBytes t c c.pc 4).bind fun bs =>
  (Res.need (decide ((r.va + c.pc) % 64 + headerLength (leNat bs) ≤ 64)) .illop (illopInfo 6 0)).bind fun _ =>
  .ok (leNat bs)

/-- The bytes of the bundle at pc. -/
def State.fetchBundle (s : State) (t : Nat) (c : Ctx) : Res (List Byte) :=
  (s.fetchHeader t c).bind fun h =>
  (Res.need (decide (c.pc + headerLength h ≤ (s.tile t).code.len)) .kbound (s.fetchInfo c)).bind fun _ =>
  s.codeBytes t c c.pc (headerLength h)

/-- A bundle that LOOP or ERET passes over: only its header is fetched, for its length (18 R399, 15 R329). -/
def State.passOver (s : State) (t : Nat) (c : Ctx) : Res Ctx :=
  if c.skip || c.skipOne then
    (s.fetchHeader t c).bind fun h =>
    .ok { c with pc := seqNext (s.tile t).code.va c.pc (headerLength h), skip := false, skipOne := false, fromPc := none }
  else .ok c

/-! ### Queued causes (15 R321) -/

/-- ENGINE_CAUSE_TAKE: the oldest queued cause takes the place of the bundle that a ready, running or blocked strand would
issue next, which is one after any that it passes over. -/
def State.takeCause (s : State) (t c : Nat) : State :=
  let x := s.ctxAt t c
  let x := match s.passOver t x with
    | .ok y => y
    | _ => x
  match x.causes with
  | [] => s
  | e :: rest =>
    match x.run with
    | .ready | .running | .blocked _ => (s.setCtxAt t c { x with causes := rest }).trapAt t c kindEngine e.cause e.info
    | _ => s

end Sys2Proof.Machine
end

