-- ==== Sys2Proof/Machine/Vector.lean ====
section
/-! DEFINITION. The vector slots but for memory and summaries: element arithmetic, integer and logic, compares, conversion,
transcendentals, moves within and between clusters, reductions, scans, accumulator rows, packing (08, 20). -/
namespace Sys2Proof.Machine

/-! ### Delivery -/

/-- Lane of element e of a group, w bits to an element (08 R164). -/
def elemLane (w e : Nat) : Nat := e % elemsPer w * w / 32

/-- The flags of elements delivered to active lanes (20 R432). -/
def liveFlags (w : Nat) (act : VPred) (es : List FRes) : List (BitVec 4) :=
  es.zipIdx.map (fun x => if act.getLsbD (elemLane w x.2) then x.1.flags else 0)

/-- A result of cluster cl: registers in the lanes of a mask from dst on, the latch with the lowest of them and zero in the
other lanes, and flags, after n clk (05 R115, 20 R432). -/
def State.vDeliver (s : State) (op : Nat) (f : VFields) (cl n latch : Nat) (mask : Vec) (regs : List Vec)
    (fl : List (BitVec 4)) : State :=
  s.emit .v cl (packV op f) n (
    (if f.nw = 0 then regs.zipIdx.map (fun x => Wr.vreg cl (f.dst.toNat + x.2) mask x.1) else []) ++
    [.vlatch cl latch (regs.headD 0 &&& mask)] ++ flagWr fl)

/-- Elements of w bits in g registers, delivered to the active lanes. -/
def State.vWrite (s : State) (op : Nat) (f : VFields) (cl n latch w g : Nat) (es : List FRes)
    (fl : List (BitVec 4)) : State :=
  s.vDeliver op f cl n latch (laneMask (activeLanes s.ctx cl f.pred)) (groupOf w g (es.map (fun x => x.code))) fl

/-- As vWrite, with the flags of its elements. -/
def State.vResult (s : State) (op : Nat) (f : VFields) (cl n latch w g : Nat) (es : List FRes) : State :=
  s.vWrite op f cl n latch w g es (liveFlags w (activeLanes s.ctx cl f.pred) es)

/-- Registers bit for bit. -/
def asElems (vs : List Vec) : List FRes := (groupElems 32 vs).map (fun x => { code := x })

/-- The slot acts in each cluster that it reaches, in ascending order (20 R432). -/
def State.vEach (s : State) (f : VFields) (k : State → Nat → Res State) : Res State :=
  (clustersOf f.target).foldl (fun r cl => r.bind fun s => k s cl) (.ok s)

/-- The unit of an operation: VF0 or VF1; the integer unit with its latency; the transcendental unit (04 R87). -/
inductive VUnit where
  | float
  | int (n : Nat)
  | trans
  deriving DecidableEq, Repr

/-- Latency and latch. VF0 is taken where it is free, and held for 2 clk by an octet, else for 1 (04 R89). -/
def State.vUnit (s : State) (cl : Nat) (u : VUnit) (octet : Bool) : Nat × Nat × State :=
  match u with
  | .int n => (n, 2, s)
  | .trans => (8, 3, s)
  | .float =>
    let n := if octet then 5 else 4
    let t := s.tile s.cur
    if Sparse.get 0 t.vf0 cl ≤ s.clk then
      (n, 0, s.setTile s.cur { t with vf0 := Sparse.set 0 t.vf0 cl (s.clk + if octet then 2 else 1) })
    else (n, 1, s)

/-! ### Operands -/

/-- Members, element width, elements per register, elements of the group. -/
def vG (f : VFields) : Nat := groupSize f.width
def vW (f : VFields) : Nat := typeBits f.type.toNat
def vN (f : VFields) : Nat := vG f * elemsPer (vW f)

/-- The elements of srcA, of srcB by its form, and of srcC in a cluster. -/
def State.vA (s : State) (f : VFields) (cl : Nat) : List Nat := groupElems (vW f) (readVGroup s.ctx cl f.srcA.toNat (vG f))
def State.vC (s : State) (f : VFields) (cl : Nat) : List Nat := groupElems (vW f) (readVGroup s.ctx cl f.srcC.toNat (vG f))
def State.vB (s : State) (f : VFields) (cl : Nat) : Res (List Nat × State) :=
  (readVSrcB s.ctx cl f).bind fun r => .ok (groupElems (vW f) r.1, s.setCtx r.2)

/-- The rounding mode of each of N source elements: VRM, and under sr the draws of the cluster, which advance (06 R134,
20 R433). -/
def State.drawModes (s : State) (code cl n : Nat) : List RMode × State :=
  let c := s.ctx
  if code = 4 then
    let n0 := c.readDraw cl
    ((List.range n).map (fun e => .sr (drawFor (c.readCsr 0x0D) cl n0 e)), s.setCtx (c.writeDraw cl (n0 + (n + 3) / 4)))
  else (List.replicate n (modeOf code 0), s)

/-- An element operation with srcA alone. -/
def State.vUnary (s : State) (op : Nat) (f : VFields) (u : VUnit) (fn : Nat → FRes) : Res State :=
  s.vEach f fun s cl =>
    let r := s.vUnit cl u (f.width == 3)
    .ok (r.2.2.vResult op f cl r.1 r.2.1 (vW f) (vG f) ((s.vA f cl).map fn))

/-- An element operation with srcA and srcB. -/
def State.vBinary (s : State) (op : Nat) (f : VFields) (u : VUnit) (fn : Nat → Nat → FRes) : Res State :=
  s.vEach f fun s cl =>
    (s.vB f cl).bind fun b =>
    let r := b.2.vUnit cl u (f.width == 3)
    .ok (r.2.2.vResult op f cl r.1 r.2.1 (vW f) (vG f) (List.zipWith fn (s.vA f cl) b.1))

/-- A float operation that rounds under VRM (20 R435): the exact operation on modes and values. -/
def State.vRounded (s : State) (op : Nat) (f : VFields) (three : Bool) (fn : RMode → FVal → FVal → FVal → FRes) :
    Res State :=
  s.vEach f fun s cl =>
    (s.vB f cl).bind fun b =>
    let m := b.2.drawModes s.ctx.vrm cl (vN f)
    let r := m.2.vUnit cl .float (f.width == 3)
    let dec := fdecode (typeFmt f.type.toNat)
    let cs := if three then s.vC f cl else List.replicate (vN f) 0
    let es := List.zipWith (fun (ma : RMode × Nat) (bc : Nat × Nat) => fn ma.1 (dec ma.2) (dec bc.1) (dec bc.2))
      (m.1.zip (s.vA f cl)) (b.1.zip cs)
    .ok (r.2.2.vResult op f cl r.1 r.2.1 (vW f) (vG f) es)

/-! ### Element arithmetic (20 R434 to R436) -/

def vFmt (f : VFields) : Fmt := typeFmt f.type.toNat
/-- A signed or unsigned element as an integer (05 R114): n32 alone is unsigned. -/
def vValue (f : VFields) (x : Nat) : Int := if f.type = 7 then (x : Int) else (BitVec.ofNat (vW f) x).toInt
/-- An integer result clamped to its type, with ISAT. -/
def vClamp (f : VFields) (i : Int) : FRes :=
  let r := if f.type = 7 then clampInt 0 (2 ^ 32 - 1) i else clampInt (-(typeMax f.type.toNat) - 1) (typeMax f.type.toNat) i
  { code := (r.1 % 2 ^ vW f).toNat, flags := r.2 }
/-- A result modulo 2^w. -/
def vWrap (f : VFields) (i : Int) : FRes := { code := (i % 2 ^ vW f).toNat }

def execVadd (f : VFields) (s : State) : Host.Outcome State Fault Refusal :=
  settle s (s.vRounded 0x8C f false (fun m a b _ => fadd (vFmt f) m a b))
def execVsub (f : VFields) (s : State) : Host.Outcome State Fault Refusal :=
  settle s (s.vRounded 0xC3 f false (fun m a b _ => fadd (vFmt f) m a b.neg))
def execVmul (f : VFields) (s : State) : Host.Outcome State Fault Refusal :=
  settle s (s.vRounded 0xAB f false (fun m a b _ => fmul (vFmt f) m a b))
def execVfma (f : VFields) (s : State) : Host.Outcome State Fault Refusal :=
  settle s (s.vRounded 0x9A f true (fun m a b c => ffma (vFmt f) m a b c))
def execVfmaS (f : VFields) (s : State) : Host.Outcome State Fault Refusal :=
  settle s (s.vRounded 0x9B f true (fun m a b c => ffma (vFmt f) m a b c.neg))
def execVfmaN (f : VFields) (s : State) : Host.Outcome State Fault Refusal :=
  settle s (s.vRounded 0x9C f true (fun m a b c => ffma (vFmt f) m a.neg b c))

/-- VABS and VNEG of a float: the sign bit alone; a NaN is made canonical. -/
def vSign (f : VFields) (keep : Bool) (x : Nat) : FRes :=
  let t := vFmt f
  let h := 2 ^ (t.bits - 1)
  if (fdecode t x).isNan then { code := t.nanCode }
  else { code := if keep && x < h then x + h else x % h }

/-- The unit of VABS, VNEG, VMAX and VMIN by type (20 R436). -/
def vSplit (f : VFields) : VUnit := if isFloatType f.type.toNat then .float else .int 2

def execVabs (f : VFields) (s : State) : Host.Outcome State Fault Refusal :=
  settle s (s.vUnary 0x8A f (vSplit f) (fun x =>
    if isFloatType f.type.toNat then vSign f false x else vClamp f ((vValue f x).natAbs : Int)))
def execVneg (f : VFields) (s : State) : Host.Outcome State Fault Refusal :=
  settle s (s.vUnary 0xAC f (vSplit f) (fun x =>
    if isFloatType f.type.toNat then vSign f true x else vClamp f (-(vValue f x))))
def execVmax (f : VFields) (s : State) : Host.Outcome State Fault Refusal :=
  settle s (s.vBinary 0xA8 f (vSplit f) (fun x y =>
    if isFloatType f.type.toNat then fround (vFmt f) .rne (fmax (fdecode (vFmt f) x) (fdecode (vFmt f) y))
    else { code := if vValue f x < vValue f y then y else x }))
def execVmin (f : VFields) (s : State) : Host.Outcome State Fault Refusal :=
  settle s (s.vBinary 0xA9 f (vSplit f) (fun x y =>
    if isFloatType f.type.toNat then fround (vFmt f) .rne (fmin (fdecode (vFmt f) x) (fdecode (vFmt f) y))
    else { code := if vValue f y < vValue f x then y else x }))

/-! ### Integer and logic (20 R438, R439) -/

def execVand (f : VFields) (s : State) : Host.Outcome State Fault Refusal :=
  settle s (s.vBinary 0x8D f (.int 2) (fun x y => { code := x &&& y }))
def execVor (f : VFields) (s : State) : Host.Outcome State Fault Refusal :=
  settle s (s.vBinary 0xAD f (.int 2) (fun x y => { code := x ||| y }))
def execVxor (f : VFields) (s : State) : Host.Outcome State Fault Refusal :=
  settle s (s.vBinary 0xC9 f (.int 2) (fun x y => { code := x ^^^ y }))
def execViadd (f : VFields) (s : State) : Host.Outcome State Fault Refusal :=
  settle s (s.vBinary 0x9F f (.int 2) (fun x y => vWrap f (x + y)))
def execViaddSat (f : VFields) (s : State) : Host.Outcome State Fault Refusal :=
  settle s (s.vBinary 0xA0 f (.int 2) (fun x y => vClamp f (vValue f x + vValue f y)))
def execViaddSub (f : VFields) (s : State) : Host.Outcome State Fault Refusal :=
  settle s (s.vBinary 0xA1 f (.int 2) (fun x y => vWrap f ((x : Int) - y)))
def execViaddSubsat (f : VFields) (s : State) : Host.Outcome State Fault Refusal :=
  settle s (s.vBinary 0xA2 f (.int 2) (fun x y => vClamp f (vValue f x - vValue f y)))
def execVimul (f : VFields) (s : State) : Host.Outcome State Fault Refusal :=
  settle s (s.vBinary 0xA4 f (.int 3) (fun x y => vWrap f (x * y)))
def execVshl (f : VFields) (s : State) : Host.Outcome State Fault Refusal :=
  settle s (s.vBinary 0xBE f (.int 2) (fun x n => { code := if vW f ≤ n then 0 else x * 2 ^ n % 2 ^ vW f }))
def execVshr (f : VFields) (s : State) : Host.Outcome State Fault Refusal :=
  settle s (s.vBinary 0xBF f (.int 2) (fun x n => { code := if vW f ≤ n then 0 else x / 2 ^ n }))
/-- The sign bit fills, for n32 as well. -/
def execVsar (f : VFields) (s : State) : Host.Outcome State Fault Refusal :=
  settle s (s.vBinary 0xB6 f (.int 2) (fun x n =>
    { code := ((BitVec.ofNat (vW f) x).sshiftRight (Nat.min n (vW f))).toNat }))

/-! ### Compares (20 R441) -/

/-- Conditions 0 eq, 1 ne, 2 lt, 3 le, 4 un. -/
def vCond (f : VFields) (cond x y : Nat) : Bool :=
  if isFloatType f.type.toNat then
    let a := fdecode (vFmt f) x
    let b := fdecode (vFmt f) y
    match cond with
    | 0 => feq a b
    | 1 => !feq a b
    | 2 => flt a b
    | 3 => fle a b
    | _ => funord a b
  else match cond with
    | 0 => x == y
    | 1 => x != y
    | 2 => decide (vValue f x < vValue f y)
    | _ => decide (vValue f x ≤ vValue f y)

/-- Lane bits: the condition holds for every element of the lane (08 R166). -/
def laneBits (w : Nat) (bs : List Bool) : VPred :=
  (List.range 16).foldl (fun p i =>
    if (bs.zipIdx.filter (fun x => elemLane w x.2 == i)).all (fun x => x.1) then p ||| BitVec.twoPow 16 i else p) 0

def State.vCompare (s : State) (op : Nat) (f : VFields) (cond : Nat) : Res State :=
  s.vEach f fun s cl =>
    (s.vB f cl).bind fun b =>
    let act := activeLanes s.ctx cl f.pred
    let p := laneBits (vW f) (List.zipWith (vCond f cond) (s.vA f cl) b.1)
    .ok (b.2.emit .v cl (packV op f) 2 (
      (if f.nw = 0 then [Wr.vpred cl f.dst.toNat act p] else []) ++ [.vlatch cl 2 (laneMask (p &&& act))]))

def execVcmpEq (f : VFields) (s : State) : Host.Outcome State Fault Refusal := settle s (s.vCompare 0x8F f 0)
def execVcmpNe (f : VFields) (s : State) : Host.Outcome State Fault Refusal := settle s (s.vCompare 0x90 f 1)
def execVcmpLt (f : VFields) (s : State) : Host.Outcome State Fault Refusal := settle s (s.vCompare 0x91 f 2)
def execVcmpLe (f : VFields) (s : State) : Host.Outcome State Fault Refusal := settle s (s.vCompare 0x92 f 3)
def execVcmpUn (f : VFields) (s : State) : Host.Outcome State Fault Refusal := settle s (s.vCompare 0x93 f 4)

/-! ### Conversion (20 R442 to R444) -/

/-- A float result of .satf: the largest finite value with the source's sign, FCLMP, in place of an infinity (06 R133). -/
def satFloat (d : Fmt) (mode : RMode) (v : FVal) : FRes :=
  let top := fun (neg : Bool) => ({ code := d.maxCode + fsign d neg, flags := fFCLMP } : FRes)
  match v with
  | .inf neg => top neg
  | _ =>
    let r := fround d mode v
    if r.flags &&& fOVF = 0 then r else top v.isNeg

/-- One element converted from type t to type d. -/
def convert (t d : Nat) (sat : Bool) (mode : RMode) (x : Nat) : FRes :=
  let w := typeBits d
  let v := if isFloatType t then fdecode (typeFmt t) x
    else ofInt (if t = 7 then (x : Int) else (BitVec.ofNat (typeBits t) x).toInt)
  if isFloatType d then if sat then satFloat (typeFmt d) mode v else fround (typeFmt d) mode v
  else
    let lo := if d = 7 then 0 else -(typeMax d) - 1
    let hi := if d = 7 then 2 ^ 32 - 1 else typeMax d
    let r := ftoInt mode lo hi v
    { code := (r.1 % 2 ^ w).toNat, flags := r.2 }

/-- VCVT with the mode of its opcode; 4 draws for every source element. -/
def State.vConvert (s : State) (op : Nat) (f : VFields) (mode : Nat) : Res State :=
  let i := (vImm f).toNat
  let d := i % 8
  let g := 2 ^ vcvtDstWidth f
  s.vEach f fun s cl =>
    let m := s.drawModes mode cl (vN f)
    let r := m.2.vUnit cl .float (f.width == 3 || g == 8)
    .ok (r.2.2.vResult op f cl r.1 r.2.1 (typeBits d) g
      (List.zipWith (convert f.type.toNat d (decide (8 ≤ i))) m.1 (s.vA f cl)))

def execVcvtRne (f : VFields) (s : State) : Host.Outcome State Fault Refusal := settle s (s.vConvert 0x94 f 0)
def execVcvtRtz (f : VFields) (s : State) : Host.Outcome State Fault Refusal := settle s (s.vConvert 0x95 f 1)
def execVcvtRdn (f : VFields) (s : State) : Host.Outcome State Fault Refusal := settle s (s.vConvert 0x96 f 2)
def execVcvtRup (f : VFields) (s : State) : Host.Outcome State Fault Refusal := settle s (s.vConvert 0x97 f 3)
def execVcvtSr (f : VFields) (s : State) : Host.Outcome State Fault Refusal := settle s (s.vConvert 0x98 f 4)

/-! ### Transcendentals (20 R445) -/

def execVexp2 (f : VFields) (s : State) : Host.Outcome State Fault Refusal :=
  settle s (s.vUnary 0x99 f .trans (fexp2 (vFmt f)))
def execVlog2 (f : VFields) (s : State) : Host.Outcome State Fault Refusal :=
  settle s (s.vUnary 0xA7 f .trans (flog2 (vFmt f)))
def execVrcp (f : VFields) (s : State) : Host.Outcome State Fault Refusal :=
  settle s (s.vUnary 0xB1 f .trans (frcp (vFmt f)))
def execVrsq (f : VFields) (s : State) : Host.Outcome State Fault Refusal :=
  settle s (s.vUnary 0xB5 f .trans (frsq (vFmt f)))
def execVsig (f : VFields) (s : State) : Host.Outcome State Fault Refusal :=
  settle s (s.vUnary 0xC0 f .trans (fsig (vFmt f)))
def execVtanh (f : VFields) (s : State) : Host.Outcome State Fault Refusal :=
  settle s (s.vUnary 0xC5 f .trans (ftanh (vFmt f)))

/-! ### Transport (20 R440, R448, R451 to R453, 08 R167) -/

/-- The scalar of bsel = 10, or another reading of the immediate. -/
def State.vIndex (s : State) (f : VFields) (imm : Nat) : Nat :=
  if f.bsel = 2 then (s.ctx.readS f.srcB.toNat).toNat else imm

/-- VBCAST: an index beyond the group traps SHAPE with the index. -/
def execVbcast (f : VFields) (s : State) : Host.Outcome State Fault Refusal :=
  settle s (
    let j := s.vIndex f (vImm f).toNat
    if vN f ≤ j then .trap .shape (BitVec.ofNat 64 j)
    else s.vEach f fun s cl =>
      .ok (s.vResult 0x8E f cl 2 2 (vW f) (vG f) (List.replicate (vN f) { code := (s.vA f cl).getD j 0 })))

/-- VIDX: B + e, and c · g · L more with CLOFF. -/
def execVidx (f : VFields) (s : State) : Host.Outcome State Fault Refusal :=
  settle s (s.vEach f fun s cl =>
    (s.vB f cl).bind fun b =>
    .ok (b.2.vResult 0xA3 f cl 2 2 (vW f) (vG f)
      (b.1.zipIdx.map (fun x => vWrap f ((x.1 : Int) + x.2 + (f.srcA.toNat % 2) * cl * vN f)))))

def execVmov (f : VFields) (s : State) : Host.Outcome State Fault Refusal :=
  settle s (s.vEach f fun s cl =>
    (readVSrcB s.ctx cl f).bind fun b =>
    .ok ((s.setCtx b.2).vResult 0xAA f cl 2 2 32 (vG f) (asElems b.1)))

/-- VSEL: the predicate chooses whole lanes; every lane is written. -/
def execVsel (f : VFields) (s : State) : Host.Outcome State Fault Refusal :=
  settle s (s.vEach f fun s cl =>
    (readVSrcB s.ctx cl f).bind fun b =>
    let m := laneMask (s.ctx.readVp cl f.pred.toNat)
    let vs := List.zipWith (fun x y => mergeBits m y x) (readVGroup s.ctx cl f.srcA.toNat (vG f)) b.1
    .ok ((s.setCtx b.2).vDeliver 0xBB f cl 2 2 (BitVec.allOnes 512) vs []))

def execVshfPerm (f : VFields) (s : State) : Host.Outcome State Fault Refusal :=
  settle s (s.vEach f fun s cl =>
    (s.vB f cl).bind fun b =>
    let a := s.vA f cl
    .ok (b.2.vResult 0xBC f cl 2 2 (vW f) (vG f) (b.1.map (fun x => { code := a.getD (x % vN f) 0 }))))
/-- VSHF.rot: r is an unsigned scalar or a signed immediate. -/
def execVshfRot (f : VFields) (s : State) : Host.Outcome State Fault Refusal :=
  settle s (s.vEach f fun s cl =>
    let r := s.vIndex f (((vImm f).toInt % (vN f : Int)).toNat)
    let a := s.vA f cl
    .ok (s.vResult 0xBD f cl 2 2 (vW f) (vG f)
      ((List.range (vN f)).map (fun e => { code := a.getD ((e + r) % vN f) 0 }))))

/-- The source cluster of VXCL: a rotation, an exclusive or, or a cluster itself (08 R167). -/
def vxclSource (i cl : Nat) : Nat :=
  match bits i 4 3 with
  | 0 => (cl + bits i 2 0) % 8
  | 1 => cl ^^^ bits i 2 0
  | _ => bits i 2 0

def execVxcl (f : VFields) (s : State) : Host.Outcome State Fault Refusal :=
  settle s (s.vEach f fun s cl =>
    .ok (s.vResult 0xC8 f cl 3 5 32 (vG f)
      (asElems (readVGroup s.ctx (vxclSource (vImm f).toNat cl) f.srcA.toNat (vG f)))))

/-! ### Reductions and scans (06 R139 to R141, 08 R172 to R175) -/

/-- An element as a node holds it: FP32 for floats, sign-extended for signed types (08 R173). -/
def nodeOf (t x : Nat) : Word :=
  if isFloatType t then BitVec.ofNat 64 (fround fp32 .rne (fdecode (typeFmt t) x)).code
  else if t = 7 then BitVec.ofNat 64 x
  else BitVec.ofInt 64 (BitVec.ofNat (typeBits t) x).toInt

/-- The identity of an operator in node format: 0 add, 1 max, 2 min (06 R139, 08 R173). -/
def nodeIdentity (op t : Nat) : Word :=
  if isFloatType t then
    match op with
    | 0 => 0x80000000
    | 1 => 0xFF800000
    | _ => 0x7F800000
  else match op with
    | 0 => 0
    | 1 => if t = 7 then 0 else BitVec.ofInt 64 (-(typeMax t) - 1)
    | _ => if t = 7 then 0xFFFFFFFF else BitVec.ofInt 64 (typeMax t)

/-- One level of the tree: neighbours combined. -/
def treeLevel (op t : Nat) : List IRes → List IRes
  | a :: b :: rest =>
    let r := redNode op t a.value b.value
    { r with flags := r.flags ||| a.flags ||| b.flags } :: treeLevel op t rest
  | r => r

/-- The tree over 2^k elements, level by level (06 R139). -/
def treeReduce (op t : Nat) : Nat → List IRes → List IRes
  | 0, xs => xs
  | k + 1, xs => treeReduce op t k (treeLevel op t xs)

def redOp (op : Nat) : RedOp :=
  match op with
  | 0 => .add
  | 1 => .max
  | _ => .min

/-- VRED: the tree of srcA into the sum latch of dst, after 6 clk. -/
def State.vReduce (s : State) (code : Nat) (f : VFields) (op : Nat) : Res State :=
  let t := f.type.toNat
  s.vEach f fun s cl =>
    let act := activeLanes s.ctx cl f.pred
    let xs := ((s.vA f cl).zipIdx.map (fun x =>
      ({ value := if act.getLsbD (elemLane (vW f) x.2) then nodeOf t x.1 else nodeIdentity op t } : IRes)))
    let r := (treeReduce op t (Nat.log2 (vN f)) xs).headD { value := 0 }
    .ok (s.emit .v cl (packV code f) 6 ([Wr.sum cl (f.dst.toNat % 4) (redOp op) t r.value] ++ flagWr [r.flags]))

def execVredAdd (f : VFields) (s : State) : Host.Outcome State Fault Refusal := settle s (s.vReduce 0xB2 f 0)
def execVredMax (f : VFields) (s : State) : Host.Outcome State Fault Refusal := settle s (s.vReduce 0xB3 f 1)
def execVredMin (f : VFields) (s : State) : Host.Outcome State Fault Refusal := settle s (s.vReduce 0xB4 f 2)

/-- VSUM: the latch is read and emptied in the issue clk; lanes 0 and 1 receive its halves (08 R174). -/
def execVsum (f : VFields) (s : State) : Host.Outcome State Fault Refusal :=
  settle s (s.vEach f fun s cl =>
    let n := f.srcA.toNat % 4
    let l := s.ctx.readSum cl n
    let v := if l.full then l.bits else 0
    .ok ((s.setCtx (s.ctx.writeSum cl n {})).vResult 0xC4 f cl 3 6 32 1 (asElems [v.setWidth 512])))

/-- One node of a scan, in the element type (08 R175). -/
def scanNode (f : VFields) (op x y : Nat) : FRes :=
  if isFloatType f.type.toNat then
    let a := fdecode (vFmt f) x
    let b := fdecode (vFmt f) y
    if op = 0 then fadd (vFmt f) .rne a b else fround (vFmt f) .rne (fmax a b)
  else if op = 0 then if f.type = 7 then vWrap f (x + y) else vClamp f (vValue f x + vValue f y)
  else { code := if vValue f x < vValue f y then y else x }

/-- The identity of a scan in the element type (08 R175). -/
def scanIdentity (f : VFields) (op : Nat) : Nat :=
  if isFloatType f.type.toNat then
    if op = 0 then 2 ^ (vW f - 1) else match (vFmt f).infCode with
      | some c => c + 2 ^ (vW f - 1)
      | none => (vFmt f).maxCode + 2 ^ (vW f - 1)
  else if op = 0 ∨ f.type = 7 then 0 else 2 ^ (vW f - 1)

/-- Stages d = 2^k on of the Kogge-Stone order; flags gather over every node (06 R140, R141). (log 48: DEDUCED) -/
def scanStages (f : VFields) (op : Nat) : Nat → Nat → List Nat → BitVec 4 → List Nat × BitVec 4
  | 0, _, ys, fl => (ys, fl)
  | n + 1, d, ys, fl =>
    let rs := List.zipWith (scanNode f op) ys (ys.drop d)
    scanStages f op n (2 * d) (ys.take d ++ rs.map (fun r => r.code)) (rs.foldl (fun a r => a ||| r.flags) fl)

def State.vScan (s : State) (code : Nat) (f : VFields) (op : Nat) : Res State :=
  s.vEach f fun s cl =>
    let act := activeLanes s.ctx cl f.pred
    let xs := (s.vA f cl).zipIdx.map (fun x => if act.getLsbD (elemLane (vW f) x.2) then x.1 else scanIdentity f op)
    let r := scanStages f op (Nat.log2 (vN f)) 1 xs 0
    .ok (s.vWrite code f cl 6 6 (vW f) 1 (r.1.map (fun x => { code := x })) [r.2])

def execVscanAdd (f : VFields) (s : State) : Host.Outcome State Fault Refusal := settle s (s.vScan 0xB7 f 0)
def execVscanMax (f : VFields) (s : State) : Host.Outcome State Fault Refusal := settle s (s.vScan 0xB8 f 1)

/-! ### Accumulator rows (08 R176) -/

/-- 16 columns of an accumulator's row from a column on. -/
def Tile.accRow (t : Tile) (a row col : Nat) : Vec :=
  BitVec.ofNat 512 (packNat 32 ((List.range 16).map (fun i => (Sparse.get 0 t.acc (16384 * a + 128 * row + col + i)).toNat)))

def execVacc (f : VFields) (s : State) : Host.Outcome State Fault Refusal :=
  settle s (
    let v := s.vIndex f (vImm f).toNat
    let row := bits v 6 0
    let a := bits v 8 7
    let accs := match s.curCrew with | some w => w.acc | none => 0
    if 512 ≤ v ∨ accs ≤ a ∨ 127 < row + vG f - 1 then .trap .shape (BitVec.ofNat 64 v)
    else s.vEach f fun s cl =>
      .ok (s.vResult 0x8B f cl 6 7 32 (vG f)
        (asElems ((List.range (vG f)).map (fun m => (s.tile s.cur).accRow a (row + m) (16 * cl))))))

/-! ### Packing (08 R177, R178) -/

/-- VPK: dst holds the packed block, dst + 1 the scale in lane 0. The flags stand at the lanes of their elements.
(log 47: DEDUCED) -/
def State.vPack (s : State) (op : Nat) (f : VFields) (four : Bool) : Res State :=
  s.vEach f fun s cl =>
    let m := if four then s.drawModes s.ctx.vrm cl 32 else (List.replicate 32 .rne, s)
    let r := m.2.vUnit cl .float false
    let p := packBlock four m.1 (s.vA f cl)
    let w := if four then 4 else 8
    let v := vecOf w (p.1.map (fun x => x.code))
    let fl := p.1.zipIdx.map (fun x => if (activeLanes s.ctx cl f.pred).getLsbD (x.2 * w / 32) then x.1.flags else 0)
    .ok (r.2.2.vWrite op f cl r.1 r.2.1 32 2 (asElems [v, BitVec.ofNat 512 p.2]) fl)

def execVpkPp8 (f : VFields) (s : State) : Host.Outcome State Fault Refusal := settle s (s.vPack 0xAF f false)
def execVpkMx4 (f : VFields) (s : State) : Host.Outcome State Fault Refusal := settle s (s.vPack 0xB0 f true)

/-- VUPK: each element times the scale, rounded rne to FP32. -/
def State.vUnpack (s : State) (op : Nat) (f : VFields) (four : Bool) : Res State :=
  s.vEach f fun s cl =>
    let r := s.vUnit cl .float false
    let v := s.ctx.readV cl f.srcA.toNat
    let sc := scaleVal (elemOf 32 (s.ctx.readV cl (f.srcA.toNat + 1)) 0)
    let es := (List.range 32).map (fun j => fround fp32 .rne (blockValue
      (if four then fdecode e2m1 (elemOf 4 v j) else pp8Dec (elemOf 8 v j)) sc))
    .ok (r.2.2.vResult op f cl r.1 r.2.1 32 2 es)

def execVupkPp8 (f : VFields) (s : State) : Host.Outcome State Fault Refusal := settle s (s.vUnpack 0xC6 f false)
def execVupkMx4 (f : VFields) (s : State) : Host.Outcome State Fault Refusal := settle s (s.vUnpack 0xC7 f true)

end Sys2Proof.Machine
end

