-- ==== Sys2Proof/Machine/VectorMem.lean ====
section
/-! DEFINITION. The vector slots that reach memory: contiguous loads and stores, gathers, scatters, and the partition
instruction (20 R446, R447, R449, R450, 08 R168 to R171). -/
namespace Sys2Proof.Machine

/-! ### Checks -/

/-- The capability of a V slot and the offset that its scalar gives (05 R115). -/
def vCap (s : State) (f : VFields) : Res TCap := readCapReg s.ctx (f.srcC.toNat % 32)
def vOff (s : State) (f : VFields) : Nat := offset48 (s.ctx.readS f.srcB.toNat)

/-- The checks of 10 R206 over words at offsets, each step over all of them before the next, then WATCH. The alignment is
that of the base O. Answers the base from which the offsets count. -/
def State.lanesCheck (s : State) (cap : TCap) (o : Nat) (offs : List Nat) (write : Bool) : Res Place :=
  let need := if write then rW else rR
  let spad := (s.tile s.cur).crewSpad
  let at_ := fun (x : Nat) => BitVec.ofNat 64 x
  let found := fun (bad : Nat → Bool) (c : Cause) => match offs.find? bad with
    | some x => Res.trap c (at_ x)
    | none => Res.ok ()
  if offs.isEmpty then .ok (.spad 0)
  else
    let fail := at_ (offs.headD o)
    (Res.need (cap.tag && kindAllowed (if write then .store else .load) (capKind cap) &&
      (capRights cap &&& need == need)) .kright fail).bind fun _ =>
    (found (fun x => decide (x < capLow cap) || decide (capLow cap + capLen cap < x + 4) ||
      (capIsSpad cap && decide (spad < x + 4))) .kbound).bind fun _ =>
    (Res.need (o % 4 == 0) .misalign (at_ o)).bind fun _ =>
    if capIsSpad cap then (Res.need (capGen cap == 0) .kstale fail).bind fun _ => .ok (.spad 0)
    else match s.objEntry s.curVf (capObj cap) with
      | none => .trap .kstale fail
      | some e =>
        (Res.need (e.valid && e.vf == s.curVf && e.gen == capGen cap) .kstale fail).bind fun _ =>
        (found (fun x => decide (e.len < x + 4)) .kbound).bind fun _ =>
        (Res.all (fun x => s.watch cap x 4 (!write) write (.virt e.pasid (e.vabase + x) (some (capObj cap)))) offs).bind fun _ =>
        .ok (.virt e.pasid e.vabase (some (capObj cap)))

/-! ### Lanes -/

/-- The lanes (16m + i) of a cluster that a contiguous access moves, with their offsets (20 R449). -/
def vLanes (s : State) (f : VFields) (o cl : Nat) : List (Nat × Nat) :=
  let act := activeLanes s.ctx cl f.pred
  let b := match f.target with
    | .broadcast => cl * vG f
    | .cluster _ => 0
  ((List.range (16 * vG f)).filter (fun k => act.getLsbD (k % 16))).map (fun k => (k, o + 64 * (k / 16 + b) + 4 * (k % 16)))

/-- The elements of a cluster that an indexed access moves, by the index group at r: active lanes whose index is not
0xFFFF_FFFF (20 R446). -/
def vIndexed (s : State) (f : VFields) (o r cl : Nat) : List (Nat × Nat) :=
  let act := activeLanes s.ctx cl f.pred
  let xs := (groupElems 32 (readVGroup s.ctx cl r (vG f))).zipIdx
  (xs.filter (fun x => act.getLsbD (x.2 % 16) && x.1 != 0xFFFFFFFF)).map (fun x => (x.2, o + 4 * x.1))

/-- The lanes of member m as a write mask. -/
def memberMask (ls : List (Nat × Nat)) (m : Nat) : Vec :=
  laneMask (ls.foldl (fun p l => if l.1 / 16 = m then p ||| BitVec.twoPow 16 (l.1 % 16) else p) 0)

/-! ### Loads and gathers -/

/-- The read of one cluster issues, with its vb4 entry: zero in lanes that it does not move (05 R115). -/
def State.vRead (s : State) (f : VFields) (p : Place) (stream : Bool) (cl : Nat) (ls : List (Nat × Nat)) : State :=
  let n := s.takeNum
  let ws := if f.nw = 0 then (List.range (vG f)).map (fun m => Wr.vreg cl (f.dst.toNat + m) (memberMask ls m) 0) else []
  n.2.issueRead s.cur s.curCtx (16 + cl)
    { place := p, kind := .vec ls (vG f) cl f.dst.toNat (f.nw == 1) stream, seq := (s.tile s.cur).logSeq, num := n.1 }
    { writes := ws }

/-- A vector read of the lanes that `pick` gives each cluster. -/
def State.vLoad (s : State) (f : VFields) (cap : TCap) (stream : Bool) (pick : Nat → List (Nat × Nat)) : Res State :=
  let cs := clustersOf f.target
  (s.lanesCheck cap (vOff s f) (cs.flatMap (fun c => (pick c).map (fun l => l.2))) false).bind fun p =>
  .ok (cs.foldl (fun s c => s.vRead f p stream c (pick c)) s)

def execVld (f : VFields) (s : State) : Host.Outcome State Fault Refusal :=
  settle s ((vCap s f).bind fun cap => s.vLoad f cap false (vLanes s f (vOff s f)))
def execVldSt (f : VFields) (s : State) : Host.Outcome State Fault Refusal :=
  settle s ((vCap s f).bind fun cap => s.vLoad f cap true (vLanes s f (vOff s f)))

/-- A capability of the wrong kind for an indexed access: KRIGHT with O, whatever the lanes (20 R446). -/
def indexedKind (s : State) (f : VFields) (cap : TCap) (spad : Bool) : Res Unit :=
  Res.need (capIsSpad cap == spad) .kright (BitVec.ofNat 64 (vOff s f))

def State.vGather (s : State) (f : VFields) (spad : Bool) : Res State :=
  (vCap s f).bind fun cap =>
  (indexedKind s f cap spad).bind fun _ =>
  s.vLoad f cap false (vIndexed s f (vOff s f) f.srcA.toNat)

def execVgath (f : VFields) (s : State) : Host.Outcome State Fault Refusal := settle s (s.vGather f false)
def execVgathS (f : VFields) (s : State) : Host.Outcome State Fault Refusal := settle s (s.vGather f true)

/-! ### Stores and scatters -/

/-- Members of srcA of a cluster as bytes. -/
def vBytes (s : State) (f : VFields) (cl : Nat) : List Byte :=
  (readVGroup s.ctx cl f.srcA.toNat (vG f)).flatMap (fun v => natBytes 64 v.toNat)

/-- A piece of a vector store issues, numbered as its access. -/
def State.vPut (s : State) (num : Nat) (p : Place) (data : List Byte) (mask : Option Nat) (poc : Bool) : State :=
  match s.issueStore s.cur s.curCtx false { num, place := p, data, mask, poc, scope := s.plainScope p } with
  | .ok s' => s'
  | _ => s

/-- The store of one cluster: a piece for each 64-byte sector, with the bytes of its active lanes. -/
def State.vWriteOut (s : State) (f : VFields) (p : Place) (poc : Bool) (num start : Nat) (ls : List (Nat × Nat)) (cl : Nat) :
    State :=
  let bs := vBytes s f cl
  let base := match p with
    | .spad a => a + start
    | .virt _ a _ => a + start
  (sectorParts base (64 * vG f)).foldl (fun (s : State) part =>
    let mask := ls.foldl (fun m l =>
      let k := l.2 - start
      if part.1 ≤ k ∧ k < part.1 + part.2 then m + 15 * 2 ^ (k - part.1) else m) 0
    if mask = 0 then s
    else
      s.vPut num (p.add (start + part.1)) ((bs.drop part.1).take part.2)
        (if mask = 2 ^ part.2 - 1 then none else some mask) poc) s

def State.vStore (s : State) (f : VFields) (poc : Bool) : Res State :=
  (vCap s f).bind fun cap =>
  let o := vOff s f
  let cs := clustersOf f.target
  (s.lanesCheck cap o (cs.flatMap (fun c => (vLanes s f o c).map (fun l => l.2))) true).bind fun p =>
  .ok (cs.foldl (fun s' c =>
    let b := match f.target with
      | .broadcast => 64 * c * vG f
      | .cluster _ => 0
    s'.vWriteOut f p poc s.ctx.num (o + b) (vLanes s f o c) c) s)

def execVst (f : VFields) (s : State) : Host.Outcome State Fault Refusal := settle s (s.vStore f false)
def execVstSt (f : VFields) (s : State) : Host.Outcome State Fault Refusal := settle s (s.vStore f true)

/-- A scatter writes its elements one by one, in ascending order within a cluster. -/
def State.vScatter (s : State) (f : VFields) (spad : Bool) : Res State :=
  (vCap s f).bind fun cap =>
  (indexedKind s f cap spad).bind fun _ =>
  let o := vOff s f
  let cs := clustersOf f.target
  let pick := vIndexed s f o (f.srcA.toNat + vG f)
  (s.lanesCheck cap o (cs.flatMap (fun c => (pick c).map (fun l => l.2))) true).bind fun p =>
  .ok (cs.foldl (fun (s' : State) c =>
    let xs := groupElems 32 (readVGroup s.ctx c f.srcA.toNat (vG f))
    (pick c).foldl (fun (s' : State) l =>
      s'.vPut s.ctx.num (p.add l.2) (natBytes 4 (xs.getD l.1 0)) none false) s') s)

def execVscat (f : VFields) (s : State) : Host.Outcome State Fault Refusal := settle s (s.vScatter f false)
def execVscatS (f : VFields) (s : State) : Host.Outcome State Fault Refusal := settle s (s.vScatter f true)

/-! ### VPART (08 R168 to R171) -/

/-- The VPART of one cluster issues, with its vb4 entry. -/
def State.vPartition (s : State) (f : VFields) (cap : TCap) (cl : Nat) : State :=
  let n := s.takeNum
  let p := s.ctx.readVp cl f.pred.toNat
  let xs := (groupElems 32 (readVGroup s.ctx cl f.srcA.toNat (vG f))).zipIdx.map (fun x => (x.1, p.getLsbD (x.2 % 16)))
  { n.2 with nextOp := s.nextOp + 1 }.issueRead s.cur s.curCtx (16 + cl)
    { place := .spad (vOff s f), kind := .part s.nextOp xs cap cl f.dst.toNat (f.nw == 1)
      seq := (s.tile s.cur).logSeq, num := n.1 } {}

/-- VPART: the capability must name the scratchpad, and the header is checked, before anything is applied. -/
def execVpart (f : VFields) (s : State) : Host.Outcome State Fault Refusal :=
  settle s ((vCap s f).bind fun cap =>
    let o := vOff s f
    (Res.need (capIsSpad cap) .kright (BitVec.ofNat 64 o)).bind fun _ =>
    (s.check cap o 16 (rR + rW) 16 .engine).bind fun _ =>
    .ok ((clustersOf f.target).foldl (fun s c => s.vPartition f cap c) s))

end Sys2Proof.Machine
end

