-- ==== Sys2Proof/Machine/Sketches.lean ====
section
/-! DEFINITION. The ten summary instructions: their checks at issue, and the operation that the reduction unit performs
on a structure (09 R179 to R198). -/
namespace Sys2Proof.Machine

/-! ### Issue (R179, R180) -/

/-- The operation enters the tile's request path. -/
def State.sumIssue (s : State) (op cl : Nat) (cap : TCap) (off size : Nat) (place : Place) (bf : Bool) (elems : List Nat)
    (act : VPred) : State :=
  let n := s.takeNum
  let t := n.2.tile s.cur
  let o : SumOp := {
    id := s.nextOp, num := n.1, iss := s.issuer s.cur s.curCtx, op, cl, cap, off, place, bf, elems, act
    coin := (s.ctx.readCsr 0x1A).toNat % 4, size }
  { n.2.setTile s.cur { t with sumq := t.sumq ++ [o] } with nextOp := s.nextOp + 1 }

/-- The parameters of a SKCLR: the bytes of the area, where they are within their limits. -/
def clearSize (ls : List Nat) : Option Nat :=
  let l0 := ls.getD 0 0
  let l1 := ls.getD 1 0
  let ty := bits l0 7 0
  let size := bits l0 15 8
  let km := bits l1 15 0
  if l0 / 2 ^ 16 ≠ 0 ∨ l1 / 2 ^ 16 ≠ 0 then none
  else if ty = tSketch then
    if 1 ≤ size ∧ size ≤ 32 ∧ 16 ≤ km ∧ km ≤ 1024 ∧ km % 16 = 0 then some (64 + size * (64 + 4 * km)) else none
  else if ty = tHitter then if size = 0 ∧ (km = 64 ∨ km = 256) then some (32 + 12 * km) else none
  else if ty = tDistinct then if 10 ≤ size ∧ size ≤ 14 ∧ km = 0 then some (32 + 2 ^ size) else none
  else none

/-- The lanes of srcA in a cluster. -/
def vLaneWords (s : State) (f : VFields) (cl : Nat) : List Nat := vecElems 32 (s.ctx.readV cl f.srcA.toNat)

/-- Elements of srcA in active lanes. -/
def vActive (s : State) (f : VFields) (cl : Nat) : List Nat :=
  let w := vW f
  let act := activeLanes s.ctx cl f.pred
  ((vecElems w (s.ctx.readV cl f.srcA.toNat)).zipIdx.filter (fun x => act.getLsbD (elemLane w x.2))).map (fun x => x.1)

/-- An insertion or a merge: the first 32 bytes are checked. -/
def State.sumWrite (s : State) (op : Nat) (f : VFields) (pick : Nat → List Nat) : Res State :=
  (vCap s f).bind fun cap =>
  (s.check cap (vOff s f) 32 (rR + rW) 64 .store).bind fun p =>
  .ok ((clustersOf f.target).foldl (fun s' c => s'.sumIssue op c cap (vOff s f) 0 p (f.type == 1) (pick c) 0) s)

/-- SKCLR: the parameters of every cluster, then the whole area of each. (log 49: DEDUCED) -/
def execSkclr (f : VFields) (s : State) : Host.Outcome State Fault Refusal :=
  settle s (
    let cs := clustersOf f.target
    let o := vOff s f
    let area := fun (c : Nat) => clearSize (vLaneWords s f c)
    (vCap s f).bind fun cap =>
    (Res.need (cs.all (fun c => (area c).isSome)) .baddesc 2).bind fun _ =>
    (Res.all (fun c => s.check cap o ((area c).getD 0) (rR + rW) 64 .store) cs).bind fun ps =>
    .ok ((cs.zip ps).foldl (fun s' c =>
      s'.sumIssue 0x80 c.1 cap o ((area c.1).getD 0) c.2 false ((vLaneWords s f c.1).take 4) 0) s))

def execSkd (f : VFields) (s : State) : Host.Outcome State Fault Refusal := settle s (s.sumWrite 0x81 f (vActive s f))
def execSkh (f : VFields) (s : State) : Host.Outcome State Fault Refusal := settle s (s.sumWrite 0x82 f (vActive s f))
def execSkmrgQ (f : VFields) (s : State) : Host.Outcome State Fault Refusal := settle s (s.sumWrite 0x83 f (vLaneWords s f))
def execSkmrgH (f : VFields) (s : State) : Host.Outcome State Fault Refusal := settle s (s.sumWrite 0x84 f (vLaneWords s f))
def execSkmrgD (f : VFields) (s : State) : Host.Outcome State Fault Refusal := settle s (s.sumWrite 0x85 f (vLaneWords s f))
def execSkq (f : VFields) (s : State) : Host.Outcome State Fault Refusal := settle s (s.sumWrite 0x86 f (vActive s f))

/-- A query: its vb4 entry is taken at issue, and the predicate governs the lanes that receive the result. -/
def State.sumQuery (s : State) (op : Nat) (f : VFields) : Res State :=
  (vCap s f).bind fun cap =>
  (s.check cap (vOff s f) 32 rR 64 .engine).bind fun p =>
  .ok ((clustersOf f.target).foldl (fun (s' : State) c =>
    let act := activeLanes s.ctx c f.pred
    let id := s'.nextOp
    let s' := s'.sumIssue op c cap (vOff s f) 0 p false ((vLaneWords s f c).take 1) act
    let ws := if f.nw = 0 then [Wr.vreg c f.dst.toNat (laneMask act) 0] else []
    s'.setCtx (s'.ctx.pushPort (16 + c) { cmd := some id, writes := ws })) s)

def execSkqryQ (f : VFields) (s : State) : Host.Outcome State Fault Refusal := settle s (s.sumQuery 0x87 f)
def execSkqryR (f : VFields) (s : State) : Host.Outcome State Fault Refusal := settle s (s.sumQuery 0x88 f)
def execSkqryE (f : VFields) (s : State) : Host.Outcome State Fault Refusal := settle s (s.sumQuery 0x89 f)

/-! ### The unit (R181, R182) -/

/-- TYPE of the structures that an operation serves; SKQRY.e serves two. -/
def sumType (op : Nat) : Nat :=
  if op = 0x83 ∨ op = 0x86 ∨ op = 0x87 ∨ op = 0x88 then tSketch
  else if op = 0x82 ∨ op = 0x84 then tHitter else tDistinct

/-- Where n bytes of the structure at an offset lie, under the checks of its capability. A capability that fails is a trap
with the offset in TRAPA, a page that forbids the access PERM, and a missing one a block. -/
def State.sumSpot (s : State) (t : Nat) (o : SumOp) (off n need : Nat) (write : Bool) : Res Place :=
  match s.capCheck (s.tileVf t) (s.tile t).crewSpad o.cap off n need 1 .engine with
  | .trap c _ => .trap c (BitVec.ofNat 64 (256 * off))
  | .block w => .block w
  | .ok (.spad a) => .ok (.spad a)
  | .ok (.virt pasid va obj) =>
    match if s.rangeXlat pasid va n false = .forbidden then .forbidden else s.rangeXlat pasid va n write with
    | .forbidden => .trap .perm (BitVec.ofNat 64 va)
    | .missing => .block .structure
    | .mapped _ => .ok (.virt pasid va obj)

/-- Bytes of the structure at an offset: its own, or a merge's source, whose offset need not be aligned.
(log 120: DESIGN CHOICE) -/
def State.sumRead (s : State) (t : Nat) (o : SumOp) (off n need : Nat) (write : Bool) : Res (List Byte × State) :=
  (s.sumSpot t o off n need write).bind fun p =>
  match s.readPlace t o.iss.ctx p n .plain false with
  | some r => .ok r
  | none => .block .structure

/-- A structure's whole image, by its header. -/
def State.sumImage (s : State) (t : Nat) (o : SumOp) (off need : Nat) (write : Bool) : Res (List Byte × State) :=
  (s.sumRead t o off 32 need write).bind fun h => s.sumRead t o off (areaLen h.1) need write

/-- An image is malformed: its header, or a level in use (R182, R184). -/
def imageBad (img : List Byte) : Bool :=
  headBad img || (imgNat img 0 1 == tSketch && (readSketch img none).overfull)

/-- Bytes of cells written at a place by the strand of an operation. -/
def State.writePlace (s : State) (t : Nat) (p : Place) (bs : List Byte) : State :=
  match p with
  | .spad off => s.spadWrite t (cellsFrom off bs)
  | .virt pasid va obj => s.writeVirt t (s.tileVf t) pasid obj .plain false (cellsFrom va bs)

/-- The 64-byte pieces of a structure that an operation has changed, and its first, are written. -/
def State.sumStore (s : State) (t : Nat) (o : SumOp) (old new : List Byte) : State :=
  (List.range ((new.length + 63) / 64)).foldl (fun (s : State) k =>
    let a := (old.drop (64 * k)).take 64
    let b := (new.drop (64 * k)).take 64
    if k = 0 ∨ a ≠ b then s.writePlace t (o.place.add (64 * k)) b else s) s

/-- The draws of coin source 2: the strand's seed, the cluster and its counter (R187). -/
def State.sumDraw (s : State) (t : Nat) (o : SumOp) : Option (Word × Nat × Nat) :=
  let c := s.ctxAt t o.iss.ctx
  some (c.readCsr 0x0D, o.cl, c.readDraw o.cl)

/-- The counter after an operation's draws. -/
def State.sumDrawn (s : State) (t : Nat) (o : SumOp) (d : Option (Word × Nat × Nat)) : State :=
  match d with
  | some (_, _, n) => s.setCtxAt t o.iss.ctx ((s.ctxAt t o.iss.ctx).writeDraw o.cl n)
  | none => s

/-- The header that SKCLR writes, with what it clears behind it (R185, R191, R195). -/
def State.sumClear (s : State) (t : Nat) (o : SumOp) : State :=
  let l0 := o.elems.getD 0 0
  let km := bits (o.elems.getD 1 0) 15 0
  let size := bits l0 15 8
  let z := fun (n : Nat) => List.replicate n (0 : Byte)
  let put := fun (s : State) (off : Nat) (bs : List Byte) => s.writePlace t (o.place.add off) bs
  if bits l0 7 0 = tSketch then
    let h := natBytes 4 (tSketch + 2 ^ 8 * o.coin + 2 ^ 16 + 2 ^ 24 * size) ++ natBytes 4 km ++ z 8 ++
      natBytes 4 0x7F800000 ++ natBytes 4 0xFF800000 ++ z 8 ++ natBytes 4 (o.elems.getD 2 0) ++
      natBytes 4 (o.elems.getD 3 0) ++ z 24
    (List.range size).foldl (fun s l => put s (64 + l * (64 + 4 * km)) (z 64)) (put s 0 h)
  else if bits l0 7 0 = tHitter then put s 0 (natBytes 4 (tHitter + 2 ^ 16 * km) ++ z 28)
  else put s 0 (natBytes 2 (tDistinct + 2 ^ 8 * size) ++ z 30 ++ z (2 ^ size))

/-- FP32 values of the elements of an SKQ. -/
def sumValues (o : SumOp) : List Nat := if o.bf then o.elems.map (fun x => x * 2 ^ 16) else o.elems

/-- An insertion into an image. -/
def sumInsert (o : SumOp) (img : List Byte) (d : Option (Word × Nat × Nat)) : List Byte × Option (Word × Nat × Nat) :=
  if o.op = 0x86 then
    let q := (sumValues o).foldl Sketch.insert (readSketch img d)
    (writeSketch img q, q.draw)
  else if o.op = 0x82 then (writeHitters img (o.elems.foldl Hitters.insert (readHitters img)), d)
  else (o.elems.foldl distinctInsert img, d)

/-- Two ranges overlap without being equal. -/
def partOverlap (a b n m : Nat) : Bool := decide (a < b + m) && decide (b < a + n) && !(a == b && n == m)

/-- The lanes of a query's answer (R189, R190, R194, R198). -/
def sumAnswer (op q : Nat) (img : List Byte) : List Nat :=
  let ty := imgNat img 0 1
  let known := ty = tSketch ∨ ty = tHitter ∨ ty = tDistinct
  let x := fdecode fp32 q
  if imageBad img ∨ (¬known ∧ op = 0x89) then [0, 0, 2]
  else if op = 0x89 then
    if ty = tSketch then [0, 0, 3]
    else if ty = tHitter then
      let h := readHitters img
      let r := h.about q
      [r.1, r.2, 0, (h.es.any (fun e => e.key == q)).toNat]
    else [distinctEstimate img, 0, 0]
  else if ty ≠ tSketch then [0, 0, 3]
  else
    let k := readSketch img none
    let one : FVal := .fin false 1 0
    if op = 0x87 then
      if x.isNan ∨ FVal.compare x (.fin false 0 0) < 0 ∨ 0 < FVal.compare x one then [0, 0, 4]
      else if k.n = 0 then [0x7FC00000, 0, 1] else [k.quantile q, 0, 0]
    else if x.isNan then [0, 0, 4]
    else if k.n = 0 then [0, 0, 1] else [k.rank q % 2 ^ 32, k.rank q / 2 ^ 32 % 2 ^ 32, 0]

/-- A query's answer reaches its vb4 entry, in the lanes that its predicate names. -/
def State.sumReply (s : State) (o : SumOp) (ls : List Nat) : State :=
  let v := vecOf 32 (ls ++ List.replicate (16 - ls.length) 0)
  s.onStrand o.iss (fun c => c.setPort (16 + o.cl) ((c.port (16 + o.cl)).map (fun e =>
    if e.cmd == some o.id then
      { e with cmd := none, value := v &&& laneMask o.act, writes := e.writes.map (fun w => match w with
          | .vreg c r m _ => .vreg c r m v
          | w => w) }
    else e)))

/-- What the operation does to its structure. A trap is the cause that its strand takes; a block, a wait for a page. -/
def State.sumApply (s : State) (t : Nat) (o : SumOp) : Res State :=
  let bad := fun (r : Nat) => (.trap .baddesc (BitVec.ofNat 64 (r + 256 * o.off)) : Res State)
  if o.op = 0x80 then (s.sumSpot t o o.off o.size (rR + rW) true).bind fun _ => .ok (s.sumClear t o)
  else if 0x87 ≤ o.op then
    (s.sumImage t o o.off rR false).bind fun r => .ok (r.2.sumReply o (sumAnswer o.op (o.elems.getD 0 0) r.1))
  else
    (s.sumImage t o o.off (rR + rW) true).bind fun r =>
    if isMerge o.op then
      (r.2.sumImage t o o.source rR false).bind fun q =>
      let shared := partOverlap o.off o.source r.1.length q.1.length
      match mergeBad (sumType o.op) r.1 q.1, shared with
      | some x, _ => bad x
      | none, true => bad 3
      | none, false =>
        let m := mergeImages r.1 q.1 (q.2.sumDraw t o)
        .ok ((q.2.sumStore t o r.1 m.1).sumDrawn t o m.2)
    else if imgNat r.1 0 1 ≠ sumType o.op then bad 1
    else if imageBad r.1 then bad 2
    else
      let m := sumInsert o r.1 (r.2.sumDraw t o)
      .ok ((r.2.sumStore t o r.1 m.1).sumDrawn t o m.2)

/-- What must come first: the strand's earlier fences, reads, and stores to the structure. -/
def State.sumReady (s : State) (t : Nat) (o : SumOp) : Bool :=
  let c := s.ctxAt t o.iss.ctx
  !c.fences.any (fun f => decide (f.num < o.num)) && !c.owesBefore o.num &&
    !(s.tile t).owesAcquire o.iss.ctx o.num (s.tile t).logSeq && !(s.sumAreas t o).any (fun a => c.storesTo o.num a.1 a.2 || match a.1 with
      | .spad _ => false
      | .virt pasid va _ => (s.tile t).logCovers o.iss.ctx (s.tile t).logSeq pasid va a.2)

/-- The ranges whose pages an operation waits for: its header where that cannot be read yet, else its areas. -/
def State.sumWaits (s : State) (t : Nat) (o : SumOp) : List (Place × Nat) :=
  if o.op != 0x80 && (s.readPlace t o.iss.ctx o.place 32 .plain false).isNone then [(o.place, 32)]
  else (s.sumAreas t o).map (fun a =>
    if (s.readPlace t o.iss.ctx a.1 32 .plain false).isNone then (a.1, 32) else a)

/-- The first operation leaves the queue. -/
def State.sumPop (s : State) (t : Nat) : State := s.setTile t { s.tile t with sumq := (s.tile t).sumq.drop 1 }

/-- SUMMARY_UNIT_OPERATION: the oldest operation of a tile. -/
def State.summaryUnit (s : State) (t : Nat) : State :=
  match (s.tile t).sumq with
  | [] => s
  | o :: _ =>
    if !s.sumReady t o then s
    else match s.sumApply t o with
      | .ok s' => (s'.sumPop t).retryReads
      | .trap c i =>
        if 0x87 ≤ o.op ∧ c ≠ .perm then ((s.sumReply o [0, 0, 2]).sumPop t).retryReads
        else
          let s := if 0x87 ≤ o.op then s.sumReply o [0, 0, 2] else s
          (((s.sumPop t).raise o.iss c i).retryReads)
      | .block _ => (s.sumWaits t o).foldl (fun s a => match a.1 with
          | .spad _ => s
          | .virt pasid va _ => s.touchRange pasid va a.2) s

def execSummaryUnitOperation (tile : Nat) (s : State) : Host.Outcome State Fault Refusal := .next (s.summaryUnit tile)

/-- A page request has failed: the operation that waits for the page ends, and its strand takes PAGE (10 R211).
(log 50: DEDUCED) -/
def State.failSummary (s : State) (t pasid vpage : Nat) : State :=
  match (s.tile t).sumq with
  | [] => s
  | o :: _ =>
    match (s.sumWaits t o).find? (fun a => match a.1 with
        | .virt p va _ => p == pasid && (pagesOf va a.2).contains vpage
        | .spad _ => false) with
    | some (.virt _ va _, _) =>
      let s := if 0x87 ≤ o.op then s.sumReply o [0, 0, 2] else s
      ((s.sumPop t).raise o.iss .page (BitVec.ofNat 64 (max va (4096 * vpage)))).retryReads
    | _ => s

end Sys2Proof.Machine
end

