-- ==== Sys2Proof/Machine/Matrix.lean ====
section
/-! DEFINITION. The matrix engine: the checks and the queue of the M slot, the array step, and the Trowel's choice of what
runs (07 R143 to R163, 18 R402). -/
namespace Sys2Proof.Machine

/-! ### Fields of the shape registers (R147 to R150, R153, R155) -/

def mhBits (mh : List Word) (i hi lo : Nat) : Nat := bits (mh.getD i 0).toNat hi lo
/-- Trip count, L, valid elements, columns and rows, stage window. -/
def mKt (mh : List Word) : Nat := mhBits mh 0 23 0
def mL (mh : List Word) : Nat := mhBits mh 0 26 24 + 1
def mVk (mh : List Word) : Nat := mhBits mh 1 23 16
def mCols (mh : List Word) : Nat := mhBits mh 1 15 8
def mRows (mh : List Word) : Nat := mhBits mh 1 7 0
/-- nT, mT, SCOFF, ACCOFF, CT, CTEN. -/
def mNt (mh : List Word) : Nat := mhBits mh 3 3 3 + 1
def mMt (mh : List Word) : Nat := mhBits mh 3 2 2 + 1
def mScoff (mh : List Word) : Nat := mhBits mh 3 7 4
def mAccoff (mh : List Word) : Nat := mhBits mh 3 1 0
def mCt (mh : List Word) : Nat := mhBits mh 3 23 16
def mCten (mh : List Word) : Bool := mhBits mh 3 24 24 == 1
/-- OFMT and DST of a drain. -/
def mOfmt (mh : List Word) : Bool := mhBits mh 0 24 24 == 1
def mDst (mh : List Word) : Nat := mhBits mh 0 23 0

/-- The opcodes. -/
def isStep (op : Nat) : Bool := op == 0xD3 || op == 0xD4
def isDrain (op : Nat) : Bool := op == 0xD0 || op == 0xD1

/-- Ks and the bytes of a vector by format (R143, R117). -/
def mKs (fmt : Nat) : Nat := if fmt = 0 then 32 else if fmt < 5 then 64 else 128
def mVec (fmt : Nat) : Nat := if fmt < 6 then 64 else 128
/-- Scale registers of a k index. -/
def mScales (fmt : Nat) : Nat := if fmt = 5 then 2 else if fmt < 5 then 0 else 1

/-! ### Checks (R152) -/

/-- The first shape register of which a field that the instruction reads is refused. (log 54: DEDUCED) -/
def shapeFault (op fmt : Nat) (mh : List Word) : Option Nat :=
  let w := fun (i : Nat) => (mh.getD i 0).toNat
  let m3 := decide (2 ^ 25 ≤ w 3) || bits (w 3) 15 8 != 0
  if isStep op then
    if 2 ^ 27 ≤ w 0 ∨ mKt mh = 0 then some 0
    else if 2 ^ 24 ≤ w 1 ∨ mKs fmt < mVk mh ∨ 128 < mCols mh ∨ 128 < mRows mh then some 1
    else if 2 ^ mL mh ≤ w 2 then some 2
    else if m3 then some 3 else none
  else if isDrain op then
    if 2 ^ 25 ≤ w 0 ∨ mDst mh % 256 ≠ 0 then some 0 else if m3 then some 3 else none
  else if op = 0xD5 then if m3 then some 3 else none
  else if 2 ^ 38 ≤ w 0 ∨ bits (w 0) 7 0 ≠ 0 then some 0 else none

/-- The accumulators that an operation uses: EA + i·nT + j. -/
def usedAccs (op acc : Nat) (mh : List Word) : List Nat :=
  let ea := acc + mAccoff mh
  if isStep op then (List.range (mMt mh * mNt mh)).map (fun x => ea + x) else [ea]

/-- A ring of the tile. -/
def Tile.ring (t : Tile) (n : Nat) : Ring := Sparse.get {} t.rings n

/-- A ring is in RINGS of the crew. -/
def Tile.ringAllowed (t : Tile) (n : Nat) : Bool :=
  match t.crew with
  | some w => w.rings / 2 ^ n % 2 == 1
  | none => false

/-- A ring that a step cannot use: unconfigured, both operands, or slots below the tile that its data forms; where the two
rings fail, the first in that order of conditions, and A before B within one. (log 121: DESIGN CHOICE) -/
def Tile.ringFault (t : Tile) (f : MFields) : Option Nat :=
  let a := f.ringA.toNat
  let b := f.ringB.toNat
  let need := 128 * mVec f.fmt.toNat
  if (t.ring a).slots = 0 then some a
  else if (t.ring b).slots = 0 then some b
  else if a = b then some a
  else if (t.ring a).slotsz < need then some a
  else if (t.ring b).slotsz < need then some b else none

/-- The checks of an operation that enters the queue, and its entry with everything that it latches. -/
def State.mLatch (s : State) (op : Nat) (f : MFields) : Res MqEntry :=
  let c := s.ctx
  let t := s.tile s.cur
  let mh := (List.range 4).map c.readShape
  let fmt := f.fmt.toNat
  let esb := f.scb.toNat + mScoff mh
  let n := mScales fmt * mKt mh
  let accs := match t.crew with | some w => w.acc | none => 0
  match shapeFault op fmt mh with
  | some i => .trap .shape (BitVec.ofNat 64 i)
  | none =>
    match (usedAccs op f.acc.toNat mh).find? (fun a => decide (3 < a) || decide (accs ≤ a)) with
    | some a => .trap .shape (BitVec.ofNat 64 (0x103 + a * 2 ^ 12))
    | none =>
      if isStep op ∧ 5 ≤ fmt ∧ (mMt mh ≠ 1 ∨ mNt mh ≠ 1 ∨ 16 < esb + n) then .trap .shape 3
      else
        let e : MqEntry := {
          id := t.mqSeq, iss := s.issuer s.cur s.curCtx, op, word := packM op f, mh
          scales := if isStep op then (List.range n).map (fun i => c.readSc (esb + i)) else []
          prio := bits (c.readCsr 0x1B).toNat 2 0, entered := s.clk }
        if isStep op then
          match t.ringFault f with
          | some r => .trap .ringerr (BitVec.ofNat 64 r)
          | none => .ok e
        else if isDrain op ∧ t.crewSpad < mDst mh + 16384 * (if mOfmt mh then 2 else 4) then
          .trap .kbound (BitVec.ofNat 64 (mDst mh))
        else .ok e

/-- An entry joins the matrix queue; its waiting time starts (R158). -/
def State.mEnter (s : State) (t : Nat) (e : MqEntry) : State :=
  let x := s.tile t
  s.setTile t { x with mq := x.mq ++ [{ e with id := x.mqSeq, entered := s.clk }], mqSeq := x.mqSeq + 1 }

/-- The M slot: it blocks while the queue is full, and the checks are made when it issues (18 R402). -/
def State.mIssue (s : State) (op : Nat) (f : MFields) : Res State :=
  if 8 ≤ (s.tile s.cur).mq.length then .block .matrixQueue
  else (s.mLatch op f).bind fun e => .ok (s.mEnter s.cur e)

def execMstep (f : MFields) (s : State) : Host.Outcome State Fault Refusal := settle s (s.mIssue 0xD3 f)
def execMstepx (f : MFields) (s : State) : Host.Outcome State Fault Refusal := settle s (s.mIssue 0xD4 f)
def execMzero (f : MFields) (s : State) : Host.Outcome State Fault Refusal := settle s (s.mIssue 0xD5 f)
def execMdrain (f : MFields) (s : State) : Host.Outcome State Fault Refusal := settle s (s.mIssue 0xD0 f)
def execMdrainCt (f : MFields) (s : State) : Host.Outcome State Fault Refusal := settle s (s.mIssue 0xD1 f)

/-- Rings that an entry reads. -/
def MqEntry.fields (e : MqEntry) : MFields := unpackM e.word
def MqEntry.reads (e : MqEntry) (r : Nat) : Bool :=
  isStep e.op && (e.fields.ringA.toNat == r || e.fields.ringB.toNat == r)

/-- The ring to which a copy descriptor pushes: kind 3 destination (17 R371). -/
def descRing (d : List Byte) : Option Nat :=
  if bits (imgNat d 1 1) 3 2 = 3 then some (imgNat d 0x18 8 % 16) else none

/-- A copy in the queue pushes to a ring; a descriptor that has not been read counts as it stands. -/
def State.pushesTo (s : State) (t : Nat) (c : CopyCmd) (r : Nat) : Bool :=
  match c.desc, s.readPlace t c.iss.ctx c.place 64 .home false with
  | some d, _ => descRing d == some r
  | none, some x => descRing x.1 == some r
  | none, none => false

/-- MRING: the ring takes its configuration 1 clk after issue (R153). -/
def execMring (f : MFields) (s : State) : Host.Outcome State Fault Refusal :=
  settle s (
    let r := f.ringA.toNat
    let t := s.tile s.cur
    let mh := (List.range 4).map s.ctx.readShape
    let base := mhBits mh 0 23 0
    let slots := mhBits mh 0 31 24 + 1
    let size := 256 * (mhBits mh 0 37 32 + 1)
    match shapeFault 0xD2 0 mh with
    | some i => .trap .shape (BitVec.ofNat 64 i)
    | none =>
      if !t.ringAllowed r || decide (t.crewSpad < base + slots * size) || t.mq.any (fun e => e.reads r) ||
          t.follows.any (fun e => e.reads r) || t.cq.any (fun c => s.pushesTo s.cur c r || c.follow.any (fun e => e.reads r))
      then .trap .ringerr (BitVec.ofNat 64 r)
      else .ok (s.emit .none 0 0 1 [.ring r base slots size]))

/-! ### The array step (R143, R144, R156, R157) -/

/-- An operand element: its exact value, and whether it is a PP8 one. -/
structure Operand where
  val : FVal
  pp8 : Bool
  deriving DecidableEq, Repr

/-- Element κ of vector v of a tile that lies at `base` of the scratchpad; the first operand is ring A's data. -/
def Tile.operand (t : Tile) (fmt : Nat) (first : Bool) (base : Nat) (sc : Scales) (v κ : Nat) : Operand :=
  let at_ := base + v * mVec fmt
  let byte := fun (o : Nat) => (Sparse.get 0 t.spad (at_ + o)).toNat
  let scale := scaleVal (sc.toNat / 2 ^ (24 * (4 * v + κ / 32)))
  match fmt, first with
  | 0, _ => { val := fdecode bf16 (byte (2 * κ) + 256 * byte (2 * κ + 1)), pp8 := false }
  | 1, _ => { val := fdecode e4m3 (byte κ), pp8 := false }
  | 2, _ => { val := fdecode e5m2 (byte κ), pp8 := false }
  | 3, true => { val := fdecode e4m3 (byte κ), pp8 := false }
  | 3, false => { val := fdecode e5m2 (byte κ), pp8 := false }
  | 4, true => { val := fdecode e5m2 (byte κ), pp8 := false }
  | 4, false => { val := fdecode e4m3 (byte κ), pp8 := false }
  | 5, _ => { val := blockValue (fdecode e2m1 (byte (κ / 2) / 16 ^ (κ % 2) % 16)) scale, pp8 := false }
  | 6, false => { val := fdecode e4m3 (byte κ), pp8 := false }
  | 7, false => { val := fdecode e5m2 (byte κ), pp8 := false }
  | _, _ => { val := blockValue (pp8Dec (byte κ)) scale, pp8 := true }

/-- A product: with a PP8 zero it is +0, or NaN against an infinity (R157). -/
def operandMul (x y : Operand) : FVal :=
  if (x.pp8 && x.val.isZero) || (y.pp8 && y.val.isZero) then
    match x.val, y.val with
    | .fin _ _ _, .fin _ _ _ => .fin false 0 0
    | _, _ => .nan
  else (FVal.mul x.val y.val).1

/-- exact_step: the sum of the accumulator and nk products, rounded once (R157). -/
def exactStep (acc : Word32) (x y : Nat → Operand) (nk : Nat) : Word32 :=
  BitVec.ofNat 32 (fround fp32 .rne (exactSum (fdecode fp32 acc.toNat ::
    (List.range nk).map (fun κ => operandMul (x κ) (y κ))))).code

/-- Key of an accumulator's element. -/
def accKey (a r c : Nat) : Nat := 16384 * a + 128 * r + c

/-- Slot HEAD + i of a ring: its offset. -/
def Ring.slotAt (r : Ring) (i : Nat) : Nat := r.base + (r.head + i) % r.slots * r.slotsz

/-- The rings that feed ports A and B (R156). -/
def MqEntry.portA (e : MqEntry) : Nat := if e.op = 0xD3 then e.fields.ringA.toNat else e.fields.ringB.toNat
def MqEntry.portB (e : MqEntry) : Nat := if e.op = 0xD3 then e.fields.ringB.toNat else e.fields.ringA.toNat

/-- Zero stands for the full extent. -/
def orFull (x full : Nat) : Nat := if x = 0 then full else x

/-- The rows and columns that an array step updates (R156). -/
def MqEntry.extent (e : MqEntry) (step : Nat) : Nat × Nat :=
  let nT := mNt e.mh
  (if step / nT + 1 = mMt e.mh then orFull (mRows e.mh) 128 else 128, if step % nT + 1 = nT then orFull (mCols e.mh) 128 else 128)

/-- The accumulator of an array step: row tile i, column tile j (R156). -/
def MqEntry.accOf (e : MqEntry) (step : Nat) : Nat := e.fields.acc.toNat + mAccoff e.mh + step

/-- What an array step of an entry's k index gives to element (r, c) of its accumulator (R156, R157). -/
def Tile.stepValue (t : Tile) (e : MqEntry) (step r c : Nat) : Word32 :=
  let fmt := e.fields.fmt.toNat
  let u := mScales fmt
  let sA := e.scales.getD (u * e.k) 0
  let sB := if fmt = 5 then e.scales.getD (u * e.k + 1) 0 else 0
  let straight := e.op == 0xD3
  let x := t.operand fmt straight ((t.ring e.portA).slotAt (step / mNt e.mh)) (if straight then sA else sB)
  let y := t.operand fmt (!straight) ((t.ring e.portB).slotAt (step % mNt e.mh)) (if straight then sB else sA)
  let nk := if e.k + 1 = mKt e.mh then orFull (mVk e.mh) (mKs fmt) else mKs fmt
  exactStep (Sparse.get 0 t.acc (accKey (e.accOf step) r c)) (x r) (y c) nk

/-- One array step of an entry's k index (R156). -/
def Tile.arrayStep (t : Tile) (e : MqEntry) (step : Nat) : Tile :=
  let (rows, cols) := e.extent step
  { t with acc := (List.range (rows * cols)).foldl (fun m n =>
      Sparse.set 0 m (accKey (e.accOf step) (n / cols) (n % cols)) (t.stepValue e step (n / cols) (n % cols))) t.acc }

/-- An element of an array step takes part in its check: one whose result is finite (R162). -/
def Tile.stepChecked (t : Tile) (e : MqEntry) (step : Nat) : Bool :=
  let (rows, cols) := e.extent step
  (List.range (rows * cols)).any (fun n => match fdecode fp32 (t.stepValue e step (n / cols) (n % cols)).toNat with
    | .fin _ _ _ => true
    | _ => false)

/-- n slots leave a ring (R145). -/
def Tile.popRing (t : Tile) (r n : Nat) : Tile :=
  let x := t.ring r
  t.setRing r { x with head := (x.head + n) % x.slots, count := x.count - n }

/-- The pops at the end of a k index (R156). -/
def Tile.popRings (t : Tile) (e : MqEntry) : Tile :=
  let f := e.fields
  let na := if e.op = 0xD3 then mMt e.mh else mNt e.mh
  let nb := if e.op = 0xD3 then mNt e.mh else mMt e.mh
  let t := if f.pop.toNat = 0 ∨ f.pop.toNat = 1 then t.popRing f.ringA.toNat na else t
  if f.pop.toNat = 0 ∨ f.pop.toNat = 2 then t.popRing f.ringB.toNat nb else t

/-- Every element of an accumulator is +0 (R154). -/
def Tile.zeroAcc (t : Tile) (a : Nat) : Tile :=
  { t with acc := t.acc.filter (fun x => x.1 / 16384 != a), accPoison := t.accPoison.filter (fun x => x.1 / 1024 != a) }

/-- An element as a drain stores it (R155). -/
def drainBytes (short : Bool) (v : Word32) : List Byte :=
  if short then natBytes 2 (fround bf16 .rne (fdecode fp32 v.toNat)).code else natBytes 4 v.toNat

/-- One 16-row block of a drain (R155). -/
def State.drainBlock (s : State) (t : Nat) (e : MqEntry) : State :=
  let x := s.tile t
  let a := e.fields.acc.toNat + mAccoff e.mh
  let short := mOfmt e.mh
  let size := if short then 2 else 4
  let cells := (List.range 2048).flatMap (fun n =>
    let r := 16 * e.k + n / 128
    let c := n % 128
    let o := if e.op = 0xD0 then 128 * r + c else 128 * c + r
    cellsFrom (mDst e.mh + o * size) (drainBytes short (Sparse.get 0 x.acc (accKey a r c))))
  s.spadWrite t cells

/-! ### The Trowel (R158, R159) -/

/-- The effective priority of an entry that waits. -/
def MqEntry.effective (e : MqEntry) (clk : Nat) : Nat := min 7 (e.prio + (clk - e.entered) / 4096)

/-- The stage predicate of its next k index. -/
def MqEntry.stage (e : MqEntry) : Bool := (e.mh.getD 2 0).toNat / 2 ^ (e.k % mL e.mh) % 2 == 1

/-- The rings hold the slots that the next k index needs. -/
def Tile.ringsReady (t : Tile) (e : MqEntry) : Bool :=
  !isStep e.op || !e.stage ||
    (decide (mMt e.mh ≤ (t.ring e.portA).count) && decide (mNt e.mh ≤ (t.ring e.portB).count))

def MqEntry.accs (e : MqEntry) : List Nat := usedAccs e.op e.fields.acc.toNat e.mh

/-- The entry that holds the array. -/
def Tile.runEntry (t : Tile) : Option MqEntry :=
  match t.mrun with
  | some r => t.mq.find? (fun e => e.id == r.id)
  | none => none

/-- An entry other than the running one may start. -/
def State.mEligible (s : State) (t : Nat) (e : MqEntry) : Bool :=
  let x := s.tile t
  let other := match x.runEntry with
    | some r => r.id != e.id && !e.accs.any (fun a => r.accs.contains a)
    | none => true
  other && !x.mq.any (fun o => decide (o.id < e.id) && o.iss.ctx == e.iss.ctx) && x.ringsReady e && s.forkReady e.iss

/-- The entry that the array would take beside the running one. -/
def State.mBest (s : State) (t : Nat) : Option MqEntry :=
  (s.tile t).mq.foldl (fun (b : Option MqEntry) e =>
    if !s.mEligible t e then b
    else match b with
      | some x => if x.effective s.clk < e.effective s.clk then some e else b
      | none => some e) none

/-- clk of the piece that an entry starts. -/
def pieceClk (e : MqEntry) : Nat :=
  if e.op = 0xD5 then 8
  else if e.op = 0xD0 then 8
  else if e.op = 0xD1 then 10
  else if e.stage then 32 else 1

/-- An entry's next piece of work starts. -/
def State.mStart (s : State) (t : Nat) (e : MqEntry) (prio : Nat) : State :=
  s.setTile t { s.tile t with mrun := some { id := e.id, prio, busy := true, step := 0, due := s.clk + pieceClk e } }

/-- The crew's engines have been told to stop (03 R61). -/
def Tile.held (t : Tile) : Bool :=
  match t.crew with
  | some w => w.frozen
  | none => true

/-- The Trowel of a crew that has resumed waits for its first strand to issue, while one can (03 R70). -/
def Tile.trowelWaits (t : Tile) : Bool :=
  match t.crew with
  | some w => w.waits && (List.range 4).any (fun c => (t.ctx c).run == .ready || (t.ctx c).run == .running)
  | none => false

/-- The choice when the array is idle, or at a k-index boundary of the running operation. (log 55: DEDUCED) -/
def State.mChoose (s : State) (t : Nat) : State :=
  let x := s.tile t
  if x.held || x.trowelWaits then s
  else match x.mrun, x.runEntry with
  | some r, some e =>
    -- a drain goes on from its block: that is no k-index boundary (R70)
    if isDrain e.op then s.mStart t e r.prio
    else
    let can := x.ringsReady e
    match s.mBest t with
    | some b =>
      if !can || decide (r.prio < b.effective s.clk) then (s.mStart t b (b.effective s.clk)).count t b.iss.ctx 29 1
      else s.mStart t e r.prio
    | none => if can then s.mStart t e r.prio else s.setTile t { x with mrun := some { r with busy := false } }
  | _, _ =>
    match s.mBest t with
    | some b => s.mStart t b (b.effective s.clk)
    | none => s

/-- A change of one entry of the queue. -/
def Tile.mUpdate (t : Tile) (e : MqEntry) : Tile := { t with mq := t.mq.map (fun x => if x.id = e.id then e else x) }

/-- The pieces of an entry: k indices of a step loop, blocks of a drain, or one. -/
def MqEntry.pieces (e : MqEntry) : Nat := if isStep e.op then mKt e.mh else if isDrain e.op then 8 else 1

/-- Array steps of the present k index. -/
def MqEntry.steps (e : MqEntry) : Nat := if isStep e.op && e.stage then mMt e.mh * mNt e.mh else 1

/-- A poisoned sector of a range of the scratchpad. -/
def Tile.spadBad (t : Tile) (off n : Nat) : Bool :=
  t.spadPoison.any (fun x => x.2 && decide (64 * x.1 < off + n) && decide (off < 64 * x.1 + 64))

/-- The piece that ends reads poisoned data: accumulator elements, or vectors of its ring slots (10 R220, 15 R334). -/
def Tile.pieceBad (t : Tile) (e : MqEntry) (step : Nat) : Bool :=
  let f := e.fields
  let acc := fun (a : Nat) (p : Nat → Nat → Bool) => t.accPoison.any (fun x => x.2 && x.1 / 1024 == a && p (x.1 / 8 % 128) (x.1 % 8))
  if isStep e.op then
    if !e.stage then false
    else
      let (rows, cols) := e.extent step
      let v := mVec f.fmt.toNat
      acc (f.acc.toNat + mAccoff e.mh + step) (fun r c => decide (r < rows) && decide (16 * c < cols)) ||
        t.spadBad ((t.ring e.portA).slotAt (step / mNt e.mh)) (rows * v) || t.spadBad ((t.ring e.portB).slotAt (step % mNt e.mh)) (cols * v)
  else if isDrain e.op then acc (f.acc.toNat + mAccoff e.mh) (fun r _ => r / 16 == e.k)
  else false

/-- What the piece in progress does as it ends. -/
def State.mEffect (s : State) (t : Nat) (e : MqEntry) (step : Nat) : State :=
  -- a replay that passes (15 R337)
  let s := if 0 < e.fails then s.softError (t / 64) 10 else s
  if isStep e.op then
    if e.stage then
      let x := (s.tile t).arrayStep e step
      if step + 1 = e.steps then (s.setTile t (x.popRings e)).count t e.iss.ctx 13 1 else s.setTile t x
    else s
  else if isDrain e.op then s.drainBlock t e
  else s.setTile t ((s.tile t).zeroAcc (e.fields.acc.toNat + mAccoff e.mh))

/-- The array step or block in progress ends: its effect, and the next step of its k index where there is one. The
running entry's last piece is left to MATRIX_COMPLETE. -/
def State.mRetire (s : State) (t : Nat) : State :=
  let x := s.tile t
  match x.mrun, x.runEntry with
  | some r, some e =>
    if !r.busy || decide (s.clk < r.due) then s
    else if x.pieceBad e r.step then s.memue e.iss 2 0 0
    else if r.step + 1 < e.steps then
      let s := s.mEffect t e r.step
      s.setTile t (({ s.tile t with mrun := some { r with step := r.step + 1, due := r.due + 32 } }).mUpdate { e with fails := 0 })
    else if e.k + 1 < e.pieces then
      let s := s.mEffect t e r.step
      let s := s.setTile t (({ s.tile t with mrun := some { r with busy := false } }).mUpdate { e with k := e.k + 1, fails := 0 })
      -- a block boundary of a drain is no k-index boundary
      if isDrain e.op && !(s.tile t).held then s.mStart t { e with k := e.k + 1 } r.prio else s
    else s
  | _, _ => s

/-- MATRIX_K_STEP: what is in progress retires when its time is over, and the array takes up its next work. -/
def State.matrixStep (s : State) (t : Nat) : State :=
  let s := s.mRetire t
  match (s.tile t).mrun with
  | some r => if r.busy then s else s.mChoose t
  | none => s.mChoose t

def execMatrixKStep (tile : Nat) (s : State) : Host.Outcome State Fault Refusal := .next (s.matrixStep tile)

/-- The last piece of the running operation is over. -/
def State.mDone (s : State) (t : Nat) : Bool :=
  let x := s.tile t
  match x.mrun, x.runEntry with
  | some r, some e => r.busy && decide (r.due ≤ s.clk) && decide (e.steps ≤ r.step + 1) && decide (e.pieces ≤ e.k + 1)
  | _, _ => false

/-- MATRIX_COMPLETE: the last piece takes effect, the entry is freed and its counter rises (R156, R160). -/
def State.matrixComplete (s : State) (t : Nat) : State :=
  if !s.mDone t then s
  else match (s.tile t).mrun, (s.tile t).runEntry with
  | some r, some e =>
    if (s.tile t).pieceBad e r.step then s.memue e.iss 2 0 0
    else
    let s := s.mEffect t e r.step
    let x := s.tile t
    let x := { x with mq := x.mq.filter (fun y => y.id != e.id), mrun := none }
    s.setTile t (if mCten e.mh then x.bumpCt (mCt e.mh) 1 else x)
  | _, _ => s

def execMatrixComplete (tile : Nat) (s : State) : Host.Outcome State Fault Refusal := .next (s.matrixComplete tile)

/-- MATRIX_REPLAY: the step that has just been computed fails its residue check, which some element must take part in (R162). It
is computed again, and after the third failure the strand takes MATCHK (R163). (log 57: DEDUCED) -/
def State.matrixReplay (s : State) (t : Nat) : State :=
  let x := s.tile t
  match x.mrun, x.runEntry with
  | some r, some e =>
    if !r.busy || decide (s.clk < r.due) || !(isStep e.op && e.stage && x.stepChecked e r.step) then s
    else if e.fails < 2 then
      (s.setTile t (({ x with mrun := some { r with due := r.due + 32 } }).mUpdate { e with fails := e.fails + 1 })).count
        t e.iss.ctx 14 1
    else
      let gone := fun (y : MqEntry) => y.iss.ctx == e.iss.ctx && decide (e.id ≤ y.id)
      let s := s.setTile t { x with mq := x.mq.filter (fun y => !gone y), mrun := none, matchks := x.matchks ++ [s.clk] }
      (s.softError (t / 64) 11).raise e.iss .matchk (BitVec.ofNat 64 ((e.fields.acc.toNat + mAccoff e.mh + r.step) % 4 + 8 + 256 * e.k))
  | _, _ => s

def execMatrixReplay (tile : Nat) (s : State) : Host.Outcome State Fault Refusal := .next (s.matrixReplay tile)

/-- FOLLOW_ON_ENQUEUE: a follow-on word that waits enters the matrix queue when there is room (R161). (log 56: DEDUCED) -/
def State.followOn (s : State) (t : Nat) : State :=
  match (s.tile t).follows with
  | [] => s
  | e :: rest =>
    if 8 ≤ (s.tile t).mq.length then s else (s.setTile t { s.tile t with follows := rest }).mEnter t e

def execFollowOnEnqueue (tile : Nat) (s : State) : Host.Outcome State Fault Refusal := .next (s.followOn tile)

end Sys2Proof.Machine
end

