-- ==== Sys2Proof/Machine/Engine.lean ====
section
/-! DEFINITION. What the engines share: accesses at the point of coherence (12 R262), the issue of E slots, and
completion (04 R90, 02 R52, R53). -/
namespace Sys2Proof.Machine

/-! ### Accesses of an engine -/

/-- What the translations of a range say; scratchpad needs none. A range with a write that waits for the host is waited for as
one without a translation (16 R339). -/
def State.placeXlat (s : State) (p : Place) (n : Nat) (write : Bool) : Xlat :=
  match p with
  | .spad _ => .mapped 0
  | .virt pasid va _ => if s.rangePending pasid va n then .missing else s.rangeXlat pasid va n write

/-- The pages of a range are used, or asked for. -/
def State.placeTouch (s : State) (p : Place) (n : Nat) : State :=
  match p with
  | .spad _ => s
  | .virt pasid va _ => s.touchRange pasid va n

/-- Bytes of the scratchpad of a crew, wherever it is. -/
def State.crewBytes (s : State) (i : Issuer) (off n : Nat) : List Byte :=
  match s.crewState i.gang i.crew with
  | some t => (List.range n).map (fun k => Sparse.get 0 t.spad (off + k))
  | none => List.replicate n 0

/-- Bytes at a place at their point of coherence, for the crew of a strand; none where a page has no translation. -/
def State.engRead (s : State) (i : Issuer) (p : Place) (n : Nat) : Option (List Byte) :=
  match p with
  | .spad off => some (s.crewBytes i off n)
  | .virt pasid va _ => s.vaRead pasid va n

/-- A poisoned sector of a range: its physical and its virtual address. -/
def State.engPoison (s : State) (i : Issuer) (p : Place) (n : Nat) : Option (Nat × Nat) :=
  (sectorParts (match p with | .spad o => o | .virt _ va _ => va) n).findSome? (fun x => match p with
    | .spad o =>
      match s.crewState i.gang i.crew with
      | some t => if Sparse.get false t.spadPoison ((o + x.1) / 64) then some (0, 0) else none
      | none => none
    | .virt pasid va _ => match s.lookupVa pasid (va + x.1) false with
      | .mapped pa => if Sparse.get false s.poison (pa / 64) then some (pa, va + x.1) else none
      | _ => none)

/-- Bytes written at a place at their point of coherence; every page is mapped. -/
def State.engWrite (s : State) (i : Issuer) (p : Place) (bs : List Byte) : State :=
  match p with
  | .spad off => s.onCrew i.gang i.crew (fun t => t.spadCells (cellsFrom off bs))
  | .virt pasid va obj => (s.touchRange pasid va bs.length).vaPut i.vf pasid obj false (cellsFrom va bs)

/-- The capability is still current: its object entry has its generation (10 R209). -/
def State.capCurrent (s : State) (vf : Nat) (c : TCap) : Bool :=
  if capIsSpad c then capGen c == 0
  else match s.objEntry vf (capObj c) with
    | some e => e.valid && e.vf == vf && e.gen == capGen c
    | none => false

/-! ### Issue of E slots -/

/-- INC or the command's argument, and NR (05 R118). -/
def eNr (f : EFields) : Bool := bits f.arg.toNat 17 17 == 1
def eOff (s : State) (f : EFields) : Nat := offset48 (s.ctx.readS f.s.toNat)

/-- The next number of an operation. -/
def State.takeOp (s : State) : Nat × State := (s.nextOp, { s with nextOp := s.nextOp + 1 })

/-- The entry of an engine's return port that a command's status will fill (04 R90). -/
def State.statusEntry (s : State) (port id : Nat) (nr : Bool) : State :=
  if nr then s else s.setCtx (s.ctx.pushPort port { cmd := some id })

/-- The descriptor of a command: its capability and place (10 R206). -/
def State.descCheck (s : State) (f : EFields) (n align : Nat) : Res (TCap × Place) :=
  (readCapReg s.ctx f.k.toNat).bind fun cap =>
  (s.check cap (eOff s f) n (rR + rE) align .engine).bind fun p => .ok (cap, p)

/-- A Mortar, Crown or Brim command as its slot gives it. -/
def State.engCmd (s : State) (id op : Nat) (f : EFields) (place : Option Place) (cap : TCap) : EngCmd :=
  { id, op, tile := s.cur, iss := s.issuer s.cur s.curCtx, ct := f.ct.toNat, nr := eNr f, arg := f.arg.toNat
    hnd := f.hnd.toNat, sval := s.ctx.readS f.s.toNat, place, cap, caps := s.ctx.k, mask := s.ctx.readShape 8
    die := s.cur / 64 }

/-- A counter rises by k, and a status goes to its port, when an operation ends. -/
def State.finishOp (s : State) (i : Issuer) (ct k : Nat) (nr : Bool) (port id v : Nat) : State :=
  (s.bump i ct k).status i nr port id v

end Sys2Proof.Machine
end

