-- ==== Sys2Proof/Machine/Copy.lean ====
section
/-! DEFINITION. The copy engine: the descriptor and its checks, where each byte of the iteration order lies, the moves, the
choice of the command served, and completion (10 R209, R211, 11 R228 to R230, R240, R244, 17 R370 to R376). -/
namespace Sys2Proof.Machine

/-! ### The descriptor (R370) -/

/-- The fields of a descriptor. -/
structure CopyDesc where
  fmt : Nat
  sk  : Nat
  dk  : Nat
  halo : Bool
  knd : Nat
  sci : Nat
  dci : Nat
  n0 : Nat
  n1 : Nat
  n2 : Nat
  n3 : Nat
  res : Nat
  saddr : Nat
  daddr : Nat
  ss : List Nat
  ds : List Nat
  xw : Nat
  deriving DecidableEq, Repr

def copyDesc (b : List Byte) : CopyDesc :=
  let f := imgNat b
  let knd := f 1 1
  { fmt := f 0 1, sk := bits knd 1 0, dk := bits knd 3 2, halo := bits knd 4 4 == 1, knd, sci := f 2 1, dci := f 3 1
    n0 := f 4 4, n1 := f 8 2, n2 := f 10 2, n3 := f 12 2, res := f 14 2, saddr := f 0x10 8, daddr := f 0x18 8
    ss := [f 0x20 4, f 0x24 4, f 0x28 4], ds := [f 0x2C 4, f 0x30 4, f 0x34 4], xw := f 0x38 8 }

def CopyDesc.total (d : CopyDesc) : Nat := d.n0 * d.n1 * d.n2 * d.n3

def isCpyf (op : Nat) : Bool := op == 0xE5 || op == 0xE6
def isIndexed (op : Nat) : Bool := op == 0xE7 || op == 0xE8
def isCpyz (op : Nat) : Bool := op == 0xE9

/-- The kinds that a mnemonic allows (R372). -/
def srcKinds (op : Nat) : List Nat := if op = 0xE7 then [0, 2] else if op = 0xE9 then [0] else [0, 1, 2]
def dstKinds (op : Nat) : List Nat := if isCpyf op then [3] else if op = 0xE8 then [0, 2] else [0, 1, 2, 3]

/-- Offsets of the fields that are refused whatever the rest of the machine holds; a relation counts at its lowest
field (R371 to R374, 02 R38). (log 53: DESIGN CHOICE) -/
def descFaults (op : Nat) (d : CopyDesc) : List Nat :=
  let q := fun (b : Bool) (o : Nat) => if b then [o] else []
  let flat := d.n1 == 1 && d.n2 == 1 && d.n3 == 1
  let any := fun (l : List Nat) => l.any (fun x => x != 0)
  let one := d.sk == 1 || d.dk == 1
  q (d.fmt != 1) 0 ++
  q (bits d.knd 7 5 != 0 || !(srcKinds op).contains d.sk || !(dstKinds op).contains d.dk ||
    (d.sk == 2 && d.sci != 0) || ((d.dk == 2 || d.dk == 3) && d.dci != 0) || (d.sk == 1 && any d.ss) ||
    ((d.dk == 1 || d.dk == 3) && any d.ds) || (one && !flat)) 1 ++
  q (decide (31 < d.sci) || (isCpyz op && d.sci != 0)) 2 ++ q (decide (31 < d.dci)) 3 ++
  q (d.n0 == 0 || decide (2 ^ 24 < d.n0) || decide (2 ^ 40 < d.total)) 4 ++
  q (d.n1 == 0) 8 ++ q (d.n2 == 0 || (isIndexed op && d.n2 != 1)) 0x0A ++
  q (d.n3 == 0 || (isIndexed op && d.n3 != 1)) 0x0C ++ q (d.res != 0) 0x0E ++
  q (!isCpyz op && ((d.sk != 2 && bits d.saddr 63 48 != 0) ||
    (d.sk == 2 && (bits d.saddr 63 31 != 0 || bits d.saddr 23 22 != 0)))) 0x10 ++
  q ((decide (d.dk < 2) && bits d.daddr 63 48 != 0) || (d.dk == 2 && (bits d.daddr 63 31 != 0 || bits d.daddr 23 22 != 0)) ||
    (d.dk == 3 && bits d.daddr 63 4 != 0)) 0x18 ++
  q (isCpyz op && any d.ss) 0x20 ++
  q ((isIndexed op && (bits d.xw 63 53 != 0 || d.xw % 4 != 0)) || (!isIndexed op && !isCpyf op && d.xw != 0)) 0x38

/-! ### Where bytes lie (R371) -/

/-- Where a run of bytes lies: a place and whether reading it fills Mortar; staging by key; nowhere, reading zero and
discarding what is written; or given bytes. -/
inductive Loc where
  | at (p : Place) (fill : Bool)
  | stage (key : Nat)
  | nowhere
  | given (bs : List Byte)
  deriving DecidableEq, Repr

/-- The tensor that the object entry of a capability names, where the virtual function has registered it. -/
def State.tensorOf (s : State) (vf : Nat) (c : TCap) : Option (Nat × Tensor) :=
  if capIsSpad c then none
  else match s.objEntry vf (capObj c) with
    | some e => if e.tid = 0 then none else (Sparse.get none (s.vf vf).tensors e.tid).map (fun t => (e.tid, t))
    | none => none

/-- The four fields of a coordinate. -/
def coordOf (c : Nat) : List Nat := (List.range 4).map (fun d => bits c (12 * d + 11) (12 * d))

/-- Tiles of a tensor in each dimension. -/
def tensorGrid (t : Tensor) : List Nat := (List.range 4).map (fun d => (nth t.dim d + nth t.tile d - 1) / nth t.tile d)
def inGrid (t : Tensor) (c : List Nat) : Bool := (List.range 4).all (fun d => decide (nth c d < nth (tensorGrid t) d))

/-- Extents of the image of a tile, or of its box with the halo (11 R228, 17 R371). -/
def imageDims (t : Tensor) (box : Bool) : List Nat :=
  (List.range 4).map (fun d => nth t.tile d + (if box then 2 * nth t.halo d else 0))
def imageBytes (t : Tensor) (box : Bool) : Nat := (imageDims t box).foldl (· * ·) 1 * tensorBits t.fmt / 8

/-- The element at a byte of an image, as signed coordinates (R371). -/
def imageElem (t : Tensor) (coord : List Nat) (box : Bool) (i : Nat) : List Int :=
  let ds := imageDims t box
  let l := 8 * i / tensorBits t.fmt
  let b := [l % nth ds 0, l / nth ds 0 % nth ds 1, l / (nth ds 0 * nth ds 1) % nth ds 2, l / (nth ds 0 * nth ds 1 * nth ds 2)]
  (List.range 4).map (fun d => ((nth coord d * nth t.tile d + nth b d : Nat) : Int) - (if box then (nth t.halo d : Int) else 0))

/-- Byte offset of the element within the object; none for a missing position (11 R229, R230). -/
def elemOffset (t : Tensor) (e : List Int) : Option Nat :=
  if (List.range 4).all (fun d => decide (0 ≤ e.getD d 0) && decide (e.getD d 0 < nth t.dim d)) then
    let n := fun d => (e.getD d 0).toNat
    some (t.off + n 3 * nth t.stride 2 + n 2 * nth t.stride 1 + n 1 * nth t.stride 0 + n 0 * tensorBits t.fmt / 8)
  else none

/-- The linear offset of position p of the iteration order; rows of an indexed side are replaced by `row`. -/
def linearOff (d : CopyDesc) (addr : Nat) (st : List Nat) (row : Option Nat) (p : Nat) : Nat :=
  let r := p / d.n0
  addr + (row.getD (r % d.n1)) * nth st 0 + r / d.n1 % d.n2 * nth st 1 + r / (d.n1 * d.n2) * nth st 2 + p % d.n0

/-- Key of a staging byte (11 R244). -/
def stageKey (slice off : Nat) : Nat := 2 ^ 22 * slice + off

/-- Where position p of a side lies, and how many bytes from there lie together within one sector. -/
def locate (x : Tile) (d : CopyDesc) (side : Side) (row : Option Nat) (p : Nat) : Loc × Nat :=
  match side with
  | .linear _ z a st =>
    let q := z.add (linearOff d a st row p)
    (.at q true, match q with | .spad o => 64 - o % 64 | .virt _ va _ => 64 - va % 64)
  | .tile _ t c box =>
    let e := imageElem t c box p
    let n := 64 - p % 64
    let own := (List.range 4).all (fun d => decide ((nth c d * nth t.tile d : Nat) ≤ e.getD d 0) &&
      decide (e.getD d 0 < (nth c d + 1) * nth t.tile d))
    match elemOffset t e with
    | some o => (.at (.virt t.pasid (t.vabase + o + p % Nat.max 1 (tensorBits t.fmt / 8)) (some t.obj)) (own || t.haloOn), n)
    | none => (.nowhere, n)
  | .staging sl o st =>
    let q := linearOff d o st row p
    (.stage (stageKey sl q), 64 - q % 64)
  | .ring n =>
    let r := x.ring n
    (.at (.spad (r.base + r.tail * r.slotsz + p % r.slotsz)) false, 64 - p % 64)
  | .pattern y => (.given ((List.range 64).map (fun j => BitVec.ofNat 8 (y / 2 ^ (8 * ((p % d.n0 + j) % 8))))), 64)

/-! ### The checks (R373) -/

/-- A failure of the checks: ST, INFO, and TRAPA where it is a trap. -/
abbrev CopyFail := Nat × Nat × Word

def badField (o : Nat) : CopyFail := (0x12, o, BitVec.ofNat 64 o)

/-- A linear side: the bounds of every byte, for the rows that it addresses. -/
def State.linearSide (s : State) (vf spad : Nat) (d : CopyDesc) (cap : TCap) (addr : Nat) (st : List Nat) (need : Nat)
    (u : Use) (rows : Option (List Nat)) : Except CopyFail Side :=
  let per := d.n0 + (d.n2 - 1) * nth st 1 + (d.n3 - 1) * nth st 2
  let spans := match rows with
    | none => [(addr, per + (d.n1 - 1) * nth st 0)]
    | some rs => rs.map (fun r => (addr + r * nth st 0, d.n0))
  let zero : Place := if capIsSpad cap then .spad 0
    else match s.objEntry vf (capObj cap) with
      | some e => .virt e.pasid e.vabase (some (capObj cap))
      | none => .spad 0
  let spans := if spans.isEmpty then [(capLow cap, 0)] else spans
  match spans.findSome? (fun x => match s.capCheck vf spad cap x.1 x.2 need 1 u with
      | .trap c i => some (causeCode c, i)
      | _ => none) with
  | some c => .error (c.1, 0, c.2)
  | none => .ok (.linear cap zero addr st)

/-- The positions of an image, by sector. -/
def imageSectors (t : Tensor) (box : Bool) : List Nat := (List.range (imageBytes t box / 64)).map (fun k => 64 * k)

/-- Fields that a tensor side refuses, once its capability may be used: its object has no registered TID, a coordinate outside
the grid, N0 other than the bytes of the image (R371, R373). -/
def State.tileFields (s : State) (vf spad : Nat) (d : CopyDesc) (cap : TCap) (addr need : Nat) (u : Use) (box : Bool) (field : Nat) :
    List Nat :=
  match s.capCheck vf spad cap (capLow cap) 0 need 1 u, s.tensorOf vf cap with
  | .trap _ _, _ => []
  | _, none => [field]
  | _, some (_, t) => (if inGrid t (coordOf addr) then [] else [field]) ++ (if d.n0 = imageBytes t box then [] else [1])

/-- A tensor side. (log 52: DEDUCED) -/
def State.tileSide (s : State) (vf spad : Nat) (d : CopyDesc) (cap : TCap) (addr : Nat) (need : Nat) (u : Use)
    (box : Bool) (field : Nat) : Except CopyFail Side :=
  match s.capCheck vf spad cap (capLow cap) 0 need 1 u with
  | .trap c i => .error (causeCode c, 0, i)
  | _ =>
    match s.tensorOf vf cap with
    | none => .error (badField field)
    | some (_, t) =>
      let c := coordOf addr
      if !inGrid t c then .error (badField field)
      else if d.n0 ≠ imageBytes t box then .error (badField 1)
      else match (imageSectors t box).findSome? (fun p => match elemOffset t (imageElem t c box p) with
          | some o => match s.capCheck vf spad cap o 64 need 1 u with
            | .trap c i => some (causeCode c, i)
            | _ => none
          | none => none) with
        | some k => .error (k.1, 0, k.2)
        | none => .ok (.tile cap t c box)

/-- A staging side: every byte lies in a window of the virtual function. -/
def State.stagingSide (s : State) (vf : Nat) (d : CopyDesc) (addr : Nat) (st : List Nat) (rows : Option (List Nat)) :
    Except CopyFail Side :=
  let slice := bits addr 30 24
  let off := bits addr 21 0
  let per := d.n0 + (d.n2 - 1) * nth st 1 + (d.n3 - 1) * nth st 2
  let spans := match rows with
    | none => [(off, per + (d.n1 - 1) * nth st 0)]
    | some rs => rs.map (fun r => (off + r * nth st 0, d.n0))
  if spans.all (fun x => (s.vf vf).windows.any (fun w => w.1 == slice && decide (w.2.1 ≤ x.1) &&
      decide (x.1 + x.2 ≤ w.2.1 + w.2.2))) then .ok (.staging slice off st) else .error (0x03, 0, BitVec.ofNat 64 off)

/-- The rows that an index array addresses. -/
def liveRows (idx : List Nat) : List Nat := idx.filter (fun r => r != 0xFFFFFFFF)

/-- A ring that a destination names cannot take the command's slots. -/
def Tile.ringRefused (x : Tile) (d : CopyDesc) : Bool :=
  let r := x.ring d.daddr
  r.slots == 0 || !x.ringAllowed d.daddr || d.total % r.slotsz != 0

/-- The offsets of every field that is refused: BADDESC reports the lowest (R374, 02 R38). -/
def State.copyFields (s : State) (x : Tile) (c : CopyCmd) (d : CopyDesc) : List Nat :=
  let cap := fun (i : Nat) => Sparse.get {} c.caps i
  descFaults c.op d ++
    (if d.sk = 1 ∧ ¬ isCpyz c.op then s.tileFields c.iss.vf x.crewSpad d (cap d.sci) d.saddr (rR + rE) .load d.halo 0x10 else []) ++
    (if d.dk = 1 then s.tileFields c.iss.vf x.crewSpad d (cap d.dci) d.daddr (rW + rE) .engine false 0x18
     else if d.dk = 3 ∧ x.ringRefused d then [0x18] else [])

/-- Source and destination of a command whose fields are sound: the source's check, then the destination's. -/
def State.copySides (s : State) (x : Tile) (c : CopyCmd) (d : CopyDesc) : Except CopyFail (Side × Side) :=
  let vf := c.iss.vf
  let spad := x.crewSpad
  let capS := Sparse.get {} c.caps d.sci
  let capD := Sparse.get {} c.caps d.dci
  let rowsS := if c.op = 0xE7 then some (liveRows c.idx) else none
  let rowsD := if c.op = 0xE8 then some (liveRows c.idx) else none
  let src := if isCpyz c.op then .ok (.pattern d.saddr)
    else match d.sk with
      | 0 => s.linearSide vf spad d capS d.saddr d.ss (rR + rE) .load rowsS
      | 1 => s.tileSide vf spad d capS d.saddr (rR + rE) .load d.halo 0x10
      | _ => s.stagingSide vf d d.saddr d.ss rowsS
  let dst := match d.dk with
    | 0 => s.linearSide vf spad d capD d.daddr d.ds (rW + rE) .engine rowsD
    | 1 => s.tileSide vf spad d capD d.daddr (rW + rE) .engine false 0x18
    | 2 => s.stagingSide vf d d.daddr d.ds rowsD
    | _ =>
      if x.ringRefused d then .error (badField 0x18) else .ok (.ring d.daddr)
  match src, dst with
  | .error e, _ => .error e
  | _, .error e => .error e
  | .ok a, .ok b => .ok (a, b)

/-- The index array's place, or the failure of its capability (R372). -/
def State.indexPlace (s : State) (x : Tile) (c : CopyCmd) (d : CopyDesc) : Except CopyFail Place :=
  let cap := Sparse.get {} c.caps (bits d.xw 52 48)
  match s.capCheck c.iss.vf x.crewSpad cap (bits d.xw 47 0) (4 * d.n1) (rR + rE) 1 .load with
  | .ok p => .ok p
  | .trap k i => .error (causeCode k, 0, i)
  | .block _ => .error (badField 0x38)

/-- n numbers of 4 bytes. -/
def words4 : Nat → List Byte → List Nat
  | 0, _ => []
  | n + 1, bs => bytesNat (bs.take 4) :: words4 n (bs.drop 4)

/-! ### Moving (R374, R376) -/

/-- What one piece of work on a command comes to. -/
inductive Turn where
  /-- Bytes have moved, or a stage of its start has been passed. -/
  | moved (s : State) (c : CopyCmd)
  /-- It ends with a status. -/
  | ended (s : State) (st info : Nat)
  /-- It waits: for the pages listed, for room in its ring, for earlier accesses of its strand. -/
  | held (s : State) (pages : List (Nat × Nat))
  /-- Poison: the strand is FATAL and no status is delivered. -/
  | dead (s : State)
  deriving DecidableEq, Repr

/-- The capability of a side, for the check of its generation. -/
def Side.cap : Side → Option TCap
  | .linear c _ _ _ => some c
  | .tile c _ _ _ => some c
  | _ => none

/-- The page that a location lies in. -/
def Loc.page : Loc → Option Nat
  | .at (.virt _ va _) _ => some (va / 4096)
  | _ => none

/-- The generation of a side no longer matches at a boundary that the transfer crosses (10 R209). -/
def State.staleAt (s : State) (vf : Nat) (side : Side) (last now : Option Nat) : Bool :=
  match side.cap, now with
  | some c, some _ => last != now && !s.capCurrent vf c
  | _, _ => false

/-- Bytes at a location. -/
def State.locRead (s : State) (i : Issuer) (l : Loc) (n : Nat) : Option (List Byte) :=
  match l with
  | .at p _ => s.engRead i p n
  | .stage k => some ((List.range n).map (fun j => Sparse.get 0 s.staging (k + j)))
  | .nowhere => some (List.replicate n 0)
  | .given bs => some (bs.take n)

/-- Poison at a location: of memory, of the scratchpad or of staging (10 R220). -/
def State.locPoison (s : State) (i : Issuer) (l : Loc) (n : Nat) : Option (Nat × Nat) :=
  match l with
  | .at p _ => s.engPoison i p n
  | .stage k => if (List.range ((k % 64 + n + 63) / 64)).any (fun j => Sparse.get false s.stagingPoison (k / 64 + j)) then some (0, 0) else none
  | _ => none

/-- Reading fills Mortar with the sector (11 R240). -/
def State.locFill (s : State) (vf : Nat) (l : Loc) : State :=
  match l with
  | .at (.virt pasid va obj) true =>
    match s.lookupVa pasid va false with
    | .mapped pa => (s.touchPage pasid va).mortarTouch (pa / 64) (s.fileTag vf pasid va obj) false
    | _ => s
  | .at (.virt pasid va _) false => s.touchPage pasid va
  | _ => s

/-- Bytes written at a location. -/
def State.locWrite (s : State) (i : Issuer) (l : Loc) (bs : List Byte) : State :=
  match l with
  | .at p _ => s.engWrite i p bs
  | .stage k =>
    let s := bs.zipIdx.foldl (fun (s : State) x => { s with staging := Sparse.set 0 s.staging (k + x.2) x.1 }) s
    let hit := fun (u : Nat) => decide (k / 16 ≤ u) && decide (u ≤ (k + bs.length - 1) / 16)
    { s with
      stagingTags := s.stagingTags.filter (fun y => !hit y.1)
      -- a write of a whole sector clears its poison (10 R219)
      stagingPoison := if bs.length = 64 ∧ k % 64 = 0 then Sparse.set false s.stagingPoison (k / 64) false else s.stagingPoison }
  | _ => s

/-- The pages of a range, by PASID and number, as an engine waits for them. -/
def Place.pages (p : Place) (n : Nat) : List (Nat × Nat) :=
  match p with
  | .spad _ => []
  | .virt pasid va _ => (pagesOf va n).map (fun q => (pasid, q))

/-- A command waits for the pages of a location. -/
def State.waitLoc (s : State) (l : Loc) (n : Nat) : Turn :=
  match l with
  | .at p _ => .held (s.placeTouch p n) (p.pages n)
  | _ => .held s []

/-- A page of a location exists and forbids reading it (10 R211). -/
def State.locFault (s : State) (l : Loc) (n : Nat) : Bool :=
  match l with
  | .at p _ => s.placeFault p n
  | _ => false

/-- Another command has begun a slot of the ring and not completed it. -/
def Tile.ringTaken (x : Tile) (c : CopyCmd) (n : Nat) : Bool :=
  x.cq.any (fun o => o.id != c.id && match o.sides with
    | some (_, .ring r) => r == n && o.cursor % (x.ring n).slotsz != 0
    | _ => false)

/-- A command finds its ring without a slot for it (07 R145). -/
def Tile.ringFull (x : Tile) (c : CopyCmd) : Bool :=
  match c.sides with
  | some (_, .ring r) =>
    x.ringTaken c r || (c.cursor % (x.ring r).slotsz == 0 && (x.ring r).slots == (x.ring r).count)
  | _ => false

/-- The row index at the cursor of an indexed command: `some none` for a row that is skipped. -/
def CopyCmd.row (c : CopyCmd) (d : CopyDesc) : Option (Option Nat) :=
  if isIndexed c.op then
    let r := c.idx.getD (c.cursor / d.n0) 0xFFFFFFFF
    some (if r = 0xFFFFFFFF then none else some r)
  else none

/-- Where the destination starts in the scratchpad, from a location of its first bytes: for a ring, its first slot (R374). -/
def Tile.firstByte (x : Tile) (dst : Side) (l : Loc) : Option Nat :=
  match dst, l with
  | .ring n, _ => some ((x.ring n).base + (x.ring n).tail * (x.ring n).slotsz)
  | _, .at (.spad o) _ => some o
  | _, _ => none

/-- A row that is skipped counts as done; in a ring up to the end of the slot, which is pushed as it stands (R372). -/
def CopyCmd.skipRow (c : CopyCmd) (x : Tile) (d : CopyDesc) (dst : Side) : CopyCmd :=
  let n := d.n0 - c.cursor % d.n0
  { c with
    cursor := c.cursor + (match dst with | .ring r => Nat.min n ((x.ring r).slotsz - c.cursor % (x.ring r).slotsz) | _ => n)
    first := c.first <|> x.firstByte dst .nowhere }

/-- Bytes that move together: where from, where to, how many. -/
structure Piece where
  src : Loc
  dst : Loc
  n : Nat
  deriving DecidableEq, Repr

/-- The location n bytes on. -/
def Loc.add (l : Loc) (n : Nat) : Loc :=
  match l with
  | .at p fill => .at (p.add n) fill
  | .stage k => .stage (k + n)
  | l => l

/-- The side of a command that its index array moves takes the row of its cursor, the other none. -/
def CopyCmd.srcRow (c : CopyCmd) (d : CopyDesc) : Option Nat := if c.op = 0xE7 then (c.row d).getD none else none
def CopyCmd.dstRow (c : CopyCmd) (d : CopyDesc) : Option Nat := if c.op = 0xE8 then (c.row d).getD none else none

/-- The pieces from a cursor on that continue a destination at `want`, within the `room` that its sector leaves. -/
def CopyCmd.pieces (c : CopyCmd) (x : Tile) (d : CopyDesc) (src dst : Side) : Nat → Nat → Loc → List Piece
  | 0, _, _ => []
  | fuel + 1, room, want =>
    let a := locate x d src (c.srcRow d) c.cursor
    let b := locate x d dst (c.dstRow d) c.cursor
    if room = 0 || decide (d.total ≤ c.cursor) || c.row d == some none || b.1 != want then []
    else
      let n := Nat.min (d.n0 - c.cursor % d.n0) (Nat.min a.2 (Nat.min b.2 room))
      { src := a.1, dst := b.1, n } :: CopyCmd.pieces { c with cursor := c.cursor + n } x d src dst fuel (room - n) (b.1.add n)

/-- The pieces that make up the destination sector at the cursor, which is written whole (R374). -/
def CopyCmd.sector (c : CopyCmd) (x : Tile) (d : CopyDesc) (src dst : Side) : List Piece :=
  let b := locate x d dst (c.dstRow d) c.cursor
  c.pieces x d src dst 64 b.2 b.1

/-- The pieces before the first whose generation no longer matches (10 R209). -/
def State.freshPieces (s : State) (vf : Nat) (src dst : Side) : Option Nat → Option Nat → List Piece → List Piece
  | _, _, [] => []
  | ps, pd, q :: t =>
    if s.staleAt vf src ps q.src.page || s.staleAt vf dst pd q.dst.page then []
    else q :: s.freshPieces vf src dst q.src.page q.dst.page t

/-- What keeps a piece from being read. -/
def State.pieceStop (s : State) (c : CopyCmd) (q : Piece) : Option Turn :=
  match s.locRead c.iss q.src q.n, s.locPoison c.iss q.src q.n with
  | none, _ => some (if s.locFault q.src q.n then .ended s 0x08 0 else s.waitLoc q.src q.n)
  | some _, some (pa, va) => some (.dead (s.memue c.iss (match q.src with | .at (.spad _) _ => 2 | .stage _ => 3 | _ => 4) pa va))
  | some _, none => none

/-- Pieces are written as one, unless something keeps one of them from being read. -/
def State.movePieces (s : State) (c : CopyCmd) (first : Option Nat) (b : Loc) (qs : List Piece) : Turn :=
  let n := (qs.map Piece.n).sum
  match qs.findSome? (s.pieceStop c), (match b with | .at p _ => s.placeXlat p n true | _ => Xlat.mapped 0) with
  | some stop, _ => stop
  | none, .missing => s.waitLoc b n
  | none, .forbidden => .ended s 0x08 0
  | none, .mapped _ =>
    let bs := qs.flatMap (fun q => (s.locRead c.iss q.src q.n).getD [])
    .moved ((qs.foldl (fun s q => s.locFill c.iss.vf q.src) s).locWrite c.iss b bs) { c with
      cursor := c.cursor + n, first
      pageS := (qs.getLast?.map (fun q => q.src.page)).getD none
      pageD := (qs.getLast?.map (fun q => q.dst.page)).getD none }

/-- The next bytes of a command whose sides are checked: those of one destination sector. -/
def State.copyChunk (s : State) (t : Nat) (c : CopyCmd) (d : CopyDesc) (src dst : Side) : Turn :=
  let x := s.tile t
  if x.ringFull c then .held s []
  else if c.row d = some none then .moved s (c.skipRow x d dst)
  else
    let b := locate x d dst (c.dstRow d) c.cursor
    match s.freshPieces c.iss.vf src dst c.pageS c.pageD (c.sector x d src dst) with
    | [] => .ended s (if c.cursor = 0 then 0x05 else 0x06) 0
    | qs => s.movePieces c (c.first <|> x.firstByte dst b.1) b.1 qs

/-- The start of a command whose descriptor has been read: its index array, then its checks. -/
def State.copyStart (s : State) (t : Nat) (c : CopyCmd) (d : CopyDesc) : Turn :=
  let x := s.tile t
  match s.copyFields x c d with
  | f :: fs => .ended s 0x12 (fs.foldl Nat.min f)
  | [] =>
    if isIndexed c.op && c.idx.isEmpty then
      match s.indexPlace x c d with
      | .error e => .ended s e.1 e.2.1
      | .ok p => match s.engRead c.iss p (4 * d.n1), s.engPoison c.iss p (4 * d.n1) with
        | _, some (pa, va) => .dead (s.memue c.iss (match p with | .spad _ => 2 | _ => 4) pa va)
        | none, none => if s.placeFault p (4 * d.n1) then .ended s 0x08 0 else .held (s.placeTouch p (4 * d.n1)) (p.pages (4 * d.n1))
        | some is, none => .moved s { c with idx := words4 d.n1 is }
    else match s.copySides x c d with
      | .error e => .ended s e.1 e.2.1
      | .ok r => .moved s { c with sides := some r }

/-- The next piece of work on a command: its descriptor, its checks, then bytes. Its first one is the fork (12 R262). -/
def State.copyTurn (s : State) (t : Nat) (c : CopyCmd) : Turn :=
  if c.sides.isNone && !s.forkReady c.iss then .held s []
  else match c.desc, c.sides with
  | none, _ =>
    let s := s.fork c.iss
    match s.engRead c.iss c.place 64, s.engPoison c.iss c.place 64 with
    | _, some (pa, va) => .dead (s.memue c.iss (match c.place with | .spad _ => 2 | _ => 4) pa va)
    | none, none => if s.placeFault c.place 64 then .ended s 0x08 0 else .held (s.placeTouch c.place 64) (c.place.pages 64)
    | some bs, none => .moved s { c with desc := some bs }
  | some bs, none => (s.fork c.iss).copyStart t c (copyDesc bs)
  | some bs, some (a, b) =>
    if (copyDesc bs).total ≤ c.cursor then .ended s 0 0 else s.copyChunk t c (copyDesc bs) a b

/-! ### The engine (R374 to R376) -/

/-- Effective priority. -/
def CopyCmd.effective (c : CopyCmd) (clk : Nat) : Nat := Nat.min 7 (c.qprio + (clk - c.entered) / 4096)

/-- The queue by falling effective priority, the oldest first among equals. -/
def State.copyOrder (s : State) (t : Nat) : List CopyCmd :=
  (List.range 8).reverse.flatMap (fun p => (s.tile t).cq.filter (fun c => c.effective s.clk == p))

/-- The first command that can make progress; those that cannot ask for their pages. -/
def State.copyPick (s : State) (t : Nat) : List CopyCmd → State × Option CopyCmd
  | [] => (s, none)
  | c :: rest =>
    match s.copyTurn t c with
    | .held s' _ => s'.copyPick t rest
    | _ => (s, some c)

/-- A command of the queue as it now stands. -/
def State.putCopy (s : State) (t : Nat) (c : CopyCmd) : State :=
  s.setTile t { s.tile t with cq := (s.tile t).cq.map (fun o => if o.id = c.id then c else o) }

def State.dropCopy (s : State) (t id : Nat) : State :=
  s.setTile t { s.tile t with cq := (s.tile t).cq.filter (fun o => o.id != id) }

/-- A slot is pushed: TAIL and COUNT advance (07 R145). -/
def Tile.pushRing (x : Tile) (n : Nat) : Tile :=
  let r := x.ring n
  x.setRing n { r with tail := (r.tail + 1) % r.slots, count := r.count + 1 }

/-- A command ends: its follow-on enters the matrix queue or waits, the landing, and its status (R374, R375). -/
def State.finishCopy (s : State) (t : Nat) (c : CopyCmd) (st info : Nat) : State :=
  let s := s.dropCopy t c.id
  let s := match c.follow with
    | some e =>
      if st ≠ 0 then s
      else if 8 ≤ (s.tile t).mq.length then s.setTile t { s.tile t with follows := (s.tile t).follows ++ [e] }
      else s.mEnter t e
    | none => s
  let info := if c.follow.isSome && st != 0 then info ||| 1 else info
  let s := s.landAt c.iss { cells := [], ct := c.ct, inc := if c.inc = 0 then 1 else c.inc, hnd := c.hnd, len := c.cursor
                            off := c.first.getD 0 }
  s.status c.iss c.nr 8 c.id (c.cursor * 2 ^ 24 + info * 2 ^ 16 + c.op * 2 ^ 8 + st)

/-- Work on one command until a slot is complete, or it ends or waits; n bounds the pieces. (log 116: DEDUCED) -/
def State.copyRun (s : State) (t : Nat) (c : CopyCmd) : Nat → State
  | 0 => s.putCopy t c
  | n + 1 =>
    match s.copyTurn t c with
    | .moved s' d =>
      match d.sides with
      | some (_, .ring r) =>
        if d.cursor != c.cursor && d.cursor % ((s'.tile t).ring r).slotsz == 0 then
          (s'.putCopy t d).setTile t (((s'.putCopy t d).tile t).pushRing r)
        else s'.copyRun t d n
      | _ => s'.copyRun t d n
    | .ended s' st info => s'.finishCopy t c st info
    | .held s' _ => s'.putCopy t c
    | .dead s' => s'.dropCopy t c.id

/-- Bytes that a command has still to move, and the pieces of its start. -/
def CopyCmd.rest (c : CopyCmd) : Nat :=
  match c.desc with
  | some b => (copyDesc b).total + 8
  | none => 8

/-- The command's next work pushes a slot of a ring. -/
def CopyCmd.pushes (c : CopyCmd) : Bool :=
  match c.desc, c.sides with
  | some b, some (_, .ring _) => decide (c.cursor < (copyDesc b).total)
  | _, _ => false

/-- The command that the engine serves next (R376); none while the crew's engines are told to stop. -/
def State.copyNext (s : State) (t : Nat) : State × Option CopyCmd :=
  if (s.tile t).held then (s, none) else s.copyPick t (s.copyOrder t)

/-- The start of a command, before its first byte. -/
def State.copyOpen (s : State) (t : Nat) (c : CopyCmd) : Nat → State
  | 0 => s.putCopy t c
  | n + 1 =>
    if c.sides.isSome then s.putCopy t c
    else match s.copyTurn t c with
      | .moved s' d => s'.copyOpen t d n
      | .ended s' st info => s'.finishCopy t c st info
      | .held s' _ => s'.putCopy t c
      | .dead s' => s'.dropCopy t c.id

/-- RING_PUSH: the command served moves one slot into its ring. -/
def State.ringPush (s : State) (t : Nat) : State :=
  match s.copyNext t with
  | (s, some c) => if c.pushes then s.copyRun t c c.rest else s
  | (s, none) => s

/-- COPY_COMPLETE: the command served moves what is left and ends. One whose destination is a ring is opened, and ends
once its slots have been pushed. -/
def State.copyComplete (s : State) (t : Nat) : State :=
  match s.copyNext t with
  | (s, some c) =>
    if c.pushes then s
    else match c.sides with
      | none => s.copyOpen t c 8
      | some _ => s.copyRun t c c.rest
  | (s, none) => s

def execRingPush (tile : Nat) (s : State) : Host.Outcome State Fault Refusal := .next (s.ringPush tile)
def execCopyComplete (tile : Nat) (s : State) : Host.Outcome State Fault Refusal := .next (s.copyComplete tile)

/-- A page request has failed: the commands that wait for the page end with status PAGE (10 R211). -/
def State.failCopies (s : State) (t pasid vpage : Nat) : State :=
  (s.tile t).cq.foldl (fun (s : State) c =>
    match s.copyTurn t c with
    | .held _ pages => if pages.contains (pasid, vpage) then s.finishCopy t c 0x07 0 else s
    | _ => s) s

/-! ### Issue (R373, R375) -/

/-- The M-slot word of a CPYF, correctly encoded (07 R161). -/
def followWord (w : Nat) : Option (Nat × MFields) :=
  let op := w / 2 ^ 56
  let f := unpackM w
  let legal := if isStep op then legalMStep f else legalMAcc f
  if (isStep op || isDrain op || op == 0xD5) && packM op f == w && legal.isNone then some (op, f) else none

/-- A trap with the cause of a failed check. -/
def causeOf (code : Nat) : Cause :=
  if code = 0x03 then .kbound else if code = 0x04 then .kright else if code = 0x05 then .kstale else .baddesc

/-- The further checks of a CPYF, and its follow-on. -/
def State.followCheck (s : State) (c : CopyCmd) (bs : List Byte) : Res MqEntry :=
  let d := copyDesc bs
  match s.copyFields (s.tile s.cur) c d, s.copySides (s.tile s.cur) c d with
  | f :: fs, _ => .trap .baddesc (BitVec.ofNat 64 (fs.foldl Nat.min f))
  | [], .error e => .trap (causeOf e.1) e.2.2
  | [], .ok _ =>
    match followWord d.xw with
    | none => .trap .baddesc 0x38
    | some (op, f) =>
      let r := if c.op = 0xE5 then f.ringA.toNat else f.ringB.toNat
      if isStep op ∧ d.daddr ≠ r then .trap .ringerr (BitVec.ofNat 64 d.daddr) else s.mLatch op f

/-- The E slot of a copy. -/
def State.cpyIssue (s : State) (op : Nat) (f : EFields) : Res State :=
  if 16 ≤ (s.tile s.cur).cq.length then .block (.engineQueue op)
  else
    (readCapReg s.ctx f.k.toNat).bind fun cap =>
    (Res.need (!isCpyf op || capIsSpad cap) .kright (BitVec.ofNat 64 (eOff s f))).bind fun _ =>
    (s.descCheck f 64 64).bind fun r =>
    let n := s.takeOp
    let c : CopyCmd := {
      id := n.1, op, iss := s.issuer s.cur s.curCtx, place := r.2, desc := none, caps := s.ctx.k, ct := f.ct.toNat
      inc := bits f.arg.toNat 15 0, nr := eNr f, qprio := f.qprio.toNat, hnd := f.hnd.toNat, entered := s.clk }
    let enter := fun (c : CopyCmd) =>
      let s := n.2.statusEntry 8 n.1 c.nr
      s.setTile s.cur { s.tile s.cur with cq := (s.tile s.cur).cq ++ [c] }
    if isCpyf op && s.readBlocked s.cur s.curCtx s.ctx.num 0 r.2 64 then .block .structure
    else if isCpyf op && (match r.2 with | .spad o => s.spadBad s.cur o 64 | .virt _ _ _ => false) then
      .ok (s.memue (s.issuer s.cur s.curCtx) 2 0 0)
    else if isCpyf op then
      let bs := match r.2 with | .spad o => s.spadBytes s.cur o 64 | .virt _ _ _ => []
      (s.followCheck c bs).bind fun e => .ok (enter { c with desc := some bs, follow := some e })
    else .ok (enter c)

def execCpy (f : EFields) (s : State) : Host.Outcome State Fault Refusal := settle s (s.cpyIssue 0xE4 f)
def execCpyfA (f : EFields) (s : State) : Host.Outcome State Fault Refusal := settle s (s.cpyIssue 0xE5 f)
def execCpyfB (f : EFields) (s : State) : Host.Outcome State Fault Refusal := settle s (s.cpyIssue 0xE6 f)
def execCpyg (f : EFields) (s : State) : Host.Outcome State Fault Refusal := settle s (s.cpyIssue 0xE7 f)
def execCpys (f : EFields) (s : State) : Host.Outcome State Fault Refusal := settle s (s.cpyIssue 0xE8 f)
def execCpyz (f : EFields) (s : State) : Host.Outcome State Fault Refusal := settle s (s.cpyIssue 0xE9 f)

end Sys2Proof.Machine
end

