-- ==== Sys2Proof/Machine/Signals.lean ====
section
/-! DEFINITION. CSET and SIGC: the counter-signal queue of a tile and its updates (17 R377, 19 R415, R416). -/
namespace Sys2Proof.Machine

/-- The E slot of CSET or SIGC: the operands are read in the issue clk. -/
def State.sigIssue (s : State) (op : Nat) (f : EFields) (target value : Word) : Res State :=
  if 16 ≤ (s.tile s.cur).sigq.length then .block (.engineQueue op)
  else
    let n := s.takeOp
    let c : SignalCmd := {
      id := n.1, op, iss := s.issuer s.cur s.curCtx, target, value, ct := f.ct.toNat, nr := eNr f }
    let s := n.2.statusEntry 13 n.1 c.nr
    .ok (s.setTile s.cur { s.tile s.cur with sigq := (s.tile s.cur).sigq ++ [c] })

def execCset (f : EFields) (s : State) : Host.Outcome State Fault Refusal :=
  settle s (s.sigIssue 0xEA f 0 (s.ctx.readS f.s.toNat))
def execSigcAdd (f : EFields) (s : State) : Host.Outcome State Fault Refusal :=
  settle s (s.sigIssue 0xF3 f (s.ctx.readS f.s.toNat) (s.ctx.readS (f.s.toNat + 1)))
def execSigcSet (f : EFields) (s : State) : Host.Outcome State Fault Refusal :=
  settle s (s.sigIssue 0xF4 f (s.ctx.readS f.s.toNat) (s.ctx.readS (f.s.toNat + 1)))

/-- A status of SIGC without effect: 1 BADTARGET, 2 RETIRED; or the target's gang and crew. -/
def State.sigTarget (s : State) (c : SignalCmd) : Nat ⊕ (Nat × Nat) :=
  let gid := bits c.target.toNat 23 8
  let crew := bits c.target.toNat 7 0
  match s.gang c.iss.gang with
  | none => .inl 1
  | some g =>
    match Sparse.get none s.waves g.wave with
    | none => .inl 1
    | some w =>
      if c.target.toNat / 2 ^ 24 ≠ 0 ∨ w.record.crews ≤ crew ∨ w.record.gangs ≤ gid ∨ (gid ≠ g.gangId ∧ !w.record.coloc)
      then .inl 1
      else match s.gangs.find? (fun x => match x.2 with | some h => h.wave == g.wave && h.gangId == gid | none => false) with
        | some (k, some h) => if h.retired.contains crew then .inl 2 else .inr (k, crew)
        | _ => .inl 2

/-- The status entry: the old counter's low half, the opcode and the status. -/
def signalStatus (old : Word) (op st : Nat) : Nat := old.toNat % 2 ^ 32 * 2 ^ 32 + op * 2 ^ 8 + st

/-- A counter of a crew takes its update, and the status goes to b13. -/
def State.signalCt (s : State) (c : SignalCmd) (gang crew : Nat) (f : Word → Word) : State :=
  match s.crewState gang crew with
  | none => s.status c.iss c.nr 13 c.id (signalStatus 0 c.op 2)
  | some t =>
    let old := t.readCt c.ct
    (s.onCrew gang crew (fun t => t.setCt c.ct (f old))).status c.iss c.nr 13 c.id (signalStatus old c.op 0)

/-- SIGNAL_APPLY: the oldest command of the queue is applied; its first step is the fork (12 R262). (log 60: DEDUCED) -/
def State.signalApply (s : State) (t : Nat) : State :=
  match (s.tile t).sigq with
  | [] => s
  | c :: rest =>
    if !s.forkReady c.iss then s
    else
      let s := (s.fork c.iss).setTile t { (s.fork c.iss).tile t with sigq := rest }
      if c.op = 0xEA then s.signalCt c c.iss.gang c.iss.crew (fun _ => c.value)
      else match s.sigTarget c with
        | .inl st => s.status c.iss c.nr 13 c.id (signalStatus 0 c.op st)
        | .inr (g, k) => s.signalCt c g k (fun old => if c.op = 0xF3 then old + c.value else c.value)

def execSignalApply (tile : Nat) (s : State) : Host.Outcome State Fault Refusal := .next (s.signalApply tile)

end Sys2Proof.Machine
end

