-- ==== Sys2Proof/Machine/Mortar.lean ====
section
/-! DEFINITION. The eight Mortar commands (11 R226, R227, R231, R234 to R243, 18 R404). -/
namespace Sys2Proof.Machine

/-! ### Issue (R234, R404) -/

/-- Commands of a crew that wait at an engine. -/
def crewCmds (q : List EngCmd) (i : Issuer) : Nat := (q.filter (fun c => c.iss.gang == i.gang && c.iss.crew == i.crew)).length

/-- A Mortar command enters the queue of its tile, in order of arrival. -/
def State.mortarIssue (s : State) (op : Nat) (f : EFields) (place : Option Place) (cap : TCap) : State :=
  let n := s.takeOp
  let c := n.2.engCmd n.1 op f place cap
  let s := n.2.statusEntry 9 n.1 c.nr
  { s with mortarQ := s.mortarQ ++ [c] }

/-- The E slot of a Mortar command other than MTREG. -/
def State.mtIssue (s : State) (op : Nat) (f : EFields) : Res State :=
  if 16 ≤ crewCmds s.mortarQ (s.issuer s.cur s.curCtx) then .block (.engineQueue op) else .ok (s.mortarIssue op f none {})

def execMtfet (f : EFields) (s : State) : Host.Outcome State Fault Refusal := settle s (s.mtIssue 0xEB f)
def execMthalo (f : EFields) (s : State) : Host.Outcome State Fault Refusal := settle s (s.mtIssue 0xEC f)
def execMtinvWb (f : EFields) (s : State) : Host.Outcome State Fault Refusal := settle s (s.mtIssue 0xED f)
def execMtinvDrop (f : EFields) (s : State) : Host.Outcome State Fault Refusal := settle s (s.mtIssue 0xEE f)
def execMtlook (f : EFields) (s : State) : Host.Outcome State Fault Refusal := settle s (s.mtIssue 0xEF f)
def execMtpin (f : EFields) (s : State) : Host.Outcome State Fault Refusal := settle s (s.mtIssue 0xF0 f)
def execMtrel (f : EFields) (s : State) : Host.Outcome State Fault Refusal := settle s (s.mtIssue 0xF2 f)
/-- MTREG checks its descriptor address in the issue clk. -/
def execMtreg (f : EFields) (s : State) : Host.Outcome State Fault Refusal :=
  settle s (
    if 16 ≤ crewCmds s.mortarQ (s.issuer s.cur s.curCtx) then .block (.engineQueue 0xF1)
    else (s.descCheck f 64 64).bind fun r => .ok (s.mortarIssue 0xF1 f (some r.2) r.1))

/-! ### The tensor descriptor (R226, R227) -/

/-- The descriptor as a tensor of object and base, and CAPI; the scale area's offset and length stand beside it. -/
structure TensorDesc where
  t     : Tensor
  capi  : Nat
  scLen : Nat
  valid : Bool
  deriving DecidableEq, Repr

def tensorDesc (b : List Byte) : TensorDesc :=
  let f := imgNat b
  let fmt := f 0 1
  let rank := f 1 1
  let dim := (List.range 4).map (fun d => f (8 + 4 * d) 4)
  let tile := (List.range 4).map (fun d => f (0x30 + 2 * d) 2)
  let halo := (List.range 4).map (fun d => f (4 + d) 1)
  let st := (List.range 3).map (fun d => f (0x18 + 6 * d) 6)
  let scoff := f 0x2A 6
  let off := f 0x38 8
  let w := tensorBits fmt
  let block := fmt == 5 || fmt == 6
  let t : Tensor := { obj := 0, pasid := 0, vabase := 0, fmt, rank, halo, dim, stride := st, scoff, tile, off }
  let all4 := fun (p : Nat → Bool) => (List.range 4).all p
  { t, capi := f 2 1
    scLen := if block then 3 * (nth dim 0 / 32 * nth dim 1 * nth dim 2 * nth dim 3) else 0
    valid :=
      decide (1 ≤ fmt) && decide (fmt ≤ 10) && decide (1 ≤ rank) && decide (rank ≤ 4) && decide (f 2 1 < 32) && f 3 1 == 0 &&
      all4 (fun d => decide (1 ≤ nth dim d) && decide (1 ≤ nth tile d)) &&
      all4 (fun d => decide (d < rank) || (nth dim d == 1 && nth tile d == 1 && nth halo d == 0 && (d == 0 || nth st (d - 1) == 0))) &&
      nth dim 0 * w % 512 == 0 && nth tile 0 * w % 512 == 0 &&
      decide (nth tile 0 * nth tile 1 * nth tile 2 * nth tile 3 * w ≤ 65536) &&
      all4 (fun d => decide ((nth dim d + nth tile d - 1) / nth tile d ≤ 4096)) &&
      all4 (fun d => decide (nth halo d ≤ nth tile d)) && nth halo 0 * w % 512 == 0 &&
      off % 64 == 0 && decide (off < 2 ^ 48) &&
      (List.range 3).all (fun d => decide (rank < d + 2) || (nth st d % 64 == 0 &&
        decide ((if d = 0 then nth dim 0 * w / 8 else nth dim d * nth st (d - 1)) ≤ nth st d))) &&
      (block || scoff == 0) }

/-! ### Lines (R225, R231, R241) -/

/-- The sectors of a virtual function's Mortar lines that satisfy a test of their tags. -/
def State.mortarSecs (s : State) (vf : Nat) (p : MTag → Bool) : List (Nat × MTag × Bool) :=
  s.mortar.filterMap (fun x => match x.2 with
    | some m => if m.tag.vf == vf && p m.tag then some (x.1, m.tag, m.dirty) else none
    | none => none)

/-- Lines that sectors make. -/
def lineCount (xs : List (Nat × MTag × Bool)) : Nat :=
  ((xs.map (fun x => (x.2.1.pasid, x.2.1.tid, x.2.1.c, x.2.1.line))).eraseDups).length

/-- Sectors leave Mortar, written back first or with their dirty data lost. -/
def State.mortarPurge (s : State) (keep : Bool) (xs : List (Nat × MTag × Bool)) : State :=
  xs.foldl (fun s x => (if keep then s.mortarWriteBack x.1 else s).mortarDrop x.1) s

/-- The home slice of a tile (R231). -/
def homeSlice (t : Tensor) (tid c : Nat) : Nat := sliceOf t.mode t.slice tid c

/-- The TID in an object entry, in memory and at every port and tile (R236, R237). -/
def State.setTid (s : State) (vf obj tid : Nat) : State :=
  let v := s.vf vf
  let s := s.setVf vf { v with objs := Sparse.set none v.objs obj ((Sparse.get none v.objs obj).map (fun e => { e with tid })) }
  match v.objBase with
  | some r => s.devWrite { vf, pasid := r.pasid, va := r.va + 32 * obj + 0x12, bytes := natBytes 2 tid }
  | none => s

def State.setTensor (s : State) (vf tid : Nat) (t : Option Tensor) : State :=
  let v := s.vf vf
  s.setVf vf { v with tensors := Sparse.set none v.tensors tid t }

/-! ### Effects (R236 to R242) -/

/-- What a command comes to: it waits for pages, or ends with status, TID and RES. -/
inductive MortarEnd where
  | wait (s : State) (pages : List (Nat × Nat))
  | done (s : State) (st tid res : Nat)
  deriving DecidableEq, Repr

/-- MTREG. (log 58: DESIGN CHOICE) -/
def State.mtreg (s : State) (c : EngCmd) (p : Place) : MortarEnd :=
  let vf := c.iss.vf
  match s.engRead c.iss p 64 with
  | none => if s.placeFault p 64 then .done s 2 0 0 else .wait (s.placeTouch p 64) (p.pages 64)
  | some bs =>
    let d := tensorDesc bs
    let cap := Sparse.get {} c.caps d.capi
    let spad := match s.crewState c.iss.gang c.iss.crew with | some x => x.crewSpad | none => 0
    let covers := fun (o n : Nat) => match s.capCheck vf spad cap o n (rR + rE) 1 .load with | .ok _ => true | _ => false
    if !d.valid then .done s 1 0 0
    else if !cap.tag || !(capKind cap == 0 || capKind cap == 2) || capIsSpad cap || !covers d.t.off (tensorExtent d.t) ||
        (d.scLen != 0 && !covers d.t.scoff d.scLen) then .done s 2 0 0
    else match s.objEntry vf (capObj cap) with
      | none => .done s 2 0 0
      | some e =>
        if e.tid ≠ 0 then .done s 4 0 0
        else match (List.range 1023).find? (fun i => (Sparse.get none (s.vf vf).tensors (i + 1)).isNone) with
          | none => .done s 3 0 0
          | some i =>
            let tid := i + 1
            let t := { d.t with obj := capObj cap, pasid := e.pasid, vabase := e.vabase }
            let lo := e.vabase + d.t.off
            let s := s.mortarPurge true (s.mortarSecs vf (fun g => g.pasid == e.pasid && g.tid == 0 &&
              decide (lo / 128 * 128 ≤ g.va) && decide (g.va < (lo + tensorExtent d.t + 127) / 128 * 128)))
            .done ((s.setTid vf (capObj cap) tid).setTensor vf tid (some t)) 0 tid ((tensorGrid t).foldl (· * ·) 1)

/-- MTLOOK's answer (R238). (log 59: DEDUCED) -/
def State.mtlook (s : State) (vf tid : Nat) (t : Tensor) (v : Nat) : Nat :=
  let c := v % 2 ^ 48
  let xs := s.mortarSecs vf (fun g => g.tid == tid && g.c == c)
  homeSlice t tid c + (xs.any (fun x => x.2.1.line == bits v 53 48)).toNat * 2 ^ 7 + lineCount xs * 2 ^ 8 +
    (xs.any (fun x => x.2.2)).toNat * 2 ^ 15

/-- The tiles that a stencil asks for, inside the grid (R239). -/
def stencilTiles (t : Tensor) (c mask : Nat) : List (List Nat) :=
  (List.range 27).filterMap (fun b =>
    let dl : List Int := [(b % 3 : Nat) - 1, (b / 3 % 3 : Nat) - 1, (b / 9 : Nat) - 1, 0]
    if mask / 2 ^ b % 2 = 0 ∨ (List.range 3).any (fun d => decide (t.rank ≤ d) && dl.getD d 0 != 0) then none
    else
      let e := (List.range 4).map (fun d => (nth (coordOf c) d : Int) + dl.getD d 0)
      if e.any (fun x => decide (x < 0)) then none
      else
        let n := e.map Int.toNat
        if inGrid t n then some n else none)

/-- The sectors of a tile's image that hold elements, by virtual address. -/
def tileVas (t : Tensor) (c : List Nat) : List Nat :=
  (imageSectors t false).filterMap (fun p => (elemOffset t (imageElem t c false p)).map (fun o => t.vabase + o))

/-- Sectors of an object are filled into their home slices, until one has no translation. -/
def State.mtFill (s : State) (vf pasid obj : Nat) : List Nat → Except (State × Nat) State
  | [] => .ok s
  | va :: rest =>
    match s.lookupVa pasid va false with
    | .mapped pa => ((s.touchPage pasid va).mortarTouch (pa / 64) (s.fileTag vf pasid va (some obj)) false).mtFill vf pasid obj rest
    | _ => .error (s.touchPage pasid va, va / 4096)

/-- A command on a registered tensor. -/
def State.mtTensor (s : State) (c : EngCmd) (tid : Nat) (t : Tensor) : MortarEnd :=
  let vf := c.iss.vf
  let v := c.sval.toNat
  let mine := s.mortarSecs vf (fun g => g.tid == tid)
  if c.op = 0xEB then
    if 2 ^ 48 ≤ v ∨ 2 ^ 27 ≤ c.mask.toNat then .done s 1 tid 0
    else if !inGrid t (coordOf v) then .done s 6 tid 0
    else
      let ts := stencilTiles t v c.mask.toNat
      let vas := ts.flatMap (tileVas t)
      if vas.any (fun va => s.lookupVa t.pasid va false == .forbidden) then .done s 2 tid 0
      else match s.mtFill vf t.pasid t.obj vas with
      | .ok s => .done s 0 tid ts.length
      | .error e => .wait e.1 [(t.pasid, e.2)]
  else if c.op = 0xEC then .done (s.setTensor vf tid (some { t with haloOn := c.arg / 2 ^ 16 % 2 == 1 })) 0 tid 0
  else if c.op = 0xED then .done (s.mortarPurge true mine) 0 tid (sat32 (lineCount mine))
  else if c.op = 0xEE then .done (s.mortarPurge false mine) 0 tid (sat32 (lineCount mine))
  else if c.op = 0xEF then
    if 2 ^ 54 ≤ v then .done s 1 tid 0
    else if !inGrid t (coordOf (v % 2 ^ 48)) then .done s 6 tid 0
    else .done s 0 tid (s.mtlook vf tid t v)
  else if c.op = 0xF0 then
    let mode := bits v 8 7
    if 2 ^ 9 ≤ v ∨ mode = 3 ∨ (mode ≠ 2 ∧ v % 128 ≠ 0) then .done s 7 tid 0
    else .done ((s.mortarPurge true mine).setTensor vf tid
      (some { t with mode, slice := if mode = 1 then c.die else v % 128 })) 0 tid 0
  else .done (((s.mortarPurge true mine).setTid vf t.obj 0).setTensor vf tid none) 0 tid 0

/-- A command's effect. -/
def State.mortarRun (s : State) (c : EngCmd) : MortarEnd :=
  let tid := c.arg % 2 ^ 16
  match c.place with
  | some p => s.mtreg c p
  | none =>
    if tid = 0 then
      let mine := s.mortarSecs c.iss.vf (fun g => g.pasid == c.iss.pasid && g.tid == 0)
      .done (s.mortarPurge (c.op == 0xED) mine) 0 0 (sat32 (lineCount mine))
    else match Sparse.get none (s.vf c.iss.vf).tensors tid with
      | none => .done s 5 tid 0
      | some t => s.mtTensor c tid t

/-- A command ends: its counter, and its status in b9 (R235). -/
def State.mortarFinish (s : State) (c : EngCmd) (st tid res : Nat) : State :=
  { s.finishOp c.iss c.ct 1 c.nr 9 c.id (res % 2 ^ 32 * 2 ^ 32 + tid * 2 ^ 16 + c.op * 2 ^ 8 + st) with
    mortarQ := s.mortarQ.filter (fun o => o.id != c.id) }

/-- Two commands take effect in their order: those of one strand, and those that name one TID (R243). -/
def EngCmd.ordered (a b : EngCmd) : Bool :=
  (a.iss.gang == b.iss.gang && a.iss.crew == b.iss.crew && a.iss.ctx == b.iss.ctx) ||
    (a.iss.vf == b.iss.vf && a.op != 0xF1 && b.op != 0xF1 && a.arg % 2 ^ 16 == b.arg % 2 ^ 16)

/-- The commands of a virtual function that nothing before them holds back. -/
def mortarHeads (vf : Nat) : List EngCmd → List EngCmd → List EngCmd
  | _, [] => []
  | seen, c :: rest =>
    (if c.iss.vf == vf && !seen.any (fun o => o.ordered c) then [c] else []) ++ mortarHeads vf (seen ++ [c]) rest

/-- Writes to lines of a virtual function wait at their home slices for the host (16 R339). -/
def State.vfPending (s : State) (vf : Nat) : Bool := s.biQ.any (fun w => w.tag.vf == vf)

/-- The first of some commands that need not wait takes effect; what its strand has written reaches memory first. -/
def State.mortarServe (s : State) : List EngCmd → State
  | [] => s
  | c :: rest =>
    if !s.forkReady c.iss then s.mortarServe rest
    else if (s.fork c.iss).vfPending c.iss.vf then (s.fork c.iss).mortarServe rest
    else match (s.fork c.iss).mortarRun c with
      | .wait s' _ => s'.mortarServe rest
      | .done s' st tid res => s'.mortarFinish c st tid res

/-- MORTAR_COMPLETE: a command of a virtual function takes effect and completes. -/
def execMortarComplete (vf : Nat) (s : State) : Host.Outcome State Fault Refusal :=
  .next (s.mortarServe (mortarHeads vf [] s.mortarQ))

/-- A page request has failed: the commands that wait for the page end with status 2 (R239): those that may take effect now
(R243). -/
def State.failMortar (s : State) (pasid vpage : Nat) : State :=
  ((List.range 16).flatMap (fun v => mortarHeads v [] s.mortarQ)).foldl (fun (s : State) c =>
    if !s.forkReady c.iss then s
    else match s.mortarRun c with
    | .wait s' pages => if pages.contains (pasid, vpage) then s'.mortarFinish c 2 (c.arg % 2 ^ 16) 0 else s
    | .done _ _ _ _ => s) s

end Sys2Proof.Machine
end

