-- ==== Sys2Proof/Machine/Contexts.lean ====
section
/-! DEFINITION. The contexts of a core: when a blocked strand wakes, the choice of the next context, retirement of strands
and crews, and the steps of the ports and the side log (02 R33, R49, R50, R53, 03 R56, R57, R70, 04 R80, R81, R88, R90,
10 R214, 15 R321, R331, 18 R381, R382). -/
namespace Sys2Proof.Machine

/-! ### Header bits and words without a meaning (04 R75, R80, R81) -/

/-- MSWAP: mh0-mh3 and mw0-mw3 exchange. -/
def execMswap (s : State) : Host.Outcome State Fault Refusal := .next (s.setCtx (s.ctx.swapShapes 0))
/-- ESWAP: eh0-eh3 and ew0-ew3 exchange. -/
def execEswap (s : State) : Host.Outcome State Fault Refusal := .next (s.setCtx (s.ctx.swapShapes 8))
/-- A header alone: it issues, and fetch goes on. -/
def execEmptyBundle (s : State) : Host.Outcome State Fault Refusal := .next s

/-- A slot of opcode 0x00 or an unassigned code: ILLOP with reason 1. An unassigned SYSC subcode is looked at after its
guard and its standing, with reason 3 (19 R421). (log 40: DEDUCED) -/
def execUnassignedCode (pos : Nat) (word : BitVec 64) (s : State) : Host.Outcome State Fault Refusal :=
  let w := word.toNat
  settle s (
    if pos = 1 ∧ w / 2 ^ 24 = 0x0C then
      if !guardHolds s.ctx (BitVec.ofNat 4 (w / 2 ^ 20)) (BitVec.ofNat 1 (w / 2 ^ 19)) then .ok s
      else if s.curMark = 0 then .trap .priv 0
      else .trap .illop (illopInfo 3 1)
    else .trap .illop (illopInfo 1 pos))

/-! ### Waking (03 R56, R57) -/

/-- The head of a return port has arrived, or its access has failed. -/
def Ctx.portReady (c : Ctx) (n : Nat) : Bool :=
  match c.portHead n with
  | some e => e.failed.isSome || (e.kld.isNone && e.arrived)
  | none => false

/-- The word that a blocked WAITV or ACQ polls: none where its page is missing and no request for it has failed, `some
none` where the bundle would trap. -/
def State.polled (s : State) (t c k off n need : Nat) (sync : Bool) : Option (Option Nat) :=
  let x := s.ctxAt t c
  match s.capCheck (s.tileVf t) (s.tile t).crewSpad (x.readK k) off n need n (if sync then .sync else .load) with
  | .ok p => match s.pollDword t c p n with
    | some r => some (some r.1)
    | none => if x.pageFail.isSome || s.placeFault p n then some none else none
  | _ => some none

/-- Commands of a tile's crew at the engine of an opcode. -/
def State.engineLoad (s : State) (t op : Nat) : Nat :=
  let i := s.issuer t 0
  if 0xE4 ≤ op ∧ op ≤ 0xE9 then (s.tile t).cq.length
  else if op = 0xEA ∨ op = 0xF3 ∨ op = 0xF4 then (s.tile t).sigq.length
  else if 0xEB ≤ op ∧ op ≤ 0xF2 then crewCmds s.mortarQ i
  else if 0xF5 ≤ op ∧ op ≤ 0xF8 then crewCmds s.brimQ i
  else crewCmds s.crownQ i

/-- The condition that unblocks a context holds. -/
def State.unblocked (s : State) (t c : Nat) (why : BlockWhy) : Bool :=
  let x := s.tile t
  let k := x.ctx c
  match why with
  | .port n => k.portReady n
  | .kreg n => match (k.port 3).find? (fun e => e.kld == some n) with
    | some e => e.failed.isSome
    | none => true
  | .matrixQueue => decide (x.mq.length < 8)
  | .engineQueue op => decide (s.engineLoad t op < 16)
  | .collectives => decide (k.nColl < 16)
  | .waitc n v => !(x.readCt n).ult v
  | .waitv cond kr off n v => match s.polled t c kr off n rR false with
    | some (some m) => waitvHolds cond m (v.toNat % 2 ^ (8 * n))
    | some none => true
    | none => false
  | .barc => k.relCrew
  | .barg => k.relGang
  | .bargA => k.bargA.isNone
  | .acq kr off v => match s.polled t c kr off 8 (rB + rR) true with
    | some (some m) => decide (v.toNat ≤ m)
    | some none => true
    | none => false
  | .rel obj off => !s.relWaits t c obj off
  | .requestQueue => !x.requestFull
  | .drain log => x.settled c && !(log && x.logged c)
  | .structure => x.settled c
  | .sideLog => decide (x.sideLog.length < 256)
  | .probe => x.subtreeEligible 1
  | .fetch va => match s.lookupVa (s.issuer t c).pasid va false with
    | .missing => k.pageFail.isSome
    | _ => true

/-- STRAND_WAKE: a blocked strand becomes ready when its condition holds. -/
def State.wake (s : State) (t c : Nat) : State :=
  let k := s.ctxAt t c
  match k.run with
  | .blocked why => if s.unblocked t c why then s.setCtxAt t c { k with run := .ready } else s
  | _ => s

def execStrandWake (tile ctx : Nat) (s : State) : Host.Outcome State Fault Refusal := .next (s.wake tile ctx)

/-- The pages that a blocked strand polls or fetches from are asked for (10 R210). -/
def State.wantPages (s : State) (t c : Nat) : State :=
  let k := s.ctxAt t c
  let poll := fun (kr off n need : Nat) (u : Use) =>
    match s.capCheck (s.tileVf t) (s.tile t).crewSpad (k.readK kr) off n need n u with
    | .ok p => s.placeTouch p n
    | _ => s
  match k.run with
  | .blocked (.waitv _ kr off n _) => poll kr off n rR .load
  | .blocked (.acq kr off _) => poll kr off 8 (rB + rR) .sync
  | .blocked (.fetch va) => s.touchPage (s.issuer t c).pasid va
  | _ => s

/-- The page that a blocked strand waits for. -/
def State.waitsPage (s : State) (t c : Nat) : Option (Nat × Nat) :=
  let k := s.ctxAt t c
  let poll := fun (kr off n need : Nat) (u : Use) =>
    match s.capCheck (s.tileVf t) (s.tile t).crewSpad (k.readK kr) off n need n u with
    | .ok (.virt pasid va _) => some (pasid, va)
    | _ => none
  match k.run with
  | .blocked (.waitv _ kr off n _) => poll kr off n rR .load
  | .blocked (.acq kr off _) => poll kr off 8 (rB + rR) .sync
  | .blocked (.fetch va) => some ((s.issuer t c).pasid, va)
  | _ => none

/-- A page request has failed: the strands that are blocked on the page are told (20 R456). -/
def State.failStrands (s : State) (t pasid vpage : Nat) : State :=
  (List.range 4).foldl (fun (s : State) c => match s.waitsPage t c with
    | some (p, va) => if p = pasid ∧ va / 4096 = vpage then s.setCtxAt t c { s.ctxAt t c with pageFail := some va } else s
    | none => s) s

/-! ### The core (02 R49, R50) -/

/-- A context that the core may take: ready, with every result written (03 R57). -/
def Ctx.takeable (c : Ctx) : Bool := c.run == .ready && c.pending.isEmpty

/-- The next context in the order of R50. -/
def Tile.nextCtx (t : Tile) : Option Nat :=
  ([1, 2, 3, 4].map (fun i => (t.last + i) % 4)).find? (fun c => (t.ctx c).takeable)

/-- The core may take a context now. -/
def State.canSwitch (s : State) (t : Nat) : Bool :=
  let x := s.tile t
  x.running.isNone && decide (x.nextIssue ≤ s.clk) && !x.held && x.nextCtx.isSome

/-- CONTEXT_SWITCH. -/
def State.switchCtx (s : State) (t : Nat) : State :=
  if !s.canSwitch t then s
  else match (s.tile t).nextCtx with
    | none => s
    | some c =>
      let x := s.tile t
      s.setTile t { x.setCtx c { x.ctx c with run := .running } with running := some c, quantum := 0, expired := false }

def execContextSwitch (tile : Nat) (s : State) : Host.Outcome State Fault Refusal := .next (s.switchCtx tile)

/-- Another context than the running one may be taken. -/
def Tile.otherReady (t : Tile) (c : Nat) : Bool := (List.range 4).any (fun d => d != c && (t.ctx d).takeable)

/-- QUANTUM_EXPIRY: the context has held the core for 4,096 clk while another was ready. -/
def execQuantumExpiry (tile : Nat) (s : State) : Host.Outcome State Fault Refusal :=
  .next (if Config.quantum ≤ (s.tile tile).quantum then s.setTile tile { s.tile tile with expired := true } else s)

/-! ### Results, ports and causes -/

/-- RESULT_WRITEBACK: results due by now are written (04 R88). -/
def execResultWriteback (tile ctx : Nat) (s : State) : Host.Outcome State Fault Refusal := .next (s.landDue tile ctx)

/-- MOULD_REPLAY: replayed entries whose clk has come are written (03 R63, R70). -/
def execMouldReplay (tile ctx : Nat) (s : State) : Host.Outcome State Fault Refusal :=
  .next (if (s.ctxAt tile ctx).pending.isEmpty then s else s.landDue tile ctx)

/-- RETURN_PORT_DELIVER (04 R90). -/
def execReturnPortDeliver (tile ctx port : Nat) (s : State) : Host.Outcome State Fault Refusal :=
  .next (s.deliver tile ctx port)

/-- ENGINE_CAUSE_TAKE: a strand of a crew that is being pre-empted takes its causes at resume (15 R321). -/
def execEngineCauseTake (tile ctx : Nat) (s : State) : Host.Outcome State Fault Refusal :=
  .next (if (s.tile tile).held then s else s.takeCause tile ctx)

/-- SIDE_LOG_REPLAY (10 R214). -/
def execSideLogReplay (tile : Nat) (s : State) : Host.Outcome State Fault Refusal := .next (s.replayLog tile)

/-! ### Retirement (18 R381, R382, 02 R33, 15 R331) -/

/-- Every result of a strand that has issued EXIT has landed, and its stores have left its side log and request path. -/
def Tile.drained (t : Tile) (c : Nat) : Bool :=
  let x := t.ctx c
  x.pending.isEmpty && x.ports.all (fun p => p.2.all (fun e => (e.arrived && !e.lost) || e.failed.isSome)) &&
    !t.logged c && x.storeQ.isEmpty && x.fences.isEmpty

/-- Causes still queued are posted with RETIRED set (15 R321). -/
def State.postRetired (s : State) (t c : Nat) : State :=
  let x := s.ctxAt t c
  x.causes.foldl (fun (s : State) e => s.postTrap t c kindEngine 4 e.cause e.info (x.readCsr 0x09).toNat)
    (s.setCtxAt t c { x with causes := [] })

/-- STRAND_RETIRE: what EXIT leaves to do once everything owed has landed; a handler's context becomes dormant again.
(log 69: DEDUCED) -/
def State.retireStrand (s : State) (t c : Nat) : State :=
  let x := s.ctxAt t c
  if x.run != .exiting || !(s.tile t).drained c then s
  else if x.handler then s.setCtxAt t c { x with run := .dormant, handler := false, ports := [] }
  else
    let s := s.postRetired t c
    let s := (s.releaseAdopt (s.tileVf t) (x.readCsr 0x07)).tjFree (s.tileVf t) x.tjHandle
    let x := s.ctxAt t c
    let x := { x.writeCsr 0x07 (x.readCsr 0x07 &&& ~~~(0x20000 : Word)) with
      run := .retired, ports := [], binds := [], tjHandle := 0 }
    (s.setCtxAt t c x).episodes t

def execStrandRetire (tile ctx : Nat) (s : State) : Host.Outcome State Fault Refusal := .next (s.retireStrand tile ctx)

/-- An engine still serves an operation of the crew of a tile. -/
def State.forked (s : State) (t : Nat) : Bool :=
  let x := s.tile t
  let i := s.issuer t 0
  !x.mq.isEmpty || !x.follows.isEmpty || !x.cq.isEmpty || !x.sigq.isEmpty || !x.sumq.isEmpty || !x.sideLog.isEmpty ||
    x.fills.any (fun f => f.2.isSome) || !x.landings.isEmpty || crewCmds s.mortarQ i != 0 || crewCmds s.crownQ i != 0 ||
    crewCmds s.brimQ i != 0 || (List.range 4).any (fun c => (x.ctx c).nColl != 0 || (x.ctx c).nBlock != 0)

/-- The crew of a tile may retire. -/
def State.crewDone (s : State) (t : Nat) : Bool :=
  let x := s.tile t
  match x.crew with
  | none => false
  | some w => !w.frozen && (List.range 4).all (fun c =>
      let r := (x.ctx c).run
      r == .idle || r == .retired || r == .fatal || r == .dormant) && !s.forked t

/-- CREW_RETIRE: the crew is counted among the retired ones of its gang; its tile stays its until the gang retires. -/
def State.retireCrew (s : State) (t : Nat) : State :=
  match (s.tile t).crew with
  | none => s
  | some w =>
    match s.gang w.gang with
    | none => s
    | some g =>
      if !s.crewDone t || g.retired.contains w.idx then s
      else { s with gangs := Sparse.set none s.gangs w.gang (some { g with retired := g.retired ++ [w.idx] }) }

def execCrewRetire (tile : Nat) (s : State) : Host.Outcome State Fault Refusal := .next (s.retireCrew tile)

end Sys2Proof.Machine
end

