-- ==== Sys2Proof/Machine/Link.lean ====
section
/-! DEFINITION. The Dravy Link: routes, sending against credits, the replay buffer, acks, naks and credits, retraining and
loss of a port (13 R297 to R300, 15 R337). -/
namespace Sys2Proof.Machine

/-! ### Ports -/

def State.link (s : State) (p : Nat) : LinkPort := Sparse.get {} s.links p
def State.setLink (s : State) (p : Nat) (x : LinkPort) : State := { s with links := Sparse.set {} s.links p x }

/-- The unit that counts a port's soft errors: its die, or the hub die for DL16 and DL17 (01 R14, 15 R337). -/
def linkUnit (p : Nat) : Nat := if p < 16 then p / 4 else 4

/-- Receive-buffer flits that R299 gives VC0, and none to another channel until its share is set. -/
def vcDefault (vc : Nat) : Nat := if vc = 0 then 32 else 0
def LinkPort.credit (x : LinkPort) (vc : Nat) : Nat := (Sparse.get none x.credits vc).getD (vcDefault vc)
def LinkPort.setCredit (x : LinkPort) (vc n : Nat) : LinkPort := { x with credits := Sparse.set none x.credits vc (some n) }
def LinkPort.grant (x : LinkPort) (vc : Nat) : Nat := (Sparse.get none x.granted vc).getD (vcDefault vc)
def LinkPort.setGrant (x : LinkPort) (vc n : Nat) : LinkPort := { x with granted := Sparse.set none x.granted vc (some n) }
def LinkPort.share (x : LinkPort) (vc : Nat) : Nat := if vc = 0 then 32 else Sparse.get 0 x.shares vc

/-- The port carries flits. -/
def LinkPort.up (x : LinkPort) : Bool := !x.down && x.retrain.isNone

/-! ### Sending (R298, R299) -/

/-- Flits kept for replay. -/
def replayDepth : Nat := 512

/-- The channel served next: VC0, else the first after the one served last that has a flit and a credit. -/
def LinkPort.nextVc (x : LinkPort) : Option Nat :=
  let can := fun (vc : Nat) => decide (0 < x.credit vc) && x.waiting.any (fun f => f.vc == vc)
  if can 0 then some 0 else ((List.range 7).map (fun i => 1 + (x.rr + i) % 7)).find? can

/-- Flits leave a port while it has credits and room to keep them; n bounds how many. -/
def State.pump (s : State) (p : Nat) : Nat → State
  | 0 => s
  | n + 1 =>
    let x := s.link p
    if !x.up || decide (replayDepth ≤ x.replay.length) then s
    else match x.nextVc with
      | none => s
      | some vc =>
        match x.waiting.find? (fun f => f.vc == vc) with
        | none => s
        | some f =>
          let g := { f with seq := x.txSeq, ackseq := (x.rxSeq + 4095) % 4096 }
          let x := { x.setCredit vc (x.credit vc - 1) with
            txSeq := (x.txSeq + 1) % 4096, replay := x.replay ++ [g], waiting := x.waiting.erase f
            rr := if vc = 0 then x.rr else vc % 7 }
          ({ s.setLink p x with sent := s.sent ++ [(p, g)] }).pump p n

def State.pumpAll (s : State) (p : Nat) : State := s.pump p (s.link p).waiting.length

/-- The port for a destination and lane: the first of its list that is not down (R300). -/
def State.route (s : State) (dest lane : Nat) : Option Nat :=
  (Sparse.get [] s.routes (8 * dest + lane)).find? (fun p => !(s.link p).down)

/-- A destination that some lane can reach. -/
def State.reaches (s : State) (dest : Nat) : Bool := (List.range 8).any (fun l => (s.route dest l).isSome)

/-- A flit joins those that wait at its port; to an unreachable module it is lost (R294). -/
def State.sendFlit (s : State) (f : Flit) : State :=
  match s.route f.dest f.lane with
  | none => s
  | some p => (s.setLink p { s.link p with waiting := (s.link p).waiting ++ [f] }).pumpAll p

/-- A message for a module, with the next number of those sent to it. (log 83: DESIGN CHOICE) -/
def State.sendPay (s : State) (dest vc lane : Nat) (pay : FlitPay) : State :=
  let n := Sparse.get 0 s.linkTx dest
  ({ s with linkTx := Sparse.set 0 s.linkTx dest (n + 1) } : State).sendFlit
    { dest, seq := 0, ackseq := 0, vc, lane, pay, src := s.nodeId.toNat, num := n }

/-- The same payload to several modules. -/
def State.sendAll (s : State) (dests : List Nat) (vc lane : Nat) (pay : FlitPay) : State :=
  dests.foldl (fun s d => s.sendPay d vc lane pay) s

/-- An ack, a nak or a credit to the peer of a port: it takes no credit and no sequence number. -/
def State.sendControl (s : State) (p vc : Nat) (pay : FlitPay) : State :=
  let x := s.link p
  if !x.up then s
  else { s with sent := s.sent ++ [(p, { dest := 0, seq := x.txSeq, ackseq := (x.rxSeq + 4095) % 4096, vc, lane := 0, pay })] }

/-- Credits of a channel are given to the peer up to the channel's share. -/
def State.grantTo (s : State) (p vc : Nat) : State :=
  let x := s.link p
  let n := x.share vc - x.grant vc
  if n = 0 then s else (s.setLink p (x.setGrant vc (x.share vc))).sendControl p vc (.credit n)

/-! ### Receiving (R298) -/

/-- What a numbered flit is: the next in order, a duplicate, or after a gap. -/
inductive Arrival where
  | inOrder | duplicate | gap
  deriving DecidableEq, Repr

def LinkPort.arrival (x : LinkPort) (seq : Nat) : Arrival :=
  let d := (x.rxSeq + 4096 - seq % 4096) % 4096
  if d = 0 then .inOrder else if d ≤ 2048 then .duplicate else .gap

/-- A nak with the last good number; d is the distance of the flit discarded from the one asked for. -/
def State.nakPort (s : State) (p d : Nat) : State :=
  (s.setLink p { s.link p with nakked := some d }).sendControl p 0 .nak

/-- A flit behind a gap is discarded. Those that follow one that has been asked for are discarded too, without another nak,
until they start again from below: then a replay has failed. -/
def State.gapAt (s : State) (p seq : Nat) : State :=
  let x := s.link p
  let d := (seq % 4096 + 4096 - x.rxSeq) % 4096
  match x.nakked with
  | some r => if r < d then s.setLink p { x with nakked := some d } else s.nakPort p d
  | none => s.nakPort p d

/-- Flits up to a number leave the replay buffer. -/
def LinkPort.acked (x : LinkPort) (seq : Nat) : LinkPort :=
  if x.replay.any (fun f => f.seq == seq) then
    { x with replay := (x.replay.dropWhile (fun f => f.seq != seq)).drop 1, fails := 0 }
  else x

/-- An ack. -/
def State.ackPort (s : State) (p seq : Nat) : State := (s.setLink p ((s.link p).acked seq)).pumpAll p

def execAckFlit (port ackseq : Nat) (s : State) : Host.Outcome State Fault Refusal :=
  .next (if (s.link port).up then s.ackPort port ackseq else s)

/-- Credits of a channel arrive. -/
def execCreditFlit (port vc count : Nat) (s : State) : Host.Outcome State Fault Refusal :=
  .next (
    let x := s.link port
    if x.up then (s.setLink port (x.setCredit vc (x.credit vc + count))).pumpAll port else s)

/-- The unacknowledged flits are sent again, in order; each counts as a soft error of the link. (log 89: DEDUCED) -/
def State.replayPort (s : State) (p : Nat) : State :=
  let fs := (s.link p).replay
  let s := { s with sent := s.sent ++ fs.map (fun f => (p, f)) }
  fs.foldl (fun (s : State) _ => (List.range 4).foldl (fun s d => s.monitor d (monReplays p) 16 1) (s.softError (linkUnit p) 12)) s

/-- NAK_FLIT: what is acknowledged goes, and the rest is replayed, until 16 replays in a row have failed. -/
def execNakFlit (port ackseq : Nat) (s : State) : Host.Outcome State Fault Refusal :=
  .next (
    if !(s.link port).up then s
    else
      let x := (s.link port).acked ackseq
      let s := s.setLink port { x with fails := x.fails + 1 }
      if x.fails < 16 then s.replayPort port else s)

/-- A flit that fails its CRC is discarded, and what comes after it is behind a gap. -/
def execBadCrcFlit (port : Nat) (s : State) : Host.Outcome State Fault Refusal :=
  .next (if (s.link port).up then s.nakPort port (((s.link port).nakked).getD 0) else s)

/-- A flit of an unknown TYPE is dropped and counted (R297). -/
def execBadTypeFlit (port : Nat) (s : State) : Host.Outcome State Fault Refusal :=
  .next (if (s.link port).up then s.softError (linkUnit port) 14 else s)

/-! ### The flit's bytes (R297) -/

/-- CRC-32 of IEEE 802.3: one byte, and a run of bytes. -/
def crcByte (c : BitVec 32) (b : Byte) : BitVec 32 :=
  (List.range 8).foldl (fun c _ => if c.getLsbD 0 then (c >>> 1) ^^^ 0xEDB88320 else c >>> 1) (c ^^^ b.setWidth 32)
def crc32 (bs : List Byte) : BitVec 32 := ~~~(bs.foldl crcByte (BitVec.allOnes 32))

/-- TYPE: data on the channels of communicators, credit, ack, nak, or management. -/
def flitType : FlitPay → Nat
  | .head _ _ _ _ | .piece _ _ _ _ _ _ | .landed _ _ _ | .claim _ _ _ _ => 1
  | .credit _ => 2
  | .ack => 3
  | .nak => 4
  | .mismatch _ _ | .abort _ | .lost _ _ | .pause _ _ | .begun _ _ _ | .stop _ _ | .resumed _ _ | .resume _
  | .ask _ _ _ _ _ _ | .room _ _ _ _ _ | .refuse _ _ _ => 5

/-- The header of a flit: TYPE, VC, LANE, SEQ and ACKSEQ. -/
def flitHeader (f : Flit) : Nat :=
  flitType f.pay + 2 ^ 8 * (f.vc % 8) + 2 ^ 11 * (f.lane % 8) + 2 ^ 14 * (f.seq % 4096) + 2 ^ 26 * (f.ackseq % 4096)

/-- Bytes 0 to 251 of a flit; R297 lays out no payload, and its bytes are free. -/
def flitBody (f : Flit) : List Byte :=
  natBytes 8 (flitHeader f) ++ (List.range 240).map (Config.payload f.src f.dest f.num) ++ natBytes 4 0

/-- The 256 bytes of a flit. -/
def flitImage (f : Flit) : List Byte := flitBody f ++ natBytes 4 (crc32 (flitBody f)).toNat

/-- What a receiver checks: a flit that fails is BAD_CRC_FLIT, and one of another TYPE is BAD_TYPE_FLIT. -/
def crcGood (img : List Byte) : Bool := imgNat img 252 4 == (crc32 (img.take 252)).toNat
def typeGood (img : List Byte) : Bool := [1, 2, 3, 4, 5].contains (imgNat img 0 1)

/-! ### Retraining and loss (R298, R300) -/

/-- PORT_RETRAIN, after 16 failed replays. -/
def execPortRetrain (port : Nat) (s : State) : Host.Outcome State Fault Refusal :=
  .next (
    let x := s.link port
    if x.up ∧ 16 < x.fails then (s.setLink port { x with retrain := some s.clk }).softError (linkUnit port) 13 else s)

/-- RETRAIN_COMPLETE: the port carries flits again, those that were not acknowledged first. -/
def execRetrainComplete (port : Nat) (s : State) : Host.Outcome State Fault Refusal :=
  .next (
    let x := s.link port
    if x.down ∨ x.retrain.isNone then s
    else ((s.setLink port { x with retrain := none, fails := 0, nakked := none }).replayPort port).pumpAll port)

/-- Time that a port has to retrain. -/
def retrainClk : Nat := 2 ^ 22

/-- A port that has not retrained in time. -/
def State.portFails (s : State) (p : Nat) : Bool :=
  match (s.link p).retrain with
  | some t => !(s.link p).down && decide (t + retrainClk ≤ s.clk)
  | none => false

/-- PORT_DOWN: the port's flits are sent again on the next ports of their destinations. -/
def execPortDown (port : Nat) (s : State) : Host.Outcome State Fault Refusal :=
  .next (
    if !s.portFails port then s
    else
      let x := s.link port
      let fs := x.replay ++ x.waiting
      let s := (s.setLink port { x with down := true, replay := [], waiting := [] }).softError (linkUnit port) 13
      fs.foldl State.sendFlit s)

end Sys2Proof.Machine
end

