-- ==== Sys2Proof/Machine/Mesh.lean ====
section
/-! DEFINITION. Meshes and groups, sharding layouts and the steps of a reshard, the combination of contributions, and the
optimiser's arithmetic (13 R273, R283, R287 to R291). -/
namespace Sys2Proof.Machine

/-! ### Meshes (R273) -/

def axisSize (axes : List Nat) (i : Nat) : Nat := axes.getD i 1
/-- Coordinate i of a rank. -/
def coordOn (axes : List Nat) (r i : Nat) : Nat := r / (axes.take i).foldl (· * ·) 1 % axisSize axes i
/-- The axes of a mask; all of them for 0. -/
def maskAxes (mask : Nat) : List Nat := (List.range 4).filter (fun i => mask % 16 == 0 || mask / 2 ^ i % 2 == 1)
/-- Two ranks agree on every axis outside a mask. -/
def sameGroup (axes : List Nat) (mask a b : Nat) : Bool :=
  (List.range 4).all (fun i => (maskAxes mask).contains i || coordOn axes a i == coordOn axes b i)
/-- The group of a rank, in ascending group rank. -/
def meshGroup (axes : List Nat) (nrank mask r : Nat) : List Nat := (List.range nrank).filter (sameGroup axes mask r)

/-! ### Combination (R283) -/

/-- Bytes of an element; structures and untyped data move as bytes. -/
def collElem (dtype : Nat) : Nat :=
  match dtype with
  | 1 | 7 | 0xA => 4
  | 2 | 8 => 2
  | _ => 1

/-- The elements of some bytes. -/
def elemsOf (n : Nat) (bs : List Byte) : List Nat := (List.range (bs.length / n)).map (fun i => imgNat bs (n * i) n)

/-- Signed value of an element of w bits. -/
def signedElem (w x : Nat) : Int := if 2 ^ (w - 1) ≤ x then (x : Int) - 2 ^ w else x
def unsignedElem (w : Nat) (i : Int) : Nat := (i % 2 ^ w).toNat

/-- One node of a reduction on FP32 codes or integer elements. -/
def collNode (dtype : Nat) (mx sat : Bool) (a b : Nat) : Nat :=
  let w := 8 * collElem dtype
  if dtype = 1 ∨ dtype = 2 then
    if mx then (fround fp32 .rne (fmax (fdecode fp32 a) (fdecode fp32 b))).code
    else (fadd fp32 .rne (fdecode fp32 a) (fdecode fp32 b)).code
  else if dtype = 0xA then
    if mx then Nat.max a b else if sat then Nat.min (a + b) (2 ^ w - 1) else (a + b) % 2 ^ w
  else
    let x := signedElem w a
    let y := signedElem w b
    if mx then (if x < y then b else a)
    else if sat then unsignedElem w (clampInt (-(2 ^ (w - 1))) (2 ^ (w - 1) - 1) (x + y)).1
    else (a + b) % 2 ^ w

/-- One element from those of the group in ascending rank: bf16 is summed as FP32 and rounded once. -/
def collFold (dtype : Nat) (mx sat : Bool) (xs : List Nat) : Nat :=
  let up := fun (x : Nat) => if dtype = 2 then x * 2 ^ 16 else x
  match xs with
  | [] => 0
  | x :: rest =>
    let r := rest.foldl (fun a b => collNode dtype mx sat a (up b)) (up x)
    if dtype = 2 then (fround bf16 .rne (fdecode fp32 r)).code else r

/-- Contributions of one length combined element by element. -/
def combine (dtype : Nat) (mx sat : Bool) (parts : List (List Byte)) : List Byte :=
  let n := collElem dtype
  let es := parts.map (elemsOf n)
  let k := (parts.headD []).length / n
  (List.range k).flatMap (fun i => natBytes n (collFold dtype mx sat (es.map (fun e => e.getD i 0))))

/-- Summaries merged in ascending rank, coins from the first (09 R199); none where one is malformed or differs. -/
def mergeAll (ty : Nat) (parts : List (List Byte)) : Option (List Byte) :=
  match parts with
  | [] => none
  | p :: rest =>
    if (parts.any (fun q => (mergeBad ty p q).isSome)) then none
    else some (rest.foldl (fun d q => (mergeImages d q none).1) p)

/-! ### Layouts (R287) -/

/-- A layout from its 32 bytes. -/
def layoutOf (b : List Byte) (o : Nat) : Layout :=
  { lists := (List.range 4).map (fun d =>
      let x := imgNat b (o + 4 + 2 * d) 2
      (List.range (Nat.min (x % 8) 4)).map (fun j => bits x (9 + 2 * j) (8 + 2 * j)))
    pend := imgNat b (o + 1) 1 % 16 }

/-- The 32 bytes are a layout. -/
def layoutValid (b : List Byte) (o : Nat) : Bool :=
  let l := layoutOf b o
  let rank := imgNat b o 1
  let all := l.lists.flatMap id
  decide (1 ≤ rank) && decide (rank ≤ 4) && imgNat b (o + 1) 1 < 16 && imgNat b (o + 2) 2 == 0 &&
    imgNat b (o + 0xC) 20 == 0 &&
    (List.range 4).all (fun d => let x := imgNat b (o + 4 + 2 * d) 2
      decide (x % 8 ≤ 4) && x / 8 % 32 == 0 && (decide (d < rank) || x % 8 == 0)) &&
    decide (all.eraseDups.length = all.length) && all.all (fun a => l.pend / 2 ^ a % 2 == 0)

def Layout.splits (l : Layout) (a : Nat) : Bool := l.lists.any (fun x => x.contains a)
def Layout.pends (l : Layout) (a : Nat) : Bool := l.pend / 2 ^ a % 2 == 1
def Layout.list (l : Layout) (d : Nat) : List Nat := l.lists.getD d []
/-- Ranks that split dimension d. -/
def Layout.ways (l : Layout) (axes : List Nat) (d : Nat) : Nat := (l.list d).foldl (fun n a => n * axisSize axes a) 1
/-- Extent of a shard in dimension d. -/
def Layout.extent (l : Layout) (axes dims : List Nat) (d : Nat) : Nat := nth dims d / l.ways axes d
/-- Elements of a shard. -/
def Layout.count (l : Layout) (axes dims : List Nat) : Nat :=
  (List.range 4).foldl (fun n d => n * l.extent axes dims d) 1
/-- Every dimension divides. -/
def Layout.divides (l : Layout) (axes dims : List Nat) : Bool :=
  (List.range 4).all (fun d => nth dims d % l.ways axes d == 0)

/-- The number of a rank's block in dimension d, its axes taken major first. -/
def Layout.block (l : Layout) (axes : List Nat) (r d : Nat) : Nat :=
  (l.list d).foldl (fun b a => b * axisSize axes a + coordOn axes r a) 0

/-- Global indices of element e of a rank's shard. -/
def Layout.global (l : Layout) (axes dims : List Nat) (r e : Nat) : List Nat :=
  ((List.range 4).foldl (fun (x : List Nat × Nat) d =>
    let n := l.extent axes dims d
    (x.1 ++ [l.block axes r d * n + x.2 % n], x.2 / n)) ([], e)).1

/-- Where an element lies within the shard that holds it. -/
def Layout.local (l : Layout) (axes dims g : List Nat) : Nat :=
  ([3, 2, 1, 0]).foldl (fun e d => let n := l.extent axes dims d; e * n + nth g d % n) 0

/-- The layout in which axis a lies now: while all-to-alls are under way, the goal for an axis that has moved. -/
def Layout.now (l : Layout) (a : Nat) : Layout :=
  { lists := if l.moved / 2 ^ a % 2 = 1 then l.goal else l.lists, pend := l.pend }

/-- The coordinate on axis a of the ranks that hold an element; `own` where the layout does not split by a. -/
def Layout.holder (l : Layout) (axes dims g : List Nat) (own a : Nat) : Nat :=
  let l := l.now a
  match (List.range 4).find? (fun d => (l.list d).contains a) with
  | none => own
  | some d =>
    let after := ((l.list d).dropWhile (fun x => x != a)).drop 1
    let b := nth g d / l.extent axes dims d
    b / after.foldl (fun n x => n * axisSize axes x) 1 % axisSize axes a

/-- The rank that gives an element to rank r: r itself but for the axes that split. -/
def Layout.giver (l : Layout) (axes dims g : List Nat) (r : Nat) : Nat :=
  ([3, 2, 1, 0]).foldl (fun n a => n * axisSize axes a + l.holder axes dims g (coordOn axes r a) a) 0

/-- The global indices of a rank's shard in the order in which it is stored; while all-to-alls are under way, in ascending
order. -/
def Layout.shard (l : Layout) (axes dims : List Nat) (r : Nat) : List (List Nat) :=
  if l.moved = 0 then (List.range (l.count axes dims)).map (l.global axes dims r)
  else
    let whole : Layout := { lists := [], pend := 0 }
    ((List.range (whole.count axes dims)).map (whole.global axes dims 0)).filter (fun g =>
      (List.range 4).all (fun a => l.holder axes dims g (coordOn axes r a) a == coordOn axes r a))

/-- Elements of a rank's shard. -/
def Layout.size (l : Layout) (axes dims : List Nat) (r : Nat) : Nat :=
  if l.moved = 0 then l.count axes dims else (l.shard axes dims r).length

/-- Where an element lies within the shard of a rank that holds it. -/
def Layout.index (l : Layout) (axes dims : List Nat) (r : Nat) (g : List Nat) : Nat :=
  if l.moved = 0 then l.local axes dims g else (l.shard axes dims r).idxOf g

/-! ### The steps of a reshard (R288) -/

/-- A layout with axis a at the minor end of dimension d and no longer pending. -/
def Layout.join (l : Layout) (a d : Nat) : Layout :=
  { lists := l.lists.zipIdx.map (fun x => if x.2 = d then x.1 ++ [a] else x.1)
    pend := if l.pends a then l.pend - 2 ^ a else l.pend }
def Layout.drop (l : Layout) (a : Nat) : Layout := { l with lists := l.lists.map (fun x => x.filter (fun y => y != a)) }
def Layout.settle (l : Layout) (a : Nat) : Layout := { l with pend := if l.pends a then l.pend - 2 ^ a else l.pend }

/-- Mask of some axes. -/
def axesMask (as : List Nat) : Nat := (as.map (fun a => 2 ^ a)).sum

/-- Steps made one after another; each starts in the layout that the one before left. -/
def chain (l : Layout) (f : Layout → Nat → Layout) (g : Layout → Nat → CollStep) : List Nat → List CollStep × Layout
  | [] => ([], l)
  | a :: rest => let r := chain (f l a) f g rest; (g l a :: r.1, r.2)

/-- Step 2 leaves T's lists followed by the axes still to be gathered. -/
def movedLayout (s t l : Layout) : Layout :=
  { l with lists := (List.range 4).map (fun d => t.list d ++ (s.list d).filter (fun a => !t.splits a && !t.pends a)) }

/-- No axis has to move: what a dimension keeps is a beginning of T's list, before the axes to be gathered. -/
def inPlace (s t l : Layout) : Bool :=
  (List.range 4).all (fun d =>
    let gath := (s.list d).filter (fun a => !t.splits a && !t.pends a)
    l.list d == (t.list d).take ((l.list d).length - gath.length) ++ gath)

/-- Dimension and position of an axis, and the ranks by which the axes before it split: an axis that differs in any moves. -/
def Layout.place (l : Layout) (axes : List Nat) (a : Nat) : Option (Nat × Nat × Nat) :=
  ((List.range 4).find? (fun d => (l.list d).contains a)).map (fun d =>
    (d, (l.list d).idxOf a, ((l.list d).takeWhile (fun b => b != a)).foldl (fun n b => n * axisSize axes b) 1))

/-- The layout once the first n of some axes have moved to their places in a goal. -/
def Layout.moving (l goal : Layout) (as : List Nat) (n : Nat) : Layout :=
  if n = 0 then l else if as.length ≤ n then goal else { l with moved := axesMask (as.take n), goal := goal.lists }

/-- Axes to be gathered, the lowest first of those at a minor end; n bounds them. -/
def gatherOrder (l : Layout) (as : List Nat) : Nat → List Nat
  | 0 => []
  | n + 1 =>
    match (List.range 4).find? (fun a => as.contains a && l.lists.any (fun x => x.getLast? == some a)) with
    | none => []
    | some a => a :: gatherOrder (l.drop a) (as.filter (fun b => b != a)) n

/-- The steps with their first chunks numbered. -/
def numberSteps (ch : Nat) : Nat → List CollStep → List CollStep
  | _, [] => []
  | b, x :: rest => { x with base := b } :: numberSteps ch (b + Nat.max 1 ((x.vec + ch - 1) / ch)) rest

/-- The steps from S to T for elements of n bytes; the last leaves T, an axis unused in S being applied by its rank.
(log 85: DEDUCED) -/
def reshardSteps (axes dims : List Nat) (n ch : Nat) (s t : Layout) : List CollStep :=
  let size := fun (l : Layout) => n * l.count axes dims
  let four := List.range 4
  let dimOf := fun (a : Nat) => (four.find? (fun d => (t.list d).contains a)).getD 0
  let r1 := chain s (fun l a => l.join a (dimOf a))
    (fun l a => { kind := 1, mask := 2 ^ a, vec := size l, base := 0, fromL := l, toL := l.join a (dimOf a) })
    (four.filter (fun a => s.pends a && t.splits a))
  let l1 := r1.2
  let l2 := if inPlace s t l1 then l1 else movedLayout s t l1
  let as := if inPlace s t l1 then [] else four.filter (fun a => l1.splits a && l2.splits a && l1.place axes a != l2.place axes a)
  let most := fun (l : Layout) => n * ((List.range (axes.foldl (· * ·) 1)).map (l.size axes dims)).foldl Nat.max 0
  let r2 := (List.range as.length).map (fun i =>
    ({ kind := 5, mask := 2 ^ nth as i, vec := most (l1.moving l2 as (i + 1)), base := 0
       fromL := l1.moving l2 as i, toL := l1.moving l2 as (i + 1) } : CollStep))
  let gath := four.filter (fun a => l2.splits a && !t.splits a && !t.pends a)
  let r3 := chain l2 (fun l a => l.drop a)
    (fun l a => { kind := 0, mask := 2 ^ a, vec := size (l.drop a), base := 0, fromL := l, toL := l.drop a })
    (gatherOrder l2 gath 4)
  let r4 := chain r3.2 (fun l a => l.settle a)
    (fun l a => { kind := 2, mask := 2 ^ a, vec := size l, base := 0, fromL := l, toL := l.settle a })
    (four.filter (fun a => s.pends a && !t.splits a && !t.pends a))
  let steps := r1.1 ++ r2 ++ r3.1 ++ r4.1
  let steps := match steps.getLast? with
    | none => [({ kind := 6, mask := 1, vec := size s, base := 0, fromL := s, toL := t } : CollStep)]
    | some x => steps.dropLast ++ [{ x with toL := t }]
  numberSteps ch 0 steps

/-- A rank's output of a step from the inputs of its group. -/
def reshardOut (axes dims : List Nat) (dtype : Nat) (sat : Bool) (st : CollStep) (r : Nat) (inputs : List (Nat × List Byte)) :
    List Byte :=
  let n := collElem dtype
  let at' := fun (bs : List Byte) (e : Nat) => imgNat bs (n * e) n
  (st.toL.shard axes dims r).flatMap (fun g =>
    natBytes n (
      if st.kind = 1 ∨ st.kind = 2 then collFold dtype false sat (inputs.map (fun x => at' x.2 (st.fromL.local axes dims g)))
      else
        let from' := st.fromL.giver axes dims g r
        match inputs.find? (fun x => x.1 == from') with
        | some x => at' x.2 (st.fromL.index axes dims from' g)
        | none => 0))

/-! ### The optimiser (R291) -/

def fop (a : Nat) : FVal := fdecode fp32 a
def opAdd (a b : Nat) : Nat := (fadd fp32 .rne (fop a) (fop b)).code
def opMul (a b : Nat) : Nat := (fmul fp32 .rne (fop a) (fop b)).code
def opFma (a b c : Nat) : Nat := (ffma fp32 .rne (fop a) (fop b) (fop c)).code
def opNeg (a : Nat) : Nat := if 2 ^ 31 ≤ a then a - 2 ^ 31 else a + 2 ^ 31
def opNaN : Nat := fp32.nanCode

/-- A quotient rounded once. -/
def opDiv (a b : Nat) : Nat :=
  match fop a, fop b with
  | .nan, _ => opNaN
  | _, .nan => opNaN
  | .inf _, .inf _ => opNaN
  | .inf x, .fin y _ _ => finf fp32 (x != y)
  | .fin x _ _, .inf y => fsign fp32 (x != y)
  | .fin x m e, .fin y n f =>
    if n = 0 then (if m = 0 then opNaN else finf fp32 (x != y))
    else
      let u := scale2 m e
      let v := scale2 n f
      (roundRat fp32 .rne (x != y) (u.1 * v.2) (u.2 * v.1)).code

/-- A square root rounded once: the integer root of the scaled magnitude, with a bit that says whether it is exact. -/
def opSqrt (a : Nat) : Nat :=
  match fop a with
  | .nan => opNaN
  | .inf neg => if neg then opNaN else a
  | .fin neg m e =>
    if m = 0 then a
    else if neg then opNaN
    else
      let odd := (e % 2).toNat
      let n := m * 2 ^ odd * 2 ^ 64
      let r := isqrtBits n 64 0
      let x := scale2 (2 * r + (if r * r = n then 0 else 1)) ((e - odd) / 2 - 33)
      (roundRat fp32 .rne false x.1 x.2).code

/-- round_rne(1 - B^t) from the exact power. -/
def opOneLessPow (b t : Nat) : Nat :=
  match fop b with
  | .nan => opNaN
  | .inf neg => finf fp32 !(neg && t % 2 == 1)
  | .fin neg m e =>
    let x := scale2 (m ^ t) (e * t)
    let p : Int := if neg && t % 2 == 1 then -(x.1 : Int) else x.1
    let d : Int := (x.2 : Int) - p
    (roundRat fp32 .rne (decide (d < 0)) d.natAbs x.2).code

/-- The fields of an optimiser descriptor (R290). -/
def optKind (b : List Byte) : Nat := imgNat b 0 1
def optF (b : List Byte) (i : Nat) : Nat := imgNat b (4 + 4 * i) 4
def optStep (b : List Byte) : Nat := imgNat b 0x1C 4

/-- New weight and moments of an element from its reduced gradient: w, m, v. (log 80: DEDUCED) -/
def optElem (b : List Byte) (c1 c2 r w m v : Nat) : Nat × Nat × Nat :=
  let lr := optF b 0
  let b1 := optF b 1
  let b2 := optF b 2
  let eps := optF b 3
  let wd := optF b 4
  let g := opMul (optF b 5) r
  let one := 0x3F800000
  if optKind b = 1 then
    let m := opFma b1 m (opFma wd w g)
    (opFma (opNeg lr) m w, m, v)
  else if optKind b = 2 then
    let m := opFma b1 m (opMul (opAdd one (opNeg b1)) g)
    let v := opFma b2 v (opMul (opAdd one (opNeg b2)) (opMul g g))
    let d := opDiv (opDiv m c1) (opAdd (opSqrt (opDiv v c2)) eps)
    (opFma (opNeg lr) (opFma wd w d) w, m, v)
  else (g, m, v)

/-- A run of elements: BF16 outputs, and the new weights and moments. -/
def optRun (b : List Byte) (rs ws ms vs : List Nat) : List Byte × List Byte × List Byte × List Byte :=
  let c1 := opOneLessPow (optF b 1) (optStep b)
  let c2 := opOneLessPow (optF b 2) (optStep b)
  let xs := (List.range rs.length).map (fun i => optElem b c1 c2 (nth rs i) (nth ws i) (nth ms i) (nth vs i))
  let out := fun (w : Nat) => natBytes 2 (fround bf16 .rne (fop w)).code
  (xs.flatMap (fun x => out x.1), xs.flatMap (fun x => natBytes 4 x.1), xs.flatMap (fun x => natBytes 4 x.2.1),
    xs.flatMap (fun x => natBytes 4 x.2.2))

end Sys2Proof.Machine
end

