-- ==== Sys2Proof/Machine/Hod.lean ====
section
/-! DEFINITION. The Hods: issue of collective commands, their descriptors, and how collectives run chunk by chunk to their
outcomes (13 R274 to R286, R290 to R293, R296, 17 R364, R365, 09 R199). -/
namespace Sys2Proof.Machine

/-! ### Issue (R276 to R278, R364) -/

/-- The E slot of a collective command: descriptor of n bytes. -/
def State.collIssue (s : State) (op n : Nat) (f : EFields) : Res State :=
  if 16 ≤ s.ctx.nColl then .block .collectives
  else (s.descCheck f n 64).bind fun r =>
    let k := s.takeOp
    let c : CollCmd := { id := k.1, op, tile := s.cur, iss := s.issuer s.cur s.curCtx, ct := f.ct.toNat, nr := eNr f
                         hnd := f.hnd.toNat, cseq := f.arg.toNat % 2 ^ 16, place := some r.2 }
    let s := k.2.statusEntry 10 k.1 c.nr
    .ok { s.setCtx { s.ctx with nColl := s.ctx.nColl + 1 } with hodQ := s.hodQ ++ [c] }

def execClabt (f : EFields) (s : State) : Host.Outcome State Fault Refusal := settle s (s.collIssue 0xD9 64 f)
def execClag (f : EFields) (s : State) : Host.Outcome State Fault Refusal := settle s (s.collIssue 0xDA 64 f)
def execClarSum (f : EFields) (s : State) : Host.Outcome State Fault Refusal := settle s (s.collIssue 0xDB 64 f)
def execClarMax (f : EFields) (s : State) : Host.Outcome State Fault Refusal := settle s (s.collIssue 0xDC 64 f)
def execClbar (f : EFields) (s : State) : Host.Outcome State Fault Refusal := settle s (s.collIssue 0xDD 64 f)
def execClbc (f : EFields) (s : State) : Host.Outcome State Fault Refusal := settle s (s.collIssue 0xDE 64 f)
def execClopt (f : EFields) (s : State) : Host.Outcome State Fault Refusal := settle s (s.collIssue 0xDF 64 f)
def execClrsSum (f : EFields) (s : State) : Host.Outcome State Fault Refusal := settle s (s.collIssue 0xE0 64 f)
def execClrsMax (f : EFields) (s : State) : Host.Outcome State Fault Refusal := settle s (s.collIssue 0xE1 64 f)
def execClrsh (f : EFields) (s : State) : Host.Outcome State Fault Refusal := settle s (s.collIssue 0xE2 160 f)
def execClst (f : EFields) (s : State) : Host.Outcome State Fault Refusal := settle s (s.collIssue 0xE3 64 f)

/-! ### Descriptors (R277) -/

def cdDtype (d : List Byte) : Nat := imgNat d 1 1
def cdChk (d : List Byte) : Nat := imgNat d 2 1
def cdPcn (d : List Byte) : Nat := imgNat d 3 1
def cdPcb (d : List Byte) : Nat := imgNat d 4 1
def cdFl (d : List Byte) : Nat := imgNat d 5 1
def cdMask (d : List Byte) : Nat := cdFl d / 16
def cdSat (d : List Byte) : Bool := cdFl d % 2 == 1
def cdChain (d : List Byte) : Bool := cdFl d / 2 % 2 == 1
def cdRoot (d : List Byte) : Nat := imgNat d 6 2
def cdLen (d : List Byte) : Nat := imgNat d 8 8
def cdChunk (d : List Byte) : Nat := 2 ^ (12 + cdChk d)

def isSummary (dtype : Nat) : Bool := dtype == tSketch || dtype == tHitter || dtype == tDistinct
def isNumber (dtype : Nat) : Bool := [1, 2, 7, 8, 9, 0xA].contains dtype
/-- Commands that move data. -/
def isData (op : Nat) : Bool := [0xDA, 0xDB, 0xDC, 0xDE, 0xE0, 0xE1, 0xE2].contains op
/-- DTYPE that a command allows (R364). -/
def dtypeAllowed (op dtype : Nat) : Bool :=
  if op = 0xDA ∨ op = 0xDE then dtype == 0 || isNumber dtype || isSummary dtype
  else if op = 0xDB then isNumber dtype || isSummary dtype
  else if isData op then isNumber dtype
  else dtype == 0

/-- The fields of a descriptor are such as R277 and R278 allow, whatever its communicator. -/
def descFieldsOk (op : Nat) (d : List Byte) : Bool :=
  imgNat d 0 1 == 1 && dtypeAllowed op (cdDtype d) && decide (cdChk d ≤ 4) && decide (cdPcn d ≤ 64) &&
    decide (cdPcb d + cdPcn d ≤ 256) && cdFl d / 4 % 4 == 0 &&
    (!cdSat d || (cdDtype d != 1 && cdDtype d != 2)) && (!cdChain d || op == 0xDA) && (op == 0xDE || cdRoot d == 0) &&
    (if isData op then decide (0 < cdLen d) && decide (cdLen d < 2 ^ 40) else cdLen d == 0) &&
    cdLen d % collElem (cdDtype d) == 0

/-- A capability stored at a place, with its tag. -/
def State.engCap (s : State) (i : Issuer) (p : Place) (o : Nat) : Option TCap :=
  match p with
  | .virt pasid va _ => s.vaCap pasid (va + o)
  | .spad off =>
    match s.crewState i.gang i.crew with
    | some t => some { bits := BitVec.ofNat 128 (bytesNat (s.crewBytes i (off + o) 16)), tag := Sparse.get false t.spadTag ((off + o) / 16) }
    | none => some {}

/-- A capability used from its LOW up for n bytes by the Hod. -/
def State.hodCap (s : State) (i : Issuer) (c : TCap) (n need : Nat) (u : Use) : Option (TCap × Place) :=
  let spad := match s.crewState i.gang i.crew with | some t => t.crewSpad | none => 0
  match s.capCheck i.vf spad c (capLow c) n need 1 u with
  | .ok p => some (c, p)
  | _ => none

/-- The crew of a strand takes no deliveries into its scratchpad now: its engines have stopped, or it is not resident
(03 R61). -/
def State.crewHeld (s : State) (i : Issuer) : Bool :=
  match s.crewTile i.gang i.crew with
  | some t => match (s.tile t).crew with
    | some w => w.stopped
    | none => true
  | none => true

/-- A delivery to a place is held for its crew. -/
def State.holdsSpad (s : State) (i : Issuer) (p : Place) : Bool :=
  match p with
  | .spad _ => s.crewHeld i
  | .virt _ _ _ => false

/-! ### Communicators (log 84: DESIGN CHOICE) -/
def commKey (vf cid : Nat) : Nat := 2 ^ 24 * vf + cid
def State.comm (s : State) (k : Nat) : Option Comm := Sparse.get none s.comms k
def State.setComm (s : State) (k : Nat) (x : Comm) : State := { s with comms := Sparse.set none s.comms k (some x) }
def Comm.member (x : Comm) (r : Nat) : Member := (Sparse.get none x.members r).getD { die := 0 }
def Comm.setMember (x : Comm) (r : Nat) (m : Member) : Comm := { x with members := Sparse.set none x.members r (some m) }
/-- Module of a rank. -/
def Comm.node (x : Comm) (r : Nat) : Nat := (x.table.getD r (0, 0)).1
/-- The other modules on which some ranks are. -/
def State.others (s : State) (x : Comm) (rs : List Nat) : List Nat :=
  ((rs.map x.node).eraseDups).filter (fun n => n != s.nodeId.toNat)
def Comm.group (x : Comm) (mask r : Nat) : List Nat := meshGroup x.axes x.nrank mask r
/-- A member's command changed. -/
def Comm.onCmd (x : Comm) (r id : Nat) (f : CollCmd → CollCmd) : Comm :=
  let m := x.member r
  x.setMember r { m with cmds := m.cmds.map (fun c => if c.id = id then f c else c) }
def State.onCmd (s : State) (k r id : Nat) (f : CollCmd → CollCmd) : State :=
  match s.comm k with
  | some x => s.setComm k (x.onCmd r id f)
  | none => s
/-- The channel of a communicator's data: a Crown's broadcasts go on VC2 (14 R307). (log 133: DEDUCED) -/
def Comm.channel (x : Comm) : Nat := if x.crown.isSome then 2 else x.vc
/-- Ranks that have a member here. -/
def Comm.ranks (x : Comm) : List Nat := x.members.map (fun m => m.1)

/-! ### Chunks (R276, R281, R283) -/

def stepChunks (ch : Nat) (x : CollStep) : Nat := Nat.max 1 ((x.vec + ch - 1) / ch)
/-- Chunks of a collective. -/
def CollCmd.chunks (c : CollCmd) : Nat :=
  match c.steps.getLast? with
  | some x => x.base + stepChunks (cdChunk c.desc) x
  | none => 0
/-- The step of a chunk, by number. -/
def CollCmd.stepAt (c : CollCmd) (q : Nat) : Option (Nat × CollStep) :=
  ((c.steps.zipIdx.filter (fun x => decide (x.1.base ≤ q))).getLast?).map (fun x => (x.2, x.1))
def CollCmd.isReshard (c : CollCmd) : Bool := c.op == 0xE2
def CollCmd.isMerge (c : CollCmd) : Bool := c.op == 0xDB && isSummary (cdDtype c.desc)

/-- The group of a step; a local one has none but the rank. -/
def CollStep.group (st : CollStep) (x : Comm) (r : Nat) : List Nat := if st.kind = 6 then [r] else x.group st.mask r

/-- Ranks whose bytes chunk i of a step combines. -/
def CollCmd.givers (c : CollCmd) (x : Comm) (r : Nat) (st : CollStep) (i : Nat) : List Nat :=
  let g := st.group x r
  if c.isReshard then g
  else if st.kind = 0 then [nth g (i * cdChunk c.desc / (st.vec / g.length))]
  else if st.kind = 3 then [nth g (cdRoot c.desc)]
  else g

/-- Bytes of the output of a step at a rank that chunk i holds: from, to. -/
def CollCmd.span (c : CollCmd) (x : Comm) (r : Nat) (st : CollStep) (i out : Nat) : Nat × Nat :=
  let g := st.group x r
  let lo := if st.kind = 1 then g.idxOf r * (st.vec / g.length) else 0
  let ch := cdChunk c.desc
  (Nat.min out (i * ch - lo), Nat.min out ((i + 1) * ch - lo))

/-- Bytes that a step leaves at a rank. -/
def CollCmd.outBytes (c : CollCmd) (x : Comm) (r : Nat) (st : CollStep) (dims : List Nat) : Nat :=
  if c.isReshard then collElem (cdDtype c.desc) * st.toL.size x.axes dims r
  else if st.kind = 1 then st.vec / (st.group x r).length else st.vec

/-- Global extents of a reshard: those past TRANK of its source are 1. -/
def reshardDims (d : List Byte) : List Nat := (List.range 4).map (fun i => if i < imgNat d 0x40 1 then imgNat d (0x80 + 4 * i) 4 else 1)

/-- Chunk q lands at a rank: the owner's in a reduce-scatter, not at a broadcast's root. -/
def CollCmd.lands (c : CollCmd) (x : Comm) (r q : Nat) : Bool :=
  match c.stepAt q with
  | none => false
  | some (_, st) =>
    let i := q - st.base
    if st.kind = 3 then nth (st.group x r) (cdRoot c.desc) != r
    else if st.kind = 1 then
      let p := c.span x r st i (c.outBytes x r st (reshardDims c.desc))
      decide (p.1 < p.2)
    else true

/-- The staged unit of a chunk at rank r and its length: the input of a reshard's step, a whole structure, or the chunk. -/
def CollCmd.unit (c : CollCmd) (x : Comm) (r q : Nat) : Nat × Nat :=
  match c.stepAt q with
  | none => (q, 0)
  | some (j, st) =>
    if c.isReshard then (j, collElem (cdDtype c.desc) * st.fromL.size x.axes (reshardDims c.desc) r)
    else if c.isMerge then (0, st.vec)
    else (q, Nat.min (cdChunk c.desc) (st.vec - (q - st.base) * cdChunk c.desc))

/-! ### Staging (R284) -/

/-- A rank's contribution once its n bytes are here. -/
def Contrib.whole (t : Contrib) (n : Nat) : Option (List Byte) :=
  if t.parts.isEmpty ∨ (t.parts.map (fun p => p.2.length)).sum < n then none
  else some ((sortBy (fun (a b : Nat × List Byte) => decide (a.1 ≤ b.1)) t.parts).flatMap (fun p => p.2))

def Comm.contrib (x : Comm) (n r u : Nat) : Option Contrib := x.staged.find? (fun t => t.n == n && t.rank == r && t.chunk == u)

/-- The dies that have a member here. -/
def Comm.dies (x : Comm) : List Nat := ((x.members.filterMap (fun y => y.2.map (fun m => m.die)))).eraseDups

/-- A run of a contribution is staged in the Hods of some dies, once; none after a member is lost (R294). -/
def Comm.stage (x : Comm) (n r u off : Nat) (bs : List Byte) (dies : List Nat) : Comm :=
  if x.lost.isSome then x
  else match x.contrib n r u with
    | none => { x with staged := x.staged ++ [{ n, rank := r, chunk := u, parts := [(off, bs)], dies }] }
    | some t =>
      let parts := if t.parts.any (fun p => p.1 == off) then t.parts else t.parts ++ [(off, bs)]
      { x with staged := x.staged.map (fun y => if y = t then { t with parts, dies := (t.dies ++ dies).eraseDups } else y) }

/-- A run comes from another module, for the dies that gave it credit; one that nobody asked for, for all. -/
def Comm.arrive (x : Comm) (n r u off : Nat) (bs : List Byte) : Comm :=
  x.stage n r u off bs (((x.contrib n r u).map (fun t => t.dies)).getD x.dies)

/-- The bytes of rank g's contribution to chunk q, once the Hod of rank r has them all. -/
def CollCmd.given (c : CollCmd) (x : Comm) (r g q : Nat) : Option (List Byte) :=
  let u := c.unit x g q
  (x.contrib c.n g u.1).bind (fun t => if t.dies.contains (x.member r).die then t.whole u.2 else none)

/-- The contributions of a chunk, in ascending rank, once all are here. -/
def CollCmd.inputs (c : CollCmd) (x : Comm) (r q : Nat) : Option (List (Nat × List Byte)) :=
  match c.stepAt q with
  | none => none
  | some (_, st) =>
    (c.givers x r st (q - st.base)).foldr (fun g acc => acc.bind (fun l => (c.given x r g q).map (fun bs => (g, bs) :: l))) (some [])

/-- Every rank's head of collective n is here. (log 79: DEDUCED) -/
def Comm.allHeads (x : Comm) (n : Nat) : Bool :=
  (List.range x.nrank).all (fun r => x.heads.any (fun h => h.1 == n && h.2.1 == r))
/-- Two heads of collective n disagree (R275, R280); on a Crown communicator, a head that no Crown sent (14 R307). -/
def Comm.mismatched (x : Comm) (n : Nat) : Bool :=
  match x.heads.find? (fun h => h.1 == n) with
  | some h => x.heads.any (fun k => k.1 == n && (k.2.2 != h.2.2 || (x.crown.isSome && k.2.2.op < 0x100)))
  | none => false
def Comm.putHead (x : Comm) (n r : Nat) (h : CollHead) : Comm :=
  if x.heads.any (fun k => k.1 == n && k.2.1 == r) then x else { x with heads := x.heads ++ [(n, r, h)] }

/-! ### Outcomes (R279, R292, R296) -/

/-- A command leaves its strand's sixteen: counter, handler, status in b10; one that a Crown issued tells its broadcast.
(log 126: DEDUCED) -/
def State.endCmd (s : State) (c : CollCmd) (cseq st res len off : Nat) : State :=
  match c.crown with
  | some (w, j) => { s with broadcasts := s.broadcasts.map (fun b =>
      if b.set = w ∧ b.slot = some j ∧ b.ended.isNone then { b with ended := some st } else b) }
  | none =>
    let s := s.onStrand c.iss (fun x => { x with nColl := x.nColl - 1 })
    -- a refused command has its status entry and its counter alone (R278)
    let s := s.landAt c.iss { cells := [], ct := c.ct, inc := 1, hnd := if c.pcn = 0 ∧ st ≠ 4 then c.hnd else 0, len, off }
    s.status c.iss c.nr 10 c.id (res % 2 ^ 32 * 2 ^ 32 + cseq % 2 ^ 16 * 2 ^ 16 + c.op * 2 ^ 8 + st)

/-- A command without a number ends: its CSEQ is a free value (R279 gives it none). (log 76: DESIGN CHOICE) -/
def State.endFree (s : State) (c : CollCmd) (st : Nat) : State :=
  let w := s.takeFree
  w.2.endCmd c w.1.toNat st 0 0 0

def strandKey (i : Issuer) : Nat := 4 * crewKey i.gang i.crew + i.ctx

/-- The outcome that CLST reads. -/
def CollCmd.outcome (c : CollCmd) (st : Nat) (lost : Option Nat) : CollOutcome :=
  { n := c.n, st, late := false, lost, chunks := c.chunks, landed := c.landed }

/-- What no member here needs any more is dropped. -/
def Comm.trim (x : Comm) : Comm :=
  let low := fun (m : Member) => match m.cmds with | c :: rest => rest.foldl (fun n d => Nat.min n d.n) c.n | [] => m.next
  match x.members.filterMap (fun m => m.2) with
  | [] => x
  | m :: ms =>
    let n := ms.foldl (fun k m => Nat.min k (low m)) (low m)
    { x with heads := x.heads.filter (fun h => decide (n ≤ h.1)), staged := x.staged.filter (fun t => decide (n ≤ t.n))
             reached := x.reached.filter (fun h => decide (n ≤ h.1)), offers := x.offers.filter (fun t => decide (n ≤ t.n))
             rooms := x.rooms.filter (fun h => decide (n ≤ h.1)) }

/-- First scratchpad byte of what a command writes. -/
def CollCmd.firstOff (c : CollCmd) : Nat :=
  match c.dst with
  | some (_, .spad o) => o
  | _ => 0

/-- Bytes landed by a command. -/
def CollCmd.bytesLanded (c : CollCmd) (x : Comm) (r : Nat) : Nat :=
  (c.landed.map (fun q => match c.stepAt q with
    | some (_, st) =>
      let p := c.span x r st (q - st.base) (c.outBytes x r st (reshardDims c.desc))
      p.2 - p.1
    | none => 0)).sum

/-- The rank of a broadcast's root. -/
def CollCmd.rootOf (c : CollCmd) (x : Comm) (r : Nat) : Nat := nth (x.group (cdMask c.desc) r) (cdRoot c.desc)

/-- The root of a broadcast hears that rank r has all of its chunks, or has ended it. -/
def State.tellRoot (s : State) (k r : Nat) (c : CollCmd) : State :=
  match s.comm k with
  | none => s
  | some x =>
    let root := c.rootOf x r
    if c.op ≠ 0xDE ∨ root = r then s
    else if x.node root = s.nodeId.toNat then s.setComm k { x with reached := x.reached ++ [(c.n, r)] }
    else s.sendPay (x.node root) x.channel 0 (.landed k c.n r)

/-- The Crown's command of a receiving broadcast is among its member's. -/
def Broadcast.joined (b : Broadcast) (m : Member) : Bool :=
  m.cmds.any (fun c => c.crown.isSome && c.crown == b.slot.map (fun j => (b.set, j)))

/-- The number, rank and head of the root of a broadcast of a version. -/
def Comm.rootHead (x : Comm) (ver : Nat) : Option (Nat × Nat × CollHead) :=
  x.heads.find? (fun h => decide (0x100 ≤ h.2.2.op) && h.2.2.root == h.2.1 && h.2.2.ver == ver)

/-- A broadcast whose number the member has given to a command of a strand is a MISMATCH here (R280, 14 R307). -/
def State.missed (s : State) (k : Nat) (x : Comm) : State :=
  match x.ranks.head? with
  | none => s
  | some r =>
    let m := x.member r
    { s with broadcasts := s.broadcasts.map (fun b =>
      if b.comm = k ∧ b.root = false ∧ b.ended = none ∧ b.joined m = false ∧ (x.rootHead b.ver).any (fun h => decide (h.1 < m.next)) = true
      then { b with ended := some 5 } else b) }

/-- A numbered command ends at its member: its outcome is kept with the last sixteen. -/
def State.endMember (s : State) (k r : Nat) (c : CollCmd) (st res : Nat) : State :=
  match s.comm k with
  | none => s
  | some x =>
    let m := x.member r
    let lost := if st = 3 then some res else none
    let m := { m with
      cmds := m.cmds.filter (fun d => d.id != c.id)
      history := (m.history ++ [c.outcome st lost]).drop ((m.history.length + 1) - 16)
      fed := if c.opt.isSome then Sparse.set none m.fed (strandKey c.iss) (some { c with ended := some (st, res) }) else m.fed }
    let s := if st = 3 && c.crown.isNone then s.raise c.iss .colfail (BitVec.ofNat 64 (res % 2 ^ 16 + c.n % 2 ^ 16 * 2 ^ 16)) else s
    let s := (s.missed k x).setComm k (x.setMember r m).trim
    (if st = 0 then s else s.tellRoot k r c).endCmd c c.n st res (c.bytesLanded x r) c.firstOff

/-! ### Opening a command (R277, R278, R280, R292) -/

/-- What a step of a Hod on a command comes to: it waits, or goes on. -/
inductive HodStep where
  | wait (s : State) (pages : List (Nat × Nat))
  | done (s : State)
  deriving DecidableEq, Repr

/-- The first flit that a member sends for a collective (R275, R280); a Crown's opcode is marked. -/
def Comm.head (x : Comm) (c : CollCmd) : CollHead :=
  { nax := x.nax, vc := x.vc, axes := x.axes, nrank := x.nrank, digest := x.digest
    op := if c.crown.isSome then 0x100 + c.op else c.op, dtype := cdDtype c.desc
    chk := cdChk c.desc, fl := cdFl c.desc, root := cdRoot c.desc, len := cdLen c.desc, ver := c.ver }

/-- The steps of a command at a rank. -/
def CollCmd.plan (c : CollCmd) (x : Comm) (r : Nat) : List CollStep :=
  let d := c.desc
  let g := x.group (cdMask d) r
  let one := fun (kind vec : Nat) => [({ kind, mask := cdMask d, vec, base := 0 } : CollStep)]
  if c.op = 0xDA then one 0 (g.length * cdLen d)
  else if c.op = 0xDB ∨ c.op = 0xDC then one 2 (cdLen d)
  else if c.op = 0xDE then one 3 (cdLen d)
  else if c.op = 0xE0 ∨ c.op = 0xE1 then one 1 (cdLen d)
  else if c.op = 0xE2 then
    reshardSteps x.axes (reshardDims d) (collElem (cdDtype d)) (cdChunk d) (layoutOf d 0x40) (layoutOf d 0x60)
  else one 4 0

/-- What R278, R288 and R289 ask of a reshard's layouts. -/
def reshardOk (x : Comm) (d : List Byte) (steps : List CollStep) : Bool :=
  let s := layoutOf d 0x40
  let t := layoutOf d 0x60
  let dims := reshardDims d
  layoutValid d 0x40 && layoutValid d 0x60 && imgNat d 0x40 1 == imgNat d 0x60 1 && imgNat d 0x90 16 == 0 &&
    dims.all (fun n => decide (0 < n)) &&
    (List.range 4).all (fun a => !t.pends a || s.pends a) && s.divides x.axes dims && t.divides x.axes dims &&
    steps.all (fun st => st.fromL.divides x.axes dims && st.toL.divides x.axes dims) &&
    cdLen d == collElem (cdDtype d) * s.count x.axes dims

/-- Bytes that SRC and DST must hold; none where the command has no use for one. -/
def CollCmd.needs (c : CollCmd) (x : Comm) (r : Nat) (opt : Bool) : Option Nat × Option Nat :=
  let d := c.desc
  let g := x.group (cdMask d) r
  let len := cdLen d
  if c.op = 0xDA then (if cdChain d then none else some len, some (g.length * len))
  else if c.op = 0xDE then if nth g (cdRoot d) = r then (some len, none) else (none, some len)
  else if c.op = 0xE0 ∨ c.op = 0xE1 then (some len, some (len / g.length / (if opt then 2 else 1)))
  else if c.op = 0xE2 then
    (some len, some ((c.steps.map (fun st => c.outBytes x r st (reshardDims d))).foldl Nat.max 0))
  else if isData c.op then (some len, some len)
  else if c.op = 0xDF then (some 64, none)
  else (none, none)

/-- Limits on lengths (R278): whole chunks and elements where bytes are divided among ranks; staging for a summary. -/
def Comm.lengthsOk (x : Comm) (c : CollCmd) (r : Nat) : Bool :=
  let d := c.desc
  let g := x.group (cdMask d) r
  let len := cdLen d
  if c.op = 0xDA then len % cdChunk d == 0
  else if c.op = 0xDE then decide (cdRoot d < g.length)
  else if c.op = 0xE0 ∨ c.op = 0xE1 then
    len % g.length == 0 && len / g.length % cdChunk d == 0 && len / g.length % collElem (cdDtype d) == 0
  else if c.isMerge then
    x.members.all (fun m => match m.2 with
      | some m => decide (2 * ((len + cdChunk d - 1) / cdChunk d) ≤ nth x.stg m.die)
      | none => true)
  else true

/-- The optimiser that a CLRS.sum takes up: its places for n bytes of shard; none where it does not fit (R290). -/
def State.takeOpt (s : State) (c : CollCmd) (o : Optimiser) (n : Nat) : Option Optimiser :=
  match s.engCap c.iss o.place 0x20, s.engCap c.iss o.place 0x30 with
  | some mw, some mom =>
    match s.hodCap c.iss mw n (rR + rW) .engine, s.hodCap c.iss mom
        (if optKind o.bytes = 1 then n else if optKind o.bytes = 2 then 2 * n else 0) (rR + rW) .engine with
    | some a, some b => some { o with mw := a.2, mom := b.2, caps := [a.1, b.1] }
    | some a, none => if optKind o.bytes = 3 then some { o with mw := a.2, mom := a.2, caps := [a.1] } else none
    | none, _ => none
  | _, _ => none

/-- The CLRS whose output a chained CLAG takes: the last of its strand that feeds an optimiser, or is to feed one, in any communicator with the
same ranks (R292). -/
def State.chainOf (s : State) (x : Comm) (c : CollCmd) : Option (Nat × Nat × CollCmd) :=
  let all := s.comms.flatMap (fun y => match y.2 with
    | some z => z.members.flatMap (fun m => match m.2 with
      | some m' =>
        ((m'.cmds.filter (fun d => (d.opt.isSome || d.raw.isSome) && strandKey d.iss == strandKey c.iss)) ++
          (match Sparse.get none m'.fed (strandKey c.iss) with | some d => [d] | none => [])).map (fun d => (y.1, m.1, d))
      | none => [])
    | none => [])
  let best := all.foldl (fun (b : Option (Nat × Nat × CollCmd)) e => match b with
    | none => if e.2.2.id < c.id then some e else none
    | some f => if e.2.2.id < c.id ∧ f.2.2.id < e.2.2.id then some e else b) none
  best.filter (fun e => match s.comm e.1 with
    | some z => z.nrank == x.nrank && z.table == x.table
    | none => false)

/-- A command takes its place among its member's, with its number, and its head goes to every module. -/
def State.enroll (s : State) (k r : Nat) (x : Comm) (c : CollCmd) : State :=
  let m := x.member r
  let c := { c with n := m.next }
  let c := { c with head := some (x.head c), ended := if x.aborted then some (2, 0) else match x.lost with
      | some l => some (3, l)
      | none => c.ended }
  let x := x.setMember r { m with next := m.next + 1, cmds := m.cmds ++ [c] }
  if c.ended.isSome then s.setComm k x
  else (s.setComm k (x.putHead c.n r (x.head c))).sendAll (s.others x (List.range x.nrank)) x.channel 0 (.head k c.n r (x.head c))

/-- A command that fails a check of the Hod (R278): it has a number, and no effect. (log 77: DEDUCED) -/
def State.enrollBad (s : State) (k r : Nat) (x : Comm) (c : CollCmd) : State :=
  s.enroll k r x { c with ended := some (4, 0) }

/-- The area of a CLST (R296). -/
def outcomeBytes (o : CollOutcome) (live : Bool) : List Byte :=
  let late := o.late && o.st == 0
  natBytes 1 (if live then 0xFF else if late then 1 else o.st) ++ natBytes 1 late.toNat ++ natBytes 2 (o.lost.getD 0xFFFF) ++
    natBytes 4 o.chunks ++ natBytes 8 o.n ++ natBytes 48 0 ++
    natBytes ((o.chunks + 7) / 8) (axesMask o.landed)

/-- CLST. -/
def State.clst (s : State) (x : Comm) (r : Nat) (c : CollCmd) (dst : TCap) : HodStep :=
  let m := x.member r
  let recent := fun (n : Nat) => decide (m.next ≤ n + 16) && n % 2 ^ 16 == c.cseq
  let live := (m.cmds.filter (fun d => recent d.n)).map (fun d => match d.ended with
    | some e => (d.outcome e.1 (if e.1 = 3 then some e.2 else none), false)
    | none => (d.outcome 0 none, true))
  let old := (m.history.filter (fun o => recent o.n)).map (fun o => (o, false))
  match (live ++ old).head? with
  | none => .done (s.endCmd c c.cseq 4 0 0 0)
  | some (o, b) =>
    let bs := outcomeBytes o b
    match s.hodCap c.iss dst bs.length (rW + rE) .engine with
    | none => .done (s.endCmd c c.cseq 4 0 0 0)
    | some (_, p) =>
      match s.placeXlat p bs.length true with
      | .missing => .wait (s.placeTouch p bs.length) (p.pages bs.length)
      | .forbidden => .done (s.endCmd c c.cseq 8 0 0 0)
      | .mapped _ => .done ((s.engWrite c.iss p bs).endCmd c c.cseq 0 0 0 0)

/-- An abort reaches the members here (R293): what has not completed ends ABORTED, with those queued behind; what had
completed is marked late. (log 86: DEDUCED) -/
def Comm.abort (x : Comm) : Comm :=
  { x with
    aborted := true
    members := x.members.map (fun (y : Nat × Option Member) => (y.1, y.2.map (fun m => { m with
      cmds := m.cmds.map (fun (c : CollCmd) => if c.ended.isSome then c else { c with ended := some (2, c.landed.length) })
      history := m.history.map (fun (o : CollOutcome) => if o.st = 0 then { o with late := true } else o) }))) }

def State.abortComm (s : State) (k : Nat) : State :=
  match s.comm k with
  | some x => if x.aborted then s else s.setComm k x.abort
  | none => s

/-- CLABT: the abort goes to every other module on VC0, and to the members here. -/
def State.sendAbort (s : State) (k : Nat) (x : Comm) : State :=
  (s.sendAll (s.others x (List.range x.nrank)) 0 0 (.abort k)).abortComm k

/-- A capability that is null (R277). -/
def TCap.null (c : TCap) : Bool := c.bits == 0 && !c.tag

/-- SRC and DST are zero where R276 says so. -/
def nullOk (op : Nat) (src dst : TCap) : Bool :=
  (isData op || op == 0xDF || src.null) && (isData op || op == 0xE3 || dst.null)

/-- The checks of a numbered command with what is attached to it, for SRC and DST, and the command as its Hod runs it. -/
def State.checkNumbered (s : State) (r : Nat) (x : Comm) (c : CollCmd) (att : Option Optimiser) (src dst : TCap) : Bool × CollCmd :=
  let chained := cdChain c.desc
  let feed := if chained then s.chainOf x c else none
  let g := x.group (cdMask c.desc) r
  let shard := cdLen c.desc / g.length
  let opt := att.bind (fun o => s.takeOpt c o shard)
  let c := { c with steps := c.plan x r }
  let need := c.needs x r att.isSome
  let a := match need.1 with | some n => s.hodCap c.iss src n (rR + rE) .load | none => none
  let b := match need.2 with | some n => s.hodCap c.iss dst n (rW + rE) .engine | none => none
  let ok := descFieldsOk c.op c.desc && x.lengthsOk c r && (need.1.isNone || a.isSome) && (need.2.isNone || b.isSome) &&
    nullOk c.op src dst && (!c.isReshard || reshardOk x c.desc c.steps) &&
    (att.isNone || (opt.isSome && cdDtype c.desc == 1 && g.length == x.nrank)) &&
    (!chained || (match feed with | some f => 2 * cdLen c.desc == cdLen f.2.2.desc / x.nrank | none => false))
  (ok, { c with src := a, dst := b, opt := match opt, att with
      | some o, _ => some o
      | none, o => o })

/-- The optimiser attached for a strand is taken from its member. -/
def Comm.takeAttached (x : Comm) (r : Nat) (i : Issuer) : Option Optimiser × Comm :=
  let m := x.member r
  (Sparse.get none m.opts (strandKey i), x.setMember r { m with opts := Sparse.set none m.opts (strandKey i) none })

/-- A numbered command: its checks, then its place in the queue. SRC and DST are given. A CLRS.sum behind a CLOPT of its strand
that has not ended yet is checked when its turn comes (R290). (log 127: DEDUCED) -/
def State.openNumbered (s : State) (k r : Nat) (x : Comm) (c : CollCmd) (src dst : TCap) : HodStep :=
  let waits := c.op == 0xE0 && (x.member r).cmds.any (fun d => d.op == 0xDF && d.ended.isNone && strandKey d.iss == strandKey c.iss)
  if waits then .done (s.enroll k r x { c with steps := c.plan x r, raw := some (src, dst) })
  else
    let a := if c.op = 0xE0 then x.takeAttached r c.iss else (none, x)
    let v := s.checkNumbered r a.2 c a.1 src dst
    .done (if v.1 then s.enroll k r a.2 v.2 else s.enrollBad k r a.2 v.2)

/-- The first command of a member that has waited for its optimiser takes it up (R290). -/
def State.settleRaw (s : State) (k r : Nat) : State :=
  match s.comm k with
  | none => s
  | some x =>
    match ((x.member r).cmds.filter (fun c => c.ended.isNone)).head? with
    | none => s
    | some c =>
      match c.raw with
      | none => s
      | some (src, dst) =>
        let a := x.takeAttached r c.iss
        let v := s.checkNumbered r a.2 c a.1 src dst
        (s.setComm k a.2).onCmd k r c.id (fun _ => { v.2 with raw := none, ended := if v.1 then none else some (4, 0) })

/-- Every member of a die takes up what is attached to its first command. -/
def State.settleRaws (s : State) (die : Nat) : State :=
  s.comms.foldl (fun (s : State) y => match y.2 with
    | some x => x.members.foldl (fun (s : State) z => match z.2 with
      | some m => if m.die = die then s.settleRaw y.1 z.1 else s
      | none => s) s
    | none => s) s

/-- The number of bytes of a command's descriptor. -/
def descLen (op : Nat) : Nat := if op = 0xE2 then 160 else 64

/-- A command is taken from the queue: its descriptor and its communicator are read, once, after its fork.
(log 78: DEDUCED) -/
def State.openCmd (s : State) (c : CollCmd) : HodStep :=
  match c.place with
  | none => .done (s.endFree c 4)
  | some p =>
    if s.crewHeld c.iss || !s.forkReady c.iss then .wait s []
    else
      let s := s.fork c.iss
      match s.engPoison c.iss p (descLen c.op), s.engRead c.iss p (descLen c.op), s.engCap c.iss p 0x10,
          s.engCap c.iss p 0x20, s.engCap c.iss p 0x30 with
      | some (pa, va), _, _, _, _ => .done ((s.endFree c 4).memue c.iss 4 pa va)
      | none, some d, some com, some src, some dst =>
        let s := s.placeTouch p (descLen c.op)
        let c := { c with desc := d, pcn := cdPcn d, pcb := cdPcb d }
        match s.hodCap c.iss com 128 (rR + rE) .load with
        | none => .done (s.endFree c 4)
        | some (_, q) =>
          match s.engRead c.iss q 128 with
          | none => if s.placeFault q 128 then .done (s.endFree c 8) else .wait (s.placeTouch q 128) (q.pages 128)
          | some ob =>
            let s := s.placeTouch q 128
            let k := commKey c.iss.vf (imgNat ob 4 4)
            let r := imgNat ob 0x12 2
            match s.comm k with
            | none => .done (s.endFree c 4)
            | some x =>
              if imgPut ob 0x12 2 0 ≠ x.image ∨ (Sparse.get none x.members r).isNone ∨ capLow com % 64 ≠ 0 then .done (s.endFree c 4)
              else if c.op = 0xD9 then
                if !descFieldsOk c.op d || !nullOk c.op src dst then .done (s.endFree c 4) else .done ((s.sendAbort k x).endFree c 0)
              else if c.op = 0xE3 then
                if !descFieldsOk c.op d || !nullOk c.op src dst then .done (s.endCmd c c.cseq 4 0 0 0) else s.clst x r c dst
              else s.openNumbered k r x c src dst
      | none, _, _, _, _ =>
        if s.placeFault p (descLen c.op) then .done (s.endFree c 8) else .wait (s.placeTouch p (descLen c.op)) (p.pages (descLen c.op))

/-- The oldest queued command of each crew on a die; an abort waits behind no other kind of command. -/
def hodHeads (die : Nat) : List Nat → List CollCmd → List CollCmd
  | _, [] => []
  | seen, c :: rest =>
    let w := 2 * crewKey c.iss.gang c.iss.crew + (c.op == 0xD9).toNat
    if seen.contains w then hodHeads die seen rest
    else (if c.tile / 64 = die then [c] else []) ++ hodHeads die (w :: seen) rest

/-- Each of some commands is taken up if it need not wait. -/
def State.openEach (s : State) : List CollCmd → State
  | [] => s
  | c :: rest =>
    match s.openCmd c with
    | .wait s' _ => s'.openEach rest
    | .done s' => ({ s' with hodQ := s'.hodQ.filter (fun d => d.id != c.id) }).openEach rest

/-! ### Beginning a chunk (R281, R284 to R286, R292, R295) -/

/-- Flits carry runs of this many bytes of a contribution: R297 leaves room for no more than 240. -/
def runBytes : Nat := 192

/-- Commands that a member works on: the first that has not ended, and a chained CLAG behind its CLRS. -/
def Member.active (m : Member) : List CollCmd :=
  match m.cmds.filter (fun c => c.ended.isNone) with
  | [] => []
  | [c] => [c]
  | c :: d :: _ => if c.opt.isSome && cdChain d.desc && strandKey c.iss == strandKey d.iss then [c, d] else [c]

/-- A chunk's place in the order of a communicator (R295). -/
def chunkPos (n q : Nat) : Nat := 2 ^ 32 * n + q

/-- A chunk has been begun at a rank and waits to land there. -/
def CollCmd.isOpen (c : CollCmd) (x : Comm) (r q : Nat) : Bool :=
  decide (q < c.begun) && c.lands x r q && !c.landed.contains q && !c.held.contains q

/-- Buffers that a command's first chunk takes: a summary is merged whole (R281). -/
def CollCmd.buffers (c : CollCmd) : Nat := if c.isMerge then c.chunks else 1

/-- Chunks of some commands in progress in the Hod of a die, each in one buffer: those that wait to land, and those whose
contribution waits for credit elsewhere; all of a summary that has begun (R275, R284). -/
def Comm.inProgress (x : Comm) (die : Nat) (p : CollCmd → Bool) : List Nat :=
  (x.members.flatMap (fun y => match y.2 with
    | some m => if m.die != die then [] else (m.cmds.filter (fun c => c.ended.isNone && p c)).flatMap (fun c =>
        ((List.range (if c.isMerge ∧ 0 < c.begun then c.chunks else c.begun)).filter (fun q =>
          c.isOpen x y.1 q || (c.isMerge && !c.landed.contains q && !c.held.contains q) ||
          x.offers.any (fun t => t.n == c.n && t.rank == y.1 && t.unit == (c.unit x y.1 q).1))).map (chunkPos c.n))
    | none => [])).eraseDups

/-- The ranks whose contributions a chunk in progress has taken up: those before the first that is not here. -/
def CollCmd.combined (c : CollCmd) (x : Comm) (r q : Nat) : List Nat :=
  match c.stepAt q with
  | some (_, st) => (c.givers x r st (q - st.base)).takeWhile (fun g => (c.given x r g q).isSome)
  | none => []

/-- The lowest rank not yet combined into a chunk in progress (R284). -/
def CollCmd.lowest (c : CollCmd) (x : Comm) (r q : Nat) : Option Nat :=
  match c.stepAt q with
  | some (_, st) => (c.givers x r st (q - st.base)).find? (fun g => (c.given x r g q).isNone)
  | none => none

/-- Chunks to which a unit of rank g belongs. -/
def CollCmd.chunksOf (c : CollCmd) (x : Comm) (g u : Nat) : List Nat :=
  (List.range c.chunks).filter (fun q => (c.unit x g q).1 == u)

/-- Some command of a member on a die, with its rank and the member, is such as p says. -/
def Comm.anyActive (x : Comm) (die : Nat) (p : Nat → CollCmd → Bool) : Bool :=
  x.members.any (fun y => match y.2 with
    | some m => m.die == die && m.active.any (p y.1)
    | none => false)

/-- A staged or credited contribution holds its buffers in the Hod of a die: it is another Hod's, and some member there has not
taken it up. -/
def Comm.holds (x : Comm) (die : Nat) (t : Contrib) : Bool :=
  t.dies.contains die && (match Sparse.get none x.members t.rank with | some m => m.die != die | none => true) &&
    x.members.any (fun y => match y.2 with
      | some m => m.die == die && (decide (m.next ≤ t.n) || m.cmds.any (fun c => c.n == t.n && c.ended.isNone &&
          (c.chunksOf x t.rank t.chunk).any (fun q => c.lands x y.1 q && !c.landed.contains q && !c.held.contains q &&
            !(decide (q < c.begun) && (c.combined x y.1 q).contains t.rank))))
      | none => false)

/-- Buffers of the Hod of a die that a communicator has left. -/
def Comm.free (x : Comm) (die : Nat) : Nat :=
  nth x.stg die - (x.inProgress die (fun _ => true)).length -
    ((x.staged.filter (x.holds die)).map (fun t => t.bufs)).sum

/-- Where a member begins next, and the buffers that it then takes. -/
def Member.nextNeed (m : Member) : Option (Nat × Nat) :=
  match m.active with
  | [] => some (chunkPos m.next 0, 1)
  | cs => (cs.find? (fun c => decide (c.begun < c.chunks))).map (fun c =>
      (chunkPos c.n c.begun, if !c.isMerge then 1 else if c.begun = 0 then c.chunks else 0))

/-- Buffers kept for the members of a die that begin next below a place. -/
def Comm.kept (x : Comm) (die : Nat) (below : Option Nat) : Nat :=
  (x.members.map (fun y => match y.2 with
    | some m => if m.die != die then 0 else match m.nextNeed with
      | some (p, n) => if below.all (fun b => decide (p < b)) then n else 0
      | none => 0
    | none => 0)).foldl Nat.max 0

/-- Buffers of a communicator that chained CLAGs of others hold in the Hod of a die (R286). -/
def State.lent (s : State) (k die : Nat) : Nat :=
  (s.comms.map (fun y => match y.2 with
    | some z => if y.1 = k then 0
        else (z.inProgress die (fun c => cdChain c.desc && (s.chainOf z c).any (fun f => f.1 == k))).length
    | none => 0)).sum

/-- A buffer is free for a chunk of a command at its die, beside those kept for chunks before it. (log 82: DESIGN CHOICE) -/
def State.hasBuffer (s : State) (x : Comm) (die : Nat) (c : CollCmd) : Bool :=
  let pos := chunkPos c.n c.begun
  (x.inProgress die (fun _ => true)).contains pos ||
    decide (c.buffers + x.kept die (some pos) + s.lent (commKey x.vf x.cid) die ≤ x.free die)

/-- Another chunk of a collective that gives rank a.rank's unit can still begin or land at a die. -/
def Comm.wants (x : Comm) (die : Nat) (a : Ask) : Bool :=
  x.members.any (fun y => match y.2 with
    | some m => m.die == die && (decide (m.next ≤ a.n) || m.cmds.any (fun c => c.n == a.n && c.ended.isNone))
    | none => false)

/-- The Hod of a die can give credit for a contribution: it is the lowest not yet combined of a chunk in progress, whose place
is always kept; or it belongs to a collective that a member there works on, and finds buffers beside those kept for the chunks
that begin next. What no member needs any more is taken and dropped (R284). -/
def State.givesCredit (s : State) (k : Nat) (x : Comm) (a : Ask) (die : Nat) : Bool :=
  a.bufs == 0 || !x.wants die a ||
    x.anyActive die (fun r c => c.n == a.n && (c.chunksOf x a.rank a.unit).any (fun q =>
      c.isOpen x r q && c.lowest x r q == some a.rank)) ||
    (x.anyActive die (fun _ c => c.n == a.n) && decide (a.bufs + x.kept die none + s.lent k die ≤ x.free die))

/-- An ask enters the list, once. -/
def Comm.putAsk (x : Comm) (a : Ask) : Comm := if x.asks.contains a then x else { x with asks := x.asks ++ [a] }

/-- Buffers are set aside for a contribution. -/
def Comm.reserve (x : Comm) (a : Ask) : Comm :=
  let x := { x with asks := x.asks.erase a }
  match x.contrib a.n a.rank a.unit with
  | none => { x with staged := x.staged ++ [{ n := a.n, rank := a.rank, chunk := a.unit, parts := [], dies := a.dies, bufs := a.bufs }] }
  | some t => { x with staged := x.staged.map (fun y =>
      if y = t then { t with dies := (t.dies ++ a.dies).eraseDups, bufs := a.bufs } else y) }

/-- Credits are given to the contributions that ask for them, each against the buffers of all its dies; its module hears. -/
def State.grantAsks (s : State) (k : Nat) : State :=
  match s.comm k with
  | none => s
  | some x => x.asks.foldl (fun (s : State) a => match s.comm k with
      | none => s
      | some x =>
        if !a.dies.all (s.givesCredit k x a) then s
        else
          let s := s.setComm k (x.reserve a)
          if x.node a.rank = s.nodeId.toNat then s
          else s.sendPay (x.node a.rank) 0 0 (.room k a.n a.rank a.unit s.nodeId.toNat)) s

/-- Every communicator's asks are looked at. -/
def State.serveAsks (s : State) : State := s.comms.foldl (fun (s : State) y => s.grantAsks y.1) s

/-- The BF16 bytes that a chunk of a chained CLAG needs have landed at this owner. (log 130: DEDUCED) -/
def State.chainReady (s : State) (x : Comm) (r : Nat) (c : CollCmd) (q : Nat) : Bool :=
  match c.stepAt q, s.chainOf x c with
  | some (_, st), some (k, r', d) =>
    if c.givers x r st q ≠ [r] then
      -- another owner has produced them once it gives them
      (c.givers x r st q).all (fun g => x.staged.any (fun t => t.n == c.n && t.rank == g && t.chunk == (c.unit x g q).1) ||
        x.asks.any (fun a => a.n == c.n && a.rank == g && a.unit == (c.unit x g q).1))
    else
      let o := q * cdChunk c.desc % cdLen c.desc
      let n := Nat.min (cdChunk c.desc) (cdLen c.desc - o)
      let shard := cdLen d.desc / x.nrank
      let lo := (r * shard + 2 * o) / cdChunk d.desc
      let hi := (r * shard + 2 * (o + n) - 1) / cdChunk d.desc
      (List.range (hi + 1 - lo)).all (fun i => d.landed.contains (lo + i)) && (s.comm k).isSome && r == r'
  | _, _ => false

/-- A chained CLAG needs a buffer of its own communicator and of its CLRS's (R286). -/
def State.chainBuffer (s : State) (x : Comm) (die : Nat) (c : CollCmd) : Bool :=
  if !cdChain c.desc then true
  else match s.chainOf x c with
    | some (k, _, _) => match s.comm k with
      | some y => k == commKey x.vf x.cid || (x.inProgress die (fun _ => true)).contains (chunkPos c.n c.begun) ||
          decide (s.lent k die < y.free die)
      | none => true
    | none => true

/-- A member's command may begin its next chunk. -/
def State.canBegin (s : State) (x : Comm) (r : Nat) (m : Member) (c : CollCmd) : Bool :=
  let q := c.begun
  decide (q < c.chunks) && c.op != 0xDF && c.raw.isNone && !m.paused && !x.aborted && x.lost.isNone && !x.mismatched c.n &&
    (match x.stop with | some p => decide (chunkPos c.n q < p) | none => true) &&
    s.hasBuffer x m.die c && s.chainBuffer x m.die c &&
    (!cdChain c.desc || s.chainReady x r c q) &&
    (match c.stepAt q with
      | some (_, st) => !c.isReshard || (List.range st.base).all (fun i => !c.lands x r i || c.landed.contains i)
      | none => false)

/-- The member and command of a communicator that begin a chunk next at a die. -/
def State.beginner (s : State) (x : Comm) (die : Nat) : Option (Nat × CollCmd) :=
  x.members.findSome? (fun y => match y.2 with
    | some m => if m.die != die then none else (m.active.find? (fun c => s.canBegin x y.1 m c)).map (fun c => (y.1, c))
    | none => none)

/-- Bytes that a member contributes with chunk q: whence, how many, and where in its unit; none where it gives none, or
where it has given its unit. -/
def CollCmd.gives (c : CollCmd) (x : Comm) (r q : Nat) (src : Option Place) : Option (Option Place × Nat × Nat) :=
  match c.stepAt q with
  | none => none
  | some (j, st) =>
    let i := q - st.base
    let u := c.unit x r q
    if !(c.givers x r st i).contains r then none
    else if c.isReshard then
      if i ≠ 0 then none
      else some (if j = 0 then src else c.dst.map (fun d => d.2), u.2, 0)
    else
      let n := Nat.min (cdChunk c.desc) (st.vec - i * cdChunk c.desc)
      let o := if st.kind = 0 then i * cdChunk c.desc % cdLen c.desc else i * cdChunk c.desc
      some (src.map (fun p => p.add o), n, if c.isMerge then i * cdChunk c.desc else 0)

/-- A run of bytes cut into pieces with their offsets. -/
def cutRuns (o : Nat) (bs : List Byte) : Nat → List (Nat × List Byte)
  | 0 => []
  | n + 1 => if bs.length ≤ runBytes then [(o, bs)] else (o, bs.take runBytes) :: cutRuns (o + runBytes) (bs.drop runBytes) n

/-- Ranks at which a chunk lands. -/
def CollCmd.takers (c : CollCmd) (x : Comm) (r q : Nat) : List Nat :=
  match c.stepAt q with
  | some (_, st) => (st.group x r).filter (fun g => c.isReshard || c.isMerge || c.lands x g q)
  | none => []

/-- The runs of a contribution go to a module that has given credit, each on the lane of the line that it was read from
(01 R15). -/
def State.sendRuns (s : State) (k : Nat) (x : Comm) (t : Offer) : State :=
  (cutRuns t.off t.bytes (t.bytes.length + 1)).foldl (fun (s : State) p =>
    let lane := (Config.laneHash ((t.addr + (p.1 - t.off)) / 128)).toNat
    (s.sendPay t.dest x.channel lane (.piece k t.n t.rank t.unit p.1 p.2)).monitor (x.member t.rank).die (monBytes x.channel) x.vf p.2.length) s

/-- A module has given credit for a contribution: what waited for it goes. -/
def State.takeRoom (s : State) (k n r u node : Nat) : State :=
  match s.comm k with
  | none => s
  | some x =>
    let mine := fun (t : Offer) => t.n == n && t.rank == r && t.unit == u && t.dest == node
    (x.offers.filter mine).foldl (fun s t => s.sendRuns k x t)
      (s.setComm k { x with offers := x.offers.filter (fun t => !mine t), rooms := x.rooms ++ [(n, r, u, node)] })

/-- A contribution is offered to a module: it goes at once where it needs no buffer, or where the module has given credit. -/
def State.offer (s : State) (k : Nat) (t : Offer) (bufs : Nat) (dies : List Nat) : State :=
  match s.comm k with
  | none => s
  | some x =>
    if bufs = 0 ∨ x.rooms.contains (t.n, t.rank, t.unit, t.dest) then s.sendRuns k x t
    else
      let asked := x.offers.any (fun y => y.n == t.n && y.rank == t.rank && y.unit == t.unit && y.dest == t.dest)
      let s := s.setComm k { x with offers := x.offers ++ [t] }
      if asked then s else s.sendPay t.dest 0 0 (.ask k t.n t.rank t.unit bufs dies)

/-- The dies of some ranks on a module. -/
def Comm.diesOf (x : Comm) (node : Nat) (rs : List Nat) : List Nat :=
  ((rs.filter (fun g => x.node g == node)).map (fun g => (x.table.getD g (0, 0)).2 / 64)).eraseDups

/-- A contribution, read at an address, is staged at the Hod of its rank, asks for buffers in the other Hods here that need it,
and is offered to the other modules. (log 87: DEDUCED) -/
def State.contribute (s : State) (k r : Nat) (x : Comm) (c : CollCmd) (q addr o : Nat) (bs : List Byte) : State :=
  let u := c.unit x r q
  let die := (x.member r).die
  let bufs := if bs.isEmpty then 0 else if c.isMerge then c.chunks else 1
  let ts := c.takers x r q
  let near := (x.diesOf s.nodeId.toNat ts).filter (fun d => d != die)
  let y := x.stage c.n r u.1 o bs (if bufs = 0 then die :: near else [die])
  let asks := bufs != 0 && !near.isEmpty && !((y.contrib c.n r u.1).any (fun t => near.all (fun d => t.dies.contains d)))
  let s := s.setComm k (if asks then y.putAsk { n := c.n, rank := r, unit := u.1, bufs, dies := near } else y)
  (s.others x ts).foldl (fun (s : State) d =>
    s.offer k { n := c.n, rank := r, unit := u.1, dest := d, addr, off := o, bytes := bs } bufs (x.diesOf d ts)) s

/-- Where a command's contribution lies: SRC, or the output of the CLRS that it is chained to. -/
def State.srcOf (s : State) (x : Comm) (c : CollCmd) : Option (TCap × Place) :=
  if !cdChain c.desc then c.src
  else match s.chainOf x c with
    | some (_, _, d) => d.dst
    | none => none

/-- A member's command ends with a status when its turn to report comes. -/
def State.endsWith (s : State) (k r : Nat) (c : CollCmd) (st res : Nat) : State :=
  s.onCmd k r c.id (fun d => { d with ended := some (st, res) })

/-- Bytes of a run before the first 4 KiB boundary at which its generation is looked at; the first byte of a transfer is
looked at too (10 R209). (log 128: DEDUCED) -/
def unchecked (first : Bool) (p : Place) (n : Nat) : Nat :=
  match p with
  | .spad _ => n
  | .virt _ va _ => if first || va % 4096 == 0 then 0 else Nat.min n (4096 - va % 4096)

/-- A chunk begins at a member: its contribution is read, staged and sent. -/
def State.beginChunk (s : State) (k r : Nat) (x : Comm) (c : CollCmd) : HodStep :=
  let q := c.begun
  let next := fun (s : State) => (s.onCmd k r c.id (fun d => { d with begun := q + 1 })).monitor (x.member r).die monChunks x.vf 1
  let from' := s.srcOf x c
  match c.gives x r q (from'.map (fun y => y.2)) with
  | none => .done (next s)
  | some (none, _, o) => .done (next (s.contribute k r x c q 0 o []))
  | some (some p, n, o) =>
    let cap := if c.isReshard && (c.stepAt q).any (fun y => y.1 != 0) then c.dst else from'
    let stale := (match cap with | some (cap, _) => !s.capCurrent c.iss.vf cap | none => false) &&
      decide (unchecked (c.begun == 0) p n < n)
    if stale then
      .done (s.endsWith k r c 6 (c.bytesLanded x r))
    else match s.placeXlat p n false with
      | .forbidden => .done (s.endsWith k r c 8 (c.bytesLanded x r))
      | .missing => .wait (s.placeTouch p n) (p.pages n)
      | .mapped pa =>
        match s.engPoison c.iss p n, (s.placeTouch p n).engRead c.iss p n with
        | some (pa, va), _ => .done ((s.endsWith k r c 2 c.landed.length).memue c.iss 4 pa va)
        | none, some bs => .done (next ((s.placeTouch p n).contribute k r x c q (match p with | .spad a => a | .virt _ _ _ => pa) o bs))
        | none, none => .wait (s.placeTouch p n) (p.pages n)

/-! ### Landing a chunk (R281, R283, R291) -/

/-- What a chunk writes at a rank: its offset in DST and its bytes; none where a summary is refused. -/
def CollCmd.result (c : CollCmd) (x : Comm) (r q : Nat) (inputs : List (Nat × List Byte)) : Option (Nat × List Byte) :=
  match c.stepAt q with
  | none => none
  | some (_, st) =>
    let d := c.desc
    let i := q - st.base
    let parts := inputs.map (fun y => y.2)
    if c.isMerge then (mergeAll (cdDtype d) parts).map (fun bs => (0, bs))
    else if c.isReshard then
      let out := reshardOut x.axes (reshardDims d) (cdDtype d) (cdSat d) st r inputs
      let p := c.span x r st i out.length
      some (p.1, (out.drop p.1).take (p.2 - p.1))
    else
      let p := c.span x r st i (c.outBytes x r st [])
      if st.kind = 1 ∨ st.kind = 2 then
        some (p.1, combine (cdDtype d) (c.op == 0xDC || c.op == 0xE1) (cdSat d) parts)
      else some (p.1, parts.headD [])

/-- Chunks that land together with q: all of a merge. -/
def CollCmd.together (c : CollCmd) (q : Nat) : List Nat := if c.isMerge then List.range c.chunks else [q]

/-- Bytes of a chunk as its counter and its handler see it: start and length. -/
def CollCmd.chunkLen (c : CollCmd) (x : Comm) (r q : Nat) : Nat × Nat :=
  match c.stepAt q with
  | some (_, st) =>
    let p := c.span x r st (q - st.base) (c.outBytes x r st (reshardDims c.desc))
    (p.1, p.2 - p.1)
  | none => (0, 0)

/-- The counters of landed chunks, each with the chunk's length and offset; of the last step alone in a reshard (R281, R289). -/
def CollCmd.signals (c : CollCmd) (x : Comm) (r : Nat) (qs : List Nat) : List (Nat × Nat × Nat) :=
  let last := match c.steps.getLast? with | some st => st.base | none => 0
  (qs.filter (fun q => c.pcn != 0 && !(c.isReshard && decide (q < last)))).map (fun q =>
    let p := c.chunkLen x r q
    (c.pcb + q % c.pcn, p.2, match c.dst with | some (_, .spad o) => o + p.1 | _ => 0))

/-- Chunks have landed: the command has them, or the outcome of one that has ended since (R293, R296). (log 129: DEDUCED) -/
def State.noteLanded (s : State) (k r n : Nat) (qs : List Nat) : State :=
  match s.comm k with
  | none => s
  | some x =>
    let m := x.member r
    match m.cmds.find? (fun c => c.n == n) with
    | some c =>
      let s := s.onCmd k r c.id (fun d => { d with landed := d.landed ++ qs, held := d.held.filter (fun h => !qs.contains h) })
      if (c.landed ++ qs).length = c.chunks then s.tellRoot k r c else s
    | none => s.setComm k (x.setMember r { m with
        history := m.history.map (fun o => if o.n = n then { o with landed := o.landed ++ qs } else o) })

/-- Chunks have landed, and their counters rise. -/
def State.markLanded (s : State) (k r : Nat) (x : Comm) (c : CollCmd) (qs : List Nat) : State :=
  (c.signals x r qs).foldl (fun s g => s.landAt c.iss { cells := [], ct := g.1, inc := 1, hnd := c.hnd, len := g.2.1, off := g.2.2 })
    (s.noteLanded k r c.n qs)

/-- Places that must be written, with their lengths and capability checks, and what is written. -/
def State.landWrites (s : State) (k r : Nat) (x : Comm) (c : CollCmd) (qs : List Nat) (ws : List (Place × List Byte)) : HodStep :=
  if ws.any (fun w => s.placeXlat w.1 w.2.length true == .forbidden) then .done (s.endsWith k r c 8 (c.bytesLanded x r))
  else match ws.filter (fun w => s.placeXlat w.1 w.2.length true == .missing) with
    | [] => .done ((ws.foldl (fun (s : State) w => s.engWrite c.iss w.1 w.2) s).markLanded k r x c qs)
    | ms => .wait (ms.foldl (fun (s : State) w => s.placeTouch w.1 w.2.length) s) (ms.flatMap (fun w => w.1.pages w.2.length))

/-- The elements of a place. -/
def State.wordsAt (s : State) (i : Issuer) (p : Place) (n : Nat) : List Nat := elemsOf 4 ((s.engRead i p n).getD [])

/-- A chunk of a CLRS with an optimiser: output, weights and moments together (R291). -/
def State.landOpt (s : State) (k r : Nat) (x : Comm) (c : CollCmd) (o : Optimiser) (q off : Nat) (red : List Byte) (dst : Place) :
    HodStep :=
  let n := red.length
  let shard := cdLen c.desc / x.nrank
  let w := o.mw.add off
  let m := o.mom.add off
  let v := o.mom.add (shard + off)
  let two := optKind o.bytes == 2
  let mom := optKind o.bytes == 1 || two
  let needs := [(w, n)] ++ (if mom then [(m, n)] else []) ++ (if two then [(v, n)] else [])
  if needs.any (fun p => s.placeFault p.1 p.2) then .done (s.endsWith k r c 8 (c.bytesLanded x r))
  else match needs.filter (fun p => s.placeXlat p.1 p.2 true == .missing) with
  | [] =>
    let z := List.replicate (n / 4) 0
    let res := optRun o.bytes (elemsOf 4 red) (s.wordsAt c.iss w n) (if mom then s.wordsAt c.iss m n else z)
      (if two then s.wordsAt c.iss v n else z)
    s.landWrites k r x c [q] ([(dst.add (off / 2), res.1), (w, res.2.1)] ++ (if mom then [(m, res.2.2.1)] else []) ++
      (if two then [(v, res.2.2.2)] else []))
  | ms => .wait (ms.foldl (fun (s : State) p => s.placeTouch p.1 p.2) s) (ms.flatMap (fun p => p.1.pages p.2))

/-- Chunk q of a command lands at its rank, or is held for its crew. -/
def State.landChunk (s : State) (k r : Nat) (x : Comm) (c : CollCmd) (q : Nat) (inputs : List (Nat × List Byte)) : HodStep :=
  let qs := c.together q
  match c.result x r q inputs, c.dst with
  | none, _ => .done (s.endsWith k r c 4 0)
  | some _, none => .done (s.markLanded k r x c qs)
  | some (o, bs), some (cap, dst) =>
    match c.opt with
    | some op =>
      let stale := fun (cap : TCap) (p : Place) (n : Nat) =>
        !s.capCurrent c.iss.vf cap && decide (unchecked c.landed.isEmpty p n < n)
      let near := fun (p : Place) => match p with | .spad _ => true | .virt _ _ _ => false
      if (near dst || near op.mw || near op.mom) && s.crewHeld c.iss then .wait s []
      else if stale cap (dst.add (o / 2)) (bs.length / 2) || stale (op.caps.headD cap) (op.mw.add o) bs.length ||
          stale (op.caps.getD 1 cap) (op.mom.add o) bs.length then .done (s.endsWith k r c 6 (c.bytesLanded x r))
      else s.landOpt k r x c op q o bs dst
    | none =>
      let p := dst.add o
      match p with
      | .spad off =>
        if s.crewHeld c.iss then
          let l : Landing := {
            cells := cellsFrom off bs, ct := 0, inc := 0, hnd := c.hnd, len := bs.length, off
            coll := some (k, r, c.n, qs), signals := c.signals x r qs }
          .done ((s.onCmd k r c.id (fun d => { d with held := d.held ++ qs })).onCrew c.iss.gang c.iss.crew
            (fun t => { t with landings := t.landings ++ [l] }))
        else s.landWrites k r x c qs [(p, bs)]
      | .virt _ _ _ =>
        if s.capCurrent c.iss.vf cap then s.landWrites k r x c qs [(p, bs)]
        else
          let n := unchecked c.landed.isEmpty p bs.length
          if n = bs.length ∧ n ≠ 0 then s.landWrites k r x c qs [(p, bs)]
          else match s.placeXlat p n true with
            | .missing => .wait (s.placeTouch p n) (p.pages n)
            | .forbidden => .done (s.endsWith k r c 8 (c.bytesLanded x r))
            | .mapped _ => .done ((s.engWrite c.iss p (bs.take n)).endsWith k r c 6 (c.bytesLanded x r + n))

/-- The first chunk of a command that has been begun, lands here, and has every contribution; all the heads agree. -/
def CollCmd.landable (c : CollCmd) (x : Comm) (r : Nat) : Option (Nat × List (Nat × List Byte)) :=
  if c.ended.isSome || x.mismatched c.n || !x.allHeads c.n || (c.isMerge && c.begun < c.chunks) then none
  else (List.range c.begun).findSome? (fun q =>
    if c.landed.contains q || c.held.contains q || !c.lands x r q then none
    else (c.inputs x r q).map (fun ins => (q, ins)))

/-- Effective priority of a communicator at a die. -/
def Comm.effective (x : Comm) (die clk : Nat) : Nat :=
  let t := Sparse.get 0 x.since die
  Nat.min 7 (x.prio + (if t = 0 then 0 else (clk + 1 - t) / 2 ^ 14))

/-- A communicator at a die as R285 orders it: its slot and its effective priority. -/
def State.hodKey (s : State) (die : Nat) (x : Comm) : Nat × Nat :=
  (((Sparse.get none x.slots die).getD 0), x.effective die s.clk)

/-- The order of R285: falling effective priority, then slots from the pointer up. (log 140: DEDUCED) -/
def hodBefore (ptr : Nat) (a b : Nat × Nat) : Bool :=
  decide (b.2 < a.2) || (a.2 == b.2 && decide ((a.1 + 64 - ptr) % 64 ≤ (b.1 + 64 - ptr) % 64))

/-- The pointer of a die moves past the slot of a communicator. -/
def State.pointPast (s : State) (die : Nat) (x : Comm) : State :=
  match Sparse.get none x.slots die with
  | some j => { s with hodPtr := Sparse.set 0 s.hodPtr die ((j + 1) % 64) }
  | none => s

/-- Chunks that could land at a die: communicator, rank, command, chunk and contributions. A chunk that has what it needs
is a candidate again, in the order of R285 (22 R469). -/
def State.landings (s : State) (die : Nat) : List (Nat × Nat × CollCmd × Nat × List (Nat × List Byte)) :=
  let all := s.comms.flatMap (fun y => match y.2 with
    | some x => x.members.flatMap (fun z => match z.2 with
      | some m => if m.die != die then [] else m.active.filterMap (fun c =>
          (c.landable x z.1).map (fun l => (s.hodKey die x, y.1, z.1, c, l.1, l.2)))
      | none => [])
    | none => [])
  (sortBy (fun a b => hodBefore (Sparse.get 0 s.hodPtr die) a.1 b.1) all).map (fun l => l.2)

/-- The first of some landings that need not wait is made. -/
def State.landFirst (s : State) (die : Nat) : List (Nat × Nat × CollCmd × Nat × List (Nat × List Byte)) → State
  | [] => s
  | (k, r, c, q, ins) :: rest =>
    match s.comm k with
    | none => s.landFirst die rest
    | some x =>
      match s.landChunk k r x c q ins with
      | .wait s' _ => s'.landFirst die rest
      | .done s' => s'.pointPast die x

/-- CHUNK_LAND. -/
def execChunkLand (die : Nat) (s : State) : Host.Outcome State Fault Refusal := .next (s.landFirst die (s.landings die))

/-! ### Arbitration (R285) -/

/-- The clk since which each communicator is a candidate at a die. -/
def State.markCandidates (s : State) (die : Nat) : State :=
  { s with comms := s.comms.map (fun (y : Nat × Option Comm) => (y.1, y.2.map (fun x =>
      let t := Sparse.get 0 x.since die
      if (s.beginner x die).isNone then { x with since := Sparse.set 0 x.since die 0 }
      else if t = 0 then { x with since := Sparse.set 0 x.since die (s.clk + 1) } else x))) }

/-- The candidates of a die in the order of R285: falling effective priority, then slots from the pointer up. -/
def State.hodOrder (s : State) (die : Nat) : List (Nat × Nat) :=
  let cands := s.comms.filterMap (fun y => match y.2 with
    | some x => if (Sparse.get none x.slots die).isSome && (s.beginner x die).isSome then some (y.1, s.hodKey die x) else none
    | none => none)
  (sortBy (fun (a b : Nat × Nat × Nat) => hodBefore (Sparse.get 0 s.hodPtr die) a.2 b.2) cands).map (fun c => (c.1, c.2.1))

/-- The first candidate that need not wait for a page begins its chunk. -/
def State.beginFirst (s : State) (die : Nat) : List (Nat × Nat) → State
  | [] => s
  | (k, j) :: rest =>
    match s.comm k with
    | none => s.beginFirst die rest
    | some x =>
      match s.beginner x die with
      | none => s.beginFirst die rest
      | some (r, c) =>
        match s.beginChunk k r x c with
        | .wait s' _ => s'.beginFirst die rest
        | .done s' =>
          let s' := { s' with hodPtr := Sparse.set 0 s'.hodPtr die ((j + 1) % 64) }
          match s'.comm k with
          | some y => s'.setComm k { y with since := Sparse.set 0 y.since die (s'.clk + 1) }
          | none => s'

/-- CHUNK_BEGIN: the Hod of a die takes up the commands handed to it, then begins the next chunk of the best candidate; a
communicator that waits for a buffer alone is counted as a stall. -/
def State.chunkBegin (s : State) (die : Nat) : State :=
  let s := (((s.openEach (hodHeads die [] s.hodQ)).settleRaws die).serveAsks).markCandidates die
  match s.hodOrder die with
  | [] =>
    if s.comms.any (fun y => match y.2 with
      | some x => x.members.any (fun z => match z.2 with
        | some m => m.die == die && m.active.any (fun c => decide (c.begun < c.chunks) && !s.hasBuffer x die c)
        | none => false)
      | none => false) then s.monitor die monStalls 16 1 else s
  | cs => s.beginFirst die cs

def execChunkBegin (die : Nat) (s : State) : Host.Outcome State Fault Refusal := .next (s.chunkBegin die)

/-! ### Completion (R279, R290, R292) -/

/-- Every chunk has begun here, and those that land here have landed; at a broadcast's root, at every other rank.
(log 81: DEDUCED) -/
def CollCmd.complete (c : CollCmd) (x : Comm) (r : Nat) : Bool :=
  c.begun == c.chunks && (List.range c.chunks).all (fun q => !c.lands x r q || c.landed.contains q) && x.allHeads c.n &&
    !x.offers.any (fun t => t.n == c.n && t.rank == r) && !x.asks.any (fun a => a.n == c.n && a.rank == r) &&
    (c.op != 0xDE || c.rootOf x r != r || (x.group (cdMask c.desc) r).all (fun g => g == r || x.reached.contains (c.n, g)))

/-- The outcome of a command at a rank, once it has one: a chained CLAG shares that of a CLRS that failed. -/
def State.verdict (s : State) (x : Comm) (r : Nat) (c : CollCmd) (first : Bool) : Option (Nat × Nat) :=
  match c.ended with
  | some e => some e
  | none =>
    if x.mismatched c.n then some (5, c.landed.length)
    else if cdChain c.desc && (s.chainOf x c).isNone then some (4, 0)
    else if cdChain c.desc && (match s.chainOf x c with
      | some (_, _, d) => (match d.ended with | some e => e.1 != 0 | none => false)
      | none => false) then
      (s.chainOf x c).bind (fun f => f.2.2.ended)
    else if c.op = 0xDF && first && x.allHeads c.n then some (0, 0)
    else if c.op != 0xDF && c.complete x r then some (0, c.landed.length)
    else match x.lost with
      | some l => if (c.landable x r).isSome then none else some (3, l)
      | none => none

/-- Commands at a die that have an outcome: communicator, rank, command and outcome. -/
def State.verdicts (s : State) (die : Nat) : List (Nat × Nat × CollCmd × Nat × Nat) :=
  s.comms.flatMap (fun y => match y.2 with
    | some x => x.members.flatMap (fun z => match z.2 with
      | some m => if m.die != die then [] else
          ((m.cmds.filter (fun c => c.ended.isSome)) ++ m.active).filterMap (fun c =>
            (s.verdict x z.1 c (m.active.head? == some c)).map (fun v => (y.1, z.1, c, v.1, v.2)))
      | none => [])
    | none => [])

/-- CLOPT: the attachment is recorded for the strand (R290). -/
def State.attach (s : State) (k r : Nat) (x : Comm) (c : CollCmd) : HodStep :=
  match c.src with
  | none => .done (s.endMember k r c 4 0)
  | some (_, p) =>
    match s.engRead c.iss p 64 with
    | none => if s.placeFault p 64 then .done (s.endMember k r c 8 0) else .wait (s.placeTouch p 64) (p.pages 64)
    | some b =>
      if optKind b = 0 ∨ 3 < optKind b ∨ imgNat b 1 3 ≠ 0 ∨ optStep b = 0 then .done (s.endMember k r c 4 0)
      else
        let m := x.member r
        let o : Optimiser := { place := p, bytes := b, mw := p, mom := p }
        .done ((s.setComm k (x.setMember r { m with opts := Sparse.set none m.opts (strandKey c.iss) (some o) })).endMember k r c 0 0)

/-- Bytes of DST that a reshard used above its final shard are free values: R289 does not say what it leaves there. -/
def State.freeBytes (s : State) (i : Issuer) (p : Place) : Nat → State
  | 0 => s
  | n + 1 =>
    let w := s.takeFree
    (w.2.engWrite i (p.add n) (natBytes 1 w.1.toNat)).freeBytes i p n

/-- What a command does as it completes: STEP rises where an optimiser ran; a reshard's leavings. -/
def State.finishColl (s : State) (x : Comm) (r : Nat) (c : CollCmd) : HodStep :=
  match c.opt, c.dst, c.steps.getLast? with
  | some o, _, _ =>
    let p := o.place.add 0x1C
    match s.placeXlat p 4 true with
    | .missing => .wait (s.placeTouch p 4) (p.pages 4)
    | .forbidden => .done s
    | .mapped _ => .done (s.engWrite c.iss p (natBytes 4 ((optStep o.bytes + 1) % 2 ^ 32)))
  | none, some (_, p), some st =>
    if !c.isReshard then .done s
    else
      let out := fun (y : CollStep) => c.outBytes x r y (reshardDims c.desc)
      .done (s.freeBytes c.iss (p.add (out st)) ((c.steps.map out).foldl Nat.max 0 - out st))
  | _, _, _ => .done s

/-- The first of some outcomes that need not wait is reported. -/
def State.reportFirst (s : State) : List (Nat × Nat × CollCmd × Nat × Nat) → State
  | [] => s
  | (k, r, c, st, res) :: rest =>
    match s.comm k with
    | none => s.reportFirst rest
    | some x =>
      let step := if st ≠ 0 then .done s else if c.op = 0xDF then s.attach k r x c else s.finishColl x r c
      match step with
      | .wait s' _ => s'.reportFirst rest
      | .done s' =>
        if st = 0 ∧ c.op = 0xDF then s'
        else if st = 5 then
          (s'.sendAll (s'.others x (List.range x.nrank)) 0 0 (.mismatch k c.n)).endMember k r c st res
        else s'.endMember k r c st res

/-- COLLECTIVE_COMPLETE: a command of a die that has its outcome ends. -/
def execCollectiveComplete (die : Nat) (s : State) : Host.Outcome State Fault Refusal := .next (s.reportFirst (s.verdicts die))

/-! ### Held deliveries (03 R61, R70) -/

/-- LANDING_COMPLETE: a delivery that was held for a crew lands on its tile once the crew's log has been replayed. -/
def State.landHeld (s : State) (t idx : Nat) : State :=
  let x := s.tile t
  match x.landings[idx]?, x.crew with
  | some l, some w =>
    if w.frozen && !(w.resuming && x.sideLog.isEmpty) then s
    else
      let s := s.setTile t { x.spadCells l.cells with landings := x.landings.eraseIdx idx }
      match l.coll with
      | some (k, r, n, qs) =>
        l.signals.foldl (fun (s : State) g => s.landOn t
          { cells := [], ct := g.1, inc := 1, hnd := l.hnd, len := g.2.1, off := g.2.2 }) (s.noteLanded k r n qs)
      | none => s.landOn t l
  | _, _ => s

def execLandingComplete (tile idx : Nat) (s : State) : Host.Outcome State Fault Refusal := .next (s.landHeld tile idx)

/-! ### Pages that could not be had (10 R211, R279) -/

/-- Commands that wait for a page end with PAGE, or BADDESC where they had no number yet. -/
def State.failHod (s : State) (pasid vpage : Nat) : State :=
  let hit := fun (h : HodStep) => match h with | .wait _ pages => pages.contains (pasid, vpage) | .done _ => false
  let s := s.hodQ.foldl (fun (s : State) c =>
    if hit (s.openCmd c) then { s.endFree c 7 with hodQ := s.hodQ.filter (fun d => d.id != c.id) } else s) s
  s.comms.foldl (fun (s : State) y => match y.2 with
    | some x => x.members.foldl (fun (s : State) z => match z.2 with
      | some m => m.active.foldl (fun (s : State) c =>
          let page := fun (s : State) => s.endsWith y.1 z.1 c 7 (c.bytesLanded x z.1)
          if s.canBegin x z.1 m c && hit (s.beginChunk y.1 z.1 x c) then page s
          else match c.landable x z.1 with
            | some (q, ins) => if hit (s.landChunk y.1 z.1 x c q ins) then page s else s
            | none => if hit (s.finishColl x z.1 c) then page s else s) s
      | none => s) s
    | none => s) s

end Sys2Proof.Machine
end

