-- ==== Sys2Proof/Machine/Crown.lean ====
section
/-! DEFINITION. The Crown: weight versions, their holds, publication, broadcasts and adoption (14 R301 to R310, R317, 20
R457, R458). -/
namespace Sys2Proof.Machine

/-! ### Issue (R305, R457) -/

/-- A command enters the queue of its tile. -/
def State.crownEnter (s : State) (op : Nat) (f : EFields) (place : Option Place) (cap : TCap) : State :=
  let n := s.takeOp
  let c := n.2.engCmd n.1 op f place cap
  let s := n.2.statusEntry 11 n.1 c.nr
  { s with crownQ := s.crownQ ++ [c] }

/-- The E slot of a command with a descriptor. -/
def State.wvIssue (s : State) (op : Nat) (f : EFields) : Res State :=
  if 16 ≤ crewCmds s.crownQ (s.issuer s.cur s.curCtx) then .block (.engineQueue op)
  else
    (readCapReg s.ctx f.k.toNat).bind fun cap =>
    (s.check cap (eOff s f) 64 (rR + rW + rE) 64 .engine).bind fun p => .ok (s.crownEnter op f (some p) cap)

def execWvadopt (f : EFields) (s : State) : Host.Outcome State Fault Refusal :=
  settle s (
    if 16 ≤ crewCmds s.crownQ (s.issuer s.cur s.curCtx) then .block (.engineQueue 0xF9) else .ok (s.crownEnter 0xF9 f none {}))
def execWvdrop (f : EFields) (s : State) : Host.Outcome State Fault Refusal := settle s (s.wvIssue 0xFA f)
def execWvhold (f : EFields) (s : State) : Host.Outcome State Fault Refusal := settle s (s.wvIssue 0xFB f)
def execWvpub (f : EFields) (s : State) : Host.Outcome State Fault Refusal := settle s (s.wvIssue 0xFC f)
def execWvqry (f : EFields) (s : State) : Host.Outcome State Fault Refusal := settle s (s.wvIssue 0xFD f)

/-! ### Entries (R301 to R303) -/

def State.crownOwned (s : State) (vf w : Nat) : Bool := Sparse.get none s.crownOwner w == some vf

/-- The PUBLISHED slot of a set. -/
def State.published (s : State) (w : Nat) : Option Nat := s.crownFind w [2] none

/-- The 32-byte image of an entry after its WCAP. -/
def CrownSlot.tail (x : CrownSlot) (w j : Nat) : List Byte :=
  natBytes 4 x.ver.toNat ++ natBytes 4 x.readers.toNat ++ natBytes 1 x.state.toNat ++ natBytes 1 (4 * w + j) ++ natBytes 6 0

/-- WCAP of an image: the right W is cleared but in a claim's. -/
def imageCap (keepW : Bool) (c : TCap) : TCap :=
  if keepW then c else { c with bits := c.bits &&& ~~~(BitVec.ofNat 128 (rW * 2 ^ 82)) }

/-- A capability written by an engine with its tag, as KST writes one (10 R205). -/
def State.engWriteCap (s : State) (i : Issuer) (p : Place) (c : TCap) : State :=
  let bs := natBytes 16 c.bits.toNat
  match p with
  | .spad off => s.onCrew i.gang i.crew (fun t =>
      let t := t.spadCells (cellsFrom off bs)
      { t with spadTag := Sparse.set false t.spadTag (off / 16) c.tag })
  | .virt pasid va obj => (s.touchRange pasid va 16).vaPut i.vf pasid obj c.tag (cellsFrom va bs)

/-- The image of an entry is written to a descriptor's ENTRY. -/
def State.writeImage (s : State) (i : Issuer) (p : Place) (w j : Nat) (keepW : Bool) : State :=
  let x := s.crownSlot w j
  (s.engWriteCap i (p.add 0x20) (imageCap keepW x.cap)).engWrite i (p.add 0x30) (x.tail w j)

/-- An entry is PUBLISHED, and the one before it RETIRING or FREE (R303, R306). -/
def State.publish (s : State) (w j : Nat) : State :=
  let s := match s.published w with
    | some o =>
      let x := s.crownSlot w o
      s.setCrownSlot w o { x with state := if x.readers = 0 then 0 else 3 }
    | none => s
  s.setCrownSlot w j { s.crownSlot w j with state := 2 }

def State.freeSlot (s : State) (w j : Nat) : State := s.setCrownSlot w j { s.crownSlot w j with state := 0, readers := 0 }

/-- The lowest FREE slot of a set is claimed for a version. -/
def State.claimSlot (s : State) (w : Nat) (ver : BitVec 32) : Option (Nat × State) :=
  (s.crownFind w [0] none).map (fun j => (j, s.setCrownSlot w j { s.crownSlot w j with state := 1, ver, readers := 0 }))

/-! ### Adoption (R310) -/

/-- Where an adoption check is made. -/
inductive Boundary where
  | force | opening | token
  deriving DecidableEq, Repr

/-- ADOPT moves to the version published. -/
def adoptMoves (b : Boundary) (a : Word) (ver : BitVec 32) : Bool :=
  if !adoptHeld a || b == .force then adoptVer a != ver || !adoptHeld a
  else if ver == adoptVer a then false
  else if adoptMode a = 0 then b == .opening
  else if adoptMode a = 1 then true
  else if adoptMode a = 2 then false
  else b == .opening || decide (adoptLag a < (ver - adoptVer a).toNat)

/-- ADOPT of a strand, wherever it is. -/
def State.adoptOf (s : State) (i : Issuer) : Word :=
  match s.crewState i.gang i.crew with
  | some t => (t.ctx i.ctx).readCsr 0x07
  | none => 0

/-- The adoption check: status 0, 2 NOSET, 5 NOVER, or 1 where a hold more would pass 2^32 - 1 (R305). -/
def State.adopt (s : State) (i : Issuer) (b : Boundary) : Nat × State :=
  let a := s.adoptOf i
  let w := adoptSet a
  if !s.crownOwned i.vf w then (2, s)
  else match s.published w with
    | none => (5, s)
    | some j =>
      let x := s.crownSlot w j
      if !adoptMoves b a x.ver then (0, s)
      else if x.readers = BitVec.allOnes 32 then (1, s)
      else
        let s := (s.setCrownSlot w j { x with readers := x.readers + 1 }).releaseAdopt i.vf a
        (0, s.onStrand i (fun c => c.writeCsr 0x07 (mkAdopt x.ver j w true (adoptLag a) (adoptMode a))))

/-! ### Broadcasts (R307) -/

/-- The descriptor of a broadcast's CLBC: 64 KiB chunks, the publisher as root, the length of the slot buffer. -/
def crownDesc (root len : Nat) : List Byte :=
  natBytes 1 1 ++ natBytes 1 0 ++ natBytes 1 4 ++ natBytes 3 0 ++ natBytes 2 root ++ natBytes 8 len ++ natBytes 48 0

/-- A Crown's CLBC at its member of a communicator. -/
def State.crownJoin (s : State) (k r : Nat) (x : Comm) (w j root : Nat) (isRoot : Bool) : State :=
  let e := s.crownSlot w j
  match e.region with
  | none => s
  | some g =>
    let n := s.takeOp
    let side := some (e.cap, Place.virt g.pasid g.va (some (capObj e.cap)))
    let c : CollCmd := {
      id := n.1, op := 0xDE, tile := 64 * (x.member r).die, ct := 0, nr := true, hnd := 0, cseq := 0, place := none
      iss := { gang := 0, crew := 0, ctx := 0, vf := x.vf, pasid := g.pasid }, desc := crownDesc root g.len
      src := if isRoot then side else none, dst := if isRoot then none else side, crown := some (w, j), ver := e.ver.toNat }
    n.2.enroll k r x { c with steps := c.plan x r }

/-- The publisher starts: the version is claimed at every other module, and its Crown is the root. -/
def State.startBroadcast (s : State) (k r : Nat) (x : Comm) (w j : Nat) (ver : BitVec 32) : State :=
  let s := { s with broadcasts := s.broadcasts ++ [({ set := w, ver := ver.toNat, comm := k, slot := some j, root := true } : Broadcast)] }
  (s.sendAll (s.others x (List.range x.nrank)) 2 0 (.claim k w ver.toNat s.nodeId.toNat)).crownJoin k r x w j r true

/-- Credits held for a broadcast go back to the peers (R299). -/
def State.payOwed (s : State) (b : Broadcast) : State := b.owed.foldl (fun s p => s.grantTo p 2) s

/-- The root that a peer's Crown follows: once the root's head is here, as the collective of that number, or as the one
before it whose number another command of the root took, a MISMATCH; on a communicator that has ended, at once. -/
def Comm.joinRoot (x : Comm) (m : Member) (ver : Nat) : Option Nat :=
  if x.aborted || x.lost.isSome then some 0
  else match x.rootHead ver with
    | none => none
    | some (n, r, h) =>
      if n = m.next ∨ (m.next < n ∧ x.heads.any (fun g => g.1 == m.next && g.2.1 == r &&
          (decide (g.2.2.op < 0x100) || g.2.2.root == r)) = true) then some h.root
      else none

/-- A receiving broadcast goes on: it takes a slot once one is free, and joins; one that has ended without a slot goes. -/
def State.advanceBroadcast (s : State) (b : Broadcast) : State :=
  let swap := fun (s : State) (c : Broadcast) => { s with broadcasts := s.broadcasts.map (fun d => if d = b then c else d) }
  match s.comm b.comm, b.slot with
  | none, _ => s
  | some _, none =>
    if b.ended.isSome then ({ s with broadcasts := s.broadcasts.erase b } : State).payOwed b
    else match s.claimSlot b.set (BitVec.ofNat 32 b.ver) with
    | none => s
    | some (j, s') => (swap s' { b with slot := some j, owed := [] }).payOwed b
  | some x, some j =>
    match x.ranks.head? with
    | none => s
    | some r =>
      let m := x.member r
      if b.root || b.ended.isSome || b.joined m then s
      else match x.joinRoot m b.ver with
        | some root => s.crownJoin b.comm r x b.set j root false
        | none => s

/-- Every broadcast goes on, slots first. -/
def State.advanceBroadcasts (s : State) : State :=
  let s := s.broadcasts.foldl State.advanceBroadcast s
  s.broadcasts.foldl State.advanceBroadcast s

/-- BROADCAST_CLAIM: a broadcast starts at a peer, on the set's Crown communicator. (log 93: DEDUCED) -/
def State.broadcastClaim (s : State) (w k ver : Nat) : State :=
  match s.comm k with
  | none => s
  | some x =>
    if x.crown ≠ some w ∨ s.broadcasts.any (fun b => b.set == w && b.ver == ver && b.comm == k) then s
    else ({ s with broadcasts := s.broadcasts ++ [({ set := w, ver, comm := k, slot := none, root := false } : Broadcast)] }).advanceBroadcasts

/-- A communicator is the Crown communicator of a set here. -/
def State.crownOn (s : State) (w k : Nat) : Bool := (s.comm k).any (fun x => x.crown == some w)

/-- A peer refuses a broadcast: it ends BADDESC, at the other peers too, and the version stays published here (R307).
(log 131: DEDUCED) -/
def State.broadcastRefused (s : State) (w k ver : Nat) : State :=
  match s.comm k with
  | none => s
  | some x =>
    x.members.foldl (fun (s : State) y => match y.2 with
      | some m => (m.cmds.filter (fun c => c.ended.isNone && c.ver == ver && (match c.crown with | some (v, _) => v == w | none => false))).foldl
          (fun s c => (s.endsWith k y.1 c 4 0).sendAll (s.others x (List.range x.nrank)) 0 0 (.mismatch k c.n)) s
      | none => s) s

def execBroadcastClaim (w comm ver : Nat) (s : State) : Host.Outcome State Fault Refusal := .next (s.broadcastClaim w comm ver)

/-- BROADCAST_LAND: the first broadcast of a set that has ended at a peer is published, or its entry goes back to FREE. -/
def State.broadcastLand (s : State) (w : Nat) : State :=
  match s.broadcasts.find? (fun b => b.set == w && !b.root && b.ended.isSome && b.slot.isSome) with
  | none => s.advanceBroadcasts
  | some b =>
    let j := b.slot.getD 0
    let s := { s with broadcasts := s.broadcasts.erase b }
    if (s.crownSlot w j).state ≠ 1 then s
    else
      let newer := match s.published w with
        | some o => decide ((s.crownSlot w j).ver ≤ (s.crownSlot w o).ver)
        | none => false
      (if b.ended == some 0 && !newer then s.publish w j else s.freeSlot w j).advanceBroadcasts

def execBroadcastLand (w : Nat) (s : State) : Host.Outcome State Fault Refusal := .next (s.broadcastLand w)

/-! ### Commands (R304 to R306) -/

/-- A status entry of the Crown or of Brim (R317); RES and INFO are free where the command is given none.
(log 90: DESIGN CHOICE) -/
def State.hubStatus (s : State) (op st : Nat) (res info : Option Nat) : Nat × State :=
  let w := s.takeFree
  (res.getD (w.1.toNat / 2 ^ 32) % 2 ^ 32 * 2 ^ 32 + info.getD (w.1.toNat / 2 ^ 16) % 2 ^ 16 * 2 ^ 16 + op * 2 ^ 8 + st, w.2)

/-- A command ends: its counter, and its status in b11. -/
def State.crownFinish (s : State) (c : EngCmd) (st : Nat) (res : Option Nat) : State :=
  let v := s.hubStatus c.op st res none
  { v.2.finishOp c.iss c.ct 1 c.nr 11 c.id v.1 with crownQ := s.crownQ.filter (fun o => o.id != c.id) }

/-- Fields of a descriptor. -/
def wvSet (d : List Byte) : Nat := imgNat d 0 1
def wvBc (d : List Byte) : Bool := imgNat d 1 1 % 2 == 1
def wvExact (d : List Byte) : Bool := imgNat d 1 1 / 2 % 2 == 1
def wvClaim (d : List Byte) : Bool := imgNat d 1 1 / 4 % 2 == 1
def wvVer (d : List Byte) : BitVec 32 := BitVec.ofNat 32 (imgNat d 4 4)
/-- R304's reasons for BADDESC. -/
def wvBad (op : Nat) (d : List Byte) : Bool :=
  decide (63 < wvSet d) || decide (8 ≤ imgNat d 1 1) || imgNat d 2 2 != 0 || imgNat d 8 8 != 0 ||
    (!(op == 0xFC && wvBc d) && imgNat d 0x10 16 != 0)

/-- The entry that WVHOLD and WVQRY take. -/
def State.wvEntry (s : State) (d : List Byte) : Option Nat :=
  if wvExact d then s.crownFind (wvSet d) [2, 3] (some (wvVer d)) else s.published (wvSet d)

/-- The communicator of a broadcast, and this module's rank in it: the set's Crown communicator (R307). -/
def State.crownComm (s : State) (c : EngCmd) (w : Nat) (com : TCap) : Option (Place × (List Byte → Option (Nat × Nat × Comm))) :=
  (s.hodCap c.iss com 128 (rR + rE) .load).map (fun y => (y.2, fun ob =>
    let k := commKey c.iss.vf (imgNat ob 4 4)
    let r := imgNat ob 0x12 2
    match s.comm k with
    | some x => if imgPut ob 0x12 2 0 = x.image ∧ x.crown = some w ∧ (Sparse.get none x.members r).isSome then some (k, r, x) else none
    | none => none))

/-- WVPUB without CLAIM. -/
def State.wvPublish (s : State) (c : EngCmd) (p : Place) (d : List Byte) : HodStep :=
  let w := wvSet d
  match s.crownFind w [1] (some (wvVer d)) with
  | none => .done (s.crownFinish c 7 none)
  | some j =>
    let stale := match s.published w with | some o => decide (wvVer d ≤ (s.crownSlot w o).ver) | none => false
    if stale then .done (s.crownFinish c 4 none)
    else if !wvBc d then .done ((s.publish w j).crownFinish c 0 none)
    else match (s.engCap c.iss p 0x10).bind (fun com => s.crownComm c w com) with
      | none => .done ((s.publish w j).crownFinish c 1 none)
      | some (q, find) =>
        match s.engRead c.iss q 128 with
        | none =>
          if s.placeFault q 128 then .done ((s.publish w j).crownFinish c 1 none) else .wait (s.placeTouch q 128) (q.pages 128)
        | some ob =>
          match find ob with
          | none => .done ((s.publish w j).crownFinish c 1 none)
          | some (k, r, x) =>
            let s := (s.publish w j).startBroadcast k r x w j (wvVer d)
            .done { s with crownQ := s.crownQ.map (fun o => if o.id = c.id then { o with bc := some (w, (wvVer d).toNat) } else o) }

/-- A command with a descriptor, on a set that its virtual function holds. (log 92: DEDUCED) -/
def State.wvRun (s : State) (c : EngCmd) (p : Place) (d : List Byte) : HodStep :=
  let w := wvSet d
  let img := fun (s : State) (j : Nat) (keep : Bool) => s.writeImage c.iss p w j keep
  if c.op = 0xFA then
    match s.heldSlot c.iss.vf w (wvVer d) with
    | some _ => .done ((s.dropHold c.iss.vf w (wvVer d)).crownFinish c 0 none)
    | none => .done (s.crownFinish c 6 none)
  else if c.op = 0xFC then
    if wvClaim d then
      if (List.range 4).any (fun j => [1, 2].contains (s.crownSlot w j).state.toNat && decide (wvVer d ≤ (s.crownSlot w j).ver))
      then .done (s.crownFinish c 4 none)
      else match s.claimSlot w (wvVer d) with
        | none => .done (s.crownFinish c 3 none)
        | some (j, s') => .done ((img s' j true).crownFinish c 0 (some j))
    else s.wvPublish c p d
  else match s.wvEntry d with
    | none => .done (s.crownFinish c 5 none)
    | some j =>
      let x := s.crownSlot w j
      if c.op = 0xFB then
        if x.readers = BitVec.allOnes 32 then .done (s.crownFinish c 1 none)
        else .done ((img (s.setCrownSlot w j { x with readers := x.readers + 1 }) j false).crownFinish c 0 (some x.ver.toNat))
      else .done ((img s j false).crownFinish c 0 (some x.ver.toNat))

/-- A command's turn. -/
def State.crownTurn (s : State) (c : EngCmd) : HodStep :=
  if !s.forkReady c.iss then .wait s []
  else
    let s := s.fork c.iss
    match c.place with
    | none =>
      let r := s.adopt c.iss .force
      .done (r.2.crownFinish c r.1 (if r.1 = 0 then some (adoptVer (r.2.adoptOf c.iss)).toNat else none))
    | some p =>
      match s.engPoison c.iss p 64, s.placeXlat p 64 true, s.engRead c.iss p 64 with
      | some (pa, va), _, _ => .done ((s.crownFinish c 1 none).memue c.iss 4 pa va)
      | none, .forbidden, _ => .done (s.crownFinish c 1 none)
      | none, .mapped _, some d =>
        let s := s.placeTouch p 64
        if wvBad c.op d then .done (s.crownFinish c 1 none)
        else if !s.crownOwned c.iss.vf (wvSet d) then .done (s.crownFinish c 2 none)
        else s.wvRun c p d
      | none, _, _ => if s.placeFault p 64 then .done (s.crownFinish c 1 none) else .wait (s.placeTouch p 64) (p.pages 64)

/-- A publication whose broadcast has ended completes: BCFAIL with the collective's status, BADDESC where a peer refused it
(R306, R307). -/
def State.crownBc (s : State) (c : EngCmd) : Option State :=
  match c.bc with
  | none => none
  | some (w, ver) =>
    match s.broadcasts.find? (fun b => b.root && b.set == w && b.ver == ver && b.ended.isSome &&
        (s.comm b.comm).all (fun x => x.vf == c.iss.vf)) with
    | none => none
    | some b =>
      let st := b.ended.getD 0
      some (({ s with broadcasts := s.broadcasts.erase b }).crownFinish c (if st = 0 then 0 else if st = 4 then 1 else 8)
        (if st = 0 ∨ st = 4 then none else some st))

/-- Commands reach the hub die once their fork is made, those of one strand in issue order; the queue holds those that have
reached it first, in that order (R308, R316). (log 132: DEDUCED) -/
def State.reachHub (s : State) (q : List EngCmd) : List EngCmd :=
  let far := q.filter (fun c => !c.here)
  let come := far.filter (fun c => s.forkReady c.iss &&
    !far.any (fun o => decide (o.id < c.id) && strandKey o.iss == strandKey c.iss && !s.forkReady o.iss))
  q.filter (fun c => c.here) ++ come.map (fun c => { c with here := true }) ++ far.filter (fun c => !come.contains c)

/-- The first command that has reached the Crown and has not begun its broadcast: it alone has its turn (R308). -/
def State.crownFirst (s : State) : Option EngCmd := s.crownQ.find? (fun c => c.here && c.bc.isNone)

/-- CROWN_COMPLETE: publications whose broadcasts have ended, then the first command. -/
def State.crownServe (s : State) : State :=
  let s := { s with crownQ := s.reachHub s.crownQ }
  match s.crownQ.findSome? s.crownBc with
  | some s' => s'
  | none => match s.crownFirst with
    | none => s
    | some c => match s.crownTurn c with
      | .wait s' _ => s'
      | .done s' => s'

def execCrownComplete (s : State) : Host.Outcome State Fault Refusal := .next s.crownServe.advanceBroadcasts

/-- A page request has failed: the command that waits for the page ends BADDESC; a publication that waits for its communicator's
object has published (R307). (log 91: DEDUCED) -/
def State.failCrown (s : State) (pasid vpage : Nat) : State :=
  match s.crownFirst with
  | none => s
  | some c => match s.crownTurn c with
    | .done _ => s
    | .wait s' pages =>
      if !pages.contains (pasid, vpage) then s
      else match c.place.bind (fun p => s.engRead c.iss p 64) with
        | some d => match (if c.op = 0xFC then s.crownFind (wvSet d) [1] (some (wvVer d)) else none) with
          | some j => (s'.publish (wvSet d) j).crownFinish c 1 none
          | none => s'.crownFinish c 1 none
        | none => s'.crownFinish c 1 none

end Sys2Proof.Machine
end

