-- ==== Sys2Proof/Machine/Brim.lean ====
section
/-! DEFINITION. Brim: trajectory rings, their sequences and deliveries (14 R311 to R317, 19 R429). -/
namespace Sys2Proof.Machine

/-! ### Issue (R314, R429) -/

/-- A command enters the Brim queue of its tile. -/
def State.brimEnter (s : State) (op : Nat) (f : EFields) (place : Option Place) (cap : TCap) : State :=
  let n := s.takeOp
  let c := n.2.engCmd n.1 op f place cap
  let s := n.2.statusEntry 12 n.1 c.nr
  { s with brimQ := s.brimQ ++ [c] }

/-- The E slot of a command whose k and s name n bytes, aligned. -/
def State.tjIssue (s : State) (op n align : Nat) (f : EFields) : Res State :=
  if 16 ≤ crewCmds s.brimQ (s.issuer s.cur s.curCtx) then .block (.engineQueue op)
  else (s.descCheck f n align).bind fun r => .ok (s.brimEnter op f (some r.2) r.1)
/-- The E slot of a command whose s is a value. -/
def State.tjValue (s : State) (op : Nat) (f : EFields) : Res State :=
  if 16 ≤ crewCmds s.brimQ (s.issuer s.cur s.curCtx) then .block (.engineQueue op) else .ok (s.brimEnter op f none {})

/-- Records of a TJREC. -/
def tjCount (arg : Nat) : Nat := arg % 16 + 1

def execTjclose (f : EFields) (s : State) : Host.Outcome State Fault Refusal := settle s (s.tjValue 0xF5 f)
def execTjopen (f : EFields) (s : State) : Host.Outcome State Fault Refusal := settle s (s.tjValue 0xF6 f)
def execTjrd (f : EFields) (s : State) : Host.Outcome State Fault Refusal := settle s (s.tjIssue 0xF7 32 32 f)
def execTjrec (f : EFields) (s : State) : Host.Outcome State Fault Refusal :=
  settle s (s.tjIssue 0xF8 (16 * tjCount f.arg.toNat) 16 f)

/-! ### Sequence headers (R312) -/

/-- A header's 64 bytes. -/
structure TjHdr where
  seqid  : Nat
  tag    : Nat
  vmin   : Nat
  vmax   : Nat
  nrec   : Nat
  ndrop  : Nat
  result : Nat
  state  : Nat
  src    : Nat
  deriving DecidableEq, Repr

def tjHdr (b : List Byte) : TjHdr :=
  let f := imgNat b
  { seqid := f 0 8, tag := f 8 8, vmin := f 0x10 4, vmax := f 0x14 4, nrec := f 0x18 4, ndrop := f 0x1C 4, result := f 0x20 8
    state := f 0x28 1, src := f 0x2C 4 }

def TjHdr.bytes (h : TjHdr) : List Byte :=
  natBytes 8 h.seqid ++ natBytes 8 h.tag ++ natBytes 4 h.vmin ++ natBytes 4 h.vmax ++ natBytes 4 h.nrec ++ natBytes 4 h.ndrop ++
    natBytes 8 h.result ++ natBytes 1 h.state ++ natBytes 3 0 ++ natBytes 4 h.src ++ natBytes 16 0

/-- Brim's own writes in a ring. -/
def State.tjWrite (s : State) (vf : Nat) (g : Region) (va : Nat) (bs : List Byte) : State :=
  (s.touchRange g.pasid va bs.length).vaPut vf g.pasid none false (cellsFrom va bs)

/-- The headers of a ring that lie on mapped pages, by slot. -/
def State.tjHeaders (s : State) (r : TjRing) (g : Region) : List (Nat × TjHdr) :=
  (List.range r.slots).filterMap (fun j => (s.vaRead g.pasid (r.slotVa g j) 64).map (fun b => (j, tjHdr b)))

/-- A slot header without a translation: its page. -/
def State.tjMissing (s : State) (r : TjRing) (g : Region) : List Nat :=
  (List.range r.slots).filterMap (fun j =>
    if (s.vaRead g.pasid (r.slotVa g j) 64).isNone then some (r.slotVa g j) else none)

/-- A wait for some ranges of a ring. -/
def State.tjWait (s : State) (g : Region) (n : Nat) (vas : List Nat) : HodStep :=
  .wait (vas.foldl (fun (s : State) va => s.touchRange g.pasid va n) s)
    (vas.flatMap (fun va => (pagesOf va n).map (fun p => (g.pasid, p))))

/-! ### Commands (R314, R315) -/

/-- A command ends with a landing, if it is one: its counter, and the handler of a delivery (R316); its status in b12. -/
def State.brimEnd (s : State) (c : EngCmd) (st : Nat) (res info : Option Nat) (land : State → State) : State :=
  let v := s.hubStatus c.op st res info
  { (land v.2).status c.iss c.nr 12 c.id v.1 with brimQ := s.brimQ.filter (fun o => o.id != c.id) }

/-- A command ends that delivers nothing. -/
def State.brimFinish (s : State) (c : EngCmd) (st : Nat) (res info : Option Nat) : State :=
  s.brimEnd c st res info (fun s => s.landAt c.iss { cells := [], ct := c.ct, inc := 1, hnd := 0, len := 0, off := 0 })

def State.setHandle (s : State) (i : Issuer) (h : Word) : State := s.onStrand i (fun c => { c with tjHandle := h })
def State.handleOf (s : State) (i : Issuer) : Word :=
  match s.crewState i.gang i.crew with
  | some t => (t.ctx i.ctx).tjHandle
  | none => 0

def mkHandle (ring slot epoch : Nat) : Word := BitVec.ofNat 64 (2 ^ 63 + epoch * 2 ^ 32 + slot * 2 ^ 16 + ring)

def State.setTjRing (s : State) (vf n : Nat) (r : TjRing) : State :=
  s.setVf vf { s.vf vf with tjrings := Sparse.set {} (s.vf vf).tjrings n r }

/-- TJOPEN. -/
def State.tjopen (s : State) (c : EngCmd) : HodStep :=
  let n := c.arg % 64
  let r := s.tjRing c.iss.vf n
  match r.region with
  | none => .done (s.brimFinish c 2 none none)
  | some g =>
    if tjOpen (s.handleOf c.iss) then .done (s.brimFinish c 4 none none)
    else match s.tjMissing r g with
      | [] =>
        let a := s.adopt c.iss .opening
        if a.1 = 1 then .done (s.brimFinish c 1 none none)
        else if a.1 ≠ 0 ∨ !adoptHeld (a.2.adoptOf c.iss) then .done (s.brimFinish c 5 none none)
        else
          let s := a.2
          match (s.tjHeaders r g).find? (fun h => h.2.state == 0) with
          | none => .done (s.brimFinish c 3 none none)
          | some (j, _) =>
            let ver := (adoptVer (s.adoptOf c.iss)).toNat
            let h : TjHdr := { seqid := r.seqid.toNat, tag := c.sval.toNat, vmin := ver, vmax := ver, nrec := 0, ndrop := 0
                               result := 0, state := 1, src := c.tile + 256 * c.iss.ctx }
            let s := (s.tjWrite c.iss.vf g (r.slotVa g j) h.bytes).setTjRing c.iss.vf n { r with seqid := r.seqid + 1 }
            .done ((s.setHandle c.iss (mkHandle n j r.epoch.toNat)).brimFinish c 0 (some j) none)
      | vas => s.tjWait g 64 vas

/-- The record that Brim stores (R313). -/
def tjRecord (src : List Byte) (ver pos : Nat) : List Byte :=
  src.take 8 ++ natBytes 2 ver ++ natBytes 2 pos ++ (src.drop 12).take 2 ++ natBytes 2 0

/-- The header after n records of a version. -/
def TjHdr.append (h : TjHdr) (n ver maxrec : Nat) : TjHdr :=
  let kept := Nat.min n (maxrec - h.nrec)
  { h with nrec := h.nrec + kept, ndrop := sat32 (h.ndrop + (n - kept)), vmin := Nat.min h.vmin ver, vmax := Nat.max h.vmax ver }

/-- The page of a command's descriptor or records forbids reading it: BADDESC, as where it could not be had (10 R211). -/
def State.brimForbidden (s : State) (c : EngCmd) (p : Place) (n : Nat) (nrec : Option Nat) : HodStep :=
  if s.placeFault p n then .done (s.brimFinish c 1 nrec none) else .wait (s.placeTouch p n) (p.pages n)

/-- TJREC and TJCLOSE on an open sequence whose slot is read. -/
def State.tjUse (s : State) (c : EngCmd) (r : TjRing) (g : Region) (j : Nat) (h : TjHdr) : HodStep :=
  let va := r.slotVa g j
  match c.place with
  | none =>
    let s := s.tjWrite c.iss.vf g va ({ h with result := c.sval.toNat, state := 2 } : TjHdr).bytes
    .done ((s.setHandle c.iss (s.handleOf c.iss &&& 0x7FFFFFFFFFFFFFFF)).brimFinish c 0 none none)
  | some p =>
    let n := tjCount c.arg
    match s.engPoison c.iss p (16 * n), s.engRead c.iss p (16 * n) with
    | some (pa, va), _ => .done ((s.brimFinish c 1 (some h.nrec) none).memue c.iss 4 pa va)
    | none, none => s.brimForbidden c p (16 * n) (some h.nrec)
    | none, some src =>
      let kept := Nat.min n (r.maxrec - h.nrec)
      let at' := va + 64 + 16 * h.nrec
      match s.rangeXlat g.pasid at' (16 * kept) true with
      | .missing => s.tjWait g (16 * kept) [at']
      | _ =>
        let s := ((s.placeTouch p (16 * n)).adopt c.iss .token).2
        let ver := (adoptVer (s.adoptOf c.iss)).toNat
        let bs := (List.range kept).flatMap (fun i => tjRecord ((src.drop (16 * i)).take 16) ver (h.nrec + i))
        let h' := h.append n ver r.maxrec
        let s := (s.tjWrite c.iss.vf g at' bs).tjWrite c.iss.vf g va h'.bytes
        .done (s.brimFinish c 0 (some h'.nrec) none)

/-- TJREC and TJCLOSE: the strand's sequence, if its ring is still the one in which it was opened. -/
def State.tjSeq (s : State) (c : EngCmd) : HodStep :=
  let h := s.handleOf c.iss
  if !tjOpen h then .done (s.brimFinish c 5 none none)
  else if !s.tjCurrent c.iss.vf h then
    .done ((s.setHandle c.iss (h &&& 0x7FFFFFFFFFFFFFFF)).brimFinish c 5 none none)
  else
    let r := s.tjRing c.iss.vf (tjRingOf h)
    match r.region with
    | none => .done (s.brimFinish c 5 none none)
    | some g =>
      match s.vaRead g.pasid (r.slotVa g (tjSlotOf h)) 64 with
      | none => s.tjWait g 64 [r.slotVa g (tjSlotOf h)]
      | some b => s.tjUse c r g (tjSlotOf h) (tjHdr b)

/-- Sequences are freed. -/
def State.tjFreeSlots (s : State) (vf : Nat) (r : TjRing) (g : Region) (js : List Nat) : State :=
  js.foldl (fun (s : State) j => s.tjWrite vf g (r.slotVa g j + 0x28) [0]) s

/-- TJRD's delivery: the stale sequences before it are freed, it lands, and its slot is free. (log 94: DEDUCED)
(log 134: DEDUCED) -/
def State.tjDeliver (s : State) (c : EngCmd) (r : TjRing) (g : Region) (stale : List Nat) (j : Nat) (h : TjHdr) (dst : Place) :
    HodStep :=
  let n := 64 + 16 * h.nrec
  match s.vaRead g.pasid (r.slotVa g j) n, s.placeXlat dst n true with
    | none, _ => s.tjWait g n [r.slotVa g j]
    | some _, .missing => .wait (s.placeTouch dst n) (dst.pages n)
    | some _, .forbidden => .done (s.brimFinish c 1 none none)
    | some bs, .mapped _ =>
      let bs := natBytes 0x28 (bytesNat (bs.take 0x28)) ++ [3] ++ bs.drop 0x29
      let s := s.tjFreeSlots c.iss.vf r g (stale ++ [j])
      let l : Landing := { cells := [], ct := c.ct, inc := 1, hnd := c.hnd, len := n, off := match dst with | .spad o => o | .virt _ _ _ => 0 }
      .done (s.brimEnd c 0 (some h.nrec) (some stale.length) (fun s =>
        if s.holdsSpad c.iss dst then
          -- held for the crew that is being pre-empted (03 R61)
          s.onCrew c.iss.gang c.iss.crew (fun t => { t with landings := t.landings ++ [{ l with cells := cellsFrom l.off bs }] })
        else (s.engWrite c.iss dst bs).landAt c.iss l))

/-- TJRD, by its descriptor. -/
def State.tjRead (s : State) (c : EngCmd) (d : List Byte) (dst : TCap) : HodStep :=
  let vf := c.iss.vf
  let minver := imgNat d 4 4
  let r := s.tjRing vf (imgNat d 0 1 % 64)
  if imgNat d 0 4 / 64 ≠ 0 ∨ imgNat d 8 8 ≠ 0 then .done (s.brimFinish c 1 none none)
  else match r.region, s.hodCap c.iss dst 0 (rW + rE) .engine with
    | none, _ => .done (s.brimFinish c 2 none none)
    | some _, none => .done (s.brimFinish c 1 none none)
    | some g, some _ =>
      match s.tjMissing r g with
      | [] =>
        let closed := sortBy (fun (a b : Nat × TjHdr) => decide (a.2.seqid ≤ b.2.seqid))
          ((s.tjHeaders r g).filter (fun h => h.2.state == 2))
        let stale := (closed.takeWhile (fun h => decide (h.2.vmin < minver))).map (fun h => h.1)
        match (closed.drop stale.length).head? with
        | none => .done ((s.tjFreeSlots vf r g stale).brimFinish c 6 none (some stale.length))
        | some (j, h) =>
          if capLen dst < 64 + 16 * h.nrec then .done (s.brimFinish c 7 (some h.nrec) (some 0))
          else match s.hodCap c.iss dst (64 + 16 * h.nrec) (rW + rE) .engine with
            | none => .done (s.brimFinish c 1 none none)
            | some (_, p) => s.tjDeliver c r g stale j h p
      | vas => s.tjWait g 64 vas

/-- A command's turn. -/
def State.brimTurn (s : State) (c : EngCmd) : HodStep :=
  if !s.forkReady c.iss then .wait s []
  else
    let s := s.fork c.iss
    if c.op = 0xF6 then s.tjopen c
    else if c.op ≠ 0xF7 then s.tjSeq c
    else match c.place with
      | none => .done s
      | some p =>
        match s.engPoison c.iss p 32, s.engRead c.iss p 32, s.engCap c.iss p 0x10 with
        | some (pa, va), _, _ => .done ((s.brimFinish c 1 none none).memue c.iss 4 pa va)
        | none, some d, some dst => (s.placeTouch p 32).tjRead c d dst
        | none, _, _ => s.brimForbidden c p 32 none

/-- BRIM_COMPLETE: the first command that has reached Brim has its turn (R316). -/
def State.brimServe (s : State) : State :=
  let s := { s with brimQ := s.reachHub s.brimQ }
  match s.brimQ.find? (fun c => c.here) with
  | none => s
  | some c => match s.brimTurn c with
    | .wait s' _ => s'
    | .done s' => s'

def execBrimComplete (s : State) : Host.Outcome State Fault Refusal := .next s.brimServe

/-- NREC of the sequence that a strand has open. -/
def State.openCount (s : State) (i : Issuer) : Option Nat :=
  let h := s.handleOf i
  let r := s.tjRing i.vf (tjRingOf h)
  (r.region.bind (fun g => s.vaRead g.pasid (r.slotVa g (tjSlotOf h)) 64)).map (fun b => (tjHdr b).nrec)

/-- A page request has failed: commands that wait for the page end BADDESC, a TJREC with its NREC (R429). -/
def State.failBrim (s : State) (pasid vpage : Nat) : State :=
  match s.brimQ.find? (fun c => c.here) with
  | none => s
  | some c => match s.brimTurn c with
    | .wait s' pages =>
      if pages.contains (pasid, vpage) then s'.brimFinish c 1 (if c.op = 0xF8 then s.openCount c.iss else none) none else s
    | .done _ => s

end Sys2Proof.Machine
end

