-- ==== Sys2Proof/Machine/Members.lean ====
section
/-! DEFINITION. What the Hods of a communicator tell each other: abort, loss of a member, pause, stop and resume; and the
flits that carry it (13 R293 to R295, R297 to R299, 14 R307). -/
namespace Sys2Proof.Machine

/-! ### Abort and loss (R293, R294) -/

def execAbortMessage (comm : Nat) (s : State) : Host.Outcome State Fault Refusal := .next (s.abortComm comm)

/-- A rank is lost: what is combined still lands, and the rest ends MEMBER_LOST. -/
def State.loseMember (s : State) (k r : Nat) : State :=
  match s.comm k with
  | some x => if x.lost.isSome || decide (x.nrank ≤ r) then s else s.setComm k { x with lost := some r }
  | none => s

/-- MEMBER_LOST: the Hods declare it to every module. -/
def State.declareLost (s : State) (k r : Nat) : State :=
  match s.comm k with
  | some x =>
    if x.lost.isSome || decide (x.nrank ≤ r) then s
    else (s.loseMember k r).sendAll (s.others x (List.range x.nrank)) 0 0 (.lost k r)
  | none => s

def execMemberLost (comm rank : Nat) (s : State) : Host.Outcome State Fault Refusal := .next (s.declareLost comm rank)

/-! ### Pause (R295) -/

/-- The place one past the last chunk that a member has begun. -/
def Member.reached (m : Member) : Nat :=
  match m.active with
  | c :: rest => rest.foldl (fun p d => if d.begun = 0 then p else Nat.max p (chunkPos d.n d.begun)) (chunkPos c.n c.begun)
  | [] => chunkPos m.next 0

/-- Every member here begins nothing more until the stop chunk is known. (log 88: DEDUCED) -/
def Comm.hold (x : Comm) : Comm :=
  { x with members := x.members.map (fun (y : Nat × Option Member) => (y.1, y.2.map (fun m => { m with paused := true }))) }

/-- The stop chunk is known: members go on below it. -/
def Comm.stopAt (x : Comm) (p : Nat) : Comm :=
  { x with
    stop := some p
    members := x.members.map (fun (y : Nat × Option Member) => (y.1, y.2.map (fun m => { m with paused := false }))) }

/-- A resume: nothing stops any more. -/
def Comm.goOn (x : Comm) : Comm :=
  { x with
    stop := none, begun := [], pausers := []
    members := x.members.map (fun (y : Nat × Option Member) => (y.1, y.2.map (fun m => { m with paused := false }))) }

/-- The members here, with what they have begun. -/
def Comm.reports (x : Comm) : List (Nat × Nat) := x.members.filterMap (fun y => y.2.map (fun m => (y.1, m.reached)))

/-- A report reaches rank 0's Hod; with the last one the stop chunk is broadcast. -/
def State.noteBegun (s : State) (k r p : Nat) : State :=
  match s.comm k with
  | none => s
  | some x =>
    if x.stop.isSome then s
    else
      let x := { x with begun := x.begun.filter (fun b => b.1 != r) ++ [(r, p)] }
      if (List.range x.nrank).all (fun q => x.begun.any (fun b => b.1 == q)) then
        let stop := (x.begun.map (fun b => b.2)).foldl Nat.max 0
        (s.setComm k (x.stopAt stop)).sendAll (s.others x (List.range x.nrank)) 0 0 (.stop k stop)
      else s.setComm k x

/-- Rank 0's Hod asks a module, or a module answers: its members stand still and say what they have begun. -/
def State.answerPause (s : State) (k : Nat) : State :=
  match s.comm k with
  | none => s
  | some x =>
    let s := s.setComm k x.hold
    x.reports.foldl (fun (s : State) p =>
      if x.node 0 = s.nodeId.toNat then s.noteBegun k p.1 p.2 else s.sendPay (x.node 0) 0 0 (.begun k p.1 p.2)) s

/-- A request at rank 0's Hod: concurrent requests share one stop chunk. -/
def State.pauseRequest (s : State) (k r : Nat) : State :=
  match s.comm k with
  | none => s
  | some x =>
    let asked := !x.pausers.isEmpty
    let x := { x with pausers := if x.pausers.contains r then x.pausers else x.pausers ++ [r] }
    let s := s.setComm k x
    if asked then s
    else (s.sendAll (s.others x (List.range x.nrank)) 0 0 (.pause k r)).answerPause k

def execPauseRequest (comm rank : Nat) (s : State) : Host.Outcome State Fault Refusal := .next (s.pauseRequest comm rank)

/-- The stop chunk reaches a module. -/
def State.stopChunk (s : State) (k p : Nat) : State :=
  match s.comm k with
  | some x => s.setComm k (x.stopAt p)
  | none => s

def execStopChunk (comm chunk : Nat) (s : State) : Host.Outcome State Fault Refusal := .next (s.stopChunk comm chunk)

/-- A resume reaches a module. -/
def State.resumeComm (s : State) (k : Nat) : State :=
  match s.comm k with
  | some x => s.setComm k x.goOn
  | none => s

def execResumeBroadcast (comm : Nat) (s : State) : Host.Outcome State Fault Refusal := .next (s.resumeComm comm)

/-- A paused member's gang has resumed, at rank 0's Hod: when every one has, it broadcasts the resume. -/
def State.noteResumed (s : State) (k r : Nat) : State :=
  match s.comm k with
  | none => s
  | some x =>
    let y := { x with pausers := x.pausers.filter (fun q => q != r) }
    if x.pausers.contains r && y.pausers.isEmpty then
      ((s.setComm k y).resumeComm k).sendAll (s.others x (List.range x.nrank)) 0 0 (.resume k)
    else s.setComm k y

/-- The members through which a gang has collectives in progress, by communicator and rank. -/
def State.gangMembers (s : State) (gang : Nat) : List (Nat × Nat) :=
  s.comms.flatMap (fun y => match y.2 with
    | some x => x.members.filterMap (fun z => match z.2 with
      | some m => if m.cmds.any (fun c => c.ended.isNone && c.crown.isNone && c.iss.gang == gang) then some (y.1, z.1) else none
      | none => none)
    | none => [])

/-- A member's Hod asks rank 0's for a pause, for a gang that is being pre-empted. -/
def State.askPause (s : State) (gang k r : Nat) : State :=
  match s.comm k with
  | none => s
  | some x =>
    let s := s.setComm k (x.setMember r { x.member r with asked := some gang })
    if x.node 0 = s.nodeId.toNat then s.pauseRequest k r else s.sendPay (x.node 0) 0 0 (.pause k r)

/-- Every communicator in which a gang has a collective in progress is asked to pause. -/
def State.askPauses (s : State) (gang : Nat) : State :=
  (s.gangMembers gang).foldl (fun s m => s.askPause gang m.1 m.2) s

/-- A member's Hod tells rank 0's that its gang has resumed. -/
def State.tellResumed (s : State) (k r : Nat) : State :=
  match s.comm k with
  | none => s
  | some x =>
    let s := s.setComm k (x.setMember r { x.member r with asked := none })
    if x.node 0 = s.nodeId.toNat then s.noteResumed k r else s.sendPay (x.node 0) 0 0 (.resumed k r)

/-- The members that a gang's pre-emption has paused are told that it has resumed. -/
def State.tellAll (s : State) (gang : Nat) : State :=
  let ms := s.comms.flatMap (fun y => match y.2 with
    | some x => x.members.filterMap (fun z => match z.2 with
      | some m => if m.asked == some gang then some (y.1, z.1) else none
      | none => none)
    | none => [])
  ms.foldl (fun s m => s.tellResumed m.1 m.2) s

/-! ### Payloads -/

/-- A communicator of a payload. -/
def payComm : FlitPay → Option Nat
  | .head k _ _ _ => some k
  | .piece k _ _ _ _ _ => some k
  | .claim k _ _ _ => some k
  | _ => none

/-- What a flit says takes effect; for a communicator that is not registered here, nothing. -/
def State.takePay (s : State) (pay : FlitPay) : State :=
  match pay with
  | .head k n r h =>
    match s.comm k with
    | some x => ((s.missed k (x.putHead n r h)).setComm k (x.putHead n r h).trim).advanceBroadcasts
    | none => s
  | .piece k n r u off bs =>
    match s.comm k with
    | some x => s.setComm k (x.arrive n r u off bs).trim
    | none => s
  | .ask k n r u bufs dies =>
    match s.comm k with
    | some x => (s.setComm k (x.putAsk { n, rank := r, unit := u, bufs, dies })).grantAsks k
    | none => s
  | .room k n r u node => s.takeRoom k n r u node
  | .landed k n r =>
    match s.comm k with
    | some x => s.setComm k (if x.reached.contains (n, r) then x else { x with reached := x.reached ++ [(n, r)] })
    | none => s
  | .mismatch k n =>
    match s.comm k with
    | some x =>
      let s := x.members.foldl (fun (s : State) y => match y.2 with
        | some m => (m.cmds.filter (fun c => c.n == n && c.ended.isNone)).foldl (fun s c => s.endsWith k y.1 c 5 0) s
        | none => s) s
      -- a broadcast that has not joined its collective ends too
      { s with broadcasts := s.broadcasts.map (fun b =>
        if b.comm = k ∧ b.root = false ∧ b.ended = none ∧ (x.rootHead b.ver).any (fun h => h.1 == n) = true ∧
          x.members.all (fun y => y.2.all (fun m => !b.joined m)) = true then { b with ended := some 5 } else b) }
    | none => s
  | .abort k => s.abortComm k
  | .lost k r => s.loseMember k r
  | .pause k r =>
    match s.comm k with
    | some x => if x.node 0 = s.nodeId.toNat then s.pauseRequest k r else s.answerPause k
    | none => s
  | .begun k r p => s.noteBegun k r p
  | .stop k p => s.stopChunk k p
  | .resumed k r => s.noteResumed k r
  | .resume k => s.resumeComm k
  | .claim k w v node => if s.crownOn w k then s.broadcastClaim w k v else s.sendPay node 0 0 (.refuse k w v)
  | .refuse k w v => s.broadcastRefused w k v
  | .ack | .nak | .credit _ => s

/-- A broadcast of a communicator waits for a slot here: VC2's credits stay held (14 R307). -/
def State.holdCredit (s : State) (p : Nat) (pay : FlitPay) : Option State :=
  match payComm pay with
  | none => none
  | some k =>
    if s.broadcasts.any (fun b => b.comm == k && b.slot.isNone) then
      some { s with broadcasts := s.broadcasts.map (fun b =>
        if b.comm = k ∧ b.slot.isNone then { b with owed := b.owed ++ [p] } else b) }
    else none

/-- The number from which on a run of numbers has not come; n bounds the run. -/
def runEnd (more : List Nat) : Nat → Nat → Nat
  | low, 0 => low
  | low, n + 1 => if more.contains low then runEnd more (low + 1) n else low

def Seen.has (x : Seen) (n : Nat) : Bool := decide (n < x.low) || x.more.contains n
def Seen.take (x : Seen) (n : Nat) : Seen :=
  let low := runEnd (n :: x.more) x.low (x.more.length + 1)
  { low, more := (n :: x.more).filter (fun m => decide (low ≤ m)) }

/-- A message of another module that has been taken already. -/
def State.taken (s : State) (f : Flit) : Bool := (Sparse.get {} s.linkSeen f.src).has f.num

/-- A flit for this module takes effect, once whichever ports bring it (12 R270); another's goes on its way. -/
def State.deliverFlit (s : State) (f : Flit) : State :=
  if f.dest ≠ s.nodeId.toNat then s.sendFlit f
  else if s.taken f then s
  else ({ s with linkSeen := Sparse.set {} s.linkSeen f.src ((Sparse.get {} s.linkSeen f.src).take f.num) } : State).takePay f.pay

/-- A numbered flit arrives: in order it takes effect and is acknowledged; a duplicate is acknowledged again; after a gap it
is discarded (R298). Its credit goes back once the buffer is free (R299). -/
def State.receive (s : State) (p : Nat) (f : Flit) : State :=
  let x := s.link p
  if !x.up then s
  else match x.arrival f.seq with
    | .gap => s.gapAt p f.seq
    | .duplicate => s.sendControl p 0 .ack
    | .inOrder =>
      let x := { x.setGrant f.vc (x.grant f.vc - 1) with rxSeq := (x.rxSeq + 1) % 4096, nakked := none }
      let s := (((s.setLink p x).ackPort p f.ackseq).deliverFlit f).sendControl p 0 .ack
      match (if f.vc = 2 then s.holdCredit p f.pay else none) with
      | some s' => s'
      | none => s.grantTo p f.vc

def execDataFlit (port : Nat) (flit : Flit) (s : State) : Host.Outcome State Fault Refusal := .next (s.receive port flit)
/-- A management flit travels on VC0 (R297). -/
def execManagementFlit (port : Nat) (flit : Flit) (s : State) : Host.Outcome State Fault Refusal :=
  .next (s.receive port { flit with vc := 0 })

end Sys2Proof.Machine
end

