-- ==== Sys2Proof/Machine/HostPort.lean ====
section
/-! DEFINITION. The CXL ports: the host's reads and writes of device memory and its snoops, answers to translation and page
requests, page moves, scrubbing, and the ends of L1 sectors and probe fills (10 R200, R209 to R211, R218, R219, R223, 12
R271, 15 R335, 16 R338 to R340). -/
namespace Sys2Proof.Machine

/-! ### Device memory as the host sees it (R339) -/

/-- The host reaches bytes of memory: T0 and T1, which its HDM decoders cover, and its own; the windows of registers that stand
among physical addresses are no memory. -/
def hostReaches (addr n : Nat) : Bool :=
  (List.range n).all (fun i => !inWcBank (addr + i) && (doorbellAt (addr + i)).isNone)

/-- A write of cells as their home slice performs it. -/
def hostCells (tag : MTag) (cells : List (Nat × Byte)) : SectorWrite :=
  { tag, cells, units := (cells.map (fun x => x.1 / 16)).eraseDups.map (fun u => (u, false))
    poison := if cells.length = 64 then some false else none }

/-- A sector of the host's own memory that Mortar holds goes back to the host (16 R340). -/
def State.giveBack (s : State) (sec : Nat) : State :=
  if tierOf (64 * sec) = 2 then (s.mortarWriteBack sec).mortarDrop sec else s

/-- The host's write of cells of one sector, at its home slice: it waits for no answer of its own, and the sector takes no place
in Mortar for it. Of its own memory it writes what Mortar has given back (12 R271, 16 R339, R340). -/
def State.hostPut (s : State) (sec : Nat) (cells : List (Nat × Byte)) : State :=
  let s := s.giveBack sec
  match Sparse.get none s.mortar sec with
  | some m => s.sectorStore (hostCells m.tag cells)
  | none => ((s.sectorStore (hostCells (flatTag 16 0 0 none) cells)).mortarWriteBack sec).mortarDrop sec

def execHostMemWrite (addr : Nat) (data : List Byte) (s : State) : Host.Outcome State Fault Refusal :=
  if !hostReaches addr data.length then .fault .hdmUndecoded
  else
    let cells := cellsFrom addr data
    .next (((cells.map (fun x => x.1 / 64)).eraseDups).foldl (fun (s : State) sec =>
      s.hostPut sec (cells.filter (fun x => x.1 / 64 == sec))) s)

/-- The host reads: of the device's memory it may hold the sectors from then on; of its own, Mortar gives back what it
holds. -/
def execHostMemRead (addr len : Nat) (s : State) : Host.Outcome State Fault Refusal :=
  if !hostReaches addr len then .fault .hdmUndecoded
  else
    let secs := ((List.range len).map (fun i => (addr + i) / 64)).eraseDups
    .next { secs.foldl State.giveBack s with
      hostRead := (List.range len).map (fun i => s.pocByte (addr + i))
      hostHeld := (secs.filter (fun k => tierOf (64 * k) != 2)).foldl (fun m k => Sparse.set false m k true) s.hostHeld }

/-- A snoop of a host sector that Mortar holds under CXL.cache: its data goes to the host, and an invalidating one drops it
(R340). -/
def execHostSnoop (addr : Nat) (invalidate : Bool) (s : State) : Host.Outcome State Fault Refusal :=
  let sec := addr / 64
  if tierOf addr ≠ 2 ∨ (Sparse.get none s.mortar sec).isNone then .next { s with hostRead := [] }
  else
    let data := s.pocBytes (64 * sec) 64
    let s := s.mortarWriteBack sec
    .next { (if invalidate then s.mortarDrop sec else s) with hostRead := data }

/-- The port that carries the requests of a virtual function (R338); none while both are down. (log 5: DESIGN CHOICE) -/
def State.cxlPort (s : State) (vf : Nat) : Option Nat :=
  if !s.cxlDown.contains (vf % 2) then some (vf % 2)
  else if !s.cxlDown.contains (1 - vf % 2) then some (1 - vf % 2) else none

def execCxlLinkDown (port : Nat) (s : State) : Host.Outcome State Fault Refusal :=
  .next (if port < 2 ∧ ¬ s.cxlDown.contains port then { s with cxlDown := s.cxlDown ++ [port] } else s)
def execCxlLinkUp (port : Nat) (s : State) : Host.Outcome State Fault Refusal :=
  .next { s with cxlDown := s.cxlDown.filter (fun p => p != port) }

/-! ### Translations (10 R210, R211) -/

/-- One write of the device that waited, tried again; one that its page forbids makes its strand FATAL (15 R323). -/
def State.flushOne (s : State) (d : Deferred) : State :=
  match d with
  | .post vf bytes => s.postOne vf bytes
  | .write w =>
    match s.rangeXlat w.pasid w.va w.bytes.length true with
    | .forbidden => s.lostWrite w
    | _ => s.devWrite w

/-- The writes of the device that wait for pages are tried again, in order. -/
def State.flushDeferred (s : State) : State := s.deferred.foldl State.flushOne { s with deferred := [] }

/-- The writes of a sector that waited for the host's answer are performed, in order. -/
def State.performHeld (s : State) (sec : Nat) : State :=
  let mine := fun (w : SectorWrite) => w.cells.any (fun x => x.1 / 64 == sec)
  (s.biQ.filter mine).foldl State.sectorStore
    { s with hostHeld := Sparse.set false s.hostHeld sec false, biQ := s.biQ.filter (fun w => !mine w) }

/-- The host has given up a sector: the device's writes that waited for it are performed, and what waited for those goes on
(16 R339). -/
def execBackInvalidateResponse (addr : Nat) (s : State) : Host.Outcome State Fault Refusal :=
  .next ((s.performHeld (addr / 64)).flushDeferred).retryReads

/-- The access of a probe fill's fork: the place of its block. -/
def ProbeFill.place (f : ProbeFill) : Place := .virt f.pasid (4096 * f.blk) (some (capObj f.cap))

/-- A probe fill ends: its slot's tag becomes valid unless it failed or lost it, and its counter rises (10 R218). -/
def State.endFill (s : State) (t j : Nat) (f : ProbeFill) (ok : Bool) : State :=
  let x := s.tile t
  let x := { x.setProbeSlot j { x.probeSlot j with pending := false, valid := ok && f.live } with
    fills := Sparse.set none x.fills j none }
  (s.setTile t x).bump f.iss f.ct 1

/-- PROBE_FILL_COMPLETE: the fill of a slot, once its page is mapped. -/
def State.probeFill (s : State) (t j : Nat) : State :=
  match Sparse.get none (s.tile t).fills j with
  | none => s
  | some f =>
    if !s.forkReady f.iss || (match (s.tile t).crew with | some w => w.stopped | none => true) then s
    else
      let s := s.fork f.iss
      if !s.capCurrent f.iss.vf f.cap then
        (s.endFill t j f false).raise f.iss .kstale (BitVec.ofNat 64 f.off)
      else match s.lookupVa f.pasid (4096 * f.blk) false with
        | .missing => s.touchPage f.pasid (4096 * f.blk)
        | .forbidden => (s.endFill t j f false).raise f.iss .perm (BitVec.ofNat 64 (4096 * f.blk))
        | .mapped _ =>
          match s.engPoison f.iss f.place 4096 with
          | some (pa, va) => s.memue f.iss 4 pa va
          | none =>
            match (s.touchPage f.pasid (4096 * f.blk)).engRead f.iss f.place 4096 with
            | none => s
            | some bs => (s.engWrite f.iss (.spad f.dst) bs).endFill t j f true

def execProbeFillComplete (tile slot : Nat) (s : State) : Host.Outcome State Fault Refusal := .next (s.probeFill tile slot)

/-- The fills of a tile that wait for a page that could not be had: PAGE for their strands (10 R218). -/
def State.failFills (s : State) (t pasid vpage : Nat) : State :=
  (s.tile t).fills.foldl (fun (s : State) x => match x.2 with
    | some f => if f.pasid = pasid ∧ f.blk = vpage then
        (s.endFill t x.1 f false).raise f.iss .page (BitVec.ofNat 64 (4096 * f.blk)) else s
    | none => s) s

/-! ### Block commands that wait for their block (19 R424) -/

/-- Bytes of a block (19 R422). -/
def blkSize (sub : Nat) : Nat := if sub = 0x18 then 128 else 64

/-- A command leaves its strand's count; its counter rises unless NC is set (R424). -/
def State.blkLeave (s : State) (c : BlockCmd) : State :=
  let s := s.onStrand c.iss (fun x => { x with nBlock := x.nBlock - 1 })
  if c.nc then s else s.bump c.iss c.ct 1

/-- A command leaves its virtual function's lists. -/
def State.blkDrop (s : State) (c : BlockCmd) : State :=
  let x := s.vf c.iss.vf
  s.setVf c.iss.vf { x with blockQ := x.blockQ.filter (fun o => o.id != c.id), accepted := x.accepted.filter (fun o => o.id != c.id) }

/-- A page request has failed: block commands that wait for their block's page end, and their strands take PAGE.
(log 104: DEDUCED) -/
def State.failBlocks (s : State) (pasid vpage : Nat) : State :=
  (List.range 16).foldl (fun (s : State) v => match (s.vf v).blockQ with
    | [] => s
    | c :: _ =>
      if (c.place.pages (blkSize c.sub)).contains (pasid, vpage) then
        ((s.blkDrop c).blkLeave c).raise c.iss .page (BitVec.ofNat 64 (4096 * vpage)) else s) s

/-- What the device had still to write on a page that could not be had is lost; a strand whose trap area it was is FATAL. -/
def State.failDeferred (s : State) (pasid vpage : Nat) : State :=
  let hit := fun (d : Deferred) => match d with
    | .write w => w.pasid == pasid && (pagesOf w.va w.bytes.length).contains vpage
    | .post vf _ => match s.queueOf vf with
      | some q => q.region.pasid == pasid && (pagesOf q.region.va (64 + 64 * q.slots)).contains vpage
      | none => false
  (s.deferred.filter hit).foldl (fun (s : State) d => match d with
    | .write w => s.lostWrite w
    | .post _ _ => s) { s with deferred := s.deferred.filter (fun d => !hit d) }

/-- A page request has failed: every kind of access that waited for the page takes its outcome. -/
def State.failPage (s : State) (pasid vpage : Nat) : State :=
  let s := s.failReads pasid vpage
  let s := s.tiles.foldl (fun (s : State) x =>
    ((((s.failLog x.1 pasid vpage 256).failSummary x.1 pasid vpage).failCopies x.1 pasid vpage).failStrands x.1 pasid vpage).failFills
      x.1 pasid vpage) s
  ((((((s.failMortar pasid vpage).failHod pasid vpage).failCrown pasid vpage).failBrim pasid vpage).failDeferred pasid
    vpage).failBlocks pasid vpage).retryReads

def State.dropReq (s : State) (pasid vpage : Nat) : State :=
  { s with pageReqs := s.pageReqs.filter (fun r => !(r.pasid == pasid && r.vpage == vpage)) }

def State.hasReq (s : State) (pasid vpage : Nat) (pri : Bool) : Bool :=
  s.pageReqs.any (fun r => r.pasid == pasid && r.vpage == vpage && r.pri == pri)

/-- The strands that wait for a page by a held read or a logged store. -/
def State.pageWaiters (s : State) (pasid vpage : Nat) : List (Nat × Nat) :=
  s.tiles.flatMap (fun x => ((List.range 4).filter (fun c =>
    (x.2.ctx c).ports.any (fun p => p.2.any (fun e => match e.held with
      | some h => h.spans.any (fun y => (y.1.pages y.2).contains (pasid, vpage))
      | none => false)) ||
    x.2.sideLog.any (fun e => e.ctx == c && e.pasid == pasid && (pagesOf e.va e.data.length).contains vpage))).map
      (fun c => (x.1, c)))

/-- Translations that the ATC of a die holds. -/
def State.atcHeld (s : State) (die : BitVec 2) : List (Nat × AtcEntry) :=
  s.atc.filterMap (fun x => match x.2 with
    | some e => if e.held && Config.atcDie x.1 == die then some (x.1, e) else none
    | none => none)

/-- A full ATC gives up a translation, by free choice; its page keeps its access bit (01 R13, 10 R210, R223). -/
def State.atcRoom (s : State) (key : Nat) : State :=
  if s.atc.length < Config.atcEntries then s
  else
    let es := s.atcHeld (Config.atcDie key)
    if es.length < Config.atcEntries then s
    else
      let r := s.takeFree
      match es[r.1.toNat % es.length]? with
      | some (k, e) => { r.2 with atc := Sparse.set none s.atc k (some { e with held := false }) }
      | none => s

/-- The host has given the translation of a page: its ATC keeps it, and no request for a part of it is outstanding. A page that
has been brought holds nothing of what its memory held before (12 R267). -/
def State.atcFill (s : State) (pasid vpage : Nat) (map : PageMap) : State :=
  let base := pageBase vpage map.size
  let mine := fun (r : PageReq) => r.pasid == pasid && decide (base ≤ r.vpage) && decide (r.vpage < base + mapPages map)
  let new := s.pageReqs.any (fun r => mine r && r.brought)
  let lo := 512 * map.ppage
  let s := { s with
    pageReqs := s.pageReqs.filter (fun r => !mine r)
    hist := if new then s.hist.filter (fun x => decide (x.1 < lo) || decide (lo + 512 * mapPages map ≤ x.1)) else s.hist }
  let s := s.atcRoom (atcKey pasid base)
  { s with atc := Sparse.set none s.atc (atcKey pasid base) (some { map, accessed := true }) }

/-- ATS_TRANSLATION_RESPONSE: a translation is kept and what waited goes on; where the host has none, a page request
follows, with up to 512 outstanding (R338). (log 30: DEDUCED) -/
def execAtsTranslationResponse (pasid vpage : Nat) (answer : Option PageMap) (s : State) :
    Host.Outcome State Fault Refusal :=
  .next (
    if !s.hasReq pasid vpage false then s
    else match answer with
      | some map =>
        ((s.atcFill pasid vpage map).flushDeferred).retryReads
      | none =>
        if 512 ≤ (s.pageReqs.filter (fun r => r.pri)).length then s
        else
          let s := match s.pageWaiters pasid vpage with
            | (t, c) :: _ => s.count t c 22 1
            | [] => s
          { s with pageReqs := s.pageReqs.map (fun r =>
              if r.pasid = pasid ∧ r.vpage = vpage then { r with pri := true } else r) })

/-- PRI_RESPONSE: the host has brought the page, and its translation is asked for again; or it has failed. -/
def execPriResponse (pasid vpage : Nat) (ok : Bool) (s : State) : Host.Outcome State Fault Refusal :=
  .next (
    if !s.hasReq pasid vpage true then s
    else if ok then { s with pageReqs := s.pageReqs.map (fun r =>
        if r.pasid = pasid ∧ r.vpage = vpage then { r with pri := false, brought := true } else r) }
    else (s.dropReq pasid vpage).failPage pasid vpage)

/-- The sectors of n physical pages leave every tile's L1, written back first: accesses that used their translation are
complete (10 R210). -/
def State.quietPages (s : State) (ppage n : Nat) : State :=
  s.tiles.foldl (fun (s : State) x =>
    (x.2.l1.filter (fun y => decide (ppage ≤ y.1 / 64) && decide (y.1 / 64 < ppage + n))).foldl (fun s y => s.l1Flush x.1 y.1) s) s

/-- ATS_INVALIDATION: the translations of a run of pages are dropped. (log 31: DEDUCED) -/
def execAtsInvalidation (pasid vpage count : Nat) (s : State) : Host.Outcome State Fault Refusal :=
  let hit := fun (x : Nat × Option AtcEntry) => x.1 / 2 ^ 45 == pasid && decide (x.1 % 2 ^ 45 < vpage + count) && (match x.2 with
    | some e => decide (vpage < x.1 % 2 ^ 45 + mapPages e.map)
    | none => false)
  let s := (s.atc.filter hit).foldl (fun (s : State) x => match x.2 with
    | some e => s.quietPages e.map.ppage (mapPages e.map)
    | none => s) s
  let s := { s with atc := s.atc.filter (fun x => !hit x) }
  .next ((List.range 4).foldl (fun s d => s.monitor (4 + d) monAts 16 1) s)

/-! ### Tiers (10 R222, R223) -/

/-- An object of a virtual function lies on one of n pages. -/
def ObjEntry.onPage (e : ObjEntry) (pasid vpage n : Nat) : Bool :=
  e.valid && e.pasid == pasid && decide (e.vabase / 4096 < vpage + n) && decide (4096 * vpage < e.vabase + e.len)

/-- The virtual function whose object lies on one of n pages. -/
def State.pageVf (s : State) (pasid vpage n : Nat) : Option Nat :=
  (List.range 16).find? (fun v => (s.vf v).objs.any (fun x => match x.2 with
    | some e => e.onPage pasid vpage n
    | none => false))

/-- NODEM holds a page where it is. -/
def State.pageFixed (s : State) (v pasid vpage n : Nat) : Bool :=
  (s.vf v).objs.any (fun x => match x.2 with
    | some e => e.nodem && e.onPage pasid vpage n
    | none => false)

/-- Pages of 4 KiB of a virtual function in a tier (10 R222). (log 32: DEDUCED) -/
def State.occupancy (s : State) (v tier : Nat) : Nat :=
  (s.atc.map (fun x => match x.2 with
    | some e => if tierOf (4096 * e.map.ppage) == tier && s.pageVf (x.1 / 2 ^ 45) (x.1 % 2 ^ 45) (mapPages e.map) == some v
        then mapPages e.map else 0
    | none => 0)).sum

def State.watermark (s : State) (v tier : Nat) : Word := Sparse.get 0xFFFFFFFFFFFFFFFF (s.vf v).twm tier
def twmHi (w : Word) : Nat := bits w.toNat 63 32
def twmLo (w : Word) : Nat := bits w.toNat 31 0

/-- Whether tier t of a virtual function is being demoted: from above HI until at or below LO. -/
def State.demotes (s : State) (v tier : Nat) : Bool :=
  let n := s.occupancy v tier
  decide (twmHi (s.watermark v tier) < n) ||
    (Sparse.get false (s.vf v).demoting tier && decide (twmLo (s.watermark v tier) < n))

/-- A physical page's bytes, tags and poison, and what its dwords have held, copied to another; host memory takes no tags. -/
def State.copyPage (s : State) (src dst : Nat) : State :=
  let s := s.quietPages src 1
  let s := (List.range 64).foldl (fun (s : State) i => (s.mortarWriteBack (64 * src + i)).mortarDrop (64 * src + i)) s
  let s := (List.range 64).foldl (fun (s : State) i => s.mortarDrop (64 * dst + i)) s
  let s := (List.range 4096).foldl (fun (s : State) i =>
    { s with mem := Sparse.set 0 s.mem (4096 * dst + i) (Sparse.get 0 s.mem (4096 * src + i)) }) s
  let s := (List.range 256).foldl (fun (s : State) i =>
    let b := tierOf (4096 * dst) != 2 && Sparse.get false s.tags (256 * src + i)
    { s with tags := Sparse.set false s.tags (256 * dst + i) b }) s
  let s := (List.range 512).foldl (fun (s : State) i =>
    { s with hist := Sparse.set [] s.hist (512 * dst + i) (Sparse.get [] s.hist (512 * src + i)) }) s
  (List.range 64).foldl (fun (s : State) i =>
    { s with poison := Sparse.set false s.poison (64 * dst + i) (Sparse.get false s.poison (64 * src + i)) }) s

/-- The host may hold a sector of a physical page, or a write to one waits for it: the page cannot be moved yet. -/
def State.pageHeld (s : State) (m : PageMap) : Bool :=
  s.hostHeld.any (fun x => decide (64 * m.ppage ≤ x.1) && decide (x.1 < 64 * (m.ppage + mapPages m))) ||
    s.biQ.any (fun w => w.cells.any (fun x => decide (4096 * m.ppage ≤ x.1) && decide (x.1 < 4096 * (m.ppage + mapPages m))))

/-- A page's accesses are held and the engine copies it; a page that leaves T2 goes to storage through the host. -/
def State.beginMove (s : State) (pasid vpage dest : Nat) (m : PageMap) : State :=
  { (if m.ppage = dest then s.quietPages dest (mapPages m)
      else (List.range (mapPages m)).foldl (fun (s : State) i => s.copyPage (m.ppage + i) (dest + i)) s) with
    pageMoves := s.pageMoves ++ [{ pasid, vpage, dest }] }

/-- The hand of the clock sweep finds an access bit set: it clears it and passes on. -/
def State.sweepPast (s : State) (pasid vpage : Nat) (e : AtcEntry) : State :=
  { s with atc := Sparse.set none s.atc (atcKey pasid vpage) (some { e with accessed := false, swept := e.swept + 1 }) }

/-- A page as the hand finds it, and the virtual function whose object lies there. -/
def State.handAt (s : State) (pasid vpage : Nat) : Option (AtcEntry × Nat) :=
  (Sparse.get none s.atc (atcKey pasid vpage)).bind (fun e => (s.pageVf pasid vpage (mapPages e.map)).map (fun v => (e, v)))

/-- PAGE_DEMOTE: the hand is at a page of a tier that is being demoted; a page that it takes starts on its way to the
physical page that the driver gives. -/
def State.pageDemote (s : State) (pasid vpage dest : Nat) : State :=
  match s.handAt pasid vpage with
  | some (e, v) =>
    let tier := tierOf (4096 * e.map.ppage)
    if (s.vf v).privileged ∨ s.pageFixed v pasid vpage (mapPages e.map) ∨ s.moving pasid vpage then s
    else if s.pageHeld e.map then s
    else if !s.demotes v tier then
      s.setVf v { s.vf v with demoting := Sparse.set false (s.vf v).demoting tier false }
    else
      let s := s.setVf v { s.vf v with demoting := Sparse.set false (s.vf v).demoting tier true }
      if e.accessed then s.sweepPast pasid vpage e
      else if tier = 2 then s.beginMove pasid vpage e.map.ppage e.map
      else if tierOf (4096 * dest) ≠ tier + 1 then s
      else s.beginMove pasid vpage dest e.map
  | none => s

/-- PAGE_PROMOTE: the hand is at a page of T1 or T2; at the second sweep that finds its bit set, it moves up a tier that
has room. -/
def State.pagePromote (s : State) (pasid vpage dest : Nat) : State :=
  match s.handAt pasid vpage with
  | some (e, v) =>
    let tier := tierOf (4096 * e.map.ppage)
    if tier = 0 ∨ s.moving pasid vpage then s
    else if !e.accessed then
      { s with atc := Sparse.set none s.atc (atcKey pasid vpage) (some { e with swept := 0 }) }
    else
      let s := s.sweepPast pasid vpage e
      if 1 ≤ e.swept ∧ s.occupancy v (tier - 1) < twmHi (s.watermark v (tier - 1)) ∧ tierOf (4096 * dest) = tier - 1 ∧
          ¬ s.pageHeld e.map then
        s.beginMove pasid vpage dest e.map
      else s
  | none => s

/-- PAGE_DEMOTE and PAGE_PROMOTE come from outside, with the page to go to. (log 33: DESIGN CHOICE) -/
def execPageDemote (pasid vpage dest : Nat) (s : State) : Host.Outcome State Fault Refusal :=
  .next (s.pageDemote pasid vpage dest)
def execPagePromote (pasid vpage dest : Nat) (s : State) : Host.Outcome State Fault Refusal :=
  .next (s.pagePromote pasid vpage dest)

/-- Some access of a strand waits for a page. -/
def State.pageWanted (s : State) (pasid vpage : Nat) : Bool :=
  s.tiles.any (fun x => (List.range 4).any (fun c => match s.waitsPage x.1 c with
    | some (p, va) => p == pasid && va / 4096 == vpage
    | none => false)) || !(s.pageWaiters pasid vpage).isEmpty

/-- PAGE_TABLE_COMMIT: the old translation goes, and held accesses ask for the new one; or the page stays and they go on. -/
def execPageTableCommit (pasid vpage : Nat) (ok : Bool) (s : State) : Host.Outcome State Fault Refusal :=
  .next (
    if !s.moving pasid vpage then s
    else
      let n := match Sparse.get none s.atc (atcKey pasid vpage) with | some e => mapPages e.map | none => 1
      let s := { s with pageMoves := s.pageMoves.filter (fun m => !(m.pasid == pasid && m.vpage == vpage)) }
      if ok then
        let s := { s with atc := Sparse.set none s.atc (atcKey pasid vpage) none }
        (((List.range n).filter (fun i => s.pageWanted pasid (vpage + i))).foldl (fun (s : State) i =>
          s.touchPage pasid (4096 * (vpage + i))) s).flushDeferred
      else s.flushDeferred.retryReads)

/-! ### Ends of sectors, and the scrubber -/

/-- L1_SECTOR_EXPIRY: 32,768 clk after the later of its fill and the write that made it dirty, a sector is written back and
dropped (10 R200). -/
def State.l1Expires (s : State) (t sec : Nat) : Bool :=
  match (s.tile t).l1Get sec with
  | some x => decide (Nat.max x.fill (x.dirty.getD 0) + Config.l1Bound ≤ s.clk)
  | none => false

def execL1SectorExpiry (tile sector : Nat) (s : State) : Host.Outcome State Fault Refusal :=
  .next (if s.l1Expires tile sector then s.l1Flush tile sector else s)

/-- A soft error of a tile that has been corrected (15 R337). -/
def State.tileError (s : State) (t n : Nat) : State := (s.softError (t / 64) n).countTile t 25 1

/-- An error record for the owner of a hub-die entry: SRC 3, no address (15 R334). -/
def State.entryError (s : State) (vf : Nat) : State :=
  { s.postError vf (errorBytes 3 s.errorSite 0 vf 0 0 s.clk) with free := s.free + 2 }

/-- The hub die's copy of an object entry is fetched again (15 R334). -/
def State.refetchObj (s : State) (v i : Nat) : State :=
  match (s.vf v).objBase with
  | none => s
  | some r =>
    if (s.vf v).objCount ≤ i then s
    else match s.vaRead r.pasid (r.va + 32 * i) 32 with
      | none => s.touchRange r.pasid (r.va + 32 * i) 32
      | some bs => s.setVf v { s.vf v with objs := Sparse.set none (s.vf v).objs i (some (decodeObj bs)) }

/-- An uncorrectable error at a site (15 R334). (log 138: DESIGN CHOICE) -/
def State.scrubLost (s : State) (site : ScrubSite) : State :=
  match site with
  | .mem sec => { s.softError (memUnit (64 * sec)) 1 with poison := Sparse.set false s.poison sec true }
  | .spad t sec => (s.softError (t / 64) 3).setTile t { s.tile t with spadPoison := Sparse.set false (s.tile t).spadPoison sec true }
  | .acc t u => (s.softError (t / 64) 3).setTile t { s.tile t with accPoison := Sparse.set false (s.tile t).accPoison u true }
  | .l1 t sec =>
    match (s.tile t).l1Get sec with
    | none => s
    | some x =>
      if x.dirty.isSome then (s.softError (t / 64) 3).setTile t ((s.tile t).l1Set sec (some { x with poison := true, own := true }))
      else (s.l1Drop t sec).tileError t 2
  | .mortar sec =>
    match Sparse.get none s.mortar sec with
    | none => s
    | some m =>
      if m.dirty then { s.softError (memUnit (64 * sec)) 7 with
        poison := Sparse.set false s.poison sec true, poisonM := Sparse.set false s.poisonM sec true }
      else (s.mortarDrop sec).softError (memUnit (64 * sec)) 6
  | .staging sec => { s.softError (sec / 2 ^ 16 / 32) 7 with stagingPoison := Sparse.set false s.stagingPoison sec true }
  | .regs t c => (s.softError (t / 64) 5).lostStrand t c 2 0 0
  | .crown w j =>
    let s := (s.softError 4 9).setCrownSlot w j {}
    match Sparse.get none s.crownOwner w with
    | some v => s.entryError v
    | none => s
  | .brim v r =>
    let x := s.tjRing v r
    ((s.softError 4 9).setVf v { s.vf v with tjrings := Sparse.set {} (s.vf v).tjrings r { epoch := x.epoch + 1 } }).entryError v
  | .object v i => (s.softError 4 9).refetchObj v i

/-- An error at a site that has been corrected in place. -/
def State.scrubFixed (s : State) (site : ScrubSite) : State :=
  match site with
  | .mem sec => s.softError (memUnit (64 * sec)) 0
  | .spad t _ | .acc t _ | .l1 t _ => s.tileError t 2
  | .mortar sec => s.softError (memUnit (64 * sec)) 6
  | .staging sec => s.softError (sec / 2 ^ 16 / 32) 6
  | .regs t _ => s.tileError t 4
  | .crown _ _ | .brim _ _ | .object _ _ => s.softError 4 8

/-- BACKGROUND_SCRUB of a site: 0 clean, 1 corrected and counted, otherwise uncorrectable (10 R219, 15 R334, R335). -/
def execBackgroundScrub (site : ScrubSite) (outcome : Nat) (s : State) : Host.Outcome State Fault Refusal :=
  .next (if outcome = 0 then s else if outcome = 1 then s.scrubFixed site else s.scrubLost site)

end Sys2Proof.Machine
end

