-- ==== Sys2Proof/Machine/Sched.lean ====
section
/-! DEFINITION. The scheduler: launch records and queues, admission and placement, retirement of gangs, wave counters, marks,
Clamp's ticks, and the registers that the host writes (02 R29 to R48, 15 R328, 16 R342, R345 to R347). -/
namespace Sys2Proof.Machine

/-! ### Records (02 R34 to R38) -/

/-- The fields of a record; the capabilities with the tags of their memory. (log 62: DEDUCED) -/
def recOf (b : List Byte) (code ctab : TCap) : Rec :=
  let f := imgNat b
  let ctl := f 0x28 8
  let res := f 0x30 8
  { code, ctab, seed := BitVec.ofNat 64 (f 0x20 8)
    fmt := bits ctl 63 56, ncap := bits ctl 55 48, gangs := bits ctl 47 32, crews := bits ctl 31 24 + 1
    dorm := bits ctl 22 21, strands := bits ctl 20 18, part := bits ctl 17 17, coloc := bits ctl 16 16 == 1
    prio := bits ctl 15 13, nvar := bits ctl 12 11 + 1, ndep := bits ctl 10 8
    gbar := bits res 48 48 == 1, acc := bits res 47 40, rings := bits res 39 24, spad := bits res 23 0
    energy := f 0x38 4, wc := bits (f 0x3C 2) 9 0, sigmode := bits (f 0x3C 2) 15 15 == 1
    deps := (List.range 4).map (fun i => (bits (f (0x40 + 16 * i) 2) 9 0, f (0x48 + 16 * i) 8))
    vars := (List.range 4).map (fun i => (f (0x80 + 16 * i) 8, f (0x88 + 16 * i) 8))
    args := (List.range 8).map (fun i => BitVec.ofNat 64 (f (0xC0 + 8 * i) 8)) }

/-- Tiles that a virtual function owns. -/
def State.ownedTiles (s : State) (v : Nat) : List Nat := (s.tiles.filter (fun x => x.2.owner == some v)).map (fun x => x.1)

/-- Tiles that a record needs to be admitted: a co-placed wave's all together (R37). -/
def Rec.need (r : Rec) : Nat := if r.coloc then r.gangs * r.crews else r.crews

/-- Offsets of the offending fields of a record, apart from its capabilities (R38). -/
def recFaults (b : List Byte) (r : Rec) (owned : Nat) : List Nat :=
  let f := imgNat b
  let q := fun (p : Bool) (o : Nat) => if p then [o] else []
  q (r.fmt != 1) 0x2F ++ q (bits (f 0x28 8) 7 0 != 0) 0x28 ++ q (bits (f 0x28 8) 23 23 != 0) 0x2A ++
  q (bits (f 0x30 8) 63 49 != 0) 0x36 ++ q (bits (f 0x3C 2) 14 10 != 0) 0x3C ++ q (f 0x3E 2 != 0) 0x3E ++
  q (r.strands == 0 || decide (4 < r.strands) || decide (4 < r.strands + r.dorm)) 0x2A ++
  q (decide (32 < r.ncap)) 0x2E ++ q (decide (4 < r.acc)) 0x35 ++ q (decide (4 < r.ndep)) 0x29 ++
  q (r.spad % 256 != 0 || decide (Config.spadBytes < r.spad)) 0x30 ++ q (r.gangs == 0) 0x2C ++
  q (decide (owned < r.need)) (if r.coloc then 0x2A else 0x2B) ++ q (r.gbar && r.coloc && decide (16 < r.gangs)) 0x2A ++
  (List.range (Nat.min r.ndep 4)).flatMap (fun i =>
    q (bits (f (0x40 + 16 * i) 2) 15 10 != 0) (0x40 + 16 * i) ++ q (f (0x42 + 16 * i) 6 != 0) (0x42 + 16 * i)) ++
  (List.range r.nvar).flatMap (fun i =>
    q ((r.vars.getD i (0, 0)).2 % 2 != 0) (0x88 + 16 * i) ++ q (decide (capLen r.code ≤ (r.vars.getD i (0, 0)).2)) 0)

/-- What the check of a head record comes to: it waits for pages, is malformed at an offset, or is sound. -/
inductive RecCheck where
  | wait (s : State)
  | bad (off : Nat)
  | good (r : Rec)
  deriving DecidableEq, Repr

/-- CODE or CTAB as the record's reader uses it: right R, its bounds and its generation; a record needs no tag for them.
(log 63: DEDUCED) -/
def State.recCap (s : State) (v : Nat) (c : TCap) (n : Nat) : Option Region :=
  if capIsSpad c then none
  else match s.capCheck v 0 { c with tag := true } (capLow c) n rR 1 .load with
    | .ok (.virt pasid va _) => some { pasid, va, len := capLen c }
    | _ => none

/-- The check of the record at a place of a ring, with its capability table, which is read here and not again (R38). An NCAP
above 32 names no table to check. (log 122: DESIGN CHOICE) -/
def State.checkRec (s : State) (v pasid va : Nat) : RecCheck :=
  match s.vaRead pasid va 256, s.vaCap pasid va, s.vaCap pasid (va + 16) with
  | some b, some code, some ctab =>
    let r := recOf b code ctab
    let faults := recFaults b r (s.ownedTiles v).length
    let n := if r.ncap ≤ 32 then r.ncap else 0
    match s.recCap v code (capLen code), s.recCap v ctab (16 * n) with
    | some cr, some tr =>
      let caps := (List.range n).map (fun i => s.vaCap tr.pasid (tr.va + 16 * i))
      if caps.any (fun c => c.isNone) then .wait (s.touchRange tr.pasid tr.va (16 * n))
      else
        let caps := caps.filterMap id
        match faults ++ (if caps.all (fun c => c.tag) then [] else [0x10]) with
        | f :: fs => .bad (fs.foldl Nat.min f)
        | [] => .good { r with region := cr, caps }
    | none, _ => .bad 0
    | some _, none => .bad (faults.foldl Nat.min 0x10)
  | _, _, _ => .wait (s.touchRange pasid va 256)

/-! ### Queues (02 R39 to R41, R47, 15 R328) -/

/-- The head record of a queue is looked at: a malformed one is removed and halts its queue (R38). -/
def State.checkHead (s : State) (v part q : Nat) : State :=
  let x := (s.vf v).queue part q
  match x.ring with
  | some g =>
    if x.halt || x.head == x.tail || x.checked.isSome then s
    else match s.checkRec v g.pasid (g.va + 256 * (x.head.toNat % x.size)) with
      | .wait s' => s'
      | .bad off => s.haltQueue v part q { x with head := x.head + 1, since := s.clk, checked := none } off
      | .good r => s.setQueue v part q { x with checked := some r }
  | none => s

/-- The head records of a partition. (log 66: DEDUCED) -/
def State.checkHeads (s : State) (v part : Nat) : State :=
  (List.range 64).foldl (fun (s : State) q => s.checkHead v part q) s

/-- Effective priority of a head record (R47). -/
def LaunchQ.effective (x : LaunchQ) (r : Rec) (clk : Nat) : Nat := Nat.min 7 (r.prio + (clk - x.since) / 2 ^ 14)

/-! ### Admission (02 R43 to R46, 16 R347) -/

/-- The state of tiles in a partition. -/
def partState (part : Nat) : TileState := if part = 1 then .actor else .learner

/-- A tile has raised MATCHK three times within 2^32 clk (15 R336). -/
def Tile.condemned (t : Tile) : Bool :=
  ((t.matchks.zip (t.matchks.drop 2)).any (fun p => decide (p.2 < p.1 + 2 ^ 32)))

/-- Free tiles of a partition of a virtual function, in ascending order. -/
def State.freeTiles (s : State) (v part : Nat) : List Nat :=
  (s.tiles.filter (fun x => x.2.owner == some v && x.2.tstate == partState part && x.2.crew.isNone && !x.2.condemned)).map
    (fun x => x.1)

/-- Free gang-barrier identifiers of a partition. -/
def Vf.freeGbars (v : Vf) (part : Nat) : List Nat := (List.range 16).filter (fun i => !Sparse.get false v.gbars (16 * part + i))

/-- C: the footprints of waves with a gang in being (R44). (log 7: DESIGN CHOICE) -/
def State.footprint (s : State) (v : Nat) : Nat :=
  (s.waves.map (fun x => match x.2 with
    | some w => if w.vf = v ∧ s.gangs.any (fun g => match g.2 with | some g => g.wave == x.1 | none => false)
        then (w.record.vars.getD w.variant (0, 0)).1 else 0
    | none => 0)).sum

/-- The variant of a wave whose first gang would be admitted now; none where none fits. -/
def State.variantFor (s : State) (v : Nat) (r : Rec) : Option Nat :=
  if (s.vf v).privileged then (List.range r.nvar).find? (fun i =>
    decide (s.footprint v + (r.vars.getD i (0, 0)).1 ≤ (s.vf v).budget))
  else some 0

/-- Every dependence of a record holds (R43). -/
def Rec.depsHold (r : Rec) (v : Vf) : Bool :=
  (List.range r.ndep).all (fun i =>
    let d := r.deps.getD i (0, 0)
    decide (d.2 ≤ (Sparse.get 0 v.wc d.1).toNat))

/-- The energy that Clamp reserves at an admission (16 R347). -/
def Rec.reserved (r : Rec) : Nat := if r.coloc then r.gangs * r.energy else r.energy

/-- Clamp can reserve an energy. -/
def Vf.clampAllows (v : Vf) (x : Nat) : Bool := decide ((Nat.min x v.cap : Int) ≤ v.balance - v.rv)

/-- Conditions 1, 4 and 5 of R43 for the next gang of a head record. -/
def State.readyButTiles (s : State) (v : Nat) (x : LaunchQ) (r : Rec) : Bool :=
  (x.wave.isSome || (r.depsHold (s.vf v) && (s.variantFor v r).isSome)) && (s.vf v).clampAllows r.reserved

/-- Conditions 2 and 3. -/
def State.hasRoom (s : State) (v : Nat) (r : Rec) : Bool :=
  decide (r.need ≤ (s.freeTiles v r.part).length) &&
    (!r.gbar || decide ((if r.coloc then r.gangs else 1) ≤ ((s.vf v).freeGbars r.part).length))

/-- The head record of a queue that takes part in arbitration. -/
def LaunchQ.candidate (x : LaunchQ) : Option Rec := if x.halt || x.head == x.tail then none else x.checked

/-- The queue whose head is admitted next: of the admissible ones (of the reserving one alone while a reservation
stands), the highest effective priority, then the first at or after the pointer (R47, R48). -/
def State.admits (s : State) (v part : Nat) : Option (Nat × Rec) :=
  let w := s.vf v
  let ptr := Sparse.get 0 w.rot part
  let cands := (List.range 64).filterMap (fun i =>
    let q := (ptr + i) % 64
    match (w.queue part q).candidate with
    | some r =>
      if (Sparse.get none w.reserve part).getD q = q ∧ s.readyButTiles v (w.queue part q) r ∧ s.hasRoom v r then
        some (q, r) else none
    | none => none)
  cands.foldl (fun best c => match best with
    | none => some c
    | some b => if (w.queue part b.1).effective b.2 s.clk < (w.queue part c.1).effective c.2 s.clk then some c else some b) none

/-! ### Placing a crew (02 R32) -/

/-- A context of a crew as it starts. (log 9: DESIGN CHOICE) -/
def startCtx (r : Rec) (variant : Nat) (run : RunState) (dormant : Bool) : Ctx :=
  let c : Ctx := { run, dormant, pc := (r.vars.getD variant (0, 0)).2 }
  let c := c.writeS 55 (BitVec.ofNat 64 variant)
  let c := r.args.zipIdx.foldl (fun (c : Ctx) a => c.writeS (56 + a.2) a.1) c
  let c := r.caps.zipIdx.foldl (fun (c : Ctx) k => c.writeK k.2 k.1) c
  (c.writeCsr 0x02 (BitVec.ofNat 64 r.prio)).writeCsr 0x0D r.seed

/-- The tile as a crew finds it: its scratchpad, its L1 and its place in the machine stay. -/
def Tile.vacate (t : Tile) : Tile :=
  { owner := t.owner, tstate := t.tstate, spad := t.spad, spadTag := t.spadTag, spadPoison := t.spadPoison
    l1 := t.l1, logSeq := t.logSeq, mqSeq := t.mqSeq, matchks := t.matchks }

/-- A crew is placed: its strands are ready and its dormant contexts wait. -/
def Tile.place (t : Tile) (w : Crew) (r : Rec) (variant clk : Nat) : Tile :=
  let ctxs := (List.range 4).filterMap (fun c =>
    if c < w.strands then some (c, startCtx r variant .ready false)
    else if c < w.strands + w.dorm then some (c, startCtx r variant .dormant true) else none)
  { t.vacate with crew := some w, ctxs, nextIssue := clk + 1 }

/-- One gang is placed on given tiles. (log 65: DEDUCED) -/
def State.placeGang (s : State) (g : Gang) (r : Rec) (variant : Nat) (ts : List Nat) : State :=
  let id := s.nextGang
  let s := { s with nextGang := id + 1, gangs := Sparse.set none s.gangs id (some { g with tiles := ts.map some }) }
  ts.zipIdx.foldl (fun (s : State) x =>
    let w : Crew := { gang := id, idx := x.2, strands := r.strands, dorm := r.dorm, spad := r.spad, rings := r.rings
                      acc := r.acc, code := r.region }
    s.setTile x.1 ((s.tile x.1).place w r variant s.clk)) s

/-- The lowest free identifier of a partition is taken. -/
def State.takeGbar (s : State) (v part : Nat) (want : Bool) : Option Nat × State :=
  match (if want then ((s.vf v).freeGbars part).head? else none) with
  | some i => (some i, s.setVf v { s.vf v with gbars := Sparse.set false (s.vf v).gbars (16 * part + i) true })
  | none => (none, s)

/-- n gangs of a wave are placed, from a GANGID up, on the lowest free tiles (R45). -/
def State.placeGangs (s : State) (v wave mark : Nat) (r : Rec) (variant gid : Nat) : Nat → State
  | 0 => s
  | n + 1 =>
    let ts := (s.freeTiles v r.part).take r.crews
    let b := s.takeGbar v r.part r.gbar
    let g : Gang := { vf := v, part := r.part, wave, pasid := r.region.pasid, mark, gangId := gid, gbar := b.1, tiles := [] }
    (b.2.placeGang g r variant ts).placeGangs v wave mark r variant (gid + 1) n

/-- The next gang of a queue's head record is admitted; HEAD advances after the last (R41). (log 64: DEDUCED) -/
def State.admitFrom (s : State) (v part q : Nat) (r : Rec) : State :=
  let x := (s.vf v).queue part q
  let variant := (s.variantFor v r).getD 0
  let id := x.wave.getD s.nextWave
  let w : Wave := match x.wave.bind (fun i => Sparse.get none s.waves i) with
    | some w => w
    | none => { vf := v, part, queue := q, index := x.head.toNat, mark := x.mark, record := r, variant, since := s.clk }
  let n := if r.coloc then r.gangs else 1
  let done := decide (r.gangs ≤ w.admitted + n)
  let s := { s with
    nextWave := Nat.max s.nextWave (id + 1)
    waves := Sparse.set none s.waves id (some { w with admitted := w.admitted + n }) }
  let u := s.vf v
  let x := if done then { x with head := x.head + 1, since := s.clk, checked := none, wave := none }
    else { x with wave := some id }
  let u := { u.setQueue part q x with
    rv := u.rv + r.reserved, rot := Sparse.set 0 u.rot part ((q + 1) % 64), reserve := Sparse.set none u.reserve part none }
  (s.setVf v u).placeGangs v id x.mark r w.variant w.admitted n

/-- GANG_ADMIT: the head records of a partition are looked at, and the next gang is admitted. -/
def State.gangAdmit (s : State) (v part : Nat) : State :=
  if (s.vf v).flr then s
  else
    let s := s.checkHeads v part
    match s.admits v part with
    | some (q, r) => s.admitFrom v part q r
    | none => s

def execGangAdmit (vf part : Nat) (s : State) : Host.Outcome State Fault Refusal := .next (s.gangAdmit vf part)

/-- A head record may reserve tiles (R48). -/
def State.mayReserve (s : State) (v part q : Nat) : Bool :=
  let x := (s.vf v).queue part q
  match x.candidate with
  | some r => s.readyButTiles v x r && !s.hasRoom v r && decide (x.since + (7 - r.prio) * 2 ^ 14 + 2 ^ 16 ≤ s.clk)
  | none => false

/-- TILE_RESERVATION: the longest-waiting head held back by tiles or identifiers alone takes the partition's free tiles; of
two that have waited equally long, that of the lower queue number. (log 123: DESIGN CHOICE) -/
def State.reserveTiles (s : State) (v part : Nat) : State :=
  let w := s.vf v
  if (Sparse.get none w.reserve part).isSome || w.flr then s
  else
    let best := (List.range 64).foldl (fun (b : Option Nat) q =>
      if !s.mayReserve v part q then b
      else match b with
        | none => some q
        | some p => if (w.queue part q).since < (w.queue part p).since then some q else some p) none
    s.setVf v { w with reserve := Sparse.set none w.reserve part best }

def execTileReservation (vf part : Nat) (s : State) : Host.Outcome State Fault Refusal := .next (s.reserveTiles vf part)

/-! ### Retirement of a gang (02 R33, 15 R331) -/

/-- A wave counter takes a value. -/
def State.setWc (s : State) (v n : Nat) (x : Word) : State := s.setVf v { s.vf v with wc := Sparse.set 0 (s.vf v).wc n x }

/-- Every crew of a gang has retired. -/
def Gang.allRetired (g : Gang) : Bool := (List.range g.tiles.length).all (fun j => g.retired.contains j)

/-- A tile is left by its crew: the next one finds its bytes, and its L1 has been written back. (log 68: DEDUCED) -/
def State.freeTile (s : State) (t : Nat) : State :=
  let s := s.flushTile t
  s.setTile t { (s.tile t).vacate with l1 := [] }

/-- A gang has a FATAL strand. -/
def State.gangFatal (s : State) (id : Nat) (g : Gang) : Bool :=
  (List.range g.tiles.length).any (fun j => match s.crewState id j with
    | some t => (List.range 4).any (fun c => (t.ctx c).run == .fatal)
    | none => false)

/-- GANG_RETIRE: its tiles are free, its identifier and its reservation are released, and its wave counter rises unless
a strand of it ended FATAL; with SIGMODE 1 at the wave's last gang. (log 67: DEDUCED) -/
def State.retireGang (s : State) (id : Nat) : State :=
  match s.gang id with
  | none => s
  | some g =>
    if !g.allRetired then s
    else
      let fatal := g.fatal || s.gangFatal id g
      let s := (g.tiles.filterMap (fun t => t)).foldl (fun (s : State) t => s.freeTile t) s
      let s := { s with
        gangs := Sparse.set none s.gangs id none
        saves := s.saves.filter (fun x => x.1 / 256 != id) }
      let u := s.vf g.vf
      let u := match g.gbar with
        | some i => { u with gbars := Sparse.set false u.gbars (16 * g.part + i) false }
        | none => u
      match Sparse.get none s.waves g.wave with
      | none => s.setVf g.vf u
      | some w =>
        let n := w.retired + 1
        let last := decide (w.record.gangs ≤ n)
        let back := if !w.record.coloc then w.record.energy else if last then w.record.reserved else 0
        let s := { s.setVf g.vf { u with rv := u.rv - back } with
          waves := Sparse.set none s.waves g.wave (if last then none else some { w with retired := n }) }
        if fatal || (w.record.sigmode && !last) then s
        else s.setWc g.vf w.record.wc (Sparse.get 0 (s.vf g.vf).wc w.record.wc + 1)

def execGangRetire (gang : Nat) (s : State) : Host.Outcome State Fault Refusal := .next (s.retireGang gang)

/-! ### Registers of BAR0 (02 R39, R40, 15 R327, R328, R337, 16 R342) -/

/-- LQTAIL_WRITE: the host's write of a TAIL (02 R39, R40). -/
def execLqtailWrite (vf part q : Nat) (tail : BitVec 32) (s : State) : Host.Outcome State Fault Refusal :=
  .next (if vf < 16 ∧ part < 2 ∧ q < 64 ∧ s.boot.running then s.writeTail vf part q tail else s)

/-- A write of LQMARK for half h of a partition: the value 3 leaves a field unchanged. -/
def State.writeMarks (s : State) (v part h : Nat) (value : Word) : State :=
  (List.range 32).foldl (fun (s : State) i =>
    let m := bits value.toNat (2 * i + 1) (2 * i)
    if m = 3 then s else s.setQueue v part (32 * h + i) { (s.vf v).queue part (32 * h + i) with mark := m }) s

def execLqmarkWrite (vf part half : Nat) (value : Word) (s : State) : Host.Outcome State Fault Refusal :=
  .next (if vf < 16 ∧ part < 2 ∧ half < 2 ∧ s.boot.running then s.writeMarks vf part half value else s)

/-- A write to BAR0 of a function (16 is the physical one), whatever register it reaches: TAIL, marks, and the soft-error
counters, whose bits written as 1 are cleared. (log 99: DEDUCED) -/
def State.writeReg (s : State) (fn off : Nat) (value : Word) : State :=
  if fn < 16 ∧ 0x20000 ≤ off ∧ off < 0x20800 ∧ off % 16 = 0 then
    s.writeTail fn ((off - 0x20000) / 0x400) ((off - 0x20000) / 16 % 64) (value.setWidth 32)
  else if fn = 16 ∧ 0x40000 ≤ off ∧ off < 0x40200 ∧ off % 8 = 0 then
    s.writeMarks ((off - 0x40000) / 32) (off / 16 % 2) (off / 8 % 2) value
  else if fn = 16 ∧ 0x30000 ≤ off ∧ off < 0x30080 ∧ off % 8 = 0 then
    (List.range 5).foldl (fun (s : State) u =>
      let k := 16 * u + (off - 0x30000) / 8
      { s with secnt := Sparse.set 0 s.secnt k (Sparse.get 0 s.secnt k &&& ~~~(value.setWidth 32)) }) s
  else s

def execRegisterWrite (fn offset : Nat) (value : Word) (s : State) : Host.Outcome State Fault Refusal :=
  .next (if s.boot.running then s.writeReg fn offset value else s)

/-! ### Clamp (16 R346, R347) -/

/-- One account at a tick: charge, refill, gate. -/
def Vf.clampTick (v : Vf) (e : Nat) : Vf :=
  let b := min (v.cap : Int) (v.balance - e + v.share)
  { v with balance := b, gated := decide (b < 0) }

/-- CLAMP_TICK: every account in turn, then the charges of gangs and the tiles' energy counts. -/
def State.clampTick (s : State) : State :=
  let tick := s.clk / Config.clampInterval
  let s := (List.range 16).foldl (fun (s : State) v => s.setVf v ((s.vf v).clampTick (Config.energy v tick))) s
  let charged := fun (x : Nat × Option Gang) =>
    (x.1, x.2.map (fun g => { g with charge := g.charge + Config.gangEnergy x.1 tick }))
  let s := { s with gangs := s.gangs.map charged }
  s.tiles.foldl (fun (s : State) x => if x.2.owner.isSome then s.countTile x.1 24 (Config.tileEnergy x.1 tick) else s) s

/-- CLAMP_TICK. (log 111: DESIGN CHOICE) -/
def execClampTick (s : State) : Host.Outcome State Fault Refusal := .next s.clampTick

end Sys2Proof.Machine
end

