-- ==== Sys2Proof/Machine/SaveArea.lean ====
section
/-! DEFINITION. The save area of a crew: its bytes from the crew's state, and the state from its bytes (03 R64 to R68, 06 R134, 10
R213, 12 R257). Where the spec names a field without its place in its region, the place is the model's. -/
namespace Sys2Proof.Machine

/-- Bytes of a crew save area. -/
def saveBytes : Nat := 2240 * 1024

/-! ### The image -/

/-- The bytes of a field that are not zero. -/
def field (off n x : Nat) : List (Nat × Byte) := (cellsFrom off (natBytes n x)).filter (fun e => e.2 != 0)

/-- AOP of a side-log entry: the opcode of the atomic; 0 where it is no reduction. -/
def atomCode : Option AtomOp → Nat
  | none => 0
  | some .add => 0x60
  | some .and => 0x61
  | some .or => 0x6B
  | some .xor => 0x6D
  | some .max => 0x67
  | some .maxN => 0x68
  | some .min => 0x69
  | some .minN => 0x6A
  | some .xchg => 0x6C
  | some .fadd32 => 0x65
  | some .faddBf16 => 0x66
  | some (.cas _) => 0

def atomOf (code : Nat) : Option AtomOp :=
  ([.add, .and, .or, .xor, .max, .maxN, .min, .minN, .xchg, .fadd32, .faddBf16] : List AtomOp).find? (fun a => atomCode (some a) == code)

/-- A side-log entry at an offset. -/
def logImage (off : Nat) (e : LogEntry) : List (Nat × Byte) :=
  field off 8 e.va ++ field (off + 8) 1 e.op ++ field (off + 9) 1 (e.ctx % 4 + 4 * (e.order % 4) + 16 * (e.scope % 8)) ++
    field (off + 0xA) 1 e.data.length ++ field (off + 0xB) 1 (atomCode e.aop) ++ field (off + 0xC) 4 e.mask ++
    field (off + 0x10) 4 (e.pasid % 2 ^ 20) ++ field (off + 0x20) e.data.length (bytesNat e.data)

/-- A binding at an offset. -/
def bindImage (off : Nat) (b : Binding) : List (Nat × Byte) :=
  field off 16 b.region.bits.toNat ++ field (off + 0x10) 6 b.syncOff ++ field (off + 0x18) 4 (b.syncObj % 2 ^ 24 + 2 ^ 31)

/-- Where the area of a strand starts. -/
def strandAt (c : Nat) : Nat := 0x50000 + 0x20000 * c

/-- The state of a strand in its header: running, blocked, trapped, dormant; and those of strands that have ended. -/
def runCode : RunState → Nat
  | .idle => 0
  | .ready | .running => 1
  | .blocked _ => 2
  | .trapped => 3
  | .dormant => 4
  | .fatal => 6
  | .exiting => 7
  | .retired => 8

/-- The bits of a strand header that are single. -/
def Ctx.headBits (x : Ctx) : List Bool :=
  [x.handler, x.entry, x.skip, x.skipOne, x.watchOff, x.relCrew, x.relGang, x.dormant]

/-- A number from its bits, the lowest first. -/
def bitsNat (bs : List Bool) : Nat := (bs.zipIdx.map (fun b => b.1.toNat * 2 ^ b.2)).sum

/-- An absent number is 0, and n is n + 1. -/
def optNat : Option Nat → Nat
  | none => 0
  | some n => n + 1

def natOpt (n : Nat) : Option Nat := if n = 0 then none else some (n - 1)

/-- Reads held for a translation. -/
def heldCount (es : List PortEntry) : Nat := (es.filter (fun e => e.held.isSome)).length

/-- Counts of a strand's header: Mould entries, port entries, recorded operations. -/
def Ctx.counts (x : Ctx) : List Nat :=
  [(mouldGroups x.capture).length, (x.ports.map (fun p => p.2.length)).sum, (x.ports.map (fun p => heldCount p.2)).sum]

/-- Where a port's entries lie in a strand area: scalar ports 128 bytes each, vb4 of a cluster 256. -/
def portAt (port : Nat) : Nat := if port < 16 then 0x1000 + 128 * port else 0x1800 + 256 * (port - 16)
/-- Bytes of a port's entry. -/
def portSize (port : Nat) : Nat := if port < 16 then 8 else 64

def kindCode : ReadKind → Nat
  | .load _ _ _ _ _ => 1
  | .atomic _ _ _ _ _ _ _ => 2
  | .kld _ _ => 3
  | .vec _ _ _ _ _ _ => 4
  | .part _ _ _ _ _ _ => 5

/-- The PASID of a place; 0 in the scratchpad. -/
def Place.pasid (p : Place) : Nat :=
  match p with
  | .spad _ => 0
  | .virt p _ _ => p

/-- The operations that a strand's ports hold for a translation, in port order. -/
def Ctx.faulting (x : Ctx) : List (Nat × Held) := x.ports.flatMap (fun p => p.2.filterMap (fun e => e.held.map (fun h => (p.1, h))))

/-- A recorded operation: its address, PASID, port and kind. -/
def heldImage (off : Nat) (e : Nat × Held) : List (Nat × Byte) :=
  field off 8 e.2.place.addr ++ field (off + 8) 4 e.2.place.pasid ++ field (off + 12) 1 e.1 ++ field (off + 13) 1 (kindCode e.2.kind)

/-- The header of a strand, and what lies between its latches and its binding table. -/
def headImage (x : Ctx) (o : Nat) : List (Nat × Byte) :=
  field o 1 1 ++ field (o + 1) 1 (runCode x.run) ++ field (o + 2) 1 (bitsNat x.headBits) ++ field (o + 8) 8 x.pc ++
    x.counts.zipIdx.flatMap (fun e => field (o + 0x10 + 8 * e.2) 8 e.1) ++
    field (o + 0x30) 8 (optNat x.fromPc) ++ field (o + 0x38) 8 (optNat x.bargA) ++
    field (o + 0x680) 2 x.p.toNat ++ field (o + 0x688) 8 x.callStack.length ++
    x.callStack.reverse.zipIdx.flatMap (fun e => field (o + 0x690 + 8 * e.2) 8 e.1) ++
    field (o + 0x710) 8 x.loops.length ++
    x.loops.reverse.zipIdx.flatMap (fun e => field (o + 0x718 + 24 * e.2) 8 e.1.start ++
      field (o + 0x720 + 24 * e.2) 8 e.1.stop ++ field (o + 0x728 + 24 * e.2) 8 e.1.rem) ++
    x.shape.flatMap (fun e => field (o + 0x780 + 8 * e.1) 8 e.2.toNat)

/-- The strand area of a context; `view` gives its CSRs. -/
def ctxImage (x : Ctx) (c : Nat) (view : Nat → Word) : List (Nat × Byte) :=
  let o := strandAt c
  headImage x o ++ x.s.flatMap (fun e => field (o + 0x100 + 8 * e.1) 8 e.2.toNat) ++
    x.k.flatMap (fun e => field (o + 0x300 + 16 * e.1) 16 e.2.bits.toNat) ++
    (List.range 0x1D).flatMap (fun n => field (o + 0x500 + 8 * n) 8 (view n).toNat) ++
    x.b.flatMap (fun e => field (o + 0x600 + 8 * e.1) 8 e.2.toNat) ++
    x.binds.flatMap (fun e => match e.2 with | some b => bindImage (o + 0x840 + 32 * e.1) b | none => []) ++
    field (o + 0x940) 8 x.tjHandle.toNat ++ field (o + 0x948) 8 x.ertgt.toNat ++
    x.ports.flatMap (fun p => (p.2.take (Config.portDepth p.1)).zipIdx.flatMap (fun e =>
      field (o + portAt p.1 + portSize p.1 * e.2) (portSize p.1) e.1.value.toNat)) ++
    x.v.flatMap (fun e => field (o + 0x2000 + 64 * e.1) 64 e.2.toNat) ++
    x.vb.flatMap (fun e => field (o + 0xA000 + 64 * e.1) 64 e.2.toNat) ++
    x.vp.flatMap (fun e => field (o + 0xB000 + 512 * (e.1 / 16) + 8 * (e.1 % 16)) 2 e.2.toNat) ++
    x.sum.flatMap (fun e => field (o + 0xB080 + 512 * (e.1 / 4) + 16 * (e.1 % 4)) 8 e.2.bits.toNat ++
      field (o + 0xB088 + 512 * (e.1 / 4) + 16 * (e.1 % 4)) 1 e.2.full.toNat) ++
    x.draws.flatMap (fun e => field (o + 0xB0C0 + 512 * (e.1 % 8) + 8 * (e.1 / 8)) 8 e.2) ++
    x.sc.flatMap (fun e => field (o + 0xC000 + 1536 * e.1) 1536 e.2.toNat) ++
    (cellsFrom (o + 0x12000) (captureEntries x.capture)).filter (fun e => e.2 != 0) ++
    (x.faulting.take 256).zipIdx.flatMap (fun e => heldImage (o + 0x1C000 + 64 * e.2) e.1)

/-- A ring at an offset. -/
def ringImage (off : Nat) (r : Ring) : List (Nat × Byte) :=
  field off 8 r.base ++ field (off + 8) 4 r.slots ++ field (off + 0xC) 4 r.slotsz ++ field (off + 0x10) 4 r.head ++
    field (off + 0x14) 4 r.tail ++ field (off + 0x18) 4 r.count

/-- The copy engine's queue as it is saved: what has begun, then the rest. -/
def Tile.savedCopies (t : Tile) : List CopyCmd := t.cq.filter (fun c => c.sides.isSome) ++ t.cq.filter (fun c => c.sides.isNone)

/-- A copy at an offset: opcode, context, counter, NR, priority, its increment, cursor, descriptor, handler and follow-on word. -/
def copyImage (off : Nat) (c : CopyCmd) : List (Nat × Byte) :=
  field off 1 c.op ++ field (off + 1) 1 c.iss.ctx ++ field (off + 2) 1 c.ct ++ field (off + 3) 1 c.nr.toNat ++
    field (off + 4) 1 c.qprio ++ field (off + 8) 8 c.cursor ++ field (off + 0x10) 8 c.place.addr ++
    field (off + 0x18) 4 c.place.pasid ++ field (off + 0x1C) 4 c.inc ++ field (off + 0x20) 4 c.hnd ++
    field (off + 0x28) 8 (match c.follow with | some e => e.word | none => 0)

/-- The queued matrix operations that do not hold the array. -/
def Tile.savedMatrix (t : Tile) : List MqEntry := t.mq.filter (fun e => t.mrun.all (fun r => r.id != e.id))

/-- A matrix-queue entry at an offset: its word, context, priority and next k index. -/
def mqImage (off : Nat) (e : MqEntry) : List (Nat × Byte) :=
  field off 8 e.word ++ field (off + 8) 1 e.iss.ctx ++ field (off + 9) 1 e.prio ++ field (off + 0xC) 4 e.k

/-- The Trowel's cursor: the operation that holds the array, its next k index and tile, and the shapes that it latched. -/
def cursorImage (t : Tile) : List (Nat × Byte) :=
  match t.mrun, t.runEntry with
  | some r, some e =>
    let o := strandAt e.iss.ctx + 0x800
    field o 8 e.word ++ field (o + 8) 4 e.k ++ field (o + 0xC) 4 r.step ++
      e.mh.zipIdx.flatMap (fun m => field (o + 0x10 + 8 * m.2) 8 m.1.toNat) ++ field (o + 0x30) 1 r.prio ++ field (o + 0x31) 1 e.prio
  | _, _ => []

/-- The fields of a crew's header after FMT. -/
def State.crewWords (s : State) (t : Nat) (w : Crew) : List Nat :=
  let x := s.tile t
  (match s.gang w.gang with | some g => [g.vf, g.part, g.gangId] | none => [0, 0, 0]) ++
    [w.idx, w.strands, w.dorm, w.spad, w.rings, w.acc, match s.gang w.gang with | some g => optNat g.gbar | none => 0, t,
      x.sideLog.length, x.cq.length, x.savedMatrix.length]

/-- The bytes of a save area that are not zero. (log 71: DESIGN CHOICE) -/
def State.saveImage (s : State) (t : Nat) (w : Crew) : List (Nat × Byte) :=
  let x := s.tile t
  field 0 1 1 ++ (s.crewWords t w).zipIdx.flatMap (fun e => field (8 + 8 * e.2) 8 e.1) ++
    x.rings.flatMap (fun e => ringImage (0x100 + 32 * e.1) e.2) ++
    x.ct.flatMap (fun e => field (0x400 + 8 * e.1) 8 e.2.toNat) ++
    x.savedCopies.zipIdx.flatMap (fun e => copyImage (0xC00 + 64 * e.2) e.1) ++
    x.sideLog.zipIdx.flatMap (fun e => logImage (0x1000 + 64 * e.2) e.1) ++
    x.savedMatrix.zipIdx.flatMap (fun e => mqImage (0x5000 + 32 * e.2) e.1) ++
    x.acc.flatMap (fun e => field (0x10000 + 4 * e.1) 4 e.2.toNat) ++
    (List.range 4).flatMap (fun c => ctxImage (x.ctx c) c (s.csrView t c)) ++ cursorImage x ++
    (x.spad.filter (fun e => decide (e.1 < w.spad))).map (fun e => (0xD0000 + e.1, e.2))

/-- Offsets of the 16-byte units of a save area that are tagged: capability registers, and the scratchpad's. -/
def State.saveTags (s : State) (t : Nat) (w : Crew) : List Nat :=
  let x := s.tile t
  (List.range 4).flatMap (fun c => (((x.ctx c).k).filter (fun e => e.2.tag)).map (fun e => strandAt c + 0x300 + 16 * e.1)) ++
    ((x.spadTag.filter (fun e => e.2 && decide (16 * e.1 < w.spad))).map (fun e => 0xD0000 + 16 * e.1))

/-- Where the fields of a save area lie: first and last offset. -/
def areaFields (spad : Nat) : List (Nat × Nat) := [(0, 0x50FF), (0x10000, 0x4FFFF), (0xD0000, 0xCFFFF + spad)]
/-- Where those of a strand area lie. -/
def strandFields : List (Nat × Nat) := [(0, 0x94F), (0x1000, 0x1FFFF)]

/-- An offset of a save area lies in a field. -/
def savedField (spad o : Nat) : Bool :=
  (areaFields spad).any (fun f => decide (f.1 ≤ o) && decide (o ≤ f.2)) ||
    (decide (0x50000 ≤ o) && decide (o < 0xD0000) &&
      strandFields.any (fun f => decide (f.1 ≤ (o - 0x50000) % 0x20000) && decide ((o - 0x50000) % 0x20000 ≤ f.2)))

/-- The offsets of a region at which memory lists a byte or a tag; each page is mapped. -/
def State.areaListed (s : State) (g : Region) : List Nat :=
  let keys := (Sparse.keys s.mem ++ Sparse.keys s.mdata ++
    (Sparse.keys s.tags ++ Sparse.keys s.mtags).flatMap (fun u => (List.range 16).map (fun i => 16 * u + i))).eraseDups
  (pagesOf g.va g.len).flatMap (fun p => match s.lookupVa g.pasid (4096 * p) false with
    | .mapped pa => ((keys.filter (fun a => decide (pa ≤ a) && decide (a < pa + 4096))).map (fun a => 4096 * p + (a - pa))).filterMap
        (fun va => if g.va ≤ va ∧ va < g.va + g.len then some (va - g.va) else none)
    | _ => [])

/-- A save area is written: the image, and zeros elsewhere in its fields; then the tagged units. -/
def State.writeArea (s : State) (vf spad : Nat) (g : Region) (img : List (Nat × Byte)) (units : List Nat) : State :=
  let zeros := ((s.areaListed g).filter (fun o => savedField spad o && !img.any (fun e => e.1 == o))).map (fun o => (o, (0 : Byte)))
  let s := s.vaPut vf g.pasid none false ((img ++ zeros).map (fun e => (g.va + e.1, e.2)))
  units.foldl (fun (s : State) o =>
    s.vaPut vf g.pasid none true ((List.range 16).map (fun i =>
      (g.va + o + i, match img.find? (fun e => e.1 == o + i) with | some e => e.2 | none => 0)))) s

/-! ### Reading a save area back (R68, R70) -/

/-- The bytes of an area that are not zero, by offset. -/
def State.areaImage (s : State) (g : Region) : List (Nat × Byte) :=
  ((sortBy (fun (a b : Nat) => decide (a ≤ b)) (s.areaListed g).eraseDups).map (fun o => (o, match s.lookupVa g.pasid (g.va + o) false with
    | .mapped pa => s.pocByte pa
    | _ => 0))).filter (fun e => e.2 != 0)

/-- The image with which a crew resumes: what stands in its area, but where that is as it was written, what the device has made of
it since; the counters are those of the area (R61, R68). -/
def mergeImage (base cur live : List (Nat × Byte)) : List (Nat × Byte) :=
  let at_ := fun (img : List (Nat × Byte)) (o : Nat) => ((img.find? (fun e => e.1 == o)).map (fun e => e.2)).getD 0
  (sortBy (fun (a b : Nat) => decide (a ≤ b)) ((cur ++ live).map (fun e => e.1)).eraseDups).filterMap (fun o =>
    let b := if (0x400 ≤ o ∧ o < 0xC00) ∨ at_ cur o ≠ at_ base o then at_ cur o else at_ live o
    if b = 0 then none else some (o, b))

/-- A number of n bytes in an image. -/
def imageNat (img : List (Nat × Byte)) (off n : Nat) : Nat :=
  ((img.filter (fun e => decide (off ≤ e.1) && decide (e.1 < off + n))).map (fun e => e.2.toNat * 256 ^ (e.1 - off))).sum

/-- The fields of an array of an image that are not zero. -/
def imageArray (img : List (Nat × Byte)) (off stride n count : Nat) : List (Nat × Nat) :=
  ((List.range count).map (fun i => (i, imageNat img (off + stride * i) n))).filter (fun e => e.2 != 0)

/-- A side-log entry with the fields of an image. -/
def logRead (img : List (Nat × Byte)) (off : Nat) (e : LogEntry) : LogEntry :=
  let c := imageNat img (off + 9) 1
  { e with
    va := imageNat img off 8, op := imageNat img (off + 8) 1, ctx := c % 4, order := c / 4 % 4, scope := c / 16 % 8
    aop := match e.aop with
      | some (.cas x) => some (.cas x)
      | _ => atomOf (imageNat img (off + 0xB) 1)
    mask := imageNat img (off + 0xC) 4, pasid := imageNat img (off + 0x10) 4 % 2 ^ 20
    data := natBytes (Nat.min 32 (imageNat img (off + 0xA) 1)) (imageNat img (off + 0x20) 32) }

/-- A binding of an image; the generation of its sync object is in no field, so it is the one bound, or the current one. -/
def State.bindRead (s : State) (vf : Nat) (img : List (Nat × Byte)) (off : Nat) (old : Option Binding) : Option Binding :=
  let w := imageNat img (off + 0x18) 4
  if w / 2 ^ 31 % 2 = 0 then none
  else
    let obj := w % 2 ^ 24
    let gen := match old with
      | some b => b.syncGen
      | none => match s.objEntry vf obj with | some e => e.gen | none => 0
    some { region := { bits := BitVec.ofNat 128 (imageNat img off 16) }, syncObj := obj, syncGen := gen
           syncOff := imageNat img (off + 0x10) 6 }

/-- Bits of each stored CSR that a save area gives back. -/
def csrBack (n : Nat) : Word :=
  if n = 0x00 then 0x38 else if n = 0x07 then 0xFFFFFFFFFFFFFFFF
  else if 0x08 ≤ n ∧ n ≤ 0x0A then 0xFFFFFFFFFFFFFFFF else if n = 0x18 then 0 else csrMask n

/-- A state of a strand as its header now has it; one that has ended stays so. -/
def runRead (code : Nat) (old : RunState) : RunState :=
  if code = runCode old then old
  else match old, code with
    | .ready, 3 | .running, 3 | .blocked _, 3 | .dormant, 3 => .trapped
    | .ready, 4 | .running, 4 | .blocked _, 4 | .trapped, 4 => .dormant
    | .blocked _, 1 | .trapped, 1 | .trapped, 2 | .dormant, 1 | .dormant, 2 | .running, 2 => .ready
    | r, _ => r

/-- A place with another address. -/
def Place.moved (p : Place) (addr pasid : Nat) : Place :=
  match p with
  | .spad _ => .spad addr
  | .virt _ _ obj => .virt pasid addr obj

/-- An entry of a port, the i-th, with the value of its image; a read that is held takes the address of the n-th recorded
operation. -/
def entryRead (img : List (Nat × Byte)) (o port i n : Nat) (e : PortEntry) : PortEntry :=
  match e.held with
  | some h =>
    if n < 256 then
      let at_ := o + 0x1C000 + 64 * n
      { e with held := some { h with place := h.place.moved (imageNat img at_ 8) (imageNat img (at_ + 8) 4) } }
    else e
  | none =>
    if e.cmd.isSome || e.twin || Config.portDepth port ≤ i then e
    else
      let x := imageNat img (o + portAt port + portSize port * i) (portSize port)
      { e with value := if port < 16 then e.value >>> 64 <<< 64 ||| BitVec.ofNat 512 x else BitVec.ofNat 512 x }

/-- The entries of a port from the i-th on, of which the first that is held is the n-th recorded operation. -/
def entriesRead (img : List (Nat × Byte)) (o port i n : Nat) : List PortEntry → List PortEntry
  | [] => []
  | e :: t => entryRead img o port i n e :: entriesRead img o port (i + 1) (n + e.held.isSome.toNat) t

/-- The ports of a context. -/
def portsRead (img : List (Nat × Byte)) (o n : Nat) : Sparse (List PortEntry) → Sparse (List PortEntry)
  | [] => []
  | p :: t => (p.1, entriesRead img o p.1 0 n p.2) :: portsRead img o (n + heldCount p.2) t

/-- The header of a strand read back, and what lies between its latches and its binding table. -/
def headRead (img : List (Nat × Byte)) (o : Nat) (x : Ctx) : Ctx :=
  let flag := fun (i : Nat) => imageNat img (o + 2) 1 / 2 ^ i % 2 == 1
  { x with
    run := runRead (imageNat img (o + 1) 1) x.run
    handler := flag 0, entry := flag 1, skip := flag 2, skipOne := flag 3, watchOff := flag 4, relCrew := flag 5, relGang := flag 6
    pc := imageNat img (o + 8) 8, fromPc := natOpt (imageNat img (o + 0x30) 8), bargA := natOpt (imageNat img (o + 0x38) 8)
    p := BitVec.ofNat 16 (imageNat img (o + 0x680) 2)
    callStack := ((List.range (Nat.min 16 (imageNat img (o + 0x688) 8))).map (fun i => imageNat img (o + 0x690 + 8 * i) 8)).reverse
    loops := ((List.range (Nat.min 4 (imageNat img (o + 0x710) 8))).map (fun i =>
      { start := imageNat img (o + 0x718 + 24 * i) 8, stop := imageNat img (o + 0x720 + 24 * i) 8
        rem := imageNat img (o + 0x728 + 24 * i) 8 })).reverse
    shape := (imageArray img (o + 0x780) 8 8 16).map (fun e => (e.1, BitVec.ofNat 64 e.2)) }

/-- A context with the fields of its strand area: STAT has RESUMED set (04 R93). -/
def State.ctxRead (s : State) (vf : Nat) (img : List (Nat × Byte)) (tagged : Nat → Bool) (c : Nat) (x : Ctx) : Ctx :=
  let o := strandAt c
  let word := fun (e : Nat × Nat) => (e.1, BitVec.ofNat 64 e.2)
  let csr := (List.range 0x1D).foldl (fun (m : Sparse Word) n =>
    if csrBack n = 0 then m
    else Sparse.set 0 m n (mergeBits (csrBack n) (Sparse.get 0 m n) (BitVec.ofNat 64 (imageNat img (o + 0x500 + 8 * n) 8)))) x.csr
  { headRead img o x with
    s := ((imageArray img (o + 0x100) 8 8 64).map word).filter (fun e => e.1 != 0)
    k := (List.range 32).foldl (fun (m : Sparse TCap) r =>
      Sparse.set {} m r { bits := BitVec.ofNat 128 (imageNat img (o + 0x300 + 16 * r) 16), tag := tagged (o + 0x300 + 16 * r) }) []
    csr := Sparse.set 0 csr 0 (Sparse.get 0 csr 0 ||| 0x10)
    b := ((imageArray img (o + 0x600) 8 8 16).map word).filter (fun e => !isPort e.1)
    binds := (List.range 8).foldl (fun (m : Sparse (Option Binding)) i =>
      Sparse.set none m i (s.bindRead vf img (o + 0x840 + 32 * i) (Sparse.get none x.binds i))) []
    tjHandle := BitVec.ofNat 64 (imageNat img (o + 0x940) 8), ertgt := BitVec.ofNat 64 (imageNat img (o + 0x948) 8)
    ports := portsRead img o 0 x.ports
    vp := ((List.range 128).map (fun i =>
      (i, BitVec.ofNat 16 (imageNat img (o + 0xB000 + 512 * (i / 16) + 8 * (i % 16)) 2)))).filter (fun e => e.2 != 0)
    sum := ((List.range 32).map (fun i =>
      let a := o + 0xB080 + 512 * (i / 4) + 16 * (i % 4)
      (i, ({ bits := BitVec.ofNat 64 (imageNat img a 8), full := imageNat img (a + 8) 1 % 2 == 1 } : SumLatch)))).filter
        (fun e => e.2 != {})
    draws := ((List.range 9).map (fun i => (i, imageNat img (o + 0xB0C0 + 512 * (i % 8) + 8 * (i / 8)) 8 % 2 ^ 48))).filter
      (fun e => e.2 != 0)
    v := (imageArray img (o + 0x2000) 64 64 512).map (fun e => (e.1, BitVec.ofNat 512 e.2))
    vb := ((imageArray img (o + 0xA000) 64 64 64).map (fun e => (e.1, BitVec.ofNat 512 e.2))).filter (fun e => e.1 % 8 != 4)
    sc := (imageArray img (o + 0xC000) 1536 1536 16).map (fun e => (e.1, BitVec.ofNat 12288 e.2))
    capture := captureBack x.capture ((List.range (captureEntries x.capture).length).map (fun i =>
      BitVec.ofNat 8 (imageNat img (o + 0x12000 + i) 1)))
    fresh := true }

/-- A ring read back. -/
def ringRead (img : List (Nat × Byte)) (off : Nat) : Ring :=
  { base := imageNat img off 8, slots := imageNat img (off + 8) 4, slotsz := imageNat img (off + 0xC) 4
    head := imageNat img (off + 0x10) 4, tail := imageNat img (off + 0x14) 4, count := imageNat img (off + 0x18) 4 }

/-- A copy read back. -/
def copyRead (img : List (Nat × Byte)) (off : Nat) (c : CopyCmd) : CopyCmd :=
  { c with
    ct := imageNat img (off + 2) 1, nr := imageNat img (off + 3) 1 % 2 == 1, qprio := imageNat img (off + 4) 1 % 8
    cursor := imageNat img (off + 8) 8, place := c.place.moved (imageNat img (off + 0x10) 8) (imageNat img (off + 0x18) 4)
    inc := imageNat img (off + 0x1C) 4, hnd := imageNat img (off + 0x20) 4
    follow := c.follow.map (fun e => { e with word := imageNat img (off + 0x28) 8 }) }

/-- A queued matrix operation read back. -/
def mqRead (img : List (Nat × Byte)) (off : Nat) (e : MqEntry) : MqEntry :=
  { e with word := imageNat img off 8, prio := imageNat img (off + 9) 1 % 8, k := imageNat img (off + 0xC) 4 }

/-- The operation that holds the array, with the cursor's fields. -/
def cursorRead (img : List (Nat × Byte)) (e : MqEntry) : MqEntry :=
  let o := strandAt e.iss.ctx + 0x800
  { e with
    word := imageNat img o 8, k := imageNat img (o + 8) 4, prio := imageNat img (o + 0x31) 1 % 8
    mh := e.mh.zipIdx.map (fun m => BitVec.ofNat 64 (imageNat img (o + 0x10 + 8 * m.2) 8)) }

/-- The matrix queue read back: the operation that holds the array by its cursor, each other by its entry. -/
def Tile.matrixBack (t : Tile) (img : List (Nat × Byte)) : List MqEntry :=
  t.mq.map (fun e => match t.savedMatrix.findIdx? (fun y => y.id == e.id) with
    | some i => mqRead img (0x5000 + 32 * i) e
    | none => cursorRead img e)

/-- The crew as its header now has it: what it is, its strands and its counts are the device's own (R68, R69). -/
def crewRead (img : List (Nat × Byte)) (w : Crew) : Crew :=
  { w with spad := Nat.min Config.spadBytes (imageNat img 0x38 8), rings := imageNat img 0x40 8 % 2 ^ 16, acc := imageNat img 0x48 8 % 256 }

/-- A crew's tile state as its save area now has it; the counts are the device's own. -/
def State.tileRead (s : State) (vf : Nat) (y : Saved) (img : List (Nat × Byte)) (tagged : Nat → Bool) : Tile :=
  let x := y.tile
  { x with
    rings := (List.range 16).foldl (fun (m : Sparse Ring) r => Sparse.set {} m r (ringRead img (0x100 + 32 * r))) []
    ct := (List.range 256).foldl (fun (m : Sparse Word) n =>
      Sparse.set 0 m n (BitVec.ofNat 64 (imageNat img (0x400 + 8 * n) 8 + Sparse.get 0 y.owed n))) []
    cq := x.cq.map (fun c => match x.savedCopies.findIdx? (fun d => d.id == c.id) with
      | some i => copyRead img (0xC00 + 64 * i) c
      | none => c)
    mq := x.matrixBack img
    mrun := x.mrun.map (fun r => match x.runEntry with
      | some e => { r with
          step := imageNat img (strandAt e.iss.ctx + 0x80C) 4, prio := imageNat img (strandAt e.iss.ctx + 0x830) 1 % 8 }
      | none => r)
    sideLog := x.sideLog.zipIdx.map (fun e => logRead img (0x1000 + 64 * e.2) e.1)
    acc := (imageArray img 0x10000 4 4 65536).map (fun e => (e.1, BitVec.ofNat 32 e.2))
    spad := (img.filter (fun e => decide (0xD0000 ≤ e.1) && decide (e.1 < 0xD0000 + y.crew.spad))).map (fun e => (e.1 - 0xD0000, e.2))
    spadTag := (x.spadTag.filter (fun e => decide (y.crew.spad ≤ 16 * e.1))) ++
      ((List.range (y.crew.spad / 16)).filter (fun u => tagged (0xD0000 + 16 * u))).map (fun u => (u, true))
    ctxs := (List.range 4).foldl (fun (m : Sparse Ctx) c =>
      if (x.ctx c).run == .idle then m else Sparse.set {} m c (s.ctxRead vf img tagged c (x.ctx c))) x.ctxs }

/-- The headers of a save area, the crew's and those of its contexts, have FMT 1, and no count exceeds its region (R68).
(log 73: DEDUCED) -/
def headersOk (w : Crew) (img : List (Nat × Byte)) : Bool :=
  imageNat img 0 1 == 1 && decide (imageNat img 0x60 8 ≤ 256) && decide (imageNat img 0x68 8 ≤ 16) && decide (imageNat img 0x70 8 ≤ 8) &&
    (List.range (w.strands + w.dorm)).all (fun c =>
      let o := strandAt c
      imageNat img o 1 == 1 && decide (imageNat img (o + 0x10) 8 ≤ 64) && decide (imageNat img (o + 0x18) 8 ≤ 512) &&
        decide (imageNat img (o + 0x20) 8 ≤ 256))

end Sys2Proof.Machine
end

