-- ==== Sys2Proof/Machine/Preempt.lean ====
section
/-! DEFINITION. Pre-emption: what is pre-empted, the freeze, the save areas, the scrub of moving tiles and resumption (03 R59 to
R74, 12 R266, 15 R324, R336, 22 R466). -/
namespace Sys2Proof.Machine

/-! ### What is pre-empted (R59, R37) -/

/-- Crews of a gang that have not retired. -/
def Gang.liveCrews (g : Gang) : List Nat := (List.range g.tiles.length).filter (fun j => !g.retired.contains j)

/-- The wave of a gang is co-placed. -/
def State.coPlaced (s : State) (g : Gang) : Bool := match s.gangWave g with | some w => w.record.coloc | none => false

/-- A gang, with the other gangs of its wave where that is co-placed, in ascending GANGID. -/
def State.gangSet (s : State) (id : Nat) : List Nat :=
  match s.gang id with
  | none => []
  | some g =>
    if !s.coPlaced g then [id]
    else (s.gangs.filter (fun x => match x.2 with | some h => h.wave == g.wave | none => false)).map (fun x => x.1)

/-- A gang is resident and a request would pre-empt it; one that is being pre-empted already merges the request. -/
def Gang.preemptible (g : Gang) : Bool := (g.run == .running || g.run == .resuming) && !g.liveCrews.isEmpty

/-- The gangs that a request for some tiles pre-empts. -/
def State.gangsOn (s : State) (ts : List Nat) : List Nat :=
  ((ts.filterMap (fun t => (s.tile t).crew.map (fun w => w.gang))).flatMap s.gangSet).eraseDups.filter (fun id =>
    match s.gang id with | some g => g.preemptible | none => false)

/-! ### Context-table entries (R65) -/

/-- An entry is free: INUSE is clear, and its capability names a save area. None where its page is missing.
(log 70: DEDUCED) -/
def State.entryFree (s : State) (v : Nat) (g : Region) (i : Nat) : Option Bool :=
  match s.vaRead g.pasid (g.va + 32 * i + 16) 8, s.vaCap g.pasid (g.va + 32 * i) with
  | some b, some c => some (bytesNat b % 2 == 0 && c.tag && !capIsSpad c && capRights c &&& (rR + rW) == rR + rW &&
      decide (saveBytes ≤ capLen c) && (s.capRegion v c).isSome)
  | _, _ => none

/-- The lowest free entries from entry i on, at most n of them; the last argument counts the entries that are left. -/
def State.findEntries (s : State) (v : Nat) (g : Region) (n i : Nat) : Nat → Option (List Nat)
  | 0 => some []
  | k + 1 =>
    if n = 0 then some []
    else match s.entryFree v g i with
      | none => none
      | some true => (s.findEntries v g (n - 1) (i + 1) k).map (fun l => i :: l)
      | some false => s.findEntries v g n (i + 1) k

/-- What the search for entries comes to: its pages are missing, they are short, or they are these. -/
inductive Entries where
  | wait (s : State)
  | short
  | found (es : List Nat)
  deriving DecidableEq, Repr

/-- Entries for n crews. -/
def State.entriesFor (s : State) (v n : Nat) : Entries :=
  if n = 0 then .found []
  else match (s.vf v).ctxTab with
    | none => .short
    | some g =>
      match s.findEntries v g n 0 (s.vf v).ctxLen with
      | none => .wait (s.touchRange g.pasid g.va (32 * (s.vf v).ctxLen))
      | some es => if es.length < n then .short else .found es

/-- The status word of an entry is written, or its lowest byte cleared. -/
def State.putEntry (s : State) (v i : Nat) (bytes : List Byte) : State :=
  match (s.vf v).ctxTab with
  | some g => s.devWrite { vf := v, pasid := g.pasid, va := g.va + 32 * i + 16, bytes }
  | none => s

/-- The status word of an entry in use: INUSE, and in [31:16] the queue and the partition as in TRAPA of 02 R38. -/
def inUseWord (queue part : Nat) : Nat := 1 + 2 ^ 16 * (queue % 128 + 128 * (part % 2))

/-! ### Freeze (R60, R62, R63) -/

/-- The crew on a tile freezes: the running strand at the bundle boundary f, its later results captured. -/
def State.freezeTile (s : State) (t : Nat) : State :=
  let x := s.tile t
  let s := match x.running with
    | some c =>
      let f := Nat.max s.clk x.nextIssue
      let s := s.landBy t c f (x.ctx c).pending.length
      let k := (s.ctxAt t c).captureAt f
      let k := { k with run := if k.run == RunState.running then .ready else k.run }
      s.setTile t { (s.tile t).setCtx c k with running := none, mould := k.capture }
    | none => s
  let x := s.tile t
  match x.crew with
  | some w => s.setTile t { x with crew := some { w with frozen := true, stopped := false, resuming := false } }
  | none => s

/-- The tile of a crew that has retired is left before its gang is pre-empted. -/
def State.leaveRetired (s : State) (id : Nat) (g : Gang) (j : Nat) : State :=
  match g.tiles.getD j none with
  | none => s
  | some t =>
    let bad := (List.range 4).any (fun c => (s.ctxAt t c).run == .fatal)
    let s := s.freeTile t
    match s.gang id with
    | some h => { s with gangs := Sparse.set none s.gangs id (some { h with tiles := h.tiles.set j none, fatal := h.fatal || bad }) }
    | none => s

/-- One gang is pre-empted into given entries; `hold` where SAVE asked for it. -/
def State.preemptGang (s : State) (hold : Bool) (id : Nat) (es : List Nat) : State :=
  match s.gang id with
  | none => s
  | some g =>
    let queue := match s.gangWave g with | some w => w.queue | none => 0
    let s := es.foldl (fun (s : State) i => s.putEntry g.vf i (natBytes 8 (inUseWord queue g.part))) s
    let s := { s with gangs := Sparse.set none s.gangs id (some { g with run := .saving, hold, restored := false, entries := es }) }
    let s := (g.retired.eraseDups).foldl (fun (s : State) j => s.leaveRetired id g j) s
    let s := g.liveCrews.foldl (fun (s : State) j => match g.tiles.getD j none with
      | some t => s.freezeTile t
      | none => s) s
    s.askPauses id

/-- Gangs are pre-empted, each with its share of the entries. -/
def State.preemptAll (s : State) (hold : Bool) : List Nat → List Nat → State
  | [], _ => s
  | id :: rest, es =>
    match s.gang id with
    | none => s.preemptAll hold rest es
    | some g =>
      let n := g.liveCrews.length
      (s.preemptGang hold id (es.take n)).preemptAll hold rest (es.drop n)

/-- Crews that the pre-emption of some gangs saves. -/
def State.crewCount (s : State) (ids : List Nat) : Nat :=
  (ids.map (fun id => match s.gang id with | some g => g.liveCrews.length | none => 0)).sum

/-! ### Stop points (R60, R61) -/

/-- The engines of a tile stand at their stop points: no array step or block is in progress, no signal waits, and no summary
operation can be performed. The copy engine's pieces are whole. -/
def State.enginesStill (s : State) (t : Nat) : Bool :=
  let x := s.tile t
  (match x.mrun with | some r => !r.busy | none => true) && x.sigq.isEmpty &&
    ((s.summaryUnit t).tile t).sumq.length == x.sumq.length

/-- ENGINE_STOP. -/
def State.engineStop (s : State) (t : Nat) : State :=
  match (s.tile t).crew with
  | some w =>
    if w.frozen && !w.stopped && s.enginesStill t then
      (s.setTile t { s.tile t with crew := some { w with stopped := true } }).askPauses w.gang
    else s
  | none => s

def execEngineStop (tile : Nat) (s : State) : Host.Outcome State Fault Refusal := .next (s.engineStop tile)

/-- A place's page has no translation. -/
def State.unmapped (s : State) (p : Place) (n : Nat) : Bool :=
  match p with
  | .spad _ => false
  | .virt pasid va _ => s.rangeXlat pasid va n false == .missing

/-- A context has an access that a translation fault holds. -/
def State.faulted (s : State) (t c : Nat) : Bool :=
  (s.ctxAt t c).faulting.any (fun h => h.2.spans.any (fun x => s.unmapped x.1 x.2)) ||
    (s.tile t).sideLog.any (fun e => e.ctx == c && s.unmapped (.virt e.pasid e.va e.obj) e.data.length) ||
    (s.tile t).sumq.any (fun o => o.iss.ctx == c && s.unmapped o.place o.size)

/-- A held read may be saved: a translation fault holds it, or holds what it comes behind; of a VPART, in any context of its
tile. A sector that the host holds is waited for. -/
def State.recordable (s : State) (t c : Nat) (h : Held) : Bool :=
  (s.faulted t c || (kindCode h.kind == 5 && (List.range 4).any (s.faulted t))) &&
    !h.spans.any (fun x => match x.1 with
      | .spad _ => false
      | .virt pasid va _ => s.rangePending pasid va x.2)

/-- The results, loads, atomics and stores of a tile's contexts are settled, but for those held by a translation fault. -/
def State.accessesSettled (s : State) (t : Nat) : Bool :=
  (List.range 4).all (fun c =>
    let x := s.ctxAt t c
    x.pending.isEmpty && x.ports.all (fun p => !x.canDeliver p.1) && x.faulting.all (fun h => s.recordable t c h.2) &&
      ((s.drainStores t c x.storeQ.length).ctxAt t c).storeQ.length == x.storeQ.length)

/-- What the Hod needs of a crew below the stop chunks has been read (13 R295). -/
def State.hodSettled (s : State) (w : Crew) : Bool :=
  (s.gangMembers w.gang).all (fun m => match s.comm m.1 with
    | some x => ((x.member m.2).cmds.filter (fun c => c.ended.isNone && c.crown.isNone && c.iss.gang == w.gang &&
        c.iss.crew == w.idx && c.op != 0xDF)).all (fun c => x.aborted || x.lost.isSome || match x.stop with
      | some p => c.begun == c.chunks || decide (p ≤ chunkPos c.n c.begun)
      | none => false)
    | none => true)

/-! ### SAVE_AREA_WRITE (R60, R65, R66, 12 R266, 15 R324) -/

/-- The capture of a trapped strand moves from its trap area; none where the page is missing. -/
def State.fetchCapture (s : State) (t c : Nat) : Option Ctx :=
  let k := s.ctxAt t c
  if k.run != .trapped then some k
  else match s.trapRegion (s.tileVf t) t c with
    | none => some k
    | some r => (s.vaRead r.pasid (r.va + 64) (captureEntries k.capture).length).map (fun bs =>
        { k with capture := captureBack k.capture bs })

/-- The entry of a crew: its place among the crews that are saved. -/
def Gang.entryOf (g : Gang) (j : Nat) : Option Nat := g.entries[g.liveCrews.idxOf j]?

/-- The save area that an entry names. -/
def State.areaOf (s : State) (v entry : Nat) : Option Region :=
  match (s.vf v).ctxTab with
  | some g => (s.vaCap g.pasid (g.va + 32 * entry)).bind (fun c => (s.capRegion v c).map (fun r => { r with len := saveBytes }))
  | none => none

/-- The last crew of a gang has been saved: it waits to resume, or for RESTORE (R69, 22 R466). -/
def State.gangSaved (s : State) (id : Nat) : State :=
  match s.gang id with
  | none => s
  | some g =>
    if g.tiles.any (fun t => t.isSome) then s
    else
      let src := (s.saves.filterMap (fun x => match x.2 with
        | some y => if y.gang = id then some y.src else none
        | none => none)).foldl Nat.min 255
      { s with gangs := Sparse.set none s.gangs id (some { g with
          run := if g.hold && !g.restored then .parked else .eligible, turn := 256 * s.clk + src }) }

/-- What the copy engine reads to save a crew has an uncorrectable error: scratchpad sectors or accumulator elements. -/
def Tile.saveBad (t : Tile) (w : Crew) : Bool :=
  t.spadPoison.any (fun x => x.2 && decide (64 * x.1 < w.spad)) || t.accPoison.any (fun x => x.2)

/-- An uncorrectable error while a save area is written is fatal to the contexts that it belongs to (R74). -/
def State.saveLoss (s : State) (t : Nat) (w : Crew) : State :=
  if (s.tile t).saveBad w then (List.range 4).foldl (fun (s : State) c => s.lostStrand t c 2 0 0) s else s

/-- The crew of a tile is saved into an area, and the tile is released. -/
def State.saveCrew (s : State) (t : Nat) (w : Crew) (g : Gang) (area : Region) (ks : List Ctx) : State :=
  let s := ks.zipIdx.foldl (fun (s : State) k => s.setCtxAt t k.2 k.1) s
  let s := (s.saveLoss t w).flushTile t
  let base := s.saveImage t w
  let s := s.writeArea g.vf w.spad area base (s.saveTags t w)
  let x := { s.tile t with l1 := [], mould := [], running := none }
  let s := { s with
    saves := Sparse.set none s.saves (crewKey w.gang w.idx) (some {
      gang := w.gang, crew := w, tile := x, src := t, area, base })
    gangs := Sparse.set none s.gangs w.gang (some { g with tiles := g.tiles.set w.idx none }) }
  (s.freeTile t).gangSaved w.gang

/-- SAVE_AREA_WRITE: once the crew's accesses and its Hod are settled and every page is mapped. -/
def State.saveArea (s : State) (t : Nat) : State :=
  match (s.tile t).crew with
  | none => s
  | some w =>
    match s.gang w.gang with
    | none => s
    | some g =>
      if !w.stopped || w.resuming || !s.accessesSettled t || !s.hodSettled w then s
      else match (g.entryOf w.idx).bind (s.areaOf g.vf), (List.range 4).map (s.fetchCapture t) with
        | some area, ks =>
          if ks.any (fun k => k.isNone) then s
          else match s.rangeXlat area.pasid area.va area.len true with
            | .mapped _ => (s.touchRange area.pasid area.va area.len).saveCrew t w g area (ks.filterMap id)
            | _ => s.touchRange area.pasid area.va area.len
        | none, _ => s

def execSaveAreaWrite (tile : Nat) (s : State) : Host.Outcome State Fault Refusal := .next (s.saveArea tile)

/-! ### The scrub of moving tiles (R72) -/

/-- Every register, latch, byte and log of a tile is zero or invalid (R72, step 3). -/
def Tile.scrub (t : Tile) : Tile := { owner := t.owner, tstate := t.tstate, matchks := t.matchks }

/-- What measurement 5 covers: the owner of every tile, 16 for none, and the shares (16 R344). -/
def State.measure (s : State) : State :=
  { s with boot := { s.boot with measured := (List.range 256).map s.tileVf ++ (List.range 16).map (fun v => (s.vf v).share) } }

/-- The role of a tile of a virtual function: the first A(v, d) of its tiles on the die are actor tiles (01 R23). -/
def State.roleOf (s : State) (v t : Nat) : TileState :=
  let before := ((List.range (t % 64)).filter (fun i => (s.tile (64 * (t / 64) + i)).owner == some v)).length
  if before < Sparse.get 0 (s.vf v).actors (t / 64) then .actor else .learner

/-- A move is complete: A(v, d) takes its value and the tiles their states, together (R72, step 4). -/
def State.finishMove (s : State) (m : Move) : State :=
  let s := { s with moves := s.moves.filter (fun n => n != m) }
  let s := if 16 ≤ m.vf then s else s.setVf m.vf { s.vf m.vf with actors := Sparse.set 0 (s.vf m.vf).actors m.die m.count }
  let s := m.tiles.foldl (fun (s : State) t =>
    s.setTile t { s.tile t with owner := if m.owner < 16 then some m.owner else none }) s
  (m.tiles.foldl (fun (s : State) t =>
    s.setTile t { s.tile t with tstate := if m.owner < 16 then s.roleOf m.owner t else .unassigned }) s).measure

/-- TILE_SCRUB: a moving tile that no crew holds is scrubbed; with the last of its move, the move is complete.
(log 115: DEDUCED) -/
def State.tileScrub (s : State) (t : Nat) : State :=
  let x := s.tile t
  if x.tstate != .moving || x.crew.isSome then s
  else match s.moves.find? (fun m => m.left.contains t) with
    | none => s
    | some m =>
      let n := { m with left := m.left.filter (fun u => u != t) }
      let s := (s.setTile t x.scrub)
      if n.left.isEmpty then { s with moves := s.moves.map (fun y => if y = m then n else y) }.finishMove n
      else { s with moves := s.moves.map (fun y => if y = m then n else y) }

def execTileScrub (tile : Nat) (s : State) : Host.Outcome State Fault Refusal := .next (s.tileScrub tile)

/-! ### Resumption (R69, R70, 22 R466) -/

/-- A gang's saves, by CREWIDX. -/
def State.savesOf (s : State) (id : Nat) : List Saved :=
  s.saves.filterMap (fun x => x.2.bind (fun y => if y.gang = id then some y else none))

/-- A gang may take tiles now: it, and those of its co-placed wave, are eligible, no move that pre-empted it is still going on,
nothing reserves the partition's tiles, and there are enough of them. (log 72: DEDUCED) -/
def State.mayResume (s : State) (id : Nat) : Bool :=
  let ids := s.gangSet id
  match s.gang id with
  | none => false
  | some g =>
    ids.all (fun i => match s.gang i with | some h => h.run == .eligible | none => false) && !(s.vf g.vf).flr &&
      !s.moves.any (fun m => m.gangs.any (fun i => ids.contains i)) && (Sparse.get none (s.vf g.vf).reserve g.part).isNone &&
      decide ((ids.map (fun i => (s.savesOf i).length)).sum ≤ (s.freeTiles g.vf g.part).length)

/-- The gang that resumes next in a partition: of those that may, the one saved first. -/
def State.resumeNext (s : State) (v part : Nat) : Option Nat :=
  (s.gangs.foldl (fun (b : Option (Nat × Nat)) x => match x.2 with
    | some g =>
      if g.vf ≠ v ∨ g.part ≠ part ∨ !s.mayResume x.1 then b
      else match b with
        | none => some (x.1, g.turn)
        | some y => if g.turn < y.2 then some (x.1, g.turn) else b
    | none => b) none).map (fun y => y.1)

/-- A trapped strand on its new tile: its capture goes to its new trap area, with a fresh record (15 R324). -/
def State.moveTrap (s : State) (t c : Nat) : State :=
  let k := s.ctxAt t c
  if k.run != .trapped then s
  else
    let cause := ((allCauses).find? (fun x => causeCode x == (k.readCsr 0x08).toNat)).getD .illop
    s.captureOut t c k.trapKind 0x20 cause (k.readCsr 0x0A) (k.readCsr 0x09).toNat

/-- An uncorrectable error in the part of a save area that belongs to a context, or to the crew (R74). -/
def State.areaPoison (s : State) (g : Region) (c : Nat) : Option (Nat × Nat) :=
  (List.range (g.len / 64)).findSome? (fun i =>
    let o := 64 * i
    let mine := decide (o < 0x50000) || decide (0xD0000 ≤ o) || (decide (strandAt c ≤ o) && decide (o < strandAt (c + 1)))
    match mine, s.lookupVa g.pasid (g.va + o) false with
    | true, .mapped pa => if Sparse.get false s.poison (pa / 64) then some (pa, g.va + o) else none
    | _, _ => none)

/-- A context whose saved state cannot be read is FATAL, with its records (R74, 15 R331). -/
def State.lostCtx (s : State) (t c pa va : Nat) : State :=
  (s.softError (memUnit pa) 15).lostStrand t c (s.errorSrc 4 pa) pa va

/-- A saved crew is placed on a tile: it is read back, and is frozen until its log and its held deliveries are done. -/
def State.placeSaved (s : State) (g : Gang) (y : Saved) (t : Nat) : State :=
  let img := mergeImage y.base (s.areaImage y.area) ((s.setTile t y.tile).saveImage t y.crew)
  let y := { y with crew := crewRead img y.crew }
  let tagged := fun (o : Nat) => match s.vaCap y.area.pasid (y.area.va + o) with | some c => c.tag | none => false
  let bad := (List.range 4).map (s.areaPoison y.area)
  let old := s.tile t
  let x := s.tileRead g.vf y img tagged
  let x := { x with
    owner := old.owner, tstate := old.tstate, matchks := old.matchks, l1 := [], evc := [], vf0 := [], mould := []
    running := none, last := 3, quantum := 0, expired := false
    spad := x.spad ++ old.spad.filter (fun e => decide (y.crew.spad ≤ e.1))
    spadTag := x.spadTag.filter (fun e => decide (16 * e.1 < y.crew.spad)) ++ old.spadTag.filter (fun e => decide (y.crew.spad ≤ 16 * e.1))
    spadPoison := x.spadPoison.filter (fun e => decide (64 * e.1 < y.crew.spad)) ++
      old.spadPoison.filter (fun e => decide (y.crew.spad ≤ 64 * e.1))
    mq := x.mq.map (fun e => { e with entered := s.clk }), cq := x.cq.map (fun e => { e with entered := s.clk })
    crew := some { y.crew with frozen := true, stopped := true, resuming := true } }
  let key := crewKey y.gang y.crew.idx
  let s := { s.setTile t x with saves := Sparse.set none s.saves key none }
  let s := match s.gang y.gang with
    | some h => { s with gangs := Sparse.set none s.gangs y.gang (some { h with tiles := h.tiles.set y.crew.idx (some t) }) }
    | none => s
  let s := (List.range 4).foldl (fun (s : State) c => s.moveTrap t c) s
  bad.zipIdx.foldl (fun (s : State) b => match b.1 with | some p => s.lostCtx t b.2 p.1 p.2 | none => s) s

/-- One gang takes its tiles; its entries are free again (R65). -/
def State.placeBack (s : State) (id : Nat) (ts : List Nat) : State :=
  match s.gang id with
  | none => s
  | some g =>
    let s := { s with gangs := Sparse.set none s.gangs id (some { g with run := .resuming, entries := [] }) }
    let s := g.entries.foldl (fun (s : State) i => s.putEntry g.vf i [0]) s
    ((s.savesOf id).zip ts).foldl (fun (s : State) y => s.placeSaved g y.1 y.2) s

/-- Gangs take the tiles of a list in turn. -/
def State.placeBacks (s : State) : List Nat → List Nat → State
  | [], _ => s
  | id :: rest, ts =>
    let n := (s.savesOf id).length
    (s.placeBack id (ts.take n)).placeBacks rest (ts.drop n)

/-- A save area failed its check: BADDESC with its entry, and the gang stays pre-empted (R68). -/
def State.refuseResume (s : State) (ids : List Nat) (v part entry : Nat) : State :=
  let s := ids.foldl (fun (s : State) i => match s.gang i with
    | some g => { s with gangs := Sparse.set none s.gangs i (some { g with run := .parked, restored := false }) }
    | none => s) s
  s.postQueueRecord v part .baddesc entry

/-- A write to a save area waits at its home slice. -/
def State.areaPending (s : State) (r : Region) : Bool :=
  s.biQ.any (fun w => w.tag.pasid == r.pasid && decide (r.va < w.tag.va + 64) && decide (w.tag.va < r.va + r.len))

/-- The first step of a resume: the areas are read back onto new tiles (R70, step 1). -/
def State.startResume (s : State) (id : Nat) (g : Gang) : State :=
  let ids := s.gangSet id
  let ys := ids.flatMap s.savesOf
  if ys.any (fun y => s.areaPending y.area) then s else
  match ys.filter (fun y => match s.rangeXlat y.area.pasid y.area.va y.area.len false with | .mapped _ => false | _ => true) with
  | [] =>
    match ys.find? (fun y => !headersOk y.crew (s.areaImage y.area)) with
    | some y =>
      let entry := match s.gang y.gang with | some h => (h.entryOf y.crew.idx).getD 0 | none => 0
      s.refuseResume ids g.vf g.part entry
    | none => (s.placeBacks ids (s.freeTiles g.vf g.part)).retryReads
  | ms => ms.foldl (fun (s : State) y => s.touchRange y.area.pasid y.area.va y.area.len) s

/-- A tile of a resuming gang has replayed its log and released its held deliveries. (log 75: DEDUCED) -/
def Tile.resumed (t : Tile) : Bool := t.sideLog.isEmpty && t.landings.isEmpty

/-- Fetch restarts on the tiles of a gang, after a FENCE.ld (R70, steps 2 to 4, 12 R266). -/
def State.endResume (s : State) (id : Nat) (g : Gang) : State :=
  let ts := g.tiles.filterMap (fun t => t)
  if !ts.all (fun t => (s.tile t).resumed) then s
  else
    let s := ts.foldl (fun (s : State) t =>
      let s := s.dropClean t
      let x := s.tile t
      s.setTile t { x with
        nextIssue := s.clk + 1
        crew := x.crew.map (fun w => { w with frozen := false, stopped := false, resuming := false, waits := true }) }) s
    { s with gangs := Sparse.set none s.gangs id (some { g with run := .running, hold := false, restored := false }) }.tellAll id

/-- GANG_RESUME. -/
def State.gangResume (s : State) (id : Nat) : State :=
  match s.gang id with
  | none => s
  | some g =>
    if g.run == .resuming then s.endResume id g
    else match s.resumeNext g.vf g.part with
      | some n => if (s.gangSet n).contains id then s.startResume n g else s
      | none => s

def execGangResume (gang : Nat) (s : State) : Host.Outcome State Fault Refusal := .next (s.gangResume gang)

/-! ### Tiles that raise MATCHK again and again (15 R336) -/

/-- The actor tiles of a virtual function that remain on a die. -/
def State.actorsLeft (s : State) (v d : Nat) : List Nat :=
  (List.range 64).filterMap (fun i => if (s.tile (64 * d + i)).owner == some v && (s.tile (64 * d + i)).tstate == .actor then
    some (64 * d + i) else none)

/-- TILE_DISABLE: the tile is left by its crew; where it was an actor tile, A(v, d) falls to an even number, and the tile whose
role that changes moves. -/
def State.tileDisable (s : State) (t : Nat) : State :=
  let x := s.tile t
  match x.owner with
  | none => s
  | some v =>
    let d := t / 64
    if !x.condemned || x.crew.isSome || x.tstate == .moving || x.tstate == .disabled ||
        s.moves.any (fun m => m.vf == v && m.die == d) then s
    else
      let off := s.setTile t { x.scrub with owner := none, tstate := .disabled, matchks := [] }
      if x.tstate != .actor then off.measure
      else
        let acts := off.actorsLeft v d
        let n := acts.length / 2 * 2
        let go := acts.drop n
        let ids := off.gangsOn go
        match off.entriesFor v (off.crewCount ids) with
        | .found es =>
          let m : Move := { vf := v, die := d, tiles := go, count := n, owner := v, left := go, gangs := ids }
          let s := go.foldl (fun (s : State) u => s.setTile u { s.tile u with tstate := .moving }) off
          if go.isEmpty then s.finishMove m else { s with moves := s.moves ++ [m] }.preemptAll false ids es
        | .wait _ => match off.entriesFor v (off.crewCount ids), (s.vf v).ctxTab with
          | .wait _, some g => s.touchRange g.pasid g.va (32 * (s.vf v).ctxLen)
          | _, _ => s
        | .short => s

def execTileDisable (tile : Nat) (s : State) : Host.Outcome State Fault Refusal := .next (s.tileDisable tile)

end Sys2Proof.Machine
end

