-- ==== Sys2Proof/Machine/Reset.lean ====
section
/-! DEFINITION. Function-level reset, cold and warm reset with boot, and attestation (02 R55, 03 R74, 11 R245, 14 R317, 15 R327,
R328, R332, R333, 16 R343, R344, R350). -/
namespace Sys2Proof.Machine

/-! ### Function-level reset: freeze and drain (15 R332, steps 1 and 2) -/

/-- A gang of a virtual function is in being. -/
def State.gangOf (s : State) (v id : Nat) : Bool := match s.gang id with | some g => g.vf == v | none => false

/-- The PASIDs of a virtual function: those of its objects, its gangs and its tables. -/
def State.pasidsOf (s : State) (v : Nat) : List Nat :=
  let u := s.vf v
  (u.objs.filterMap (fun x => x.2.map (fun e => e.pasid)) ++
    s.gangs.filterMap (fun x => x.2.bind (fun g => if g.vf = v then some g.pasid else none)) ++
    ([u.objBase, u.trapArea, u.ctxTab, u.supq.map (fun q => q.region)].filterMap id).map (fun r => r.pasid)).eraseDups

/-- The context-table entries of a virtual function's gangs are free again, where their pages are mapped (03 R74). -/
def State.freeEntries (s : State) (v : Nat) : State :=
  match (s.vf v).ctxTab with
  | none => s
  | some t =>
    let es := s.gangs.flatMap (fun x => match x.2 with | some g => if g.vf = v then g.entries else [] | none => [])
    es.foldl (fun (s : State) i => match s.rangeXlat t.pasid (t.va + 32 * i + 16) 1 true with
      | .mapped _ => s.putEntry v i [0]
      | _ => s) s

/-- Tiles that a move gives to another owner, or moves for one: they are not the reset's. -/
def State.inMove (s : State) (t : Nat) : Bool := s.moves.any (fun m => m.tiles.contains t)

/-- A move of a virtual function's own Course line, which its FLR abandons. -/
def Move.within (m : Move) (v : Nat) : Bool := m.vf == v && m.owner == v

/-- Its moves are abandoned: their tiles that are its own wait for the reset's scrub. -/
def State.dropMoves (s : State) (v : Nat) : State :=
  { s with moves := (s.moves.map (fun m =>
      if m.within v then
        { m with tiles := m.tiles.filter (fun t => (s.tile t).owner != some v), left := m.left.filter (fun t => (s.tile t).owner != some v) }
      else m)).filter (fun m => !m.tiles.isEmpty) }

/-- Commands issued by a virtual function leave every queue; what others wait for of it is lost. -/
def State.dropCommands (s : State) (v : Nat) : State :=
  let s := (List.range 16).foldl (fun (s : State) u =>
    let x := s.vf u
    s.setVf u (if u = v then { x with blockQ := [], accepted := [] }
      else { x with accepted := x.accepted.map (fun c => match c.taken with
        | some (w, _, _) => if w = v ∧ (c.sub = 2 ∨ c.sub = 3) then { c with lost := true } else c
        | none => c) })) s
  { s with
    mortarQ := s.mortarQ.filter (fun c => c.iss.vf != v), crownQ := s.crownQ.filter (fun c => c.iss.vf != v)
    brimQ := s.brimQ.filter (fun c => c.iss.vf != v), hodQ := s.hodQ.filter (fun c => c.iss.vf != v) }

/-- Writes not yet performed, page requests, translations and page moves of a virtual function are dropped. -/
def State.dropWrites (s : State) (v : Nat) (pasids : List Nat) : State :=
  { s with
    deferred := s.deferred.filter (fun d => match d with | .write w => w.vf != v | .post u _ => u != v)
    pageReqs := s.pageReqs.filter (fun r => !pasids.contains r.pasid)
    atc := s.atc.filter (fun x => !pasids.contains (x.1 / 2 ^ 45))
    pageMoves := s.pageMoves.filter (fun m => !pasids.contains m.pasid)
    biQ := s.biQ.filter (fun w => w.tag.vf != v) }

/-- The communicators of a virtual function are aborted (13 R293). -/
def State.abortComms (s : State) (v : Nat) : State :=
  s.comms.foldl (fun (s : State) y => match y.2 with
    | some x => if x.vf = v then s.sendAbort y.1 x else s
    | none => s) s

/-- Every strand, crew, gang and wave of a virtual function is gone. -/
def State.dropGangs (s : State) (v : Nat) : State :=
  let tiles := s.tiles.filter (fun x => x.2.owner == some v)
  let s' := tiles.foldl (fun (s : State) x => s.setTile x.1 { x.2.vacate with l1 := [] }) s
  { s' with
    saves := s.saves.filter (fun x => match x.2 with | some y => !s.gangOf v y.gang | none => false)
    gangs := s.gangs.filter (fun x => match x.2 with | some g => g.vf != v | none => false)
    waves := s.waves.filter (fun x => match x.2 with | some w => w.vf != v | none => false) }

/-- FLR_INITIATE: a second FLR is merged with one in progress (R333). (log 107: DEDUCED) -/
def State.flrInitiate (s : State) (v : Nat) : State :=
  if (s.vf v).flr then s
  else
    let pasids := s.pasidsOf v
    let s := s.freeEntries v
    let s := s.setVf v { s.vf v with flr := true }
    (((((s.abortComms v).dropCommands v).dropMoves v).dropGangs v).dropWrites v pasids)

/-- FLR_INITIATE: a module in recovery takes none. (log 109: DEDUCED) -/
def execFlrInitiate (vf : Nat) (s : State) : Host.Outcome State Fault Refusal :=
  .next (if vf < 16 ∧ s.boot.running then s.flrInitiate vf else s)

/-! ### Scrub, clear, complete (15 R332, steps 3 to 5) -/

/-- The staging windows of a virtual function are zero (11 R245). -/
def State.zeroWindows (s : State) (ws : List (Nat × Nat × Nat)) : State :=
  let inside := fun (k : Nat) => ws.any (fun w => k / 2 ^ 22 == w.1 && decide (w.2.1 ≤ k % 2 ^ 22) && decide (k % 2 ^ 22 < w.2.1 + w.2.2))
  { s with staging := s.staging.filter (fun x => !inside x.1), stagingTags := s.stagingTags.filter (fun x => !inside (16 * x.1))
           stagingPoison := s.stagingPoison.filter (fun x => !inside (64 * x.1)) }

/-- A queue without records, mark or halt. -/
def LaunchQ.emptied (q : LaunchQ) : LaunchQ := { q with head := q.tail, halt := false, mark := 0, checked := none, wave := none }

/-- What a virtual function keeps through its FLR: its queues' rings, and what the physical function has set. -/
def Vf.cleared (x : Vf) : Vf :=
  { privileged := x.privileged, balance := x.balance, share := x.share, cap := x.cap, gated := x.gated, budget := x.budget
    twm := x.twm, demoting := x.demoting, queues := x.queues.map (fun q => (q.1, q.2.emptied)) }

/-- The Crown sets of a virtual function are free, and the broadcasts of them and of its communicators gone. -/
def State.freeSets (s : State) (v : Nat) : State :=
  let mine := fun (w : Nat) => Sparse.get none s.crownOwner w == some v
  let gone := fun (b : Broadcast) => mine b.set || b.comm / 2 ^ 24 == v
  let s' := (s.broadcasts.filter gone).foldl State.payOwed s
  { s' with
    broadcasts := s.broadcasts.filter (fun b => !gone b)
    crown := s.crown.filter (fun x => !mine (x.1 / 4)), crownOwner := s.crownOwner.filter (fun x => x.2 != some v)
    comms := s.comms.filter (fun y => match y.2 with | some x => x.vf != v | none => false) }

/-- The tiles of a virtual function that no move takes are scrubbed, and are learner tiles. -/
def State.scrubTiles (s : State) (v : Nat) : State :=
  (s.tiles.filter (fun x => x.2.owner == some v && !s.inMove x.1)).foldl (fun (s : State) x =>
    s.setTile x.1 { x.2.scrub with tstate := .learner }) s

/-- FLR_COMPLETE. -/
def State.flrComplete (s : State) (v : Nat) : State :=
  if !(s.vf v).flr then s
  else
    let s := s.scrubTiles v
    let s := (s.mortarPurge false (s.mortarSecs v (fun _ => true))).zeroWindows (s.vf v).windows
    let s := s.freeSets v
    s.setVf v (s.vf v).cleared

def execFlrComplete (vf : Nat) (s : State) : Host.Outcome State Fault Refusal := .next (s.flrComplete vf)

/-! ### Cold and warm reset (16 R343, R350) -/

/-- ZIDENT describes a Zordex Z9: its line and part, four tile dies and eight stacks (00 R12). -/
def isZordex (z : Word) : Bool :=
  bits z.toNat 63 56 == 1 && bits z.toNat 55 48 == 9 && bits z.toNat 39 36 == 15 && bits z.toNat 31 24 == 8

/-- The module runs an image: it is verified, is not older than the fuses allow, and accepts the ZIDENT.
(log 6: DESIGN CHOICE) -/
def Boot.runs (b : Boot) (image : Firmware) : Bool :=
  image.verified && decide (b.fuse ≤ image.version) && isZordex b.zident

/-- The tiles that the fuses remove are DISABLED. -/
def Boot.fusedTiles (b : Boot) : Sparse Tile := b.fused.foldl (fun m t => Sparse.set {} m t { tstate := .disabled }) []

/-- What the model carries over a reset: the resets so far, free values taken, and the outside world. -/
def State.bootWith (s r : State) (image : Firmware) : State :=
  { r with
    resets := s.resets + 1, free := s.free, agenda := s.agenda, inputs := s.inputs, manual := s.manual
    boot := { s.boot with flash := image, running := s.boot.runs image, measured := [] } }

/-- Cold reset: nothing is kept, and the fuses are read again. (log 8: DEDUCED) -/
def State.coldReset (s : State) (image : Firmware) : State := s.bootWith { State.reset with tiles := s.boot.fusedTiles } image

def execColdReset (image : Firmware) (s : State) : Host.Outcome State Fault Refusal := .next (s.coldReset image)

/-- Warm reset: memory with its tags and poison and CLK are kept, and tiles that firmware has disabled (01 R24).
(log 108: DEDUCED) -/
def State.warmReset (s : State) (image : Firmware) : State :=
  s.bootWith { State.reset with
    clk := s.clk, mem := s.mem, tags := s.tags, poison := s.poison, poisonM := s.poisonM
    tiles := (s.tiles.filter (fun x => x.2.tstate == .disabled)).map (fun x => (x.1, { tstate := .disabled })) } image

def execWarmReset (image : Firmware) (s : State) : Host.Outcome State Fault Refusal := .next (s.warmReset image)

/-- SPDM_REQUEST: the module answers over its DOE mailbox, in recovery too (16 R343, R344). (log 110: DEDUCED) -/
def execSpdmRequest (msg : List Byte) (s : State) : Host.Outcome State Fault Refusal :=
  .next { s with doe := Config.spdmAnswer msg s.boot.measured }

end Sys2Proof.Machine
end

