-- ==== Sys2Proof/Machine/Blocks.lean ====
section
/-! DEFINITION. Block commands at the hub: the block is read, checked and carried out, and its STATUS written (19 R422 to
R428). -/
namespace Sys2Proof.Machine

/-! ### Outcomes (R424, R425) -/

/-- What a command's turn comes to: it waits; it ends with ST, RES and INFO (none where the spec gives no value); it is
accepted for a virtual function, with RES and what it waits for; or it ends without a status. -/
inductive BlockEnd where
  | wait (s : State)
  | ends (s : State) (st : Nat) (res info : Option Nat)
  | takes (s : State) (vf : Nat) (res : Option Nat) (waits : List Nat)
  | silent (s : State)
  deriving DecidableEq, Repr

/-- Done, with RES where the command gives one. -/
def blkDone (s : State) (res : Option Nat) : BlockEnd := .ends s 0 res (some 0)
/-- Refused. -/
def blkNo (s : State) (st : Nat) : BlockEnd := .ends s st none none
/-- BADPARAM at an offset. -/
def blkBad (s : State) (off : Nat) : BlockEnd := .ends s 1 none (some off)

/-- The first check that fails gives BADPARAM with its offset. -/
def blkChecks (s : State) (cs : List (Nat × Bool)) (k : BlockEnd) : BlockEnd :=
  match cs.find? (fun c => c.2) with
  | some c => blkBad s c.1
  | none => k

/-- Bytes that the device writes in a block. -/
def State.blkWrite (s : State) (c : BlockCmd) (off n x : Nat) : State :=
  match c.place with
  | .spad o => s.engWrite c.iss (.spad (o + off)) (natBytes n x)
  | .virt pasid va obj => s.devWrite { vf := c.iss.vf, pasid, obj, va := va + off, bytes := natBytes n x }

/-- A command ends: STATUS, then its counter. (log 101: DESIGN CHOICE) -/
def State.blkFinish (s : State) (c : BlockCmd) (st : Nat) (res info : Option Nat) : State :=
  let w := s.takeFree
  let word := res.getD (w.1.toNat / 2 ^ 32) % 2 ^ 32 * 2 ^ 32 + info.getD (w.1.toNat / 2 ^ 16) % 2 ^ 16 * 2 ^ 16 + c.sub * 2 ^ 8 + st
  (w.2.blkWrite c 0 8 word).blkLeave c

/-! ### Capabilities of a block (R422) -/

/-- The capability at an offset of the block, for n bytes of an object of a virtual function, with its rights.
(log 102: DEDUCED) -/
def State.blkCap (s : State) (c : BlockCmd) (v off need n : Nat) : Option (TCap × Region) :=
  match s.engCap c.iss c.place off with
  | some cap =>
    if cap.tag && capKind cap != 1 && !capIsSpad cap && capRights cap &&& need == need && decide (n ≤ capLen cap) then
      (s.capRegion v cap).map (fun r => (cap, r)) else none
  | none => none

/-- A capability parameter, or BADPARAM at it. -/
def State.withCap (s : State) (c : BlockCmd) (v off need n : Nat) (k : TCap × Region → BlockEnd) : BlockEnd :=
  match s.blkCap c v off need n with
  | some x => k x
  | none => blkBad s off

/-! ### Course line, SAVE and RESTORE (R427, 03 R59, R65, R69, R71 to R73) -/

/-- Tiles that a virtual function owns on a die. -/
def State.ownedList (s : State) (v d : Nat) : List Nat := (s.ownedTiles v).filter (fun t => t / 64 == d)

/-- A move of a virtual function's tiles, or for it, is in progress on a die. -/
def State.moveBusy (s : State) (v d : Nat) : Bool :=
  s.moves.any (fun m => m.die == d && (m.vf == v || m.owner == v || m.tiles.any (fun t => (s.tile t).owner == some v)))

/-- The number under which a command waits for the moves of a virtual function on a die. -/
def moveKey (v d : Nat) : Nat := 4 * v + d

/-- Tiles enter MOVING. -/
def State.enterMoving (s : State) (ts : List Nat) : State :=
  ts.foldl (fun (s : State) t => s.setTile t { s.tile t with tstate := .moving }) s

/-- COURSE. -/
def State.blkCourse (s : State) (v : Nat) (b : List Byte) : BlockEnd :=
  let d := imgNat b 0x10 1
  let n := imgNat b 0x11 1
  let owned := s.ownedList v d
  let m := Sparse.get 0 (s.vf v).actors d
  blkChecks s [(0x10, decide (4 ≤ d)), (0x11, n % 2 == 1 || decide (owned.length < n))] (
    if s.moveBusy v d then blkNo s 2
    else if n = m then blkDone s (some 0)
    else
      let go := if m < n then (owned.take n).drop m else (owned.take m).drop n
      let ids := s.gangsOn go
      match s.entriesFor v (s.crewCount ids) with
      | .wait s' => .wait s'
      | .short => blkNo s 3
      | .found es =>
        let mv : Move := { vf := v, die := d, tiles := go, count := n, owner := v, left := go, gangs := ids }
        let s := ({ s.enterMoving go with moves := s.moves ++ [mv] }).preemptAll false ids es
        .takes s v (some ids.length) [moveKey v d])

/-- SAVE. (log 74: DEDUCED) -/
def State.blkSave (s : State) (v : Nat) (b : List Byte) : BlockEnd :=
  let t := imgNat b 0x10 1
  if (s.tile t).owner ≠ some v then blkNo s 5
  else match (s.tile t).crew with
    | none => blkNo s 4
    | some w =>
      match s.gang w.gang with
      | none => blkNo s 4
      | some g =>
        let set := s.gangSet w.gang
        if g.run == .saving then .takes s v (((set.head?).bind s.gang).bind (fun h => h.entries.head?)) set
        else
          let ids := s.gangsOn [t]
          if ids.isEmpty then blkNo s 4
          else match s.entriesFor v (s.crewCount ids) with
            | .wait s' => .wait s'
            | .short => blkNo s 3
            | .found es => .takes (s.preemptAll true ids es) v es.head? ids

/-- INUSE of a context-table entry; none where its page is missing. -/
def State.entryUsed (s : State) (g : Region) (i : Nat) : Option Bool :=
  (s.vaRead g.pasid (g.va + 32 * i + 16) 1).map (fun b => bytesNat b % 2 == 1)

/-- The gang whose first entry this is, taken by SAVE and not yet on its way back. -/
def State.savedBy (s : State) (v e : Nat) : Option Nat :=
  (s.gangs.find? (fun x => match x.2 with
    | some g => g.vf == v && g.hold && (g.run == .saving || g.run == .parked) && g.entries.head? == some e
    | none => false)).map (fun x => x.1)

/-- A gang may resume once it is saved. -/
def State.restoreGang (s : State) (id : Nat) : State :=
  match s.gang id with
  | some g => { s with gangs := Sparse.set none s.gangs id (some { g with
      restored := true, run := if g.run == .parked then .eligible else g.run }) }
  | none => s

/-- RESTORE. -/
def State.blkRestore (s : State) (v : Nat) (b : List Byte) : BlockEnd :=
  let e := imgNat b 0x10 4
  match s.savedBy v e, (s.vf v).ctxTab with
  | some id, some g =>
    match s.entryUsed g e with
    | none => .wait (s.touchRange g.pasid (g.va + 32 * e) 32)
    | some false => blkNo s 4
    | some true => blkDone ((s.gangSet id).foldl State.restoreGang s) none
  | _, _ => blkNo s 4

/-! ### ASSIGN and VFCFG (01 R20, R24, 16 R345) -/

/-- The tiles that four masks name. -/
def maskTiles (b : List Byte) : List Nat := (List.range 256).filter (fun t => imgNat b (0x10 + 8 * (t / 64)) 8 / 2 ^ (t % 64) % 2 == 1)

/-- Entries for the gangs of every virtual function. -/
def State.entriesAll (s : State) (ids : List Nat) : List Nat → Entries
  | [] => .found []
  | u :: rest =>
    let mine := ids.filter (s.gangOf u)
    match s.entriesFor u (s.crewCount mine), s.entriesAll ids rest with
    | .wait s', _ => .wait s'
    | .short, _ => .short
    | .found _, r => r

/-- Gangs are pre-empted, those of each virtual function into its own table. -/
def State.preemptEach (s : State) (ids : List Nat) : List Nat → State
  | [] => s
  | u :: rest =>
    let mine := ids.filter (s.gangOf u)
    match s.entriesFor u (s.crewCount mine) with
    | .found es => (s.preemptAll false mine es).preemptEach ids rest
    | _ => s.preemptEach ids rest

/-- Line moves that a change of owner brings on a die: A becomes 0 for those who gain or lose tiles. -/
def State.assignMoves (s : State) (v owner d : Nat) (go : List Nat) : List Move :=
  let us := ((if owner = v then [v] else []) ++ go.filterMap (fun t => (s.tile t).owner)).eraseDups
  let own := us.filterMap (fun u =>
    let acts := (s.actorsLeft u d).filter (fun t => !go.contains t)
    if acts.isEmpty then none else some ({ vf := u, die := d, tiles := acts, count := 0, owner := u, left := acts } : Move))
  -- tiles that become unassigned move for those who lose them: nobody else's A changes
  own ++ (if owner < 16 then [({ vf := v, die := d, tiles := go, count := 0, owner, left := go } : Move)]
    else (go.filterMap (fun t => (s.tile t).owner)).eraseDups.map (fun u =>
      let ts := go.filter (fun t => (s.tile t).owner == some u)
      ({ vf := u, die := d, tiles := ts, count := 0, owner, left := ts } : Move)))

/-- ASSIGN. (log 106: DEDUCED) -/
def State.blkAssign (s : State) (v : Nat) (b : List Byte) : BlockEnd :=
  let ts := maskTiles b
  let owner := if imgNat b 0x30 1 % 2 = 1 then 16 else v
  let off := fun (t : Nat) => (0x10 + 8 * (t / 64), (s.tile t).tstate == .disabled)
  blkChecks s (ts.map off ++ [(0x30, decide (2 ≤ imgNat b 0x30 1))]) (
    let go := ts.filter (fun t => s.tileVf t != owner)
    let dies := (List.range 4).filter (fun d => go.any (fun t => t / 64 == d))
    let losers := (go.filterMap (fun t => (s.tile t).owner)).eraseDups
    if go.isEmpty then blkDone s none
    else if dies.any (fun d => (v :: losers).any (fun u => s.moveBusy u d)) || go.any s.inMove || losers.any (fun u => (s.vf u).flr) then
      blkNo s 2
    else
      let ms := dies.flatMap (fun d => s.assignMoves v owner d (go.filter (fun t => t / 64 == d)))
      let ids := s.gangsOn (ms.flatMap (fun m => m.tiles))
      match s.entriesAll ids (List.range 16) with
      | .wait s' => .wait s'
      | .short => blkNo s 3
      | .found _ =>
        let s := ms.foldl (fun (s : State) m =>
          (s.enterMoving m.tiles).setVf m.vf { s.vf m.vf with actors := Sparse.set 0 (s.vf m.vf).actors m.die 0 }) s
        let s := losers.foldl (fun (s : State) u => dies.foldl (fun (s : State) d =>
          if go.any (fun t => t / 64 == d && (s.tile t).owner == some u) then
            s.setVf u { s.vf u with actors := Sparse.set 0 (s.vf u).actors d 0 } else s) s) s
        let s := { s with moves := s.moves ++ ms.map (fun (m : Move) => ({ m with gangs := ids } : Move)) }
        .takes (s.preemptEach ids (List.range 16)) v none (ms.map (fun m => moveKey m.vf m.die)))

/-- VFCFG. -/
def State.blkVfcfg (s : State) (v : Nat) (b : List Byte) : BlockEnd :=
  let share := imgNat b 0x10 2
  let cap := imgNat b 0x18 8
  let others := (((List.range 16).filter (fun u => u != v)).map (fun u => (s.vf u).share)).sum
  blkChecks s [(0x12, decide (2 ≤ imgNat b 0x12 1))] (
    if 3600 - Config.clampBase.toNat < share + others ∨ 2 ^ 40 < cap then blkNo s 6
    else
      let x := s.vf v
      blkDone (s.setVf v { x with share, cap, privileged := imgNat b 0x12 1 == 1, budget := imgNat b 0x20 8 }).measure none)

/-! ### Queues and tables -/

/-- LQCFG (02 R39, R40, 15 R328). (log 105: DEDUCED) -/
def State.blkLqcfg (s : State) (c : BlockCmd) (v : Nat) (b : List Byte) : BlockEnd :=
  let q := imgNat b 0x10 1 % 128
  let part := imgNat b 0x10 1 / 128
  let lg := imgNat b 0x11 1
  let ctl := imgNat b 0x12 1
  let setBase := ctl / 2 % 2 == 1
  let setMark := ctl / 16 % 2 == 1
  let x := (s.vf v).queue part q
  let finish := fun (x : LaunchQ) =>
    let x : LaunchQ := { x with halt := x.halt && ctl % 2 == 0, mark := if setMark then ctl / 4 % 4 else x.mark }
    blkDone (s.setQueue v part q x) none
  blkChecks s [(0x10, decide (63 < q)), (0x11, setBase && (decide (lg < 4) || decide (16 < lg))),
      (0x12, decide (32 ≤ ctl) || (setMark && ctl / 4 % 4 == 3))] (
    if setMark ∧ ¬ c.pf then blkNo s 5
    else if !setBase then finish x
    else s.withCap c v 0x20 (rR + rW) (256 * 2 ^ lg) (fun r =>
      if x.head ≠ x.tail then blkNo s 2
      else finish { x with ring := some r.2, size := 2 ^ lg, checked := none }))

/-- WCSET (02 R42). -/
def State.blkWcset (s : State) (v : Nat) (b : List Byte) : BlockEnd :=
  let n := imgNat b 0x10 2
  blkChecks s [(0x10, decide (1023 < n))] (blkDone (s.setWc v n (BitVec.ofNat 64 (imgNat b 0x18 8))) none)

/-- Whether a context table has an entry in use, from the first n; none where a page of it is missing. -/
def State.anyUsed (s : State) (g : Region) : Nat → Option Bool
  | 0 => some false
  | n + 1 =>
    match s.entryUsed g n with
    | none => none
    | some true => some true
    | some false => s.anyUsed g n

/-- CTXTAB (03 R65). -/
def State.blkCtxtab (s : State) (c : BlockCmd) (v : Nat) (b : List Byte) : BlockEnd :=
  let n := imgNat b 0x10 4
  let go := s.withCap c v 0x20 (rR + rW) (32 * n) (fun r => blkDone (s.setVf v { s.vf v with ctxTab := some r.2, ctxLen := n }) none)
  blkChecks s [(0x10, n == 0 || decide (65536 < n))] (
    match (s.vf v).ctxTab with
    | none => go
    | some g =>
      match s.anyUsed g (s.vf v).ctxLen with
      | none => .wait (s.touchRange g.pasid g.va (32 * (s.vf v).ctxLen))
      | some true => blkNo s 2
      | some false => go)

/-- OBJTAB (10 R207): where the table is; its entries become current by OBJINV. (log 103: DEDUCED) -/
def State.blkObjtab (s : State) (c : BlockCmd) (v : Nat) (b : List Byte) : BlockEnd :=
  let n := imgNat b 0x10 4
  blkChecks s [(0x10, decide (2 ^ 24 ≤ n))] (
    if n = 0 then blkDone (s.setVf v { s.vf v with objCount := 0, objBase := none }) none
    else s.withCap c c.iss.vf 0x20 rR (32 * n) (fun r => blkDone (s.setVf v { s.vf v with objCount := n, objBase := some r.2 }) none))

/-- Entries i, i + 1, ... are read again and become current; at the first without a translation, its address. -/
def State.refreshObjs (s : State) (v : Nat) (g : Region) (i : Nat) : Nat → Except Nat State
  | 0 => .ok s
  | n + 1 =>
    match s.vaRead g.pasid (g.va + 32 * i) 32 with
    | none => .error (g.va + 32 * i)
    | some bs =>
      (s.setVf v { s.vf v with objs := Sparse.set none (s.vf v).objs i (some (decodeObj bs)) }).refreshObjs v g (i + 1) n

/-- OBJINV (10 R208). -/
def State.blkObjinv (s : State) (v : Nat) (b : List Byte) : BlockEnd :=
  let first := imgNat b 0x10 4
  let n := imgNat b 0x14 4
  blkChecks s [(0x10, decide (0xFFFFFE < first)), (0x14, n == 0 || decide (2 ^ 24 ≤ n) || decide (0xFFFFFF < first + n))] (
    match (s.vf v).objBase with
    | none => blkDone s none
    | some g =>
      match s.refreshObjs v g first (Nat.min n ((s.vf v).objCount - first)) with
      | .ok s' => blkDone s' none
      | .error va => .wait (s.touchRange g.pasid va 32))

/-- A strand of a virtual function is TRAPPED, on a tile or saved. -/
def State.anyTrapped (s : State) (v : Nat) : Bool :=
  let hit := fun (t : Tile) => (List.range 4).any (fun c => (t.ctx c).run == .trapped)
  s.tiles.any (fun x => x.2.owner == some v && hit x.2) ||
    s.saves.any (fun x => match x.2 with | some y => s.gangOf v y.gang && hit y.tile | none => false)

/-- TRAPAREA (15 R323). -/
def State.blkTraparea (s : State) (c : BlockCmd) (v : Nat) : BlockEnd :=
  s.withCap c v 0x20 (rR + rW) (2 ^ 26) (fun r =>
    if s.anyTrapped v then blkNo s 2 else blkDone (s.setVf v { s.vf v with trapArea := some r.2 }) none)

/-- SUPQ (15 R326, R327). -/
def State.blkSupq (s : State) (c : BlockCmd) (v : Nat) (pf : Bool) (b : List Byte) : BlockEnd :=
  let lg := imgNat b 0x10 1
  blkChecks s [(0x10, decide (lg < 4) || decide (16 < lg))] (
    s.withCap c (if pf then c.iss.vf else v) 0x20 (rR + rW) (64 + 64 * 2 ^ lg) (fun r =>
      let q : SupQ := { region := r.2, slots := 2 ^ lg }
      let s := s.devWrite { vf := v, pasid := r.2.pasid, va := r.2.va, bytes := natBytes 24 0 }
      blkDone (if pf then { s with pfSupq := some q } else s.setVf v { s.vf v with supq := some q }) none))

/-- WATCH (15 R330). -/
def State.blkWatch (s : State) (v : Nat) (b : List Byte) : BlockEnd :=
  let n := imgNat b 0x10 1
  let m := imgNat b 0x11 1
  let obj := imgNat b 0x14 4
  blkChecks s [(0x10, decide (3 < n)), (0x11, decide (3 < m)), (0x14, decide (0xFFFFFE < obj))] (
    let w : Watch := { obj, low := imgNat b 0x18 8, len := imgNat b 0x20 8, reads := m % 2 == 1, writes := m / 2 == 1 }
    blkDone (s.setVf v { s.vf v with watches := Sparse.set none (s.vf v).watches n (if m = 0 then none else some w) }) none)

/-! ### Tiers, refresh, staging -/

/-- TWM (10 R222). -/
def State.blkTwm (s : State) (v : Nat) (b : List Byte) : BlockEnd :=
  let t := imgNat b 0x10 1
  let w := BitVec.ofNat 64 (imgNat b 0x18 8)
  blkChecks s [(0x10, decide (2 < t))] (
    if (s.vf v).privileged then blkNo s 5
    else if twmHi w < twmLo w then blkNo s 6
    else blkDone (s.setVf v { s.vf v with twm := Sparse.set 0xFFFFFFFFFFFFFFFF (s.vf v).twm t w }) none)

/-- PNRP (10 R221): the counts of activates start again. -/
def State.blkPnrp (s : State) (b : List Byte) : BlockEnd :=
  let w := BitVec.ofNat 64 (imgNat b 0x18 8)
  let kp := w.toNat % 16
  blkChecks s [(0x18, decide (kp < 4) || decide (12 < kp))] (
    blkDone { s with pnrp := w &&& 0xFFFFFFFF0000010F, activates := [] } none)

/-- Every staging window, with its virtual function. -/
def State.allWindows (s : State) : List (Nat × Nat × Nat) := (List.range 16).flatMap (fun u => (s.vf u).windows)

/-- STAGE (11 R244). -/
def State.blkStage (s : State) (v : Nat) (b : List Byte) : BlockEnd :=
  let slice := imgNat b 0x10 1
  let base := imgNat b 0x14 4
  let len := imgNat b 0x18 4
  let x := s.vf v
  blkChecks s [(0x10, decide (127 < slice)), (0x11, decide (1 < imgNat b 0x11 1)), (0x14, base % 65536 != 0),
      (0x18, len % 65536 != 0 || decide (2 ^ 22 < base + len))] (
    if imgNat b 0x11 1 = 1 then
      if x.windows.contains (slice, base, len) then
        blkDone (s.setVf v { x with windows := x.windows.filter (fun w => w != (slice, base, len)) }) none
      else blkNo s 4
    else
      let here := s.allWindows.filter (fun w => w.1 == slice)
      if here.any (fun w => decide (base < w.2.1 + w.2.2) && decide (w.2.1 < base + len)) then blkNo s 2
      else if 2 ^ 21 < (here.map (fun w => w.2.2)).sum + len then blkNo s 6
      else blkDone (s.setVf v { x with windows := x.windows ++ [(slice, base, len)] }) none)

/-! ### Communicators and the fabric (13 R274, R275, R299, R300) -/

/-- The fields of a communicator object are as R274 asks. -/
def commOk (ob : List Byte) : Bool :=
  let f := imgNat ob
  let axes := (List.range 4).map (fun i => f (8 + 2 * i) 2)
  f 0 1 == 1 && decide (1 ≤ f 1 1) && decide (f 1 1 ≤ 4) && decide (f 2 1 < 8) && decide (1 ≤ f 3 1) && decide (f 3 1 ≤ 7) &&
    decide (f 4 4 < 2 ^ 24) && axes.all (fun a => decide (1 ≤ a)) && (axes.drop (f 1 1)).all (fun a => a == 1) &&
    axes.foldl (· * ·) 1 == f 0x10 2 && decide (f 0x10 2 ≤ 4096) && decide (f 0x12 2 < f 0x10 2) && f 0x14 4 == 0 && f 0x30 80 == 0

/-- The entries of a rank table. -/
def tableOf (tb : List Byte) (n : Nat) : List (Nat × Nat) := (List.range n).map (fun r => (imgNat tb (8 * r) 8 % 4096, imgNat tb (8 * r + 2) 1))
/-- The other bits of a rank table are zero, and those of its entries that name this module name tiles of the virtual
function. -/
def State.tableOk (s : State) (v : Nat) (tb : List Byte) (n : Nat) : Bool :=
  (List.range n).all (fun r =>
    let e := imgNat tb (8 * r) 8
    e / 2 ^ 12 % 16 == 0 && decide (e < 2 ^ 24) && (e % 4096 != s.nodeId.toNat || (s.tile (e / 2 ^ 16)).owner == some v))

/-- Staging buffers and slots that communicators have in a Hod. -/
def State.hodBuffers (s : State) (d : Nat) : Nat :=
  (s.comms.map (fun y => match y.2 with | some x => nth x.stg d | none => 0)).sum
def State.hodSlot (s : State) (d : Nat) : Option Nat :=
  (List.range 64).find? (fun k => !s.comms.any (fun y => match y.2 with
    | some x => Sparse.get none x.slots d == some k
    | none => false))

/-- A communicator as registration makes it. -/
def State.newComm (s : State) (v : Nat) (ob : List Byte) (table : List (Nat × Nat)) (crown : Option Nat) : Comm :=
  let f := imgNat ob
  let here := table.zipIdx.filter (fun e => e.1.1 == s.nodeId.toNat)
  let dies := (here.map (fun e => e.1.2 / 64)).eraseDups
  { vf := v, cid := f 4 4, nax := f 1 1, prio := f 2 1, vc := f 3 1, nrank := f 0x10 2
    axes := (List.range 4).map (fun i => f (8 + 2 * i) 2), stg := (List.range 4).map (fun i => f (0x18 + 2 * i) 2)
    image := imgPut ob 0x12 2 0, table, crown
    digest := table.foldr (fun e n => 2 ^ 20 * n + e.1 + 2 ^ 12 * e.2) 0
    slots := (List.range 4).filterMap (fun d => if dies.contains d then (s.hodSlot d).map (fun k => (d, some k)) else none)
    members := here.map (fun e => (e.2, some { die := e.1.2 / 64 })) }

/-- Registration finds slots and buffers. -/
def State.commFits (s : State) (x : Comm) : Bool :=
  let dies := (x.members.filterMap (fun m => m.2.map (fun y => y.die))).eraseDups
  (List.range 4).all (fun d => decide (s.hodBuffers d + nth x.stg d ≤ 32) &&
    (!dies.contains d || (decide (2 ≤ nth x.stg d) && (s.hodSlot d).isSome)))

/-- A communicator is taken away: broadcasts of it that wait for a slot give their credits back. -/
def State.dropComm (s : State) (k : Nat) : State :=
  let gone := fun (b : Broadcast) => b.comm == k && b.slot.isNone
  let s' := (s.broadcasts.filter gone).foldl State.payOwed s
  { s' with broadcasts := s.broadcasts.filter (fun b => !gone b), comms := Sparse.set none s'.comms k none }

/-- Deregistration: the collectives are aborted and report, then the communicator goes. -/
def State.dereg (s : State) (v k : Nat) : BlockEnd :=
  match s.comm k with
  | none => blkNo s 4
  | some x =>
    if x.vf ≠ v then blkNo s 5
    else if !x.aborted then .wait (s.sendAbort k x)
    else if x.members.any (fun m => match m.2 with | some y => y.cmds.any (fun c => c.crown.isNone) | none => false) then .wait s
    else blkDone (s.dropComm k) none

/-- Registration, once the object and its table are read. -/
def State.regComm (s : State) (v k : Nat) (b ob tb : List Byte) : BlockEnd :=
  let n := imgNat ob 0x10 2
  let crown := imgNat b 0x10 1 / 2 % 2 == 1
  let set := imgNat b 0x11 1
  let table := tableOf tb n
  let twice := decide ((table.map (fun e => e.1)).eraseDups.length < n)
  blkChecks s [(0x20, !s.tableOk v tb n || (crown && twice))] (
    if (s.comm k).isSome then blkNo s 2
    else if crown && Sparse.get none s.crownOwner set != some v then
      blkNo s (if (Sparse.get none s.crownOwner set).isSome then 5 else 4)
    else
      let x := s.newComm v ob table (if crown then some set else none)
      if s.commFits x then blkDone (s.setComm k x) none else blkNo s 3)

/-- COMREG. -/
def State.blkComreg (s : State) (c : BlockCmd) (v : Nat) (b : List Byte) : BlockEnd :=
  let ctl := imgNat b 0x10 1
  blkChecks s [(0x10, decide (3 < ctl)), (0x11, ctl / 2 == 1 && decide (63 < imgNat b 0x11 1))] (
    s.withCap c v 0x20 rR 128 (fun r =>
      let g := r.2
      match s.vaRead g.pasid g.va 128, s.vaCap g.pasid (g.va + 0x20) with
      | some ob, some rtab =>
        let k := commKey v (imgNat ob 4 4)
        let n := 8 * imgNat ob 0x10 2
        let s := s.touchRange g.pasid g.va 128
        if (capLow r.1) % 64 ≠ 0 ∨ ¬ commOk ob then blkBad s 0x20
        else if ctl % 2 = 1 then s.dereg v k
        else if !rtab.tag || capIsSpad rtab || capRights rtab &&& rR != rR || decide (capLen rtab < n) then blkBad s 0x20
        else match s.capRegion v rtab with
          | none => blkBad s 0x20
          | some t =>
            match s.vaRead t.pasid t.va n with
            | none => .wait (s.touchRange t.pasid t.va n)
            | some tb => s.regComm v k b ob tb
      | _, _ => .wait (s.touchRange g.pasid g.va 128)))

/-- A port takes its shares; credits beyond those it has given go to its peer. -/
def State.setShares (s : State) (p : Nat) (shares : List Nat) : State :=
  shares.zipIdx.foldl (fun (s : State) e =>
    let x := s.link p
    (s.setLink p { x with shares := Sparse.set 0 x.shares (e.2 + 1) e.1 }).grantTo p (e.2 + 1)) s

/-- VCSHARE. -/
def State.blkVcshare (s : State) (b : List Byte) : BlockEnd :=
  let p := imgNat b 0x10 1
  let shares := (List.range 7).map (fun i => imgNat b (0x18 + 2 * i) 2)
  blkChecks s ([(0x10, decide (17 < p) && p != 0xFF)] ++ shares.zipIdx.map (fun e => (0x18 + 2 * e.2, decide (e.1 < 16))) ++
      [(0x18, decide (992 < shares.sum))]) (
    blkDone ((if p = 0xFF then List.range 18 else [p]).foldl (fun (s : State) q => s.setShares q shares) s) none)

/-- NODE. -/
def State.blkNode (s : State) (b : List Byte) : BlockEnd :=
  let n := imgNat b 0x10 2
  blkChecks s [(0x10, decide (4095 < n))] (blkDone { s with nodeId := BitVec.ofNat 12 n } none)

/-- ROUTE. -/
def State.blkRoute (s : State) (b : List Byte) : BlockEnd :=
  let dest := imgNat b 0x10 2
  let lane := imgNat b 0x12 1
  let ports := ((List.range 8).map (fun i => imgNat b (0x18 + i) 1)).takeWhile (fun p => p != 0xFF)
  blkChecks s ([(0x10, decide (4095 < dest)), (0x12, decide (7 < lane) && lane != 0xFF)] ++
      ports.zipIdx.map (fun e => (0x18 + e.2, decide (17 < e.1)))) (
    blkDone ((if lane = 0xFF then List.range 8 else [lane]).foldl (fun (s : State) l =>
      { s with routes := Sparse.set [] s.routes (8 * dest + l) ports }) s) none)

/-! ### Crown sets and trajectory rings (14 R301, R303, R311) -/

/-- A set has a reader or a version being built. -/
def State.setBusy (s : State) (w : Nat) : Bool := (List.range 4).any (fun j => (s.crownSlot w j).readers != 0 || (s.crownSlot w j).state == 1)

/-- CROWNSET. -/
def State.blkCrownset (s : State) (c : BlockCmd) (v : Nat) (b : List Byte) : BlockEnd :=
  let w := imgNat b 0x10 1
  let own := Sparse.get none s.crownOwner w
  let caps := (List.range 4).map (fun j => s.blkCap c v (0x20 + 16 * j) (rR + rW + rE) 0)
  let len := match caps.getD 0 none with | some x => capLen x.1 | none => 0
  let badCap := fun (x : Option (TCap × Region)) => match x with
    | some y => !(capKind y.1 == 0 || capKind y.1 == 2) || capLen y.1 != len
    | none => true
  blkChecks s [(0x10, decide (63 < w)), (0x11, decide (1 < imgNat b 0x11 1))] (
    if imgNat b 0x11 1 = 1 then
      if own.isNone then blkNo s 4
      else if own != some v then blkNo s 3
      else if s.setBusy w then blkNo s 2
      else blkDone ((List.range 4).foldl (fun (s : State) j => s.setCrownSlot w j {})
        { s with crownOwner := Sparse.set none s.crownOwner w none }) none
    else blkChecks s (caps.zipIdx.map (fun x => (0x20 + 16 * x.2, badCap x.1))) (
      if own.isSome && own != some v then blkNo s 3
      else if own.isSome && s.setBusy w then blkNo s 2
      else blkDone (caps.zipIdx.foldl (fun (s : State) x => match x.1 with
          | some y => s.setCrownSlot w x.2 { cap := y.1, region := some y.2 }
          | none => s) { s with crownOwner := Sparse.set none s.crownOwner w (some v) }) none))

/-- TJRING. -/
def State.blkTjring (s : State) (c : BlockCmd) (v : Nat) (b : List Byte) : BlockEnd :=
  let n := imgNat b 0x10 1
  let slots := imgNat b 0x14 4
  let maxrec := imgNat b 0x18 4
  let old := s.tjRing v n
  let release := imgNat b 0x11 1 == 1
  blkChecks s [(0x10, decide (63 < n)), (0x11, decide (1 < imgNat b 0x11 1)),
      (0x14, !release && (slots == 0 || decide (65536 < slots))),
      (0x18, !release && (decide (maxrec < 16) || decide (65536 < maxrec) || maxrec % 16 != 0))] (
    if release then
      if old.region.isNone then blkNo s 4 else blkDone (s.setTjRing v n { old with region := none, epoch := old.epoch + 1 }) none
    else s.withCap c v 0x20 (rR + rW + rE) (slots * (64 + 16 * maxrec)) (fun x =>
      if s.objTier v (capObj x.1) ≠ some 0 then blkBad s 0x20
      else
      let g := x.2
      let r : TjRing := { region := some g, slots, maxrec, epoch := old.epoch + 1 }
      let vas := (List.range slots).map (fun j => r.slotVa g j + 0x28)
      match vas.filter (fun va => match s.rangeXlat g.pasid va 1 true with | .missing => true | _ => false) with
      | [] => blkDone ((vas.foldl (fun (s : State) va => s.devWrite { vf := v, pasid := g.pasid, va, bytes := [0] }) s).setTjRing v n r) none
      | ms => .wait (ms.foldl (fun (s : State) va => s.touchRange g.pasid va 1) s)))

/-! ### Soft-error counters and monitors (15 R337, 16 R349) -/

/-- SECNT. -/
def State.blkSecnt (s : State) (c : BlockCmd) (b : List Byte) : BlockEnd :=
  let die := imgNat b 0x10 1
  let n := imgNat b 0x11 1
  let clear := imgNat b 0x12 1 == 1
  let k := 16 * die + n
  blkChecks s [(0x10, decide (4 < die)), (0x11, decide (15 < n)), (0x12, decide (1 < imgNat b 0x12 1))] (
    if clear && !c.pf then blkNo s 5
    else
      let s := s.blkWrite c 0x38 8 (Sparse.get 0 s.secnt k).toNat
      blkDone (if clear then { s with secnt := Sparse.set 0 s.secnt k 0 } else s) none)

/-- MONSEL. -/
def State.blkMonsel (s : State) (c : BlockCmd) (b : List Byte) : BlockEnd :=
  let unit := imgNat b 0x10 1
  let n := imgNat b 0x11 1
  let f := imgNat b 0x13 1
  let k := 8 * unit + n
  let m := Sparse.get {} s.monitors k
  blkChecks s [(0x10, decide (7 < unit)), (0x11, decide (7 < n)), (0x13, f / 16 % 8 != 0)] (
    let s := s.blkWrite c 0x38 8 m.count
    let m : Monitor := { m with source := imgNat b 0x12 1, vf := if f / 128 = 1 then some (f % 16) else none }
    blkDone { s with monitors := Sparse.set {} s.monitors k m } none)

/-! ### The queue (R422, R424, R425) -/

/-- The virtual function that a block names. -/
def blkVf (c : BlockCmd) (b : List Byte) : Nat := if imgNat b 8 1 / 128 = 1 then c.iss.vf else imgNat b 8 1 % 16
/-- The block acts on the physical function. -/
def blkPf (b : List Byte) : Bool := imgNat b 8 1 / 16 % 2 == 1

/-- A command whose block has been read and names a virtual function that it may. -/
def State.blkRun (s : State) (c : BlockCmd) (v : Nat) (b : List Byte) : BlockEnd :=
  match c.sub with
  | 0x02 => s.blkCourse v b
  | 0x03 => s.blkSave v b
  | 0x04 => s.blkRestore v b
  | 0x05 => .takes (s.flrInitiate v) v none []
  | 0x06 => .silent (s.warmReset s.boot.flash)
  | 0x07 => s.blkAssign v b
  | 0x08 => s.blkVfcfg v b
  | 0x09 => s.blkLqcfg c v b
  | 0x0A => s.blkWcset v b
  | 0x0B => s.blkCtxtab c v b
  | 0x0C => s.blkObjtab c v b
  | 0x0D => s.blkObjinv v b
  | 0x0E => s.blkTraparea c v
  | 0x0F => s.blkSupq c v (blkPf b) b
  | 0x10 => s.blkWatch v b
  | 0x11 => s.blkTwm v b
  | 0x12 => s.blkPnrp b
  | 0x13 => s.blkStage v b
  | 0x14 => s.blkComreg c v b
  | 0x15 => s.blkVcshare b
  | 0x16 => s.blkNode b
  | 0x17 => s.blkRoute b
  | 0x18 => s.blkCrownset c v b
  | 0x19 => s.blkTjring c v b
  | 0x1A => s.blkSecnt c b
  | _ => s.blkMonsel c b

/-- The common checks of a block, then its command. (log 100: DESIGN CHOICE) -/
def State.blkCommon (s : State) (c : BlockCmd) (b : List Byte) : BlockEnd :=
  let x := imgNat b 8 1
  let v := blkVf c b
  blkChecks s [(8, x / 32 % 4 != 0 || (blkPf b && c.sub != 0x0F)), (9, imgNat b 9 7 != 0)] (
    if blkPf b && !c.pf then blkNo s 5
    else if !c.pf && v != c.iss.vf then blkNo s 5
    else if (s.vf v).flr && c.sub != 0x05 && !blkPf b then blkNo s 2
    else s.blkRun c v b)

/-- The page of a block forbids its use: PERM for the strand (10 R211). -/
def State.blkForbidden (s : State) (c : BlockCmd) : BlockEnd :=
  .silent ((s.blkLeave c).raise c.iss .perm (BitVec.ofNat 64 c.place.addr))

/-- A command's turn: its block is read, once its page is there and may be written. -/
def State.blkTurn (s : State) (c : BlockCmd) : BlockEnd :=
  let n := blkSize c.sub
  match s.engPoison c.iss c.place n, s.placeXlat c.place n true, s.engRead c.iss c.place n with
  | some (pa, va), _, _ => .silent ((s.blkLeave c).memue c.iss 4 pa va)
  | none, .forbidden, _ => s.blkForbidden c
  | none, .mapped _, some b => (s.placeTouch c.place n).blkCommon c b
  | none, _, _ => if s.placeFault c.place n then s.blkForbidden c else .wait (s.placeTouch c.place n)

/-- An accepted command has what it waits for. -/
def State.blkReady (s : State) (c : BlockCmd) : Bool :=
  match c.taken with
  | none => false
  | some (v, _, ws) =>
    if c.sub = 0x05 then !(s.vf v).flr
    else if c.sub = 0x03 then ws.all (fun g => match s.gang g with | some x => x.run != .saving | none => true)
    else !s.moves.any (fun m => ws.contains (moveKey m.vf m.die))

/-- A command is accepted, unless its own virtual function's FLR has dropped it. -/
def State.blkAccept (s : State) (c : BlockCmd) (v : Nat) (res : Option Nat) (ws : List Nat) : State :=
  let x := s.vf c.iss.vf
  if !x.blockQ.any (fun o => o.id == c.id) then s
  else
    let w := s.takeFree
    let s := w.2.blkDrop c
    let x := s.vf c.iss.vf
    s.setVf c.iss.vf { x with accepted := x.accepted ++ [{ c with taken := some (v, res.getD (w.1.toNat % 2 ^ 32), ws) }] }

/-- BLOCK_COMMAND_END: an accepted command whose effect is complete ends; else the oldest one of the virtual function has its
turn. -/
def State.blockEnd (s : State) (v : Nat) : State :=
  match (s.vf v).accepted.find? s.blkReady with
  | some c =>
    let w := s.takeFree
    let res := match c.taken with | some (_, r, _) => some r | none => none
    if c.lost then (w.2.blkDrop c).blkFinish c (w.1.toNat % 7) res none else (s.blkDrop c).blkFinish c 0 res (some 0)
  | none =>
    match (s.vf v).blockQ with
    | [] => s
    | c :: _ =>
      if !s.forkReady c.iss then s
      else match (s.fork c.iss).blkTurn c with
        | .wait s' => s'
        | .ends s' st res info => (s'.blkDrop c).blkFinish c st res info
        | .takes s' u res ws => s'.blkAccept c u res ws
        | .silent s' => s'.blkDrop c

def execBlockCommandEnd (vf : Nat) (s : State) : Host.Outcome State Fault Refusal := .next (s.blockEnd vf)

end Sys2Proof.Machine
end

