-- ==== Sys2Proof/Machine/Scalar.lean ====
section
/-! DEFINITION. The scalar slots S0 and S1: integer, logic, multiply, divide, floating point, predicates and the CSR unit
(17 R359, R366 to R369, 18 R378 to R386, R401 to R405, 19 R406 to R414). -/
namespace Sys2Proof.Machine

/-! ### Results -/

/-- Position of a scalar slot (04 R81). -/
def sPos (inS1 : Bool) : Nat := if inS1 then 3 else 2
/-- The ALU latch of a scalar slot (04 R87). -/
def aluLatch (inS1 : Bool) : Nat := if inS1 then 1 else 0
/-- The slot word as a Mould entry holds it: S1's above S0's (03 R64). -/
def sWord (inS1 : Bool) (w : Nat) : Nat := if inS1 then 2 ^ 64 * w else w

/-- The group of registers at dst, unless NW is set, then the latch with the lowest member, then flags (04 R87, R88). -/
def groupWr (nw : BitVec 1) (dst latch : Nat) (rs : List IRes) : List Wr :=
  (if nw = 0 then rs.zipIdx.map (fun x => Wr.sreg (dst + x.2) x.1.value) else []) ++
    [.latch latch (rs.headD { value := 0 }).value] ++ flagWr (rs.map (fun r => r.flags))

/-- A predicate, unless NW is set, and 1 or 0 in the latch (17 R366). -/
def predWr (nw : BitVec 1) (dst latch : Nat) (b : Bool) : List Wr :=
  (if nw = 0 then [Wr.preg dst b] else []) ++ [.latch latch (boolWord b)]

/-- A result of a scalar slot after n clk. -/
def State.sEmit (s : State) (op : Nat) (f : SFields) (n : Nat) (ws : List Wr) : State :=
  s.emit .s 0 (sWord f.inS1 (packS op f)) n ws

/-- srcA as a group, then srcB by a reader; the ports they read are marked. -/
def State.sSources (s : State) (f : SFields) (readB : Ctx → BitVec 8 → Nat → Res (List Word × Ctx)) :
    Res (List Word × List Word × State) :=
  let g := groupSize f.width
  (readCode s.ctx f.srcA.toNat g).bind fun a =>
  (readB a.2 f.srcB g).bind fun b => .ok (a.1, b.1, s.setCtx b.2)

/-- A binary operation on elements. -/
def State.sBinary (s : State) (op : Nat) (f : SFields) (n latch : Nat) (fn : Word → Word → IRes) : Res State :=
  (s.sSources f readSrcB).bind fun r =>
  .ok (r.2.2.sEmit op f n (groupWr f.nw f.dst.toNat latch (List.zipWith fn r.1 r.2.1)))

/-- A binary floating operation: an immediate is the FP32 value of its integer (05 R106). -/
def State.sBinaryFp (s : State) (op : Nat) (f : SFields) (fn : Word → Word → IRes) : Res State :=
  (s.sSources f readSrcBFp).bind fun r =>
  .ok (r.2.2.sEmit op f 4 (groupWr f.nw f.dst.toNat 4 (List.zipWith fn r.1 r.2.1)))

/-- A unary operation on elements of srcA. -/
def State.sUnary (s : State) (op : Nat) (f : SFields) (n latch : Nat) (fn : Word → IRes) : Res State :=
  (readCode s.ctx f.srcA.toNat (groupSize f.width)).bind fun a =>
  .ok ((s.setCtx a.2).sEmit op f n (groupWr f.nw f.dst.toNat latch (a.1.map fn)))

/-- A compare into a predicate. -/
def State.sCompare (s : State) (op : Nat) (f : SFields) (n latch : Nat)
    (readB : Ctx → BitVec 8 → Nat → Res (List Word × Ctx)) (fn : Word → Word → Bool) : Res State :=
  (s.sSources f readB).bind fun r =>
  .ok (r.2.2.sEmit op f n (predWr f.nw (f.dst.toNat % 16) latch (fn (r.1.headD 0) (r.2.1.headD 0))))

/-- A divide: DIVZ for a divisor of 0, else an entry of b6 that owes dst (18 R378, R379). -/
def State.sDivide (s : State) (f : SFields) (fn : Word → Word → Word) : Res State :=
  (s.sSources f readSrcB).bind fun r =>
  let a := r.1.headD 0
  let b := r.2.1.headD 0
  if b = 0 then .trap .divz 0
  else
    let v := fn a b
    let ws := if f.nw = 0 then [Wr.sreg f.dst.toNat v] else []
    .ok (r.2.2.setCtx (r.2.2.ctx.pushPort 6 { value := v.setWidth 512, writes := ws }))

/-- A value of the CSR unit: 2 clk, dst and b7 (04 R87). -/
def State.sCsrUnit (s : State) (op : Nat) (f : SFields) (v : Word) : State :=
  s.sEmit op f 2 (groupWr f.nw f.dst.toNat 7 [{ value := v }])

/-! ### Integer and logic (17 R359, 18 R401, R405, 19 R407, R408, R459) -/

def execAdd (f : SFields) (s : State) : Host.Outcome State Fault Refusal :=
  settle s (s.sBinary 0x20 f 1 (aluLatch f.inS1) aluAdd)
def execAddSat (f : SFields) (s : State) : Host.Outcome State Fault Refusal :=
  settle s (s.sBinary 0x21 f 1 (aluLatch f.inS1) aluAddSat)
def execAnd (f : SFields) (s : State) : Host.Outcome State Fault Refusal :=
  settle s (s.sBinary 0x22 f 1 (aluLatch f.inS1) aluAnd)
def execAndn (f : SFields) (s : State) : Host.Outcome State Fault Refusal :=
  settle s (s.sBinary 0x23 f 1 (aluLatch f.inS1) aluAndn)
def execClz (f : SFields) (s : State) : Host.Outcome State Fault Refusal :=
  settle s (s.sUnary 0x24 f 1 (aluLatch f.inS1) aluClz)
def execCtz (f : SFields) (s : State) : Host.Outcome State Fault Refusal :=
  settle s (s.sUnary 0x2D f 1 (aluLatch f.inS1) aluCtz)
def execOr (f : SFields) (s : State) : Host.Outcome State Fault Refusal :=
  settle s (s.sBinary 0x4B f 1 (aluLatch f.inS1) aluOr)
def execPopc (f : SFields) (s : State) : Host.Outcome State Fault Refusal :=
  settle s (s.sUnary 0x4D f 1 (aluLatch f.inS1) aluPopc)
def execSar (f : SFields) (s : State) : Host.Outcome State Fault Refusal :=
  settle s (s.sBinary 0x4F f 1 (aluLatch f.inS1) aluSar)
def execShl (f : SFields) (s : State) : Host.Outcome State Fault Refusal :=
  settle s (s.sBinary 0x51 f 1 (aluLatch f.inS1) aluShl)
def execShr (f : SFields) (s : State) : Host.Outcome State Fault Refusal :=
  settle s (s.sBinary 0x52 f 1 (aluLatch f.inS1) aluShr)
def execSub (f : SFields) (s : State) : Host.Outcome State Fault Refusal :=
  settle s (s.sBinary 0x53 f 1 (aluLatch f.inS1) aluSub)
def execSubSat (f : SFields) (s : State) : Host.Outcome State Fault Refusal :=
  settle s (s.sBinary 0x54 f 1 (aluLatch f.inS1) aluSubSat)
def execXor (f : SFields) (s : State) : Host.Outcome State Fault Refusal :=
  settle s (s.sBinary 0x55 f 1 (aluLatch f.inS1) aluXor)
def execMax (f : SFields) (s : State) : Host.Outcome State Fault Refusal :=
  settle s (s.sBinary 0x42 f 1 (aluLatch f.inS1) aluMax)
def execMaxN (f : SFields) (s : State) : Host.Outcome State Fault Refusal :=
  settle s (s.sBinary 0x43 f 1 (aluLatch f.inS1) aluMaxN)
def execMin (f : SFields) (s : State) : Host.Outcome State Fault Refusal :=
  settle s (s.sBinary 0x44 f 1 (aluLatch f.inS1) aluMin)
def execMinN (f : SFields) (s : State) : Host.Outcome State Fault Refusal :=
  settle s (s.sBinary 0x45 f 1 (aluLatch f.inS1) aluMinN)
/-- Plain MOV (18 R403). -/
def execMov (f : SFields) (s : State) : Host.Outcome State Fault Refusal :=
  settle s (s.sUnary 0x46 f 1 (aluLatch f.inS1) (fun a => { value := a }))
def execMul (f : SFields) (s : State) : Host.Outcome State Fault Refusal :=
  settle s (s.sBinary 0x47 f 3 2 aluMul)
def execMulh (f : SFields) (s : State) : Host.Outcome State Fault Refusal :=
  settle s (s.sBinary 0x48 f 3 2 aluMulh)
def execMulhN (f : SFields) (s : State) : Host.Outcome State Fault Refusal :=
  settle s (s.sBinary 0x49 f 3 2 aluMulhN)

/-- The shadow form of MOV (04 R84): a halfword or the whole of a shadow, and the ALU latch. -/
def execMovShadow (f : ShadowFields) (s : State) : Host.Outcome State Fault Refusal :=
  settle s ((readCode s.ctx f.srcA.toNat 1).bind fun a =>
    let v := a.1.headD 0
    let sel := f.sel.toNat
    let i := bits sel 4 2
    let h := 16 * bits sel 1 0
    let w := if bits sel 5 5 = 1 then Wr.shadow i (BitVec.allOnes 64) v
      else .shadow i ((0xFFFF : Word) <<< h) (v <<< h)
    .ok ((s.setCtx a.2).emit .s 0 (sWord f.inS1 (packShadow f)) 1
      ((if f.nw = 0 then [w] else []) ++ [.latch (aluLatch f.inS1) v])))

/-! ### Bit fields and select (18 R383, 19 R414) -/

def execExt (f : SFields) (s : State) : Host.Outcome State Fault Refusal :=
  settle s (s.sBinary 0x33 f 1 (aluLatch f.inS1) (fun a c => { value := aluExt a c }))
/-- INS reads dst as a third operand. -/
def execIns (f : SFields) (s : State) : Host.Outcome State Fault Refusal :=
  settle s (s.sBinary 0x41 f 1 (aluLatch f.inS1) (fun a c => { value := aluIns (s.ctx.readS f.dst.toNat) a c }))
/-- SEL: srcA where p(n) xor sense holds, else dst as read at issue. -/
def execSel (f : SFields) (s : State) : Host.Outcome State Fault Refusal :=
  settle s (s.sUnary 0x50 f 1 (aluLatch f.inS1) (fun a => { value :=
    if (s.ctx.readP (bits f.srcB.toNat 3 0)) != (bits f.srcB.toNat 6 6 == 1) then a else s.ctx.readS f.dst.toNat }))

/-! ### Divide (18 R378) -/

def execDiv (f : SFields) (s : State) : Host.Outcome State Fault Refusal := settle s (s.sDivide f aluDiv)
def execDivN (f : SFields) (s : State) : Host.Outcome State Fault Refusal := settle s (s.sDivide f aluDivN)
def execDivR (f : SFields) (s : State) : Host.Outcome State Fault Refusal := settle s (s.sDivide f aluDivR)
def execDivRn (f : SFields) (s : State) : Host.Outcome State Fault Refusal := settle s (s.sDivide f aluDivRn)

/-! ### Compares and predicates (17 R366, 18 R385, 19 R409) -/

def execCmpEq (f : SFields) (s : State) : Host.Outcome State Fault Refusal :=
  settle s (s.sCompare 0x25 f 1 (aluLatch f.inS1) readSrcB cmpEq)
def execCmpNe (f : SFields) (s : State) : Host.Outcome State Fault Refusal :=
  settle s (s.sCompare 0x26 f 1 (aluLatch f.inS1) readSrcB cmpNe)
def execCmpLt (f : SFields) (s : State) : Host.Outcome State Fault Refusal :=
  settle s (s.sCompare 0x27 f 1 (aluLatch f.inS1) readSrcB cmpLt)
def execCmpLe (f : SFields) (s : State) : Host.Outcome State Fault Refusal :=
  settle s (s.sCompare 0x28 f 1 (aluLatch f.inS1) readSrcB cmpLe)
def execCmpLtn (f : SFields) (s : State) : Host.Outcome State Fault Refusal :=
  settle s (s.sCompare 0x29 f 1 (aluLatch f.inS1) readSrcB cmpLtn)
def execCmpLen (f : SFields) (s : State) : Host.Outcome State Fault Refusal :=
  settle s (s.sCompare 0x2A f 1 (aluLatch f.inS1) readSrcB cmpLen)
def execFcmpEq (f : SFields) (s : State) : Host.Outcome State Fault Refusal :=
  settle s (s.sCompare 0x35 f 4 4 readSrcBFp (fun a b => feq (f32Of a) (f32Of b)))
def execFcmpLt (f : SFields) (s : State) : Host.Outcome State Fault Refusal :=
  settle s (s.sCompare 0x36 f 4 4 readSrcBFp (fun a b => flt (f32Of a) (f32Of b)))
def execFcmpLe (f : SFields) (s : State) : Host.Outcome State Fault Refusal :=
  settle s (s.sCompare 0x37 f 4 4 readSrcBFp (fun a b => fle (f32Of a) (f32Of b)))
def execFcmpUn (f : SFields) (s : State) : Host.Outcome State Fault Refusal :=
  settle s (s.sCompare 0x38 f 4 4 readSrcBFp (fun a b => funord (f32Of a) (f32Of b)))
/-- PLOG: pA in srcA [11:8], pB in srcB [3:0], T in srcB [7:4]. -/
def execPlog (f : SFields) (s : State) : Host.Outcome State Fault Refusal :=
  let b := plogBit (BitVec.ofNat 4 (bits f.srcB.toNat 7 4)) (s.ctx.readP (bits f.srcA.toNat 3 0))
    (s.ctx.readP (bits f.srcB.toNat 3 0))
  settle s (.ok (s.sEmit 0x4C f 1 (predWr f.nw (f.dst.toNat % 16) (aluLatch f.inS1) b)))

/-! ### Floating point (18 R384, R386) -/

def execFadd (f : SFields) (s : State) : Host.Outcome State Fault Refusal :=
  settle s (s.sBinaryFp 0x34 f (fpAdd s.ctx.srm))
def execFmul (f : SFields) (s : State) : Host.Outcome State Fault Refusal :=
  settle s (s.sBinaryFp 0x40 f (fpMul s.ctx.srm))
def execFmax (f : SFields) (s : State) : Host.Outcome State Fault Refusal := settle s (s.sBinaryFp 0x3E f fpMax)
def execFmin (f : SFields) (s : State) : Host.Outcome State Fault Refusal := settle s (s.sBinaryFp 0x3F f fpMin)
/-- FFMA: the addend is dst as read at issue. -/
def execFfma (f : SFields) (s : State) : Host.Outcome State Fault Refusal :=
  settle s ((s.sSources f readSrcBFp).bind fun r =>
    let cs := (List.range (groupSize f.width)).map (fun i => s.ctx.readS (f.dst.toNat + i))
    .ok (r.2.2.sEmit 0x3D f 4 (groupWr f.nw f.dst.toNat 4
      (List.zipWith (fun ab c => fpFma s.ctx.srm ab.1 ab.2 c) (r.1.zip r.2.1) cs))))
def execFcvtFs (f : SFields) (s : State) : Host.Outcome State Fault Refusal :=
  settle s (s.sUnary 0x39 f 3 4 (fpCvtFs s.ctx.srm))
def execFcvtSf (f : SFields) (s : State) : Host.Outcome State Fault Refusal :=
  settle s (s.sUnary 0x3A f 3 4 (fpCvtSf s.ctx.srm))
def execFcvtFb (f : SFields) (s : State) : Host.Outcome State Fault Refusal :=
  settle s (s.sUnary 0x3B f 3 4 (fpCvtFb s.ctx.srm))
def execFcvtBf (f : SFields) (s : State) : Host.Outcome State Fault Refusal :=
  settle s (s.sUnary 0x3C f 3 4 fpCvtBf)

/-! ### The CSR unit (17 R367 to R369, 16 R347, 19 R406, R413) -/

def execCnt (f : SFields) (s : State) : Host.Outcome State Fault Refusal :=
  settle s (.ok (s.sCsrUnit 0x2B f (BitVec.ofNat 64 (Sparse.get 0 (s.tile s.cur).evc (f.srcB.toNat % 128)))))
def execCrd (f : SFields) (s : State) : Host.Outcome State Fault Refusal :=
  settle s (.ok (s.sCsrUnit 0x2C f (s.csrView s.cur s.curCtx (f.srcB.toNat % 128))))
/-- CWR: refused values trap ILLOP with reason 0x0C; the write lands 1 clk later. -/
def execCwr (f : SFields) (s : State) : Host.Outcome State Fault Refusal :=
  settle s ((readCode s.ctx f.srcA.toNat 1).bind fun a =>
    let v := a.1.headD 0
    let n := f.srcB.toNat % 128
    if cwrRefuses n (s.tile s.cur).crewSpad v then .trap .illop (illopInfo 0x0C (sPos f.inS1))
    else .ok ((s.setCtx a.2).sEmit 0x2E f 1 [.csr n v]))
def execNrg (f : SFields) (s : State) : Host.Outcome State Fault Refusal :=
  settle s (.ok (s.sCsrUnit 0x4A f (s.nrgView s.cur)))
/-- RNDS draws W(8, n(8)) in the issue clk and advances n(8). -/
def execRnds (f : SFields) (s : State) : Host.Outcome State Fault Refusal :=
  let c := s.ctx
  let n := c.readDraw 8
  settle s (.ok ((s.setCtx (c.writeDraw 8 (n + 1))).sCsrUnit 0x4E f (drawWord (c.readCsr 0x0D) 8 n)))

end Sys2Proof.Machine
end

