-- ==== Sys2Proof/Machine/Dispatch.lean ====
section
/-! DEFINITION. One arm per instruction and device step, each a direct call of its meaning. -/
namespace Sys2Proof.Machine
open Sys2Proof

/-- The meaning of an instruction or of a device step. -/
def exec (i : Instr) (s : State) : Host.Outcome State Fault Refusal :=
  match i with
  | .barc f => Sys2Proof.Machine.execBarc f s
  | .barg f => Sys2Proof.Machine.execBarg f s
  | .bargA f => Sys2Proof.Machine.execBargA f s
  | .br f => Sys2Proof.Machine.execBr f s
  | .brc f => Sys2Proof.Machine.execBrc f s
  | .call f => Sys2Proof.Machine.execCall f s
  | .eret f => Sys2Proof.Machine.execEret f s
  | .exit f => Sys2Proof.Machine.execExit f s
  | .loop f => Sys2Proof.Machine.execLoop f s
  | .probe f => Sys2Proof.Machine.execProbe f s
  | .ret f => Sys2Proof.Machine.execRet f s
  | .trap f => Sys2Proof.Machine.execTrap f s
  | .waitc f => Sys2Proof.Machine.execWaitc f s
  | .waitvEq f => Sys2Proof.Machine.execWaitvEq f s
  | .waitvNe f => Sys2Proof.Machine.execWaitvNe f s
  | .waitvGe f => Sys2Proof.Machine.execWaitvGe f s
  | .yield f => Sys2Proof.Machine.execYield f s
  | .syscTsel f => Sys2Proof.Machine.execSyscTsel f s
  | .syscCourse f => Sys2Proof.Machine.execSyscCourse f s
  | .syscSave f => Sys2Proof.Machine.execSyscSave f s
  | .syscRestore f => Sys2Proof.Machine.execSyscRestore f s
  | .syscFlr f => Sys2Proof.Machine.execSyscFlr f s
  | .syscWarm f => Sys2Proof.Machine.execSyscWarm f s
  | .syscAssign f => Sys2Proof.Machine.execSyscAssign f s
  | .syscVfcfg f => Sys2Proof.Machine.execSyscVfcfg f s
  | .syscLqcfg f => Sys2Proof.Machine.execSyscLqcfg f s
  | .syscWcset f => Sys2Proof.Machine.execSyscWcset f s
  | .syscCtxtab f => Sys2Proof.Machine.execSyscCtxtab f s
  | .syscObjtab f => Sys2Proof.Machine.execSyscObjtab f s
  | .syscObjinv f => Sys2Proof.Machine.execSyscObjinv f s
  | .syscTraparea f => Sys2Proof.Machine.execSyscTraparea f s
  | .syscSupq f => Sys2Proof.Machine.execSyscSupq f s
  | .syscWatch f => Sys2Proof.Machine.execSyscWatch f s
  | .syscTwm f => Sys2Proof.Machine.execSyscTwm f s
  | .syscPnrp f => Sys2Proof.Machine.execSyscPnrp f s
  | .syscStage f => Sys2Proof.Machine.execSyscStage f s
  | .syscComreg f => Sys2Proof.Machine.execSyscComreg f s
  | .syscVcshare f => Sys2Proof.Machine.execSyscVcshare f s
  | .syscNode f => Sys2Proof.Machine.execSyscNode f s
  | .syscRoute f => Sys2Proof.Machine.execSyscRoute f s
  | .syscCrownset f => Sys2Proof.Machine.execSyscCrownset f s
  | .syscTjring f => Sys2Proof.Machine.execSyscTjring f s
  | .syscSecnt f => Sys2Proof.Machine.execSyscSecnt f s
  | .syscMonsel f => Sys2Proof.Machine.execSyscMonsel f s
  | .blockCommandEnd vf => Sys2Proof.Machine.execBlockCommandEnd vf s
  | .add f => Sys2Proof.Machine.execAdd f s
  | .addSat f => Sys2Proof.Machine.execAddSat f s
  | .and f => Sys2Proof.Machine.execAnd f s
  | .andn f => Sys2Proof.Machine.execAndn f s
  | .clz f => Sys2Proof.Machine.execClz f s
  | .cmpEq f => Sys2Proof.Machine.execCmpEq f s
  | .cmpNe f => Sys2Proof.Machine.execCmpNe f s
  | .cmpLt f => Sys2Proof.Machine.execCmpLt f s
  | .cmpLe f => Sys2Proof.Machine.execCmpLe f s
  | .cmpLtn f => Sys2Proof.Machine.execCmpLtn f s
  | .cmpLen f => Sys2Proof.Machine.execCmpLen f s
  | .cnt f => Sys2Proof.Machine.execCnt f s
  | .crd f => Sys2Proof.Machine.execCrd f s
  | .ctz f => Sys2Proof.Machine.execCtz f s
  | .cwr f => Sys2Proof.Machine.execCwr f s
  | .div f => Sys2Proof.Machine.execDiv f s
  | .divN f => Sys2Proof.Machine.execDivN f s
  | .divR f => Sys2Proof.Machine.execDivR f s
  | .divRn f => Sys2Proof.Machine.execDivRn f s
  | .ext f => Sys2Proof.Machine.execExt f s
  | .fadd f => Sys2Proof.Machine.execFadd f s
  | .fcmpEq f => Sys2Proof.Machine.execFcmpEq f s
  | .fcmpLt f => Sys2Proof.Machine.execFcmpLt f s
  | .fcmpLe f => Sys2Proof.Machine.execFcmpLe f s
  | .fcmpUn f => Sys2Proof.Machine.execFcmpUn f s
  | .fcvtFs f => Sys2Proof.Machine.execFcvtFs f s
  | .fcvtSf f => Sys2Proof.Machine.execFcvtSf f s
  | .fcvtFb f => Sys2Proof.Machine.execFcvtFb f s
  | .fcvtBf f => Sys2Proof.Machine.execFcvtBf f s
  | .ffma f => Sys2Proof.Machine.execFfma f s
  | .fmax f => Sys2Proof.Machine.execFmax f s
  | .fmin f => Sys2Proof.Machine.execFmin f s
  | .fmul f => Sys2Proof.Machine.execFmul f s
  | .ins f => Sys2Proof.Machine.execIns f s
  | .max f => Sys2Proof.Machine.execMax f s
  | .maxN f => Sys2Proof.Machine.execMaxN f s
  | .min f => Sys2Proof.Machine.execMin f s
  | .minN f => Sys2Proof.Machine.execMinN f s
  | .mov f => Sys2Proof.Machine.execMov f s
  | .movShadow f => Sys2Proof.Machine.execMovShadow f s
  | .mul f => Sys2Proof.Machine.execMul f s
  | .mulh f => Sys2Proof.Machine.execMulh f s
  | .mulhN f => Sys2Proof.Machine.execMulhN f s
  | .nrg f => Sys2Proof.Machine.execNrg f s
  | .or f => Sys2Proof.Machine.execOr f s
  | .plog f => Sys2Proof.Machine.execPlog f s
  | .popc f => Sys2Proof.Machine.execPopc f s
  | .rnds f => Sys2Proof.Machine.execRnds f s
  | .sar f => Sys2Proof.Machine.execSar f s
  | .sel f => Sys2Proof.Machine.execSel f s
  | .shl f => Sys2Proof.Machine.execShl f s
  | .shr f => Sys2Proof.Machine.execShr f s
  | .sub f => Sys2Proof.Machine.execSub f s
  | .subSat f => Sys2Proof.Machine.execSubSat f s
  | .xor f => Sys2Proof.Machine.execXor f s
  | .aadd f => Sys2Proof.Machine.execAadd f s
  | .aand f => Sys2Proof.Machine.execAand f s
  | .acas f => Sys2Proof.Machine.execAcas f s
  | .acasW f => Sys2Proof.Machine.execAcasW f s
  | .acq f => Sys2Proof.Machine.execAcq f s
  | .afaddF32 f => Sys2Proof.Machine.execAfaddF32 f s
  | .afaddBf16 f => Sys2Proof.Machine.execAfaddBf16 f s
  | .amax f => Sys2Proof.Machine.execAmax f s
  | .amaxN f => Sys2Proof.Machine.execAmaxN f s
  | .amin f => Sys2Proof.Machine.execAmin f s
  | .aminN f => Sys2Proof.Machine.execAminN f s
  | .aor f => Sys2Proof.Machine.execAor f s
  | .axchg f => Sys2Proof.Machine.execAxchg f s
  | .axor f => Sys2Proof.Machine.execAxor f s
  | .bind f => Sys2Proof.Machine.execBind f s
  | .bindU f => Sys2Proof.Machine.execBindU f s
  | .fence f => Sys2Proof.Machine.execFence f s
  | .fenceLd f => Sys2Proof.Machine.execFenceLd f s
  | .fenceSt f => Sys2Proof.Machine.execFenceSt f s
  | .kchk f => Sys2Proof.Machine.execKchk f s
  | .kder f => Sys2Proof.Machine.execKder f s
  | .kderS f => Sys2Proof.Machine.execKderS f s
  | .kinfo f => Sys2Proof.Machine.execKinfo f s
  | .kld f => Sys2Proof.Machine.execKld f s
  | .kst f => Sys2Proof.Machine.execKst f s
  | .ld f => Sys2Proof.Machine.execLd f s
  | .ldN f => Sys2Proof.Machine.execLdN f s
  | .ldc f => Sys2Proof.Machine.execLdc f s
  | .lea f => Sys2Proof.Machine.execLea f s
  | .rel f => Sys2Proof.Machine.execRel f s
  | .st f => Sys2Proof.Machine.execSt f s
  | .stm f => Sys2Proof.Machine.execStm f s
  | .ldsA f => Sys2Proof.Machine.execLdsA f s
  | .ldsB f => Sys2Proof.Machine.execLdsB f s
  | .limm imm => Sys2Proof.Machine.execLimm imm s
  | .skclr f => Sys2Proof.Machine.execSkclr f s
  | .skd f => Sys2Proof.Machine.execSkd f s
  | .skh f => Sys2Proof.Machine.execSkh f s
  | .skmrgQ f => Sys2Proof.Machine.execSkmrgQ f s
  | .skmrgH f => Sys2Proof.Machine.execSkmrgH f s
  | .skmrgD f => Sys2Proof.Machine.execSkmrgD f s
  | .skq f => Sys2Proof.Machine.execSkq f s
  | .skqryQ f => Sys2Proof.Machine.execSkqryQ f s
  | .skqryR f => Sys2Proof.Machine.execSkqryR f s
  | .skqryE f => Sys2Proof.Machine.execSkqryE f s
  | .vabs f => Sys2Proof.Machine.execVabs f s
  | .vacc f => Sys2Proof.Machine.execVacc f s
  | .vadd f => Sys2Proof.Machine.execVadd f s
  | .vand f => Sys2Proof.Machine.execVand f s
  | .vbcast f => Sys2Proof.Machine.execVbcast f s
  | .vcmpEq f => Sys2Proof.Machine.execVcmpEq f s
  | .vcmpNe f => Sys2Proof.Machine.execVcmpNe f s
  | .vcmpLt f => Sys2Proof.Machine.execVcmpLt f s
  | .vcmpLe f => Sys2Proof.Machine.execVcmpLe f s
  | .vcmpUn f => Sys2Proof.Machine.execVcmpUn f s
  | .vcvtRne f => Sys2Proof.Machine.execVcvtRne f s
  | .vcvtRtz f => Sys2Proof.Machine.execVcvtRtz f s
  | .vcvtRdn f => Sys2Proof.Machine.execVcvtRdn f s
  | .vcvtRup f => Sys2Proof.Machine.execVcvtRup f s
  | .vcvtSr f => Sys2Proof.Machine.execVcvtSr f s
  | .vexp2 f => Sys2Proof.Machine.execVexp2 f s
  | .vfma f => Sys2Proof.Machine.execVfma f s
  | .vfmaS f => Sys2Proof.Machine.execVfmaS f s
  | .vfmaN f => Sys2Proof.Machine.execVfmaN f s
  | .vgath f => Sys2Proof.Machine.execVgath f s
  | .vgathS f => Sys2Proof.Machine.execVgathS f s
  | .viadd f => Sys2Proof.Machine.execViadd f s
  | .viaddSat f => Sys2Proof.Machine.execViaddSat f s
  | .viaddSub f => Sys2Proof.Machine.execViaddSub f s
  | .viaddSubsat f => Sys2Proof.Machine.execViaddSubsat f s
  | .vidx f => Sys2Proof.Machine.execVidx f s
  | .vimul f => Sys2Proof.Machine.execVimul f s
  | .vld f => Sys2Proof.Machine.execVld f s
  | .vldSt f => Sys2Proof.Machine.execVldSt f s
  | .vlog2 f => Sys2Proof.Machine.execVlog2 f s
  | .vmax f => Sys2Proof.Machine.execVmax f s
  | .vmin f => Sys2Proof.Machine.execVmin f s
  | .vmov f => Sys2Proof.Machine.execVmov f s
  | .vmul f => Sys2Proof.Machine.execVmul f s
  | .vneg f => Sys2Proof.Machine.execVneg f s
  | .vor f => Sys2Proof.Machine.execVor f s
  | .vpart f => Sys2Proof.Machine.execVpart f s
  | .vpkPp8 f => Sys2Proof.Machine.execVpkPp8 f s
  | .vpkMx4 f => Sys2Proof.Machine.execVpkMx4 f s
  | .vrcp f => Sys2Proof.Machine.execVrcp f s
  | .vredAdd f => Sys2Proof.Machine.execVredAdd f s
  | .vredMax f => Sys2Proof.Machine.execVredMax f s
  | .vredMin f => Sys2Proof.Machine.execVredMin f s
  | .vrsq f => Sys2Proof.Machine.execVrsq f s
  | .vsar f => Sys2Proof.Machine.execVsar f s
  | .vscanAdd f => Sys2Proof.Machine.execVscanAdd f s
  | .vscanMax f => Sys2Proof.Machine.execVscanMax f s
  | .vscat f => Sys2Proof.Machine.execVscat f s
  | .vscatS f => Sys2Proof.Machine.execVscatS f s
  | .vsel f => Sys2Proof.Machine.execVsel f s
  | .vshfPerm f => Sys2Proof.Machine.execVshfPerm f s
  | .vshfRot f => Sys2Proof.Machine.execVshfRot f s
  | .vshl f => Sys2Proof.Machine.execVshl f s
  | .vshr f => Sys2Proof.Machine.execVshr f s
  | .vsig f => Sys2Proof.Machine.execVsig f s
  | .vst f => Sys2Proof.Machine.execVst f s
  | .vstSt f => Sys2Proof.Machine.execVstSt f s
  | .vsub f => Sys2Proof.Machine.execVsub f s
  | .vsum f => Sys2Proof.Machine.execVsum f s
  | .vtanh f => Sys2Proof.Machine.execVtanh f s
  | .vupkPp8 f => Sys2Proof.Machine.execVupkPp8 f s
  | .vupkMx4 f => Sys2Proof.Machine.execVupkMx4 f s
  | .vxcl f => Sys2Proof.Machine.execVxcl f s
  | .vxor f => Sys2Proof.Machine.execVxor f s
  | .mdrain f => Sys2Proof.Machine.execMdrain f s
  | .mdrainCt f => Sys2Proof.Machine.execMdrainCt f s
  | .mring f => Sys2Proof.Machine.execMring f s
  | .mstep f => Sys2Proof.Machine.execMstep f s
  | .mstepx f => Sys2Proof.Machine.execMstepx f s
  | .mzero f => Sys2Proof.Machine.execMzero f s
  | .clabt f => Sys2Proof.Machine.execClabt f s
  | .clag f => Sys2Proof.Machine.execClag f s
  | .clarSum f => Sys2Proof.Machine.execClarSum f s
  | .clarMax f => Sys2Proof.Machine.execClarMax f s
  | .clbar f => Sys2Proof.Machine.execClbar f s
  | .clbc f => Sys2Proof.Machine.execClbc f s
  | .clopt f => Sys2Proof.Machine.execClopt f s
  | .clrsSum f => Sys2Proof.Machine.execClrsSum f s
  | .clrsMax f => Sys2Proof.Machine.execClrsMax f s
  | .clrsh f => Sys2Proof.Machine.execClrsh f s
  | .clst f => Sys2Proof.Machine.execClst f s
  | .cpy f => Sys2Proof.Machine.execCpy f s
  | .cpyfA f => Sys2Proof.Machine.execCpyfA f s
  | .cpyfB f => Sys2Proof.Machine.execCpyfB f s
  | .cpyg f => Sys2Proof.Machine.execCpyg f s
  | .cpys f => Sys2Proof.Machine.execCpys f s
  | .cpyz f => Sys2Proof.Machine.execCpyz f s
  | .cset f => Sys2Proof.Machine.execCset f s
  | .mtfet f => Sys2Proof.Machine.execMtfet f s
  | .mthalo f => Sys2Proof.Machine.execMthalo f s
  | .mtinvWb f => Sys2Proof.Machine.execMtinvWb f s
  | .mtinvDrop f => Sys2Proof.Machine.execMtinvDrop f s
  | .mtlook f => Sys2Proof.Machine.execMtlook f s
  | .mtpin f => Sys2Proof.Machine.execMtpin f s
  | .mtreg f => Sys2Proof.Machine.execMtreg f s
  | .mtrel f => Sys2Proof.Machine.execMtrel f s
  | .sigcAdd f => Sys2Proof.Machine.execSigcAdd f s
  | .sigcSet f => Sys2Proof.Machine.execSigcSet f s
  | .tjclose f => Sys2Proof.Machine.execTjclose f s
  | .tjopen f => Sys2Proof.Machine.execTjopen f s
  | .tjrd f => Sys2Proof.Machine.execTjrd f s
  | .tjrec f => Sys2Proof.Machine.execTjrec f s
  | .wvadopt f => Sys2Proof.Machine.execWvadopt f s
  | .wvdrop f => Sys2Proof.Machine.execWvdrop f s
  | .wvhold f => Sys2Proof.Machine.execWvhold f s
  | .wvpub f => Sys2Proof.Machine.execWvpub f s
  | .wvqry f => Sys2Proof.Machine.execWvqry f s
  | .mswap => Sys2Proof.Machine.execMswap s
  | .eswap => Sys2Proof.Machine.execEswap s
  | .resultWriteback tile ctx => Sys2Proof.Machine.execResultWriteback tile ctx s
  | .returnPortDeliver tile ctx port => Sys2Proof.Machine.execReturnPortDeliver tile ctx port s
  | .lqtailWrite vf part q tail => Sys2Proof.Machine.execLqtailWrite vf part q tail s
  | .lqmarkWrite vf part half value => Sys2Proof.Machine.execLqmarkWrite vf part half value s
  | .registerWrite fn offset value => Sys2Proof.Machine.execRegisterWrite fn offset value s
  | .gangAdmit vf part => Sys2Proof.Machine.execGangAdmit vf part s
  | .tileReservation vf part => Sys2Proof.Machine.execTileReservation vf part s
  | .quantumExpiry tile => Sys2Proof.Machine.execQuantumExpiry tile s
  | .contextSwitch tile => Sys2Proof.Machine.execContextSwitch tile s
  | .strandWake tile ctx => Sys2Proof.Machine.execStrandWake tile ctx s
  | .strandRetire tile ctx => Sys2Proof.Machine.execStrandRetire tile ctx s
  | .crewRetire tile => Sys2Proof.Machine.execCrewRetire tile s
  | .gangRetire gang => Sys2Proof.Machine.execGangRetire gang s
  | .landingComplete tile idx => Sys2Proof.Machine.execLandingComplete tile idx s
  | .engineStop tile => Sys2Proof.Machine.execEngineStop tile s
  | .saveAreaWrite tile => Sys2Proof.Machine.execSaveAreaWrite tile s
  | .tileScrub tile => Sys2Proof.Machine.execTileScrub tile s
  | .gangResume gang => Sys2Proof.Machine.execGangResume gang s
  | .mouldReplay tile ctx => Sys2Proof.Machine.execMouldReplay tile ctx s
  | .engineCauseTake tile ctx => Sys2Proof.Machine.execEngineCauseTake tile ctx s
  | .tileDisable tile => Sys2Proof.Machine.execTileDisable tile s
  | .flrInitiate vf => Sys2Proof.Machine.execFlrInitiate vf s
  | .flrComplete vf => Sys2Proof.Machine.execFlrComplete vf s
  | .coldReset image => Sys2Proof.Machine.execColdReset image s
  | .warmReset image => Sys2Proof.Machine.execWarmReset image s
  | .spdmRequest msg => Sys2Proof.Machine.execSpdmRequest msg s
  | .hostMemWrite addr data => Sys2Proof.Machine.execHostMemWrite addr data s
  | .hostMemRead addr len => Sys2Proof.Machine.execHostMemRead addr len s
  | .hostSnoop addr invalidate => Sys2Proof.Machine.execHostSnoop addr invalidate s
  | .backInvalidateResponse addr => Sys2Proof.Machine.execBackInvalidateResponse addr s
  | .atsInvalidation pasid vpage count => Sys2Proof.Machine.execAtsInvalidation pasid vpage count s
  | .atsTranslationResponse pasid vpage answer => Sys2Proof.Machine.execAtsTranslationResponse pasid vpage answer s
  | .priResponse pasid vpage ok => Sys2Proof.Machine.execPriResponse pasid vpage ok s
  | .sideLogReplay tile => Sys2Proof.Machine.execSideLogReplay tile s
  | .cxlLinkDown port => Sys2Proof.Machine.execCxlLinkDown port s
  | .clampTick => Sys2Proof.Machine.execClampTick s
  | .l1SectorExpiry tile sector => Sys2Proof.Machine.execL1SectorExpiry tile sector s
  | .backgroundScrub site outcome => Sys2Proof.Machine.execBackgroundScrub site outcome s
  | .pageDemote pasid vpage dest => Sys2Proof.Machine.execPageDemote pasid vpage dest s
  | .pagePromote pasid vpage dest => Sys2Proof.Machine.execPagePromote pasid vpage dest s
  | .probeFillComplete tile slot => Sys2Proof.Machine.execProbeFillComplete tile slot s
  | .ringPush tile => Sys2Proof.Machine.execRingPush tile s
  | .copyComplete tile => Sys2Proof.Machine.execCopyComplete tile s
  | .followOnEnqueue tile => Sys2Proof.Machine.execFollowOnEnqueue tile s
  | .matrixKStep tile => Sys2Proof.Machine.execMatrixKStep tile s
  | .matrixReplay tile => Sys2Proof.Machine.execMatrixReplay tile s
  | .matrixComplete tile => Sys2Proof.Machine.execMatrixComplete tile s
  | .mortarComplete vf => Sys2Proof.Machine.execMortarComplete vf s
  | .signalApply tile => Sys2Proof.Machine.execSignalApply tile s
  | .summaryUnitOperation tile => Sys2Proof.Machine.execSummaryUnitOperation tile s
  | .chunkBegin die => Sys2Proof.Machine.execChunkBegin die s
  | .chunkLand die => Sys2Proof.Machine.execChunkLand die s
  | .collectiveComplete die => Sys2Proof.Machine.execCollectiveComplete die s
  | .dataFlit port flit => Sys2Proof.Machine.execDataFlit port flit s
  | .creditFlit port vc count => Sys2Proof.Machine.execCreditFlit port vc count s
  | .ackFlit port ackseq => Sys2Proof.Machine.execAckFlit port ackseq s
  | .nakFlit port ackseq => Sys2Proof.Machine.execNakFlit port ackseq s
  | .managementFlit port flit => Sys2Proof.Machine.execManagementFlit port flit s
  | .abortMessage comm => Sys2Proof.Machine.execAbortMessage comm s
  | .memberLost comm rank => Sys2Proof.Machine.execMemberLost comm rank s
  | .pauseRequest comm rank => Sys2Proof.Machine.execPauseRequest comm rank s
  | .stopChunk comm chunk => Sys2Proof.Machine.execStopChunk comm chunk s
  | .resumeBroadcast comm => Sys2Proof.Machine.execResumeBroadcast comm s
  | .portRetrain port => Sys2Proof.Machine.execPortRetrain port s
  | .portDown port => Sys2Proof.Machine.execPortDown port s
  | .crownComplete => Sys2Proof.Machine.execCrownComplete s
  | .broadcastClaim w comm ver => Sys2Proof.Machine.execBroadcastClaim w comm ver s
  | .broadcastLand w => Sys2Proof.Machine.execBroadcastLand w s
  | .brimComplete => Sys2Proof.Machine.execBrimComplete s
  | .badTypeFlit port => Sys2Proof.Machine.execBadTypeFlit port s
  | .badCrcFlit port => Sys2Proof.Machine.execBadCrcFlit port s
  | .retrainComplete port => Sys2Proof.Machine.execRetrainComplete port s
  | .cxlLinkUp port => Sys2Proof.Machine.execCxlLinkUp port s
  | .pageTableCommit pasid vpage ok => Sys2Proof.Machine.execPageTableCommit pasid vpage ok s
  | .emptyBundle => Sys2Proof.Machine.execEmptyBundle s
  | .unassignedCode pos word => Sys2Proof.Machine.execUnassignedCode pos word s

end Sys2Proof.Machine
end

