-- ==== Sys2Proof/Machine/Issue.lean ====
section
/-! DEFINITION. The issue of one bundle: the order of its parts (04 R80), blocking before any
effect (03 R57), the trap that decides (15 R320), and what comes after the slots (04 R79, R90, 18 R400, 02 R49). -/
namespace Sys2Proof.Machine

/-! ### The slots -/

/-- What a slot would do to its bundle. -/
inductive SlotStop where
  | goes
  | blocks (why : BlockWhy)
  | traps (cause : Cause) (info : Word)
  deriving DecidableEq, Repr

/-- What became of the strand where a slot was tried alone. -/
def slotStop (t c : Nat) (o : Host.Outcome State Fault Refusal) : SlotStop :=
  match o with
  | .next s =>
    let x := s.ctxAt t c
    match x.run with
    | .blocked why => .blocks why
    | .trapped | .fatal =>
      match allCauses.find? (fun k => causeCode k == (x.readCsr 0x08).toNat) with
      | some .memue => .goes
      | some k => .traps k (x.readCsr 0x0A)
      | none => .goes
    | _ => .goes
  | _ => .goes

/-- The first slot that blocks, if any. (log 41: DEDUCED) -/
def firstBlock : List SlotStop → Option BlockWhy
  | [] => none
  | .blocks w :: _ => some w
  | _ :: t => firstBlock t

/-- The trap that decides: ILLOP of the lowest reason and position, else the first slot's (15 R320, 04 R81). -/
def decidingTrap : List SlotStop → Option (Cause × Word)
  | [] => none
  | .traps k i :: t =>
    match decidingTrap t with
    | some (.illop, j) =>
      if k = .illop ∧ lowerReport (bits i.toNat 7 0, bits i.toNat 11 8) (bits j.toNat 7 0, bits j.toNat 11 8) =
          (bits i.toNat 7 0, bits i.toNat 11 8) then some (k, i) else some (.illop, j)
    | _ => some (k, i)
  | _ :: t => decidingTrap t

/-- The next state of an outcome. -/
def nextOr (s : State) (o : Host.Outcome State Fault Refusal) : State :=
  match o with
  | .next s' => s'
  | _ => s

/-- The strand still takes part in its bundle. -/
def Ctx.acting (c : Ctx) : Bool := c.run == .running || c.run == .exiting

/-- The event source of a slot (16 R348). -/
def slotSource (i : Instr) : Option Nat :=
  match encodeSlot i with
  | some (p, _) => some (match posClass p, p with
    | .c, _ => 3
    | .s, .s1 => 5
    | .s, _ => 4
    | .a, _ => 6
    | .v, _ => 7
    | .m, _ => 8
    | .e, _ => 9
    | .k, _ => 10)
  | none => none

/-- The slots of a bundle, each in turn. -/
def runSlots (t c : Nat) (s : State) (is : List Instr) : State :=
  is.foldl (fun s i => if (s.ctxAt t c).acting then nextOr s (exec i s) else s) s

/-- A swap bit of the header. -/
def isSwap (i : Instr) : Bool :=
  match i with
  | .mswap => true
  | .eswap => true
  | _ => false

/-- HINT proves wrong: it guides fetch only for a BRC (04 R79). -/
def hintWrong (b : Bundle) (taken : Bool) : Bool :=
  b.slots.any (fun i => match i with | .brc _ => true | _ => false) &&
    ((b.hint == 1 && !taken) || (b.hint == 2 && taken))

/-- A crew's first strand has issued since it resumed (03 R70). -/
def State.firstIssued (s : State) (t : Nat) : State :=
  match (s.tile t).crew with
  | some w => if w.waits then s.setTile t { s.tile t with crew := some { w with waits := false } } else s
  | none => s

/-- After the slots: the loop end, the next pc, the ports read, replayed results, and a rotation or the core's departure
from a strand that has issued EXIT. -/
def State.finish (s : State) (t c : Nat) (b : Bundle) : State :=
  let s := (([2] ++ b.slots.filterMap slotSource).foldl (fun (s : State) n => s.count t c n 1) s).firstIssued t
  let x := s.ctxAt t c
  if !x.acting then s
  else
    let wrong := hintWrong b x.npc.isSome
    let x := x.loopEnd
    let y := { x with
      pc := x.npc.getD x.seqpc, fromPc := x.npc.map (fun _ => x.pc), npc := none, rot := 0, entry := false
      pageFail := none, watchOff := false, fresh := false }
    let s := (s.setCtxAt t c (y.release s.clk)).takePorts t c
    let k := s.tile t
    if x.run == .exiting then (s.setTile t ((k.setCtx c (k.ctx c).clearLatches).leave c s.clk)).count t c 11 1
    else if (x.rot == 2 || (x.rot == 1 && k.expired)) && k.otherReady c then
      (s.setTile t ((k.setCtx c { (k.ctx c).clearLatches with run := .ready }).leave c s.clk)).count t c 11 1
    else s.setTile t { k with nextIssue := s.clk + 1 + (if wrong then 6 else 0) }

/-- A trap or a block of the bundle, on the state before it. -/
def State.stopBundle (s : State) (t c : Nat) (r : Res Ctx) : State :=
  match r with
  | .trap k i =>
    (s.setCtxAt t c { s.ctxAt t c with pageFail := none }).takeTrap k i
  | .block why => ((s.block t c why).episodes t).wantPages t c
  | .ok _ => s

/-- A stop at fetch; where no bundle transferred control, TRAPA was a free value, which is now used. -/
def State.stopFetch (s : State) (t c : Nat) (r : Res Ctx) : State :=
  let s' := s.stopBundle t c r
  match r with
  | .trap .kbound _ => if (s.ctxAt t c).fromPc.isNone then { s' with free := s'.free + 1 } else s'
  | _ => s'

/-- A decoded bundle issues: its swaps, then every slot on the state after them; a block comes before a trap, and a trap
before any effect. -/
def State.issueBundle (s : State) (t c : Nat) (b : Bundle) : State :=
  let x := s.ctxAt t c
  let s0 := s.setCtxAt t c { x with seqpc := seqNext (s.tile t).code.va x.pc b.length }
  let s1 := runSlots t c s0 (b.slots.filter isSwap)
  let is := b.slots.filter (fun i => !isSwap i)
  let stops := is.map (fun i => slotStop t c (exec i s1))
  match firstBlock stops, decidingTrap stops with
  | some why, _ => s0.stopBundle t c (.block why)
  | none, some (k, i) => s0.stopBundle t c (.trap k i)
  | none, none => (runSlots t c s1 is).finish t c b

/-- The pages that a bundle is fetched from are used (10 R223). -/
def State.touchCode (s : State) (t pc n : Nat) : State := s.touchRange (s.tile t).code.pasid ((s.tile t).code.va + pc) n

/-- Fetch, decode and issue of the bundle at the pc of context x. -/
noncomputable def State.issueAt (s : State) (t c : Nat) (x : Ctx) : State :=
  match s.fetchBundle t x with
  | .ok bs =>
    let s := s.touchCode t x.pc bs.length
    match decodeBundle bs with
    | .illegal r p => s.stopBundle t c (.trap .illop (illopInfo r p))
    | .bundle b => s.issueBundle t c b
  | .trap k i => s.stopFetch t c (.trap k i)
  | .block w => s.stopFetch t c (.block w)

/-- A context whose results due have been written presents its next bundle; a queued cause comes first. -/
noncomputable def State.present (s : State) (t c : Nat) : State :=
  if (s.ctxAt t c).causes.isEmpty then
    match s.passOver t (s.ctxAt t c) with
    | .ok x => (s.setCtxAt t c x).issueAt t c x
    | r => s.stopFetch t c r
  else s.takeCause t c

/-- Tile t takes its turn in this clk. -/
def State.turn (s : State) (t : Nat) : State := { s with cursor := t + 1, cur := t }

/-- The running context of a tile writes its results that are due and presents its next bundle. -/
noncomputable def State.issue (s : State) (t : Nat) : State :=
  match (s.tile t).running with
  | none => s
  | some c => (s.landDue t c).present t c

/-- The tile's core issues in this clk: a running context, not held by a switch, a freeze or Clamp. -/
def State.live (s : State) (t : Nat) : Bool :=
  let x := s.tile t
  match x.running with
  | some c => (x.ctx c).run == .running && decide (x.nextIssue ≤ s.clk) && !x.held && !(s.vf (s.tileVf t)).gated
  | none => false

/-- The first live tile that has not had its turn in this clk. -/
def State.nextLive (s : State) : Option Nat :=
  (s.tiles.find? (fun x => decide (s.cursor ≤ x.1) && s.live x.1)).map (fun x => x.1)

/-! ### Placing a bundle -/

/-- A byte of memory, in place of whatever the caches hold of it. -/
def State.poke (s : State) (pa : Nat) (b : Byte) : State :=
  { s with mem := Sparse.set 0 s.mem pa b, mdata := Sparse.set none s.mdata pa none }

/-- A gang of one crew of one strand on tile 0, of a PF supervisor queue of virtual function 0, at the first bundle of a
page of code: what loading a program comes to. -/
def State.loadStrand (s : State) : State :=
  let w : Crew := { gang := 0, idx := 0, strands := 1, dorm := 0, spad := Config.spadBytes, rings := 0xFFFF, acc := 4
                    code := { pasid := 0, va := 0, len := 4096 } }
  let g : Gang := { vf := 0, part := 0, wave := 0, pasid := 0, mark := 2, gangId := 0, gbar := some 0, tiles := [some 0] }
  let r : Rec := { code := {}, ctab := {}, seed := 0, fmt := 1, ncap := 0, gangs := 1, crews := 1, dorm := 0, strands := 1
                   part := 0, coloc := false, prio := 0, nvar := 1, ndep := 0, gbar := true, acc := 4, rings := 0xFFFF
                   spad := Config.spadBytes, energy := 0, wc := 0, sigmode := false, deps := [], vars := [(0, 0)], args := [] }
  let v : Wave := { vf := 0, part := 0, queue := 0, index := 0, mark := 2, record := r, admitted := 1 }
  let t : Tile := { s.tile 0 with owner := some 0, tstate := .learner, crew := some w, ctxs := [(0, { run := .running })]
                                  running := some 0, last := 0, nextIssue := 0 }
  { s.setTile 0 t with
    gangs := Sparse.set none s.gangs 0 (some g), waves := Sparse.set none s.waves 0 (some v)
    nextGang := Nat.max s.nextGang 1, nextWave := Nat.max s.nextWave 1
    vfs := Sparse.set {} s.vfs 0 { s.vf 0 with gated := false }
    atc := Sparse.set none s.atc (atcKey 0 0) (some { map := { ppage := 0, writable := true } }) }

/-- A bundle's bytes where the next step fetches: at the pc of the first live tile, or of a strand that is loaded. -/
def State.placeBundle (s : State) (bs : List Byte) : State :=
  let s := { s with agenda := [] }
  let s := if s.nextLive.isSome then s else { s.loadStrand with cursor := 0 }
  match s.nextLive with
  | none => s
  | some t =>
    let x := s.tile t
    match x.running, x.crew with
    | some c, some w =>
      let k := x.ctx c
      let pc := if (w.code.va + k.pc) % 64 + bs.length ≤ 64 then k.pc else k.pc + 64 - (w.code.va + k.pc) % 64
      let w := { w with code := { w.code with len := Nat.max w.code.len (pc + bs.length) } }
      let k := { k with pc, fromPc := none, entry := false, skip := false, skipOne := false, causes := [] }
      let s := s.setTile t { x.setCtx c k with crew := some w }
      bs.zipIdx.foldl (fun (s : State) b =>
        let va := w.code.va + pc + b.2
        match s.lookupVa w.code.pasid va false with
        | .mapped pa => s.poke pa b.1
        | _ =>
          let s := { s with atc := Sparse.set none s.atc (atcKey w.code.pasid (va / 4096))
                                     (some { map := { ppage := va / 4096, writable := true } }) }
          s.poke va b.1) s
    | _, _ => s

end Sys2Proof.Machine
end

