-- ==== Sys2Proof/Machine/Autopilot.lean ====
section
/-! DEFINITION. The end of a clk: the counts of a clk, and the steps of engines and of the scheduler that can be made, which
the model takes as soon as they can be (the spec leaves their times open). -/
namespace Sys2Proof.Machine

/-! ### The counts of a clk (16 R348, 02 R49) -/

/-- Counts for the context that holds the core, for blocked ones, for gated tiles and for full rings; the quantum. -/
def State.tickTile (s : State) (t : Nat) : State :=
  let x := s.tile t
  let s := match x.running with
    | some c =>
      let s := s.count t c 1 1
      if x.otherReady c then s.setTile t { s.tile t with quantum := x.quantum + 1 } else s
    | none => s
  let s := (List.range 4).foldl (fun (s : State) c => match (x.ctx c).run with
    | .blocked _ => s.count t c 12 1
    | _ => s) s
  let s := x.cq.foldl (fun (s : State) c => if x.ringFull c then s.count t c.iss.ctx 16 1 else s) s
  let s := match x.runEntry, x.mrun with
    | some e, some r => if r.busy || x.ringsReady e then s else s.count t e.iss.ctx 15 1
    | _, _ => s
  if (s.vf (s.tileVf t)).gated then
    let s := s.countTile t 23 1
    (List.range 4).foldl (fun (s : State) c => s.setCtxAt t c ((s.ctxAt t c).writeCsr 0 ((s.ctxAt t c).readCsr 0 ||| 8))) s
  else s

/-- The seed S of an HBM4E channel (10 R221): from E, drawn at reset, or in test mode from TSEED. -/
def State.channelSeed (s : State) (ch : Nat) : Word :=
  if s.pnrp.getLsbD 8 then mix64 ((s.pnrp >>> 32) * 256 + BitVec.ofNat 64 ch) else mix64 (Config.entropy s.resets ^^^ BitVec.ofNat 64 ch)

/-- Whether the next activate on a channel refreshes the rows beside its own: that takes time and has no other effect (10 R221). -/
def State.refreshes (s : State) (ch : Nat) : Bool :=
  (mix64 (s.channelSeed ch ^^^ mix64 (Sparse.get 0 s.activates ch))).toNat % 2 ^ (s.pnrp.toNat % 16) == 0

/-- The activates of a clk, counted by channel (10 R221). (log 35: DESIGN CHOICE) -/
def State.countActivates (s : State) : Sparse Word :=
  (Config.activated s.clk).foldl (fun a ch => Sparse.set 0 a ch.toNat (Sparse.get 0 a ch.toNat + 1)) s.activates

/-- The bytes over the dies' bridges in a clk, in the monitors that count them (16 R349). (log 98: DESIGN CHOICE) -/
def State.countBridges (s : State) : Sparse Monitor :=
  (List.range 64).foldl (fun a p =>
    let key := 8 * (4 + p / 16) + p % 8
    let dir := p / 8 % 2
    let m := Sparse.get {} s.monitors key
    let k := match m.vf with
      | some v => Config.bridgeBytes s.clk (p / 16) dir v
      | none => ((List.range 17).map (Config.bridgeBytes s.clk (p / 16) dir)).sum
    if m.source = monBridge dir then Sparse.set {} a key { m with count := (m.count + k) % 2 ^ 48 } else a) s.monitors

/-- The clk ends. (log 117: DEDUCED) -/
def State.tick (s : State) : State :=
  let s := s.tiles.foldl (fun s x => s.tickTile x.1) s
  { s with clk := s.clk + 1, cursor := 0, activates := s.countActivates, monitors := s.countBridges }

/-! ### Steps that can be made -/

/-- Steps of one context. -/
noncomputable def State.ctxSteps (s : State) (t c : Nat) : List Instr :=
  let x := s.ctxAt t c
  let q := fun (b : Bool) (i : Instr) => if b then [i] else []
  q (x.pending.any (fun p => decide (p.due ≤ s.clk))) (.resultWriteback t c) ++
  (x.ports.filter (fun p => x.canDeliver p.1)).map (fun p => Instr.returnPortDeliver t c p.1) ++
  q (match x.run with | .blocked _ => !x.causes.isEmpty && !(s.tile t).held | _ => false) (.engineCauseTake t c) ++
  q (match x.run with | .blocked why => s.unblocked t c why | _ => false) (.strandWake t c) ++
  q (x.run == .exiting && (s.tile t).drained c) (.strandRetire t c)

/-- Steps of one tile. -/
noncomputable def State.tileSteps (s : State) (t : Nat) : List Instr :=
  let x := s.tile t
  let q := fun (b : Bool) (i : Instr) => if b then [i] else []
  (List.range 4).flatMap (s.ctxSteps t) ++
  q (s.replayNext t).isSome (.sideLogReplay t) ++
  q (!x.mq.isEmpty) (if s.mDone t then .matrixComplete t else .matrixKStep t) ++
  q (!x.follows.isEmpty && decide (x.mq.length < 8)) (.followOnEnqueue t) ++
  (match (s.copyNext t).2 with
    | some c => [if c.pushes then Instr.ringPush t else .copyComplete t]
    | none => []) ++
  q (!x.sigq.isEmpty) (.signalApply t) ++
  q (!x.sumq.isEmpty) (.summaryUnitOperation t) ++
  q (decide (Config.quantum ≤ x.quantum) && !x.expired) (.quantumExpiry t) ++
  q (s.canSwitch t) (.contextSwitch t) ++
  q (s.crewDone t && (match x.crew with
    | some w => match s.gang w.gang with | some g => !g.retired.contains w.idx | none => false
    | none => false)) (.crewRetire t)

/-- Steps of pre-emption, scrub and caches at one tile. -/
noncomputable def State.tileUpkeep (s : State) (t : Nat) : List Instr :=
  let x := s.tile t
  let q := fun (b : Bool) (i : Instr) => if b then [i] else []
  let crew := fun (p : Crew → Bool) => match x.crew with | some w => p w | none => false
  q (crew (fun w => w.frozen && !w.stopped)) (.engineStop t) ++
  q (crew (fun w => w.stopped && !w.resuming)) (.saveAreaWrite t) ++
  q (crew (fun w => !w.frozen || (w.resuming && x.sideLog.isEmpty)) && !x.landings.isEmpty) (.landingComplete t 0) ++
  q (x.tstate == .moving && x.crew.isNone) (.tileScrub t) ++
  q (x.condemned && x.crew.isNone && x.owner.isSome) (.tileDisable t) ++
  x.fills.map (fun f => Instr.probeFillComplete t f.1) ++
  (x.l1.filter (fun y => s.l1Expires t y.1)).map (fun y => Instr.l1SectorExpiry t y.1)

/-- Steps of the scheduler for one virtual function. -/
noncomputable def State.vfSteps (s : State) (v : Nat) : List Instr :=
  let x := s.vf v
  let q := fun (b : Bool) (i : Instr) => if b then [i] else []
  let waits := fun (part : Nat) => (List.range 64).any (fun n =>
    let y := x.queue part n
    y.ring.isSome && !y.halt && y.head != y.tail)
  q (!x.blockQ.isEmpty || !x.accepted.isEmpty) (.blockCommandEnd v) ++
  (List.range 2).flatMap (fun part => if waits part then [Instr.gangAdmit v part, Instr.tileReservation v part] else []) ++
  q x.flr (.flrComplete v) ++
  q (s.mortarQ.any (fun c => c.iss.vf == v)) (.mortarComplete v)

/-- Steps of gangs. -/
noncomputable def State.gangSteps (s : State) : List Instr :=
  s.gangs.flatMap (fun x => match x.2 with
    | some g => (if g.allRetired then [Instr.gangRetire x.1] else []) ++
        (if g.run == .resuming || s.mayResume x.1 then [Instr.gangResume x.1] else [])
    | none => [])

/-- Steps of the Hods, of the Crown and of Brim. -/
noncomputable def State.hubSteps (s : State) : List Instr :=
  let q := fun (b : Bool) (i : Instr) => if b then [i] else []
  (if s.comms.isEmpty && s.hodQ.isEmpty then []
   else (List.range 4).flatMap (fun d =>
     -- landings of a Hod in one clk go in order of issue (02 R53)
     let early := match (s.verdicts d).head?, (s.landings d).head? with
       | some v, some l => decide (v.2.2.1.id < l.2.2.1.id)
       | _, _ => false
     Instr.chunkBegin d :: if early then [.collectiveComplete d, .chunkLand d] else [.chunkLand d, .collectiveComplete d])) ++
  q (!s.crownQ.isEmpty) .crownComplete ++ q (!s.brimQ.isEmpty) .brimComplete ++
  ((s.broadcasts.map (fun b => b.set)).eraseDups).map Instr.broadcastLand

/-- Steps of the links: ports that fail, and ranks that no route reaches. -/
noncomputable def State.linkSteps (s : State) : List Instr :=
  let q := fun (b : Bool) (i : Instr) => if b then [i] else []
  s.links.flatMap (fun x => q (x.2.up && decide (16 < x.2.fails)) (.portRetrain x.1) ++ q (s.portFails x.1) (.portDown x.1)) ++
  s.comms.flatMap (fun y => match y.2 with
    | some x => if x.lost.isSome then []
        else (((List.range x.nrank).filter (fun r => x.node r != s.nodeId.toNat && !s.reaches (x.node r))).take 1).map (Instr.memberLost y.1)
    | none => [])

/-- Every step that can be made now. (log 2: DESIGN CHOICE) -/
noncomputable def State.readySteps (s : State) : List Instr :=
  (if s.clk % Config.clampInterval = 0 then [Instr.clampTick] else []) ++
  s.tiles.flatMap (fun x => s.tileSteps x.1 ++ s.tileUpkeep x.1) ++
  (List.range 16).flatMap s.vfSteps ++ s.gangSteps ++ s.hubSteps ++ s.linkSteps

/-- Inputs from outside that have come by now, and those still to come. -/
def State.takeInputs (s : State) : List Instr × List (Nat × Instr) :=
  ((s.inputs.filter (fun x => decide (x.1 ≤ s.clk))).map (fun x => x.2), s.inputs.filter (fun x => decide (s.clk < x.1)))

/-- What comes when no core has a bundle left to issue in this clk. -/
noncomputable def State.nextClk (s : State) : State :=
  let s := s.tick
  let i := s.takeInputs
  { s with inputs := i.2, agenda := s.agenda ++ i.1 ++ (if s.manual then [] else s.readySteps) }

end Sys2Proof.Machine
end

