-- ==== Sys2Proof/Machine/Step.lean ====
section
/-! DEFINITION. One step of the module: the next engine or host step, else the next bundle of this clk, else the next
clk; and the state in which a given word is what the next step fetches. -/
namespace Sys2Proof.Machine

/-- One step. -/
noncomputable def step (s : State) : Host.Outcome State Fault Refusal :=
  match s.agenda with
  | i :: rest => exec i { s with agenda := rest }
  | [] =>
    match s.nextLive with
    | some t => .next ((s.turn t).issue t)
    | none => .next s.nextClk

/-- The state with a slot word of the table as the bundle that the next step fetches; other rows leave it as it is.
(log 1: DESIGN CHOICE) -/
def State.withFetchWord (s : State) (nbits w : Nat) : State :=
  match tableBytes nbits w with
  | some bs => s.placeBundle bs
  | none => s

end Sys2Proof.Machine
end

