-- ==== Sys2Proof/Machine/Registers.lean ====
section
/-! DEFINITION. What the host reads: BAR0 of a function and its configuration space (00 R6, R7, R11, R12, 02 R39, 15 R327, R328,
R337, 16 R341 to R343, R345). -/
namespace Sys2Proof.Machine

/-- LQTAIL and LQSTAT of a queue (02 R39). -/
def LaunchQ.tailReg (x : LaunchQ) : Word := x.tail.setWidth 64
def LaunchQ.statReg (x : LaunchQ) : Word := BitVec.ofNat 64 (2 ^ 63 * x.halt.toNat + x.head.toNat)

/-- CLBAL, CLRSV, CLCFG and CLBASE, 8 bytes apart in the order of 16 R345; the physical function has no account.
(log 139: DESIGN CHOICE) -/
def State.clampReg (s : State) (fn i : Nat) : Word :=
  let x := s.vf fn
  if i = 3 then Config.clampBase.setWidth 64
  else if 16 ≤ fn then 0
  else if i = 0 then BitVec.ofInt 64 x.balance
  else if i = 1 then BitVec.ofNat 64 x.rv
  else BitVec.ofNat 64 (2 ^ 28 * (x.cap / 256) + x.share % 2 ^ 12)

/-- LQMARK of a virtual function, partition and half (15 R328). -/
def State.markReg (s : State) (v part h : Nat) : Word :=
  BitVec.ofNat 64 (((List.range 32).map (fun i => ((s.vf v).queue part (32 * h + i)).mark % 4 * 4 ^ i)).sum)

/-- SECNTn: the events of class n on all dies together, saturating (15 R337). -/
def State.errorReg (s : State) (n : Nat) : Word :=
  BitVec.ofNat 64 (Nat.min (2 ^ 32 - 1) ((List.range 5).map (fun u => (Sparse.get 0 s.secnt (16 * u + n)).toNat)).sum)

/-- A read of 64 bits of BAR0 of a function (16 is the physical one): what is reserved reads zero; a module in recovery
answers none (16 R342, R343). -/
def State.barRead (s : State) (fn off : Nat) : Option Word :=
  if !s.boot.running || off % 8 != 0 || decide (2 ^ 20 ≤ off) then none
  else some (
    if 0x10000 ≤ off ∧ off < 0x10020 then s.clampReg fn ((off - 0x10000) / 8)
    else if 0x20000 ≤ off ∧ off < 0x20800 ∧ fn < 16 then
      let x := (s.vf fn).queue ((off - 0x20000) / 0x400) ((off - 0x20000) / 16 % 64)
      if off % 16 = 0 then x.tailReg else x.statReg
    else if 0x30000 ≤ off ∧ off < 0x30080 ∧ fn = 16 then s.errorReg ((off - 0x30000) / 8)
    else if off = 0x30080 ∧ fn = 16 then s.dropRec
    else if 0x40000 ≤ off ∧ off < 0x40200 ∧ fn = 16 then s.markReg ((off - 0x40000) / 32) (off / 16 % 2) (off / 8 % 2)
    else 0)

/-- Registers of a function's configuration space (00 R11, R12). -/
inductive ConfigReg where
  | vendorId | deviceId | revisionId | dvsecId | zident
  deriving DecidableEq, Repr

/-- A read of configuration space; it answers in recovery too for the physical function, and virtual functions see a copy of
ZIDENT (00 R11, 16 R341, R343). -/
def State.configRead (s : State) (fn : Nat) (r : ConfigReg) : Option Word :=
  if !s.boot.running && decide (fn < 16) then none
  else some (match r with
    | .vendorId => 0x1E6C
    | .deviceId => if fn < 16 then 0x7A91 else 0x7A90
    | .revisionId => BitVec.ofNat 64 (bits s.boot.zident.toNat 47 40)
    | .dvsecId => if fn < 16 then 0 else 9
    | .zident => s.boot.zident)

end Sys2Proof.Machine
end

