-- ==== Sys2Proof/Safety.lean ====
section
/-! DEFINITION. What the statements are written in: the canonical form of the memories, what an instruction that
completes leaves changed, and what a strand owes after it (results land at their write clk, 04 R88). -/
namespace Sys2Proof.Machine

/-! ### Canonical forms -/

/-- The canonical form of the module's memory: of the bytes, tags and poison of T0, T1 and T2, and of the bytes
and tags that Mortar holds: addresses strictly rise, and none lists what an unlisted one reads as. -/
def Memory.wf (s : State) : Bool :=
  Sparse.wf 0 s.mem && Sparse.wf false s.tags && Sparse.wf false s.poison && Sparse.wf none s.mdata &&
    Sparse.wf none s.mtags

/-- The canonical form of a tile's scratchpad and of its tags. -/
def Tile.spadWf (t : Tile) : Bool := Sparse.wf 0 t.spad && Sparse.wf false t.spadTag

/-! ### Completion -/

/-- The instruction completes: exec answers a next state, and P holds of it. -/
def Completes (i : Instr) (s : State) (P : State → Prop) : Prop := ∃ t, exec i s = .next t ∧ P t

/-- Every byte and tag of memory at its point of coherence, and every byte and tag of every scratchpad, reads as before. -/
def SameMemory (s t : State) : Prop :=
  (∀ a, t.pocByte a = s.pocByte a) ∧ (∀ u, t.pocTag u = s.pocTag u) ∧
    (∀ x off, t.spadByte x off = s.spadByte x off) ∧
    (∀ x u, Sparse.get false (t.tile x).spadTag u = Sparse.get false (s.tile x).spadTag u)

/-- Nothing of the module differs but the context that holds the core of the current tile. -/
def OnlyStrand (s t : State) : Prop := t = s.setCtx t.ctx

/-! ### Results owed (04 R88) -/

/-- The context owes write w at a clk. -/
def Ctx.Owes (c : Ctx) (due : Nat) (w : Wr) : Prop := ∃ p ∈ c.pending, p.due = due ∧ w ∈ p.writes

/-- t is s but for what the current strand owes; and beside what it owed, it owes at clk `due` the writes that satisfy W,
and nothing else. -/
structure Owed (s : State) (due : Nat) (W : Wr → Prop) (t : State) : Prop where
  only : t = s.setCtx { s.ctx with pending := t.ctx.pending }
  owes : ∀ d w, t.ctx.Owes d w ↔ s.ctx.Owes d w ∨ (d = due ∧ W w)

/-- A register result of a scalar slot (04 R87, R88): after n clk, the members of the group at dst unless NW is set, the
lowest member in the latch, and the flags. -/
def ScalarResult (s : State) (f : SFields) (n latch : Nat) (vs : List Word) (flags : BitVec 4) (t : State) : Prop :=
  Owed s (s.clk + n) (fun w =>
    (f.nw = 0 ∧ ∃ i v, vs[i]? = some v ∧ w = .sreg (f.dst.toNat + i) v) ∨
      w = .latch latch (vs.headD 0) ∨ (flags ≠ 0 ∧ w = .satf flags)) t

/-- A predicate result of a scalar slot: p(dst mod 16) unless NW is set, and 1 or 0 in the latch (17 R366). -/
def PredicateResult (s : State) (f : SFields) (n latch : Nat) (b : Bool) (t : State) : Prop :=
  Owed s (s.clk + n) (fun w =>
    (f.nw = 0 ∧ w = .preg (f.dst.toNat % 16) b) ∨ w = .latch latch (if b then 1 else 0)) t

/-! ### Results of vector slots (05 R115, 20 R432) -/

/-- What a V slot owes for a cluster: after n clk, registers for the active lanes of the group at dst unless NW is set, the
lowest of them in a latch with zero in inactive lanes, and flags. `pred` is the predicate that makes lanes active. -/
def VDelivers (s : State) (f : VFields) (pred : BitVec 4) (cl n latch : Nat) (regs : List Vec) (flags : BitVec 4)
    (d : Nat) (w : Wr) : Prop :=
  let mask := laneMask (activeLanes s.ctx cl pred)
  d = s.clk + n ∧
    ((f.nw = 0 ∧ ∃ i v, regs[i]? = some v ∧ w = .vreg cl (f.dst.toNat + i) mask v) ∨
      w = .vlatch cl latch (regs.headD 0 &&& mask) ∨ (flags ≠ 0 ∧ w = .satf flags))

/-- The same for results given as elements of b bits: g registers of them, and the flags that elements for active lanes
raise. -/
def VElements (s : State) (f : VFields) (cl n latch b g : Nat) (es : List FRes) (d : Nat) (w : Wr) : Prop :=
  VDelivers s f f.pred cl n latch (groupOf b g (es.map (fun x => x.code)))
    ((liveFlags b (activeLanes s.ctx cl f.pred) es).foldl (fun x y => x ||| y) 0) d w

/-- t is s but for this: beside what it owed, the current strand owes in every cluster that the slot reaches the writes W;
VF0, where it is free, is held for `hold` clk (04 R89); the draw counter has advanced by `draws` (20 R433); and with `takes`
the head of vb4 is read (04 R90). -/
structure VOwed (s : State) (f : VFields) (hold draws : Nat) (takes : Prop) (W : Nat → Nat → Wr → Prop) (t : State) :
    Prop where
  only : t = (s.setTile s.cur { s.tile s.cur with vf0 := (t.tile s.cur).vf0 }).setCtx
    { s.ctx with pending := t.ctx.pending, popped := t.ctx.popped, draws := t.ctx.draws }
  owes : ∀ d w, t.ctx.Owes d w ↔ s.ctx.Owes d w ∨ ∃ cl ∈ clustersOf f.target, W cl d w
  held : ∀ cl, Sparse.get 0 (t.tile s.cur).vf0 cl =
    if cl ∈ clustersOf f.target ∧ hold ≠ 0 ∧ Sparse.get 0 (s.tile s.cur).vf0 cl ≤ s.clk then s.clk + hold
    else Sparse.get 0 (s.tile s.cur).vf0 cl
  drawn : ∀ cl, t.ctx.readDraw cl =
    if cl ∈ clustersOf f.target ∧ draws ≠ 0 then (s.ctx.readDraw cl + draws) % 2 ^ 48 else s.ctx.readDraw cl
  ports : ∀ n, n ∈ t.ctx.popped ↔ n ∈ s.ctx.popped ∨ (takes ∧ ∃ cl ∈ clustersOf f.target, n = 16 + cl)

/-- The operand srcB is readable in every cluster that the slot reaches: B gives its registers. -/
def vReadable (s : State) (f : VFields) (B : Nat → List Vec) : Prop :=
  ∀ cl ∈ clustersOf f.target, ∃ c, readVSrcB s.ctx cl f = .ok (B cl, c)

/-- srcB is the return port vb4. -/
def vTakes (f : VFields) : Prop := f.bsel = 1 ∧ f.srcB = 4

/-- The rounding mode of element e in cluster cl: VRM's, or under stochastic rounding the draw of the element (06 R132). -/
def vMode (s : State) (code cl e : Nat) : RMode :=
  if code = 4 then .sr (drawFor (s.ctx.readCsr 0x0D) cl (s.ctx.readDraw cl) e) else modeOf code 0

/-- The latch of a float result: vb0 where VF0 is free, else vb1 (04 R89). -/
def vfLatch (s : State) (cl : Nat) : Nat := if Sparse.get 0 (s.tile s.cur).vf0 cl ≤ s.clk then 0 else 1

/-! ### Conditions and lists that several statements share -/

/-- R111: a guard holds when p(pred) xor sense is 1. -/
def guardTrue (s : State) (pred : BitVec 4) (sense : BitVec 1) : Prop :=
  xor (s.ctx.readP pred.toNat) (sense = 1) = true

/-- The instructions of the block commands with their subcodes, whether they are marked PF, and the size of their blocks
(R421 to R425). -/
def blockRows (f : SyscFields) (P : Instr → Nat → Bool → Nat → Prop) : Prop :=
  P (.syscCourse f) 0x02 false 64 ∧ P (.syscSave f) 0x03 false 64 ∧ P (.syscRestore f) 0x04 false 64 ∧
  P (.syscFlr f) 0x05 true 64 ∧ P (.syscWarm f) 0x06 true 64 ∧ P (.syscAssign f) 0x07 true 64 ∧
  P (.syscVfcfg f) 0x08 true 64 ∧ P (.syscLqcfg f) 0x09 false 64 ∧ P (.syscWcset f) 0x0A false 64 ∧
  P (.syscCtxtab f) 0x0B false 64 ∧ P (.syscObjtab f) 0x0C false 64 ∧ P (.syscObjinv f) 0x0D false 64 ∧
  P (.syscTraparea f) 0x0E false 64 ∧ P (.syscSupq f) 0x0F false 64 ∧ P (.syscWatch f) 0x10 false 64 ∧
  P (.syscTwm f) 0x11 false 64 ∧ P (.syscPnrp f) 0x12 true 64 ∧ P (.syscStage f) 0x13 false 64 ∧
  P (.syscComreg f) 0x14 false 64 ∧ P (.syscVcshare f) 0x15 true 64 ∧ P (.syscNode f) 0x16 true 64 ∧
  P (.syscRoute f) 0x17 true 64 ∧ P (.syscCrownset f) 0x18 false 128 ∧ P (.syscTjring f) 0x19 false 64 ∧
  P (.syscSecnt f) 0x1A false 64 ∧ P (.syscMonsel f) 0x1B true 64

/-- The strand that issues owes its request path nothing: no fence, read, store, summary operation or logged store of it is
waiting. -/
def Quiet (s : State) : Prop :=
  s.ctx.fences = [] ∧ s.ctx.owesRead = false ∧ s.ctx.storeQ = [] ∧ (s.tile s.cur).logged s.curCtx = false ∧
    (s.tile s.cur).owesSummary s.curCtx s.ctx.num = false ∧ (s.tile s.cur).requestFull = false

/-- No write waits at a home slice for the host, and none of the tile's that a store to a doorbell at p would release. -/
def HostClear (s : State) (p : Place) : Prop := s.biQ = [] ∧ (s.rings p = true → s.hostOwes s.cur = false)

/-- The strand's next access has the number that follows. -/
def numbered (s : State) : State := s.setCtx { s.ctx with num := s.ctx.num + 1 }

/-- A byte of memory as a context of a tile reads it: from the tile's L1 where the sector is there, else from its point of
coherence (10 R200, 12 R249). -/
def State.viewByte (s : State) (t pa : Nat) : Byte :=
  match (s.tile t).l1Get (pa / 64) with
  | some x => vecByte x.data (pa % 64)
  | none => s.pocByte pa

/-- A write of bytes to the scratchpad of the current tile changes exactly the bytes from o on, clears the tags of the 16-byte
units it touches, and changes nothing else but the poison of sectors that it covers whole. -/
def ScratchpadWritten (s : State) (o : Nat) (bs : List Byte) (t : State) : Prop :=
  (∀ x q, t.spadByte x q = if x = s.cur ∧ o ≤ q ∧ q < o + bs.length then bs.getD (q - o) 0 else s.spadByte x q) ∧
  (∀ u, Sparse.get false (t.tile s.cur).spadTag u =
    if bs ≠ [] ∧ o / 16 ≤ u ∧ u ≤ (o + bs.length - 1) / 16 then false else Sparse.get false (s.tile s.cur).spadTag u) ∧
  t = s.setTile s.cur { s.tile s.cur with
    spad := (t.tile s.cur).spad, spadTag := (t.tile s.cur).spadTag, spadPoison := (t.tile s.cur).spadPoison }

/-! ### Engines -/

/-- The entry of a strand's return port that waits for operation id has the status v, where NR is clear (04 R90). -/
def Answered (s u : State) (i : Issuer) (nr : Bool) (port id v : Nat) : Prop :=
  ∀ t, s.crewTile i.gang i.crew = some t → (u.ctxAt t i.ctx).port port = ((s.ctxAt t i.ctx).port port).map (fun e =>
    if e.cmd = some id ∧ nr = false then { e with cmd := none, value := BitVec.ofNat 512 v, writes := [] } else e)

/-- An engine's operation of a strand whose crew is on a tile ends: its counter rises by k, and its status is v (02 R53). -/
def Ended (s u : State) (i : Issuer) (ct k : Nat) (nr : Bool) (port id v : Nat) : Prop :=
  (∀ t, s.crewTile i.gang i.crew = some t → (u.tile t).readCt ct = (s.tile t).readCt ct + BitVec.ofNat 64 k) ∧
    Answered s u i nr port id v

end Sys2Proof.Machine
end

