-- ==== Sys2Proof/Certificates/Slice0/Obligations.lean ====
section
/-! DEFINITION. The statements about the module, from the rules of spec/ (OBLIGATIONS.json lists them). A hypothesis such as
`s.sSources f readSrcB = .ok (A, B, r)` says that the operands are readable: A and B are their values and r is s with the
return ports marked that the bundle reads. -/
open Sys2Proof Sys2Proof.Machine

/-! ### Scalar slots -/

/-- R106, R83: what srcA and srcB name. A register code gives the group of that register, a latch its content, a return
port its arrived head (taken by the bundle that issues) and blocks without one; an immediate is the signed value of
srcB[6:0] for every element. -/
def Obligations.ScalarSourceForms : Prop :=
  ∀ (c : Ctx) (g : Nat),
    (∀ code, code < 64 → readCode c code g = .ok ((List.range g).map (fun i => c.readS (code + i)), c)) ∧
    (∀ n, isPort n = false → readCode c (64 + n) g = .ok ([c.readB n], c)) ∧
    (∀ n e, isPort n = true → c.portHead n = some e → e.failed = none → e.kld = none → e.arrived = true →
      readCode c (64 + n) g = .ok ([e.value.setWidth 64], c.markPort n)) ∧
    (∀ n, isPort n = true → c.portHead n = none → readCode c (64 + n) g = .block (.port n)) ∧
    (∀ b : BitVec 8, b.toNat < 128 → readSrcB c b g = readCode c b.toNat g) ∧
    (∀ b : BitVec 8, 128 ≤ b.toNat → readSrcB c b g =
      .ok (List.replicate g (BitVec.ofInt 64 (if b.toNat < 192 then (b.toNat : Int) - 128 else (b.toNat : Int) - 256)), c))

/-- R359, R407: ADD, SUB and the bitwise operations of a scalar slot, on every element; the result lands 1 clk later in the
group at dst and in the slot's ALU latch, with NW in the latch alone; nothing else changes.
R405: MUL delivers the low half of the exact product and MULH and MULH.n the high half of the signed and the unsigned
product, 3 clk later, in dst and b2.
R359, R407, R129: ADD.sat and SUB.sat deliver the exact signed result clamped to s64, and raise ISAT exactly when an
element is clamped. -/
def Obligations.ScalarIntegerResults : Prop :=
  (∀ (s r : State) (f : SFields) (A B : List Word), s.sSources f readSrcB = .ok (A, B, r) →
     let latch := if f.inS1 then 1 else 0
     let gives := fun (i : Instr) (fn : Word → Word → Word) =>
       Completes i s (ScalarResult r f 1 latch (List.zipWith fn A B) 0)
     gives (.add f) (fun a b => BitVec.ofNat 64 (a.toNat + b.toNat)) ∧
     gives (.sub f) (fun a b => BitVec.ofInt 64 ((a.toNat : Int) - b.toNat)) ∧
     gives (.and f) (fun a b => a &&& b) ∧ gives (.andn f) (fun a b => a &&& ~~~b) ∧
     gives (.or f) (fun a b => a ||| b) ∧ gives (.xor f) (fun a b => a ^^^ b)) ∧
  (∀ (s r : State) (f : SFields) (A B : List Word), s.sSources f readSrcB = .ok (A, B, r) →
     let gives := fun (i : Instr) (fn : Word → Word → Word) =>
       Completes i s (ScalarResult r f 3 2 (List.zipWith fn A B) 0)
     gives (.mul f) (fun a b => BitVec.ofNat 64 (a.toNat * b.toNat)) ∧
     gives (.mulh f) (fun a b => BitVec.ofInt 64 (a.toInt * b.toInt / 2 ^ 64)) ∧
     gives (.mulhN f) (fun a b => BitVec.ofNat 64 (a.toNat * b.toNat / 2 ^ 64))) ∧
  (∀ (s r : State) (f : SFields) (A B : List Word), s.sSources f readSrcB = .ok (A, B, r) →
     let latch := if f.inS1 then 1 else 0
     let gives := fun (i : Instr) (fn : Int → Int → Int) =>
       Completes i s (ScalarResult r f 1 latch
         (List.zipWith (fun a b => BitVec.ofInt 64 (Max.max (-2 ^ 63) (Min.min (2 ^ 63 - 1) (fn a.toInt b.toInt)))) A B)
         (if (List.zipWith (fun a b : Word => decide (fn a.toInt b.toInt < -2 ^ 63 ∨ 2 ^ 63 ≤ fn a.toInt b.toInt)) A B).any id
           then 1 else 0))
     gives (.addSat f) (fun a b => a + b) ∧ gives (.subSat f) (fun a b => a - b))

/-- R408: the shift count is the whole of b, unsigned; from 64 on SHL and SHR deliver 0 and SAR 64 copies of a[63]. An immediate
count is sign-extended first. -/
def Obligations.ScalarShifts : Prop :=
  ∀ (s r : State) (f : SFields) (A B : List Word), s.sSources f readSrcB = .ok (A, B, r) →
    let latch := if f.inS1 then 1 else 0
    let gives := fun (i : Instr) (fn : Word → Word → Word) =>
      Completes i s (ScalarResult r f 1 latch (List.zipWith fn A B) 0)
    (∀ a b : Word, 64 ≤ b.toNat → BitVec.ofNat 64 (a.toNat * 2 ^ b.toNat) = 0 ∧ BitVec.ofNat 64 (a.toNat / 2 ^ b.toNat) = 0 ∧
      BitVec.ofInt 64 (a.toInt / 2 ^ b.toNat) = if a.getLsbD 63 then 0xFFFFFFFFFFFFFFFF else 0) ∧
    gives (.shl f) (fun a b => BitVec.ofNat 64 (a.toNat * 2 ^ b.toNat)) ∧
    gives (.shr f) (fun a b => BitVec.ofNat 64 (a.toNat / 2 ^ b.toNat)) ∧
    gives (.sar f) (fun a b => BitVec.ofInt 64 (a.toInt / 2 ^ b.toNat)) ∧
    (∀ (c : Ctx) (g : Nat) (b : BitVec 8), 128 ≤ b.toNat → readSrcB c b g =
      .ok (List.replicate g (BitVec.ofInt 64 (if b.toNat < 192 then (b.toNat : Int) - 128 else (b.toNat : Int) - 256)), c))

/-- R401: MAX and MIN compare signed, MAX.n and MIN.n unsigned, on the 64-bit elements of a group, after 1 clk, into dst and the
slot's ALU latch, without a flag. An immediate is sign-extended first. -/
def Obligations.ScalarMaxMin : Prop :=
  ∀ (s r : State) (f : SFields) (A B : List Word), s.sSources f readSrcB = .ok (A, B, r) →
    let latch := if f.inS1 then 1 else 0
    let gives := fun (i : Instr) (fn : Word → Word → Word) =>
      Completes i s (ScalarResult r f 1 latch (List.zipWith fn A B) 0)
    gives (.max f) (fun a b => BitVec.ofInt 64 (Max.max a.toInt b.toInt)) ∧
    gives (.min f) (fun a b => BitVec.ofInt 64 (Min.min a.toInt b.toInt)) ∧
    gives (.maxN f) (fun a b => BitVec.ofNat 64 (Max.max a.toNat b.toNat)) ∧
    gives (.minN f) (fun a b => BitVec.ofNat 64 (Min.min a.toNat b.toNat)) ∧
    (∀ (c : Ctx) (g : Nat) (b : BitVec 8), 128 ≤ b.toNat → readSrcB c b g =
      .ok (List.replicate g (BitVec.ofInt 64 (if b.toNat < 192 then (b.toNat : Int) - 128 else (b.toNat : Int) - 256)), c))

/-- R359, R407, R403: CLZ, CTZ, POPC and MOV, by what they count.
R383, R414: EXT takes the field of LEN bits at POS, sign-extended with SX; INS puts it into dst as read at issue, bit by
bit; SEL takes srcA or dst as read at issue.
R378, R379: with a divisor other than 0 the divides push their result to b6, and owe dst unless NW is set; nothing else
changes.
R378: a divisor of 0 traps DIVZ with TRAPA 0. -/
def Obligations.ScalarDivisionAndBits : Prop :=
  (∃ lead trail ones : Word → Nat,
     (∀ a, lead a ≤ 64 ∧ a.toNat < 2 ^ (64 - lead a) ∧ (lead a < 64 → 2 ^ (63 - lead a) ≤ a.toNat)) ∧
     (∀ a, trail a ≤ 64 ∧ 2 ^ trail a ∣ a.toNat ∧ (trail a < 64 → ¬ 2 ^ (trail a + 1) ∣ a.toNat)) ∧
     (∀ a, ones a = (List.range 64).countP (fun i => a.getLsbD i)) ∧
     ∀ (s : State) (f : SFields) (A : List Word) (c : Ctx), readCode s.ctx f.srcA.toNat (groupSize f.width) = .ok (A, c) →
       let latch := if f.inS1 then 1 else 0
       let gives := fun (i : Instr) (fn : Word → Word) =>
         Completes i s (ScalarResult (s.setCtx c) f 1 latch (A.map fn) 0)
       gives (.clz f) (fun a => BitVec.ofNat 64 (lead a)) ∧ gives (.ctz f) (fun a => BitVec.ofNat 64 (trail a)) ∧
         gives (.popc f) (fun a => BitVec.ofNat 64 (ones a)) ∧ gives (.mov f) (fun a => a)) ∧
  (∀ (s : State) (f : SFields),
     let latch := if f.inS1 then 1 else 0
     let pos := fun (c : Word) => c.toNat % 64
     let len := fun (c : Word) => Min.min (c.toNat / 256 % 128) 64
     (∀ (r : State) (a c : Word), s.sSources f readSrcB = .ok ([a], [c], r) →
       Completes (.ext f) s (ScalarResult r f 1 latch
         [let x := a.toNat / 2 ^ pos c % 2 ^ len c
          if c.getLsbD 15 ∧ 0 < len c ∧ 2 ^ (len c - 1) ≤ x then BitVec.ofInt 64 ((x : Int) - 2 ^ len c)
          else BitVec.ofNat 64 x] 0) ∧
       ∃ v : Word, (∀ i < 64, v.getLsbD i =
           if pos c ≤ i ∧ i < pos c + len c then a.getLsbD (i - pos c) else (s.ctx.readS f.dst.toNat).getLsbD i) ∧
         Completes (.ins f) s (ScalarResult r f 1 latch [v] 0)) ∧
     (∀ (a : Word) (c : Ctx), readCode s.ctx f.srcA.toNat (groupSize f.width) = .ok ([a], c) →
       Completes (.sel f) s (ScalarResult (s.setCtx c) f 1 latch
         [if xor (s.ctx.readP (f.srcB.toNat % 16)) (f.srcB.getLsbD 6) then a else s.ctx.readS f.dst.toNat] 0))) ∧
  (∀ (s r : State) (f : SFields) (a b : Word), s.sSources f readSrcB = .ok ([a], [b], r) → b ≠ 0 →
     let gives := fun (i : Instr) (v : Word) =>
       Completes i s (fun t => t = r.setCtx (r.ctx.setPort 6 (r.ctx.port 6 ++
         [{ value := v.setWidth 512, writes := if f.nw = 0 then [Wr.sreg f.dst.toNat v] else [] }])))
     gives (.div f) (BitVec.ofInt 64 (a.toInt.tdiv b.toInt)) ∧ gives (.divR f) (BitVec.ofInt 64 (a.toInt.tmod b.toInt)) ∧
       gives (.divN f) (BitVec.ofNat 64 (a.toNat / b.toNat)) ∧ gives (.divRn f) (BitVec.ofNat 64 (a.toNat % b.toNat))) ∧
  (∀ (s r : State) (f : SFields) (a : Word), s.sSources f readSrcB = .ok ([a], [0], r) →
     ∀ i ∈ [Instr.div f, .divN f, .divR f, .divRn f], exec i s = .next (s.takeTrap .divz 0))

/-- R366, R385, R409: the compares and PLOG write their condition to the predicate, unless NW is set, and as 1 or 0 to the
latch: after 1 clk in the ALU latch, FCMP after 4 clk in b4. -/
def Obligations.ScalarConditions : Prop :=
  ∀ (s : State) (f : SFields),
    let latch := if f.inS1 then 1 else 0
    (∀ (r : State) (A B : List Word), s.sSources f readSrcB = .ok (A, B, r) →
      let a := A.headD 0
      let b := B.headD 0
      let gives := fun (i : Instr) (p : Prop) => ∃ x : Bool, (x = true ↔ p) ∧ Completes i s (PredicateResult r f 1 latch x)
      gives (.cmpEq f) (a = b) ∧ gives (.cmpNe f) (a ≠ b) ∧ gives (.cmpLt f) (a.toInt < b.toInt) ∧
        gives (.cmpLe f) (a.toInt ≤ b.toInt) ∧ gives (.cmpLtn f) (a.toNat < b.toNat) ∧
        gives (.cmpLen f) (a.toNat ≤ b.toNat)) ∧
    (∀ (r : State) (A B : List Word), s.sSources f readSrcBFp = .ok (A, B, r) →
      let a := f32Of (A.headD 0)
      let b := f32Of (B.headD 0)
      let nan := a.isNan || b.isNan
      let gives := fun (i : Instr) (x : Bool) => Completes i s (PredicateResult r f 4 4 x)
      gives (.fcmpUn f) nan ∧ gives (.fcmpEq f) (!nan && decide (FVal.compare a b = 0)) ∧
        gives (.fcmpLt f) (!nan && decide (FVal.compare a b < 0)) ∧
        gives (.fcmpLe f) (!nan && decide (FVal.compare a b ≤ 0))) ∧
    Completes (.plog f) s (PredicateResult s f 1 latch (f.srcB.getLsbD
      (4 + 2 * (s.ctx.readP (f.srcA.toNat % 16)).toNat + (s.ctx.readP (f.srcB.toNat % 16)).toNat)))

/-- R384, R386: the scalar FP operations read bits [31:0], round once under SRM (FMIN and FMAX exactly, without a flag), and
deliver the code with [63:32] zero, in dst and b4, after 4 clk, FCVT after 3. -/
def Obligations.ScalarFloating : Prop :=
  ∀ (s : State) (f : SFields),
    let m := s.ctx.srm
    let code := fun (r : FRes) => BitVec.ofNat 64 r.code
    let any := fun (rs : List FRes) => rs.foldl (fun x r => x ||| r.flags) (0 : BitVec 4)
    (∀ (r : State) (A B : List Word), s.sSources f readSrcBFp = .ok (A, B, r) →
      let gives := fun (i : Instr) (fn : FVal → FVal → FRes) =>
        let rs := List.zipWith (fun a b => fn (f32Of a) (f32Of b)) A B
        Completes i s (ScalarResult r f 4 4 (rs.map code) (any rs))
      gives (.fadd f) (Machine.fadd fp32 m) ∧ gives (.fmul f) (Machine.fmul fp32 m) ∧
        gives (.fmax f) (fun a b => fround fp32 .rne (Machine.fmax a b)) ∧
        gives (.fmin f) (fun a b => fround fp32 .rne (Machine.fmin a b)) ∧
        let cs := (List.range (groupSize f.width)).map (fun i => s.ctx.readS (f.dst.toNat + i))
        let rs := List.zipWith (fun ab c => Machine.ffma fp32 m (f32Of ab.1) (f32Of ab.2) (f32Of c)) (A.zip B) cs
        Completes (.ffma f) s (ScalarResult r f 4 4 (rs.map code) (any rs))) ∧
    (∀ (A : List Word) (c : Ctx), readCode s.ctx f.srcA.toNat (groupSize f.width) = .ok (A, c) →
      let gives := fun (i : Instr) (fn : Word → Word × BitVec 4) =>
        Completes i s (ScalarResult (s.setCtx c) f 3 4 (A.map (fun a => (fn a).1))
          (A.foldl (fun x a => x ||| (fn a).2) 0))
      gives (.fcvtFs f) (fun a => let x := ftoInt m (-2 ^ 63) (2 ^ 63 - 1) (f32Of a); (BitVec.ofInt 64 x.1, x.2)) ∧
        gives (.fcvtSf f) (fun a => let x := fround fp32 m (ofInt a.toInt); (code x, x.flags)) ∧
        gives (.fcvtFb f) (fun a => let x := fround bf16 m (f32Of a); (code x, x.flags)) ∧
        gives (.fcvtBf f) (fun a => let x := fround fp32 .rne (fdecode bf16 (a.toNat % 2 ^ 16)); (code x, x.flags)))

/-- R367 to R369, R347, R413: CNT, CRD, NRG and RNDS deliver their value in dst and b7 after 2 clk; RNDS draws W(8, n(8)) and
advances n(8); CWR's write lands after 1 clk where R95 and R217 do not refuse it, else it traps ILLOP with reason 0x0C.
R84: the shadow form of MOV writes a halfword of an mw or ew shadow, or all 64 bits, and the ALU latch; with NW the latch
alone.
R396, R398: LIMM delivers its sign-extended immediate to b15 after 1 clk. LDS writes 512 scales of 24 bits, 4 clk later,
from 1,536 bytes of the scratchpad at an offset aligned to 64: scale j from bytes 3j (vector-major), or from 3(128·(j mod 4)
+ j/4) (block-major). -/
def Obligations.CsrUnitShadowsAndScales : Prop :=
  (∀ (s : State) (f : SFields),
     let n := f.srcB.toNat % 128
     Completes (.cnt f) s (ScalarResult s f 2 7 [BitVec.ofNat 64 (Sparse.get 0 (s.tile s.cur).evc n)] 0) ∧
     Completes (.crd f) s (ScalarResult s f 2 7 [s.csrView s.cur s.curCtx n] 0) ∧
     Completes (.nrg f) s (ScalarResult s f 2 7 [s.nrgView s.cur] 0) ∧
     Completes (.rnds f) s (ScalarResult (s.setCtx (s.ctx.writeDraw 8 (s.ctx.readDraw 8 + 1))) f 2 7
       [mix64 (s.ctx.readCsr 0x0D ^^^ mix64 (BitVec.ofNat 64 (8 * 2 ^ 48 + s.ctx.readDraw 8)))] 0) ∧
     ∀ (A : List Word) (c : Ctx), readCode s.ctx f.srcA.toNat 1 = .ok (A, c) →
       (cwrRefuses n (s.tile s.cur).crewSpad (A.headD 0) = false →
         Completes (.cwr f) s (Owed (s.setCtx c) (s.clk + 1) (fun w => w = .csr n (A.headD 0)))) ∧
       (cwrRefuses n (s.tile s.cur).crewSpad (A.headD 0) = true →
         exec (.cwr f) s = .next (s.takeTrap .illop (BitVec.ofNat 64 (0x0C + 256 * (if f.inS1 then 3 else 2)))))) ∧
  (∀ (s : State) (f : ShadowFields) (A : List Word) (c : Ctx), readCode s.ctx f.srcA.toNat 1 = .ok (A, c) →
     let v := A.headD 0
     let i := f.sel.toNat / 4 % 8
     let h := 16 * (f.sel.toNat % 4)
     Completes (.movShadow f) s (Owed (s.setCtx c) (s.clk + 1) (fun w =>
       (f.nw = 0 ∧ f.sel.getLsbD 5 = true ∧ w = .shadow i (BitVec.allOnes 64) v) ∨
       (f.nw = 0 ∧ f.sel.getLsbD 5 = false ∧ w = .shadow i ((0xFFFF : Word) <<< h) (v <<< h)) ∨
       w = .latch (if f.inS1 then 1 else 0) v))) ∧
  (∀ (s : State),
     (∀ imm : BitVec 24, Completes (.limm imm) s (Owed s (s.clk + 1) (fun w => w = .latch 15 (imm.signExtend 64)))) ∧
     ∀ (f : KFields),
       let off := (s.ctx.readS f.base.toNat).toNat % 2 ^ 48 + 64 * f.disp.toNat
       Quiet s → off + 1536 ≤ (s.tile s.cur).crewSpad → off % 64 = 0 → (s.tile s.cur).spadPoison = [] →
       let loads := fun (i : Instr) (at3 : Nat → Nat) => ∃ v : Scales,
         (∀ j < 512, v.toNat / 2 ^ (24 * j) % 2 ^ 24 = bytesNat (s.spadBytes s.cur (off + at3 j) 3)) ∧
         Completes i s (Owed s (s.clk + 4) (fun w => w = .scale f.sc.toNat v))
       loads (.ldsA f) (fun j => 3 * j) ∧ loads (.ldsB f) (fun j => 3 * (128 * (j % 4) + j / 4)))

/-! ### Registers and the clk in which results land -/

/-- R82, R88, R94: what each write of a result leaves in the context's registers; s0 reads zero and p0 true whatever is
written to them, SATF only gains flags, and no other register of the kind changes.
R164: a group of registers holds its elements in order, element e = m × L + l in bits [wl+w−1:wl] of member m; R166: the
mask of a predicate covers the 32 bits of each lane whose bit is 1; R172: a reduction result fills an EMPTY sum latch, and
combines with a full one. -/
def Obligations.ResultsAsElements : Prop :=
  (∀ (c : Ctx),
     (∀ r v q, (c.applyWr (.sreg r v)).readS q = if q = r ∧ r ≠ 0 then v else c.readS q) ∧
     (∀ v, (c.applyWr (.sreg 0 v)).readS 0 = 0) ∧
     (∀ n v q, n < 16 → q < 16 → (c.applyWr (.preg n v)).readP q = if q = n ∧ n ≠ 0 then v else c.readP q) ∧
     (∀ v, (c.applyWr (.preg 0 v)).readP 0 = true) ∧
     (∀ r v q, (c.applyWr (.kreg r v)).readK q = if q = r then v else c.readK q) ∧
     (∀ n v q, (c.applyWr (.latch n v)).readB q = if q = n then v else c.readB q) ∧
     (∀ n v q, (c.applyWr (.scale n v)).readSc q = if q = n then v else c.readSc q) ∧
     (∀ v, (c.applyWr (.satf v)).readCsr 0x0B = c.readCsr 0x0B ||| v.setWidth 64) ∧
     (∀ cl r mask v j, j < 512 → ((c.applyWr (.vreg cl r mask v)).readV cl r).getLsbD j =
       if mask.getLsbD j then v.getLsbD j else (c.readV cl r).getLsbD j) ∧
     (∀ cl n mask v j, j < 16 → ((c.applyWr (.vpred cl n mask v)).readVp cl n).getLsbD j =
       if mask.getLsbD j then v.getLsbD j else (c.readVp cl n).getLsbD j) ∧
     (∀ cl n v, (c.applyWr (.vlatch cl n v)).readVb cl n = v)) ∧
  ((∀ (w g : Nat) (es : List Nat), w ∈ [4, 8, 16, 32] → es.length = g * (512 / w) →
     groupElems w (groupOf w g es) = es.map (fun x => x % 2 ^ w) ∧
     ∀ m l : Nat, m < g → l < 512 / w → ∀ v, (groupOf w g es)[m]? = some v → ∀ i < w,
       v.getLsbD (w * l + i) = (es.getD (m * (512 / w) + l) 0).testBit i) ∧
   (∀ (p : VPred) (j : Nat), j < 512 → (laneMask p).getLsbD j = p.getLsbD (j / 32)) ∧
   (∀ (c : Ctx) (cl n type : Nat) (op : RedOp) (v : Word),
     let l := c.readSum cl n
     let r := if l.full then redNode (redCode op) type (latchAs type l.bits) v else { value := v }
     let t := c.applyWr (.sum cl n op type v)
     t.readSum cl n = { bits := r.value, full := true } ∧ t.readCsr 0x0B = c.readCsr 0x0B ||| r.flags.setWidth 64))

/-- R88: RESULT_WRITEBACK writes the results that are due by now and no others: none that is due stays pending, every later
one does; and a context that owes nothing yet is left as it is.
R88: of two results for one register, the one that is due later remains, and of two due in one clk that of the bundle
issued later (it stands later in the list); a replayed Mould entry is written in the same way (R70). -/
def Obligations.ResultsLandInOrder : Prop :=
  (∀ (s : State) (t c : Nat),
     Completes (.resultWriteback t c) s (fun u =>
       (∀ p ∈ (u.ctxAt t c).pending, s.clk < p.due) ∧
       (∀ p ∈ (s.ctxAt t c).pending, s.clk < p.due → p ∈ (u.ctxAt t c).pending)) ∧
     ((∀ p ∈ (s.ctxAt t c).pending, s.clk < p.due) → exec (.resultWriteback t c) s = .next s ∧
       exec (.mouldReplay t c) s = .next s)) ∧
  (∀ (s : State) (t c : Nat) (p q : Pending) (r : Nat) (a b : Word),
     (s.ctxAt t c).pending = [p, q] → p.writes = [.sreg r a] → q.writes = [.sreg r b] → r ≠ 0 →
     p.due ≤ s.clk → q.due ≤ s.clk →
     ∀ i ∈ [Instr.resultWriteback t c, .mouldReplay t c],
       Completes i s (fun u => (u.ctxAt t c).readS r = (if p.due ≤ q.due then b else a) ∧ (u.ctxAt t c).pending = []))

/-- R80: MSWAP exchanges the whole contents of mh0-mh3 and mw0-mw3, ESWAP those of eh0-eh3 and ew0-ew3, and neither changes
anything else; a bundle of a header alone changes nothing.
R81 reason 1, R421: a slot with opcode 0 or an unassigned code traps ILLOP with reason 1 and its position; an unassigned
SYSC subcode of a supervisor strand, its guard true, with reason 3.
R111, R360, R362, R380, R381, R399, R410, R412, R421, R430, R454, R456, R460: a C-slot instruction whose guard is false
does nothing at all. -/
def Obligations.HeaderAndUnassigned : Prop :=
  (∀ (s : State),
     Completes .mswap s (fun t => t = s.setCtx { s.ctx with shape := t.ctx.shape } ∧
       ∀ i < 4, t.ctx.readShape i = s.ctx.readShape (4 + i) ∧ t.ctx.readShape (4 + i) = s.ctx.readShape i ∧
         t.ctx.readShape (8 + i) = s.ctx.readShape (8 + i) ∧ t.ctx.readShape (12 + i) = s.ctx.readShape (12 + i)) ∧
     Completes .eswap s (fun t => t = s.setCtx { s.ctx with shape := t.ctx.shape } ∧
       ∀ i < 4, t.ctx.readShape (8 + i) = s.ctx.readShape (12 + i) ∧ t.ctx.readShape (12 + i) = s.ctx.readShape (8 + i) ∧
         t.ctx.readShape i = s.ctx.readShape i ∧ t.ctx.readShape (4 + i) = s.ctx.readShape (4 + i)) ∧
     exec .emptyBundle s = .next s) ∧
  (∀ (s : State) (pos : Nat) (w : BitVec 64),
     (¬ (pos = 1 ∧ w.toNat / 2 ^ 24 = 0x0C) →
       exec (.unassignedCode pos w) s = .next (s.takeTrap .illop (BitVec.ofNat 64 (1 + 256 * pos)))) ∧
     (pos = 1 → w.toNat / 2 ^ 24 = 0x0C → guardHolds s.ctx (BitVec.ofNat 4 (w.toNat / 2 ^ 20)) (BitVec.ofNat 1 (w.toNat / 2 ^ 19)) = true →
       s.curMark ≠ 0 → exec (.unassignedCode pos w) s = .next (s.takeTrap .illop 0x103))) ∧
  (∀ (s : State),
     (∀ f : CFields, ¬ guardTrue s f.pred f.sense →
       ∀ i ∈ [Instr.barc f, .barg f, .bargA f, .brc f, .call f, .eret f, .exit f, .loop f, .probe f, .ret f, .trap f, .waitc f,
         .waitvEq f, .waitvNe f, .waitvGe f, .yield f], exec i s = .next s) ∧
     (∀ f : SyscFields, ¬ guardTrue s f.pred f.sense →
       ∀ i ∈ [Instr.syscTsel f, .syscCourse f, .syscSave f, .syscRestore f, .syscFlr f, .syscWarm f, .syscAssign f, .syscVfcfg f,
         .syscLqcfg f, .syscWcset f, .syscCtxtab f, .syscObjtab f, .syscObjinv f, .syscTraparea f, .syscSupq f, .syscWatch f,
         .syscTwm f, .syscPnrp f, .syscStage f, .syscComreg f, .syscVcshare f, .syscNode f, .syscRoute f, .syscCrownset f,
         .syscTjring f, .syscSecnt f, .syscMonsel f], exec i s = .next s))

/-! ### The control slot -/

/-- R362, R400, R49: BR, and BRC whose guard is true, transfer control to B + 2 × OFF modulo 2^64, pop the loop entries that
do not contain the target, and make a rotation point where the target is not above B; nothing else changes.
R363, R412: CALL pushes the offset that sequential fetch reaches next, and RET fetches at the offset it pops; both are
rotation points and leave the loop stack as it is. A full and an empty stack trap BADDESC with 0x10 and 0x12.
R381, R430, R460: EXIT stops the strand's fetch, YIELD makes its bundle a rotation point whether or not the quantum has
expired, and TRAP takes TRAPI with the 16-bit code in TRAPA. -/
def Obligations.TransfersOfControl : Prop :=
  (∀ (s : State) (f : CFields),
     let target := (((s.ctx.pc : Int) + 2 * f.opnd.toInt) % 2 ^ 64).toNat
     let after := s.setCtx { s.ctx with
       npc := some target
       loops := s.ctx.loops.filter (fun e => decide (e.start ≤ target ∧ target ≤ e.stop))
       rot := if target ≤ s.ctx.pc ∨ 2 ^ 63 ≤ target then 1 else 0 }
     exec (.br f) s = .next after ∧ (guardTrue s f.pred f.sense → exec (.brc f) s = .next after)) ∧
  (∀ (s : State) (f : CFields), guardTrue s f.pred f.sense →
     (s.ctx.callStack.length < 16 → exec (.call f) s = .next (s.setCtx { s.ctx with
       npc := some (((s.ctx.pc : Int) + 2 * f.opnd.toInt) % 2 ^ 64).toNat
       callStack := s.ctx.seqpc :: s.ctx.callStack
       rot := 1 })) ∧
     (16 ≤ s.ctx.callStack.length → exec (.call f) s = .next (s.takeTrap .baddesc 0x10)) ∧
     (∀ t rest, s.ctx.callStack = t :: rest → exec (.ret f) s = .next (s.setCtx { s.ctx with
       npc := some t
       callStack := rest
       rot := 1 })) ∧
     (s.ctx.callStack = [] → exec (.ret f) s = .next (s.takeTrap .baddesc 0x12))) ∧
  (∀ (s : State) (f : CFields), guardTrue s f.pred f.sense →
     exec (.exit f) s = .next (s.setCtx { s.ctx with run := .exiting }) ∧
     exec (.yield f) s = .next (s.setCtx { s.ctx with rot := 2 }) ∧
     exec (.trap f) s = .next (s.trapAt s.cur s.curCtx 0 .trapi (BitVec.ofNat 64 (f.opnd.toNat % 2 ^ 16))))

/-- R399, R400: LOOP pushes START, END and the low 32 bits of its count, skips to the bundle after END when they are 0, and
traps BADDESC with 0x11 on a full stack; a bundle at END of the top entry that transfers no control repeats the body while
REM exceeds 1, and pops the entry when it is 1. -/
def Obligations.LoopsRepeatTheBody : Prop :=
  ∀ (s : State) (f : CFields),
    let count := (s.ctx.readS (f.opnd.toNat / 2 ^ 13)).toNat % 2 ^ 32
    let stop := s.ctx.pc + 2 * (f.opnd.toNat % 2 ^ 13)
    (guardTrue s f.pred f.sense →
      (count ≠ 0 → s.ctx.loops.length < 4 → exec (.loop f) s = .next (s.setCtx { s.ctx with
        loops := { start := s.ctx.seqpc, stop, rem := count } :: s.ctx.loops })) ∧
      (count = 0 → exec (.loop f) s = .next (s.setCtx { s.ctx with npc := some stop, skip := true })) ∧
      (count ≠ 0 → 4 ≤ s.ctx.loops.length → exec (.loop f) s = .next (s.takeTrap .baddesc 0x11))) ∧
    ∀ (c : Ctx) (e : LoopEntry) (rest : List LoopEntry), c.npc = none → c.loops = e :: rest → e.stop = c.pc →
      (1 < e.rem → c.loopEnd = { c with
        npc := some e.start
        loops := { e with rem := e.rem - 1 } :: rest
        rot := Max.max c.rot 1 }) ∧
      (e.rem ≤ 1 → c.loopEnd = { c with loops := rest })

/-- R361: a BARC with its RELEASED bit set issues and clears it; with the bit clear it blocks while another participant has
not arrived, and completes the episode as the last to arrive: it issues, and every other participant is released.
R360, R361: in a gang with GBAR, a BARG with its RELEASED bit set issues and clears it; a BARG.a of a strand that has not
arrived arrives without waiting, and while a strand of another crew has not arrived, its episode stays open.
R360, R31: a barrier in a landing handler traps BADDESC, with 1 for BARC and 2 for the others; BARG and BARG.a in a gang
without GBAR trap ILLOP with reason 0x0A. -/
def Obligations.Barriers : Prop :=
  (∀ (s : State) (f : CFields), guardTrue s f.pred f.sense → s.ctx.handler = false →
     (s.ctx.relCrew = true → exec (.barc f) s = .next (s.setCtx { s.ctx with relCrew := false })) ∧
     (s.ctx.relCrew = false → (s.tile s.cur).settled s.curCtx = true → s.ctx.participates = true → s.curCtx < 4 →
       let others := (List.range 4).filter (fun c => decide (c ≠ s.curCtx) && (s.ctxAt s.cur c).participates)
       ((∃ c ∈ others, (s.ctxAt s.cur c).atBarc = false) →
         exec (.barc f) s = .next ((s.block s.cur s.curCtx .barc).episodes s.cur)) ∧
       ((∀ c ∈ others, (s.ctxAt s.cur c).atBarc = true) →
         Completes (.barc f) s (fun t => t.ctx = s.ctx ∧ t.curCtx = s.curCtx ∧
           ∀ c ∈ others, t.ctxAt s.cur c = { s.ctxAt s.cur c with relCrew := true })))) ∧
  (∀ (s : State) (f : CFields) (w : Crew) (g : Gang), guardTrue s f.pred f.sense → s.ctx.handler = false →
     (s.tile s.cur).crew = some w → s.gang w.gang = some g → g.gbar.isSome = true →
     (s.ctx.relGang = true → exec (.barg f) s = .next ((s.setCtx { s.ctx with relGang := false }).join s.cur s.curCtx) ∧
       (s.ctx.owesRead = false → Completes (.barg f) s (fun t => t.ctx = { s.ctx with relGang := false } ∧ SameMemory s t))) ∧
     (s.ctx.bargA = none → s.ctx.heldBack = false → (s.tile s.cur).sideLog = [] → (s.tile s.cur).sumq = [] →
       (s.tile s.cur).l1 = [] →
       ∀ (j u : Nat) (c : Nat), j < g.tiles.length → g.retired.contains j = false → g.tiles.getD j none = some u → u ≠ s.cur →
         c < 4 → (s.ctxAt u c).participates = true → (s.ctxAt u c).atBarg = false →
         exec (.bargA f) s = .next (s.setCtx { s.ctx with bargA := some (f.opnd.toNat / 2 ^ 11) }))) ∧
  (∀ (s : State) (f : CFields), guardTrue s f.pred f.sense →
     (s.ctx.handler = true → exec (.barc f) s = .next (s.takeTrap .baddesc 1) ∧
       ∀ w g, (s.tile s.cur).crew = some w → s.gang w.gang = some g → g.gbar.isSome = true →
         exec (.barg f) s = .next (s.takeTrap .baddesc 2) ∧ exec (.bargA f) s = .next (s.takeTrap .baddesc 2)) ∧
     ((∀ w g, (s.tile s.cur).crew = some w → s.gang w.gang = some g → g.gbar = none) →
       exec (.barg f) s = .next (s.takeTrap .illop 0x10A) ∧ exec (.bargA f) s = .next (s.takeTrap .illop 0x10A)))

/-- R454: WAITC issues when ct(N) is at least s(V), both unsigned, and joins what it has observed, clean sectors leaving the
tile's L1, or, while earlier reads are owed, a FENCE.ld at device scope entering the request queue; else it blocks.
R455, R456: WAITV of a strand that owes nothing reads the word at its point of coherence and issues when it equals, differs
from or is at least (unsigned) s(V), taken to its size; else it blocks. -/
def Obligations.WaitInstructions : Prop :=
  (∀ (s : State) (f : CFields), guardTrue s f.pred f.sense →
     let n := f.opnd.toNat / 2 ^ 11
     let v := s.ctx.readS (f.opnd.toNat / 2 ^ 5 % 2 ^ 6)
     (v.toNat ≤ ((s.tile s.cur).readCt n).toNat →
       (s.ctx.owesRead = false → Completes (.waitc f) s (fun t =>
          t = s.setTile s.cur { s.tile s.cur with l1 := (t.tile s.cur).l1 } ∧
          ∀ sec x, (t.tile s.cur).l1Get sec = some x → x.dirty.isSome = true)) ∧
       (s.ctx.owesRead = true → exec (.waitc f) s = .next (s.setCtx { s.ctx with
          num := s.ctx.num + 1, fences := s.ctx.fences ++ [{ kind := 1, scope := 4, num := s.ctx.num }] }))) ∧
     (((s.tile s.cur).readCt n).toNat < v.toNat →
       exec (.waitc f) s = .next ((s.block s.cur s.curCtx (.waitc n v)).episodes s.cur))) ∧
  (∀ (s u : State) (f : CFields) (cap : TCap) (p : Place) (bs : List Byte), guardTrue s f.pred f.sense →
     let n := if f.opnd.toNat % 4 = 3 then 8 else 4
     let k := f.opnd.toNat / 2 ^ 14
     let off := (s.ctx.readS (f.opnd.toNat / 2 ^ 8 % 2 ^ 6)).toNat % 2 ^ 48
     let v := s.ctx.readS (f.opnd.toNat / 2 ^ 2 % 2 ^ 6)
     let m := v.toNat % 2 ^ (8 * n)
     readCapReg s.ctx k = .ok cap → s.check cap off n rR n .load = .ok p → Quiet s →
     s.watch cap off n true false p = .ok () → s.readPlace s.cur s.curCtx p n .home false = some (bs, u) →
     let acts := fun (i : Instr) (cond : Nat) (holds : Prop) =>
       (holds → exec i s = .next u) ∧
       (¬ holds → exec i s = .next ((s.block s.cur s.curCtx (.waitv cond k off n v)).episodes s.cur))
     acts (.waitvEq f) 0 (bytesNat bs = m) ∧ acts (.waitvNe f) 1 (bytesNat bs ≠ m) ∧ acts (.waitvGe f) 2 (m ≤ bytesNat bs))

/-- R218, R410: PROBE with its cache on, in a page that its capability covers. On a hit it pushes the slot to b14; on a miss
with a fill of the block pending it pushes that slot and branches; else it takes a slot, starts a fill and branches. -/
def Obligations.ProbeLooksUp : Prop :=
  ∀ (s : State) (f : CFields) (cap : TCap) (pasid va : Nat) (obj : Option Nat) (q : Place), guardTrue s f.pred f.sense →
    let x := s.tile s.cur
    let off := (s.ctx.readS (f.opnd.toNat / 2 ^ 8 % 2 ^ 6)).toNat % 2 ^ 48
    let miss := (((s.ctx.pc : Int) + 2 * (BitVec.ofNat 8 f.opnd.toNat).toInt) % 2 ^ 64).toNat
    readCapReg s.ctx (f.opnd.toNat / 2 ^ 14) = .ok cap → probeOn x.probecfg = true → probeSlots x.probecfg ≠ 0 →
    s.check cap off 1 rR 1 .load = .ok (.virt pasid va obj) → va % 4096 ≤ off →
    s.check cap (off - va % 4096) 4096 rR 1 .load = .ok q →
    (∀ j, x.probeFind pasid (va / 4096) false = some j →
      Completes (.probe f) s (fun t => t.ctx.npc = s.ctx.npc ∧
        t.ctx.port 14 = s.ctx.port 14 ++ [{ value := BitVec.ofNat 512 j }])) ∧
    (∀ j, x.probeFind pasid (va / 4096) false = none → x.probeFind pasid (va / 4096) true = some j →
      Completes (.probe f) s (fun t => t.ctx.npc = some miss ∧
        t.ctx.port 14 = s.ctx.port 14 ++ [{ value := BitVec.ofNat 512 j }])) ∧
    (x.probeFind pasid (va / 4096) false = none → x.probeFind pasid (va / 4096) true = none → x.subtreeEligible 1 = true →
      Completes (.probe f) s (fun t => t.ctx.npc = some miss ∧ ∃ j fill,
        t.ctx.port 14 = s.ctx.port 14 ++ [{ value := BitVec.ofNat 512 j }] ∧
        Sparse.get none (t.tile s.cur).fills j = some fill ∧ fill.blk = va / 4096 ∧ fill.pasid = pasid ∧
        ((t.tile s.cur).probeSlot j).pending = true ∧ ((t.tile s.cur).probeSlot j).blk = va / 4096))

/-- R329, R421: TSEL of a supervisor strand sets ERTGT 1 clk later from bits [9:0] and [16] of its register (bit 63 is the
model's mark of a set target); ERET then makes a TRAPPED strand of its virtual function ready at TRAPPC, to resume at the
next bundle with SKIP or after TRAPI, without watches for one bundle after WATCH, and clears ERTGT; but for a barrier that the
strand's return completes, nothing else of the supervisor strand changes. -/
def Obligations.SupervisorReturn : Prop :=
  ∀ (s : State), s.curMark ≠ 0 →
    (∀ f : SyscFields, guardTrue s f.pred f.sense → Completes (.syscTsel f) s
      (Owed s (s.clk + 1) (fun w => w = .ertgt ((s.ctx.readS f.arg.toNat &&& 0x103FF) ||| 0x8000000000000000)))) ∧
    (∀ f : CFields, guardTrue s f.pred f.sense →
      let g := s.ctx.ertgt
      let t := g.toNat % 2 ^ 8
      let c := g.toNat / 2 ^ 8 % 4
      let x := s.ctxAt t c
      (g.getLsbD 63 = true → x.run = .trapped → s.tileVf t = s.curVf → (t, c) ≠ (s.cur, s.curCtx) →
        Completes (.eret f) s (fun u =>
          (u.ctxAt t c).run = .ready ∧ (u.ctxAt t c).pc = (x.readCsr 0x09).toNat ∧
          (u.ctxAt t c).skipOne = (x.skipOne || g.getLsbD 16 || decide ((x.readCsr 0x08).toNat = 0x0A)) ∧
          (u.ctxAt t c).watchOff = (x.watchOff || decide ((x.readCsr 0x08).toNat = 0x0E)) ∧
          u.ctx = { s.ctx with
            ertgt := 0, rot := Max.max s.ctx.rot 1
            relCrew := u.ctx.relCrew, relGang := u.ctx.relGang, bargA := u.ctx.bargA } ∧
          (s.saves = [] → SameMemory s u))) ∧
      ((g.getLsbD 63 = false ∨ x.run ≠ .trapped ∨ s.tileVf t ≠ s.curVf) →
        exec (.eret f) s = .next (s.takeTrap .baddesc (g &&& 0x7FFFFFFFFFFFFFFF))))

/-- R329, R380, R421: a strand that is no supervisor strand traps PRIV at SYSC and at ERET, even with its ERTGT unset; a
supervisor strand that is no PF supervisor strand traps PRIV at the subcodes marked PF.
R421 to R424: a block command with standing, whose block passes cap_check with rights R and W and its alignment, whose
CTL [63:62] is 0 and whose strand has fewer than 8 in progress, joins the end of its virtual function's commands with CT and
NC from CTL, and is counted against the strand; nothing else changes. CTL [63:62] other than 0 traps BADDESC with CTL, and
a ninth command BADDESC with 9. -/
def Obligations.SupervisorCommandsQueue : Prop :=
  (∀ (s : State),
     (s.curMark = 0 →
       (∀ f : CFields, guardTrue s f.pred f.sense → exec (.eret f) s = .next (s.takeTrap .priv 0)) ∧
       (∀ f : SyscFields, guardTrue s f.pred f.sense →
         ∀ i ∈ [Instr.syscTsel f, .syscCourse f, .syscSave f, .syscRestore f, .syscLqcfg f, .syscWcset f, .syscCtxtab f,
           .syscObjtab f, .syscObjinv f, .syscTraparea f, .syscSupq f, .syscWatch f, .syscTwm f, .syscStage f, .syscComreg f,
           .syscCrownset f, .syscTjring f, .syscSecnt f], exec i s = .next (s.takeTrap .priv 0))) ∧
     (s.curMark ≠ 2 →
       ∀ f : SyscFields, guardTrue s f.pred f.sense →
         ∀ i ∈ [Instr.syscFlr f, .syscWarm f, .syscAssign f, .syscVfcfg f, .syscPnrp f, .syscVcshare f, .syscNode f, .syscRoute f,
           .syscMonsel f], exec i s = .next (s.takeTrap .priv 0))) ∧
  (∀ (s : State) (f : SyscFields), guardTrue s f.pred f.sense → s.curMark ≠ 0 →
     let ctl := s.ctx.readS f.arg.toNat
     let cap := s.ctx.readK (ctl.toNat / 2 ^ 48 % 2 ^ 5)
     blockRows f (fun i sub pf size =>
       (pf = true → s.curMark = 2) → ∀ p : Place,
       s.check cap (ctl.toNat % 2 ^ 48) size (rR + rW) size .engine = .ok p →
         (ctl.toNat < 2 ^ 62 → s.ctx.nBlock < 8 →
           Completes i s (fun t => ∃ cmd : BlockCmd,
             (t.vf s.curVf).blockQ = (s.vf s.curVf).blockQ ++ [cmd] ∧ cmd.sub = sub ∧ cmd.place = p ∧ cmd.cap = cap ∧
             cmd.ct = ctl.toNat / 2 ^ 53 % 2 ^ 8 ∧ cmd.nc = ctl.getLsbD 61 ∧ cmd.tile = s.cur ∧ cmd.iss.ctx = s.curCtx ∧
             cmd.taken = none ∧
             t = { (s.setCtx { s.ctx with nBlock := s.ctx.nBlock + 1 }).setVf s.curVf
               { s.vf s.curVf with blockQ := (s.vf s.curVf).blockQ ++ [cmd] } with nextOp := s.nextOp + 1 })) ∧
         (2 ^ 62 ≤ ctl.toNat → exec i s = .next (s.takeTrap .baddesc ctl)) ∧
         (ctl.toNat < 2 ^ 62 → 8 ≤ s.ctx.nBlock → exec i s = .next (s.takeTrap .baddesc 9))))

/-! ### The address and memory slot -/

/-- R394, R395, R90: where the strand owes nothing and the bytes of the access can be read, LD and LD.n push an entry to b3
that holds the value, sign- or zero-extended, and owes the destination register (none for s0); a group's members are dwords,
the entry holding the first. LDC does the same with a value that the constant path allows (R267).
R393: KLD of a strand that owes nothing pushes an entry that owes its register the 16 bytes and the tag of the unit, and
that no bundle reads.
R211: a load whose page has no translation takes its entry of b3 and keeps it without a value, and asks for the page;
nothing of memory or of the registers changes. -/
def Obligations.LoadsDeliverValues : Prop :=
  (∀ (s u : State) (f : AFields) (cap : TCap) (p : Place) (bs : List Byte),
     let size := 2 ^ f.size.toNat
     let g := if f.order = 0 then 2 ^ (f.scope.toNat % 4) else 1
     let off := (s.ctx.readS f.s.toNat).toNat % 2 ^ 48
     let via := if f.order = 0 then Via.plain else if 2 ≤ f.scope.toNat then Via.home else Via.crew
     let pushed := fun (v : Word) (ws : List Wr) =>
       u.setCtxAt s.cur s.curCtx ((u.ctxAt s.cur s.curCtx).setPort 3
         ((u.ctxAt s.cur s.curCtx).port 3 ++ [{ value := v.setWidth 512, writes := ws }]))
     let one := fun (v : Word) => pushed v (if f.data = 0 then [] else [.sreg f.data.toNat v])
     let many := pushed (BitVec.ofNat 64 (bytesNat (bs.take 8)))
       ((List.range g).map (fun i => .sreg (f.data.toNat + i) (BitVec.ofNat 64 (bytesNat ((bs.drop (8 * i)).take 8)))))
     Quiet s → readCapReg s.ctx f.k.toNat = .ok cap → s.check cap off (size * g) rR size .load = .ok p →
     s.watch cap off (size * g) true false p = .ok () →
     ((numbered s).readPlace s.cur s.curCtx p (size * g) via false = some (bs, u) →
       (g = 1 → exec (.ld f) s = .next (one (BitVec.ofInt 64 (BitVec.ofNat (8 * size) (bytesNat bs)).toInt)) ∧
         exec (.ldN f) s = .next (one (BitVec.ofNat 64 (bytesNat bs)))) ∧
       (1 < g → exec (.ld f) s = .next many ∧ exec (.ldN f) s = .next many)) ∧
     ((numbered s).readConstant s.cur s.curCtx p (size * g) s.clk = some (bs, u) →
       (g = 1 → exec (.ldc f) s = .next (one (BitVec.ofInt 64 (BitVec.ofNat (8 * size) (bytesNat bs)).toInt))) ∧
       (1 < g → exec (.ldc f) s = .next many))) ∧
  (∀ (s u : State) (f : AFields) (cap old : TCap) (p : Place) (bs : List Byte),
     let off := (s.ctx.readS f.s.toNat).toNat % 2 ^ 48
     let via := if f.order = 0 then Via.plain else if 2 ≤ f.scope.toNat then Via.home else Via.crew
     let d := f.data.toNat % 32
     Quiet s → readCapReg s.ctx f.k.toNat = .ok cap → readCapReg s.ctx d = .ok old →
     s.check cap off 16 rR 16 .load = .ok p → s.watch cap off 16 true false p = .ok () →
     (numbered s).readPlace s.cur s.curCtx p 16 via false = some (bs, u) →
     exec (.kld f) s = .next (u.setCtxAt s.cur s.curCtx ((u.ctxAt s.cur s.curCtx).setPort 3
       ((u.ctxAt s.cur s.curCtx).port 3 ++ [{
         kld := some d
         writes := [.kreg d { bits := BitVec.ofNat 128 (bytesNat bs), tag := u.readTag s.cur p via }] }])))) ∧
  (∀ (s : State) (f : AFields) (cap : TCap) (pasid va : Nat) (obj : Option Nat),
     let size := 2 ^ f.size.toNat
     let g := if f.order = 0 then 2 ^ (f.scope.toNat % 4) else 1
     let off := (s.ctx.readS f.s.toNat).toNat % 2 ^ 48
     Quiet s → readCapReg s.ctx f.k.toNat = .ok cap → s.check cap off (size * g) rR size .load = .ok (.virt pasid va obj) →
     s.watch cap off (size * g) true false (.virt pasid va obj) = .ok () →
     (va + (size * g - 1)) / 4096 = va / 4096 → s.pageAt pasid (va / 4096) = none →
     Completes (.ld f) s (fun t =>
       (∃ e, t.ctx.port 3 = s.ctx.port 3 ++ [e] ∧ e.held.isSome = true ∧ e.arrived = false ∧ e.failed = none) ∧
       t.pageReqs.any (fun r => r.pasid == pasid && r.vpage == va / 4096) = true ∧
       t.ctx.s = s.ctx.s ∧ t.ctx.pc = s.ctx.pc ∧ SameMemory s t))

/-- R418, R419, R420, R201: a store to the scratchpad by a strand that owes nothing writes exactly its bytes there, in
increasing address order from the members in register order; STM writes those whose mask bit is set.
R393, R205: KST stores the 16 bytes of a register with its tag to the scratchpad; to host memory it traps PERM. -/
def Obligations.ScratchpadStores : Prop :=
  (∀ (s : State) (f : AFields) (cap : TCap) (o : Nat),
     let off := (s.ctx.readS f.s.toNat).toNat % 2 ^ 48
     let size := 2 ^ f.size.toNat
     let g := if f.order = 0 then 2 ^ (f.scope.toNat % 4) else 1
     let mask := (s.ctx.readS (f.data.toNat + 1)).toNat
     Quiet s → readCapReg s.ctx f.k.toNat = .ok cap →
     (s.check cap off (size * g) rW size .store = .ok (.spad o) →
       Completes (.st f) s (ScratchpadWritten s o
         ((List.range g).flatMap (fun i => natBytes size (s.ctx.readS (f.data.toNat + i)).toNat)))) ∧
     (s.check cap off 8 rW 8 .store = .ok (.spad o) →
       Completes (.stm f) s (fun t =>
         (∀ x q, t.spadByte x q =
           if x = s.cur ∧ o ≤ q ∧ q < o + 8 ∧ mask.testBit (q - o) = true
             then BitVec.ofNat 8 ((s.ctx.readS f.data.toNat).toNat / 2 ^ (8 * (q - o))) else s.spadByte x q) ∧
         t = s.setTile s.cur { s.tile s.cur with
           spad := (t.tile s.cur).spad, spadTag := (t.tile s.cur).spadTag, spadPoison := (t.tile s.cur).spadPoison }))) ∧
  (∀ (s : State) (f : AFields) (cap v : TCap) (p : Place),
     let off := (s.ctx.readS f.s.toNat).toNat % 2 ^ 48
     Quiet s → readCapReg s.ctx f.k.toNat = .ok cap → readCapReg s.ctx (f.data.toNat % 32) = .ok v →
     s.check cap off 16 rW 16 .store = .ok p → s.watch cap off 16 false true p = .ok () →
     (∀ o, p = .spad o → o % 16 = 0 → Completes (.kst f) s (fun t =>
       (∀ x q, t.spadByte x q = if x = s.cur ∧ o ≤ q ∧ q < o + 16 then BitVec.ofNat 8 (v.bits.toNat / 2 ^ (8 * (q - o)))
         else s.spadByte x q) ∧
       (∀ w, Sparse.get false (t.tile s.cur).spadTag w =
         if w = o / 16 then v.tag else Sparse.get false (s.tile s.cur).spadTag w))) ∧
     (∀ pasid va obj, p = .virt pasid va obj → s.placeTier p = some 2 →
       exec (.kst f) s = .next (s.takeTrap .perm (BitVec.ofNat 64 va))))

/-- R418, R419, R212: a store to memory by a strand that owes nothing, every page of it mapped and writable, is performed with
its bytes, mask, order and scope.
R212, R213: a store whose page has no translation enters the tile's side log, one entry for each 32 bytes, and changes no
memory; with the log too full for it, its bundle blocks.
R200, R248, R249: a relaxed store within one sector of device memory that a tile performs, whose line is in L1 or finds room
in its set, is what its contexts read next at those bytes; every other byte reads as before, at this tile, at the point of
coherence and in every scratchpad. -/
def Obligations.MemoryStores : Prop :=
  (∀ (s : State) (f : AFields) (cap : TCap) (pasid va a : Nat) (obj : Option Nat),
     let off := (s.ctx.readS f.s.toNat).toNat % 2 ^ 48
     let size := 2 ^ f.size.toNat
     let g := if f.order = 0 then 2 ^ (f.scope.toNat % 4) else 1
     let scope := if f.order = 0 then s.plainScope (.virt pasid va obj) else f.scope.toNat
     Quiet s → readCapReg s.ctx f.k.toNat = .ok cap →
     (s.check cap off (size * g) rW size .store = .ok (.virt pasid va obj) →
       s.watch cap off (size * g) false true (.virt pasid va obj) = .ok () →
       s.rangeXlat pasid va (size * g) true = .mapped a → HostClear s (.virt pasid va obj) →
       exec (.st f) s = .next (s.perform s.cur s.curCtx {
         pasid, va, obj, order := f.order.toNat, scope, num := s.ctx.num
         data := (List.range g).flatMap (fun i => natBytes size (s.ctx.readS (f.data.toNat + i)).toNat) })) ∧
     (s.check cap off 8 rW 8 .store = .ok (.virt pasid va obj) →
       s.watch cap off 8 false true (.virt pasid va obj) = .ok () → s.rangeXlat pasid va 8 true = .mapped a →
       HostClear s (.virt pasid va obj) →
       exec (.stm f) s = .next (s.perform s.cur s.curCtx {
         pasid, va, obj, order := f.order.toNat, scope, num := s.ctx.num
         data := natBytes 8 (s.ctx.readS f.data.toNat).toNat
         mask := some ((s.ctx.readS (f.data.toNat + 1)).toNat % 256) }))) ∧
  (∀ (s : State) (f : AFields) (cap : TCap) (pasid va : Nat) (obj : Option Nat),
     let off := (s.ctx.readS f.s.toNat).toNat % 2 ^ 48
     let size := 2 ^ f.size.toNat
     let g := if f.order = 0 then 2 ^ (f.scope.toNat % 4) else 1
     let bs := (List.range g).flatMap (fun i => natBytes size (s.ctx.readS (f.data.toNat + i)).toNat)
     let k := (size * g + 31) / 32
     Quiet s → readCapReg s.ctx f.k.toNat = .ok cap →
     s.check cap off (size * g) rW size .store = .ok (.virt pasid va obj) →
     s.watch cap off (size * g) false true (.virt pasid va obj) = .ok () → s.rangeXlat pasid va (size * g) true = .missing →
     HostClear s (.virt pasid va obj) →
     ((s.tile s.cur).sideLog.length + k ≤ 256 →
       Completes (.st f) s (fun t => ∃ es : List LogEntry,
         (t.tile s.cur).sideLog = (s.tile s.cur).sideLog ++ es ∧ es.length = k ∧
         es.flatMap (fun e => e.data) = bs ∧ (∀ e ∈ es, e.ctx = s.curCtx ∧ e.pasid = pasid ∧ e.op = 0) ∧
         (es.map (fun e => e.va)) = (List.range k).map (fun i => va + 32 * i) ∧ SameMemory s t)) ∧
     (256 < (s.tile s.cur).sideLog.length + k →
       exec (.st f) s = .next ((s.block s.cur s.curCtx .sideLog).episodes s.cur))) ∧
  (∀ (s : State) (t c pasid va pa : Nat) (obj : Option Nat) (bs : List Byte), bs ≠ [] → (va + bs.length - 1) / 64 = va / 64 →
     s.lookupVa pasid va true = .mapped pa → tierOf pa ≠ 2 → pa % 64 = va % 64 →
     let lines := (s.tile t).l1Lines (Config.l1Set (pa / 128) % 512)
     (lines.length < 10 ∨ pa / 128 ∈ lines) →
     let u := s.perform t c { pasid, va, obj, data := bs }
     (∀ x, u.viewByte t x = if pa ≤ x ∧ x < pa + bs.length then bs.getD (x - pa) 0 else s.viewByte t x) ∧
     (∀ x, u.pocByte x = s.pocByte x) ∧ (∀ x q, u.spadByte x q = s.spadByte x q))

/-- R352, R354, R356: the new value of each atomic over n bytes, from the old value and the operand.
R352 to R355: an atomic on the scratchpad replaces the bytes at its address by the new value and nothing else; with RET it
pushes the old value to b5, sign-extended for AADD, AMAX and AMIN.
R356, R357: a compare and swap on the scratchpad pushes the old value to b5, ACAS.w its two halves as two entries, and
writes the new value exactly where the old one equals the expected. -/
def Obligations.AtomicResults : Prop :=
  (∀ (n old opnd : Nat) (e : Word128), 0 < n → old < 2 ^ (8 * n) → opnd < 2 ^ (8 * n) →
     let sgn := fun (x : Nat) => if 2 * x < 2 ^ (8 * n) then (x : Int) else (x : Int) - 2 ^ (8 * n)
     atomNew n .add old opnd = (old + opnd) % 2 ^ (8 * n) ∧
     atomNew n .and old opnd = old &&& opnd ∧ atomNew n .or old opnd = old ||| opnd ∧ atomNew n .xor old opnd = old ^^^ opnd ∧
     sgn (atomNew n .max old opnd) = Max.max (sgn old) (sgn opnd) ∧
     sgn (atomNew n .min old opnd) = Min.min (sgn old) (sgn opnd) ∧
     atomNew n .maxN old opnd = Max.max old opnd ∧ atomNew n .minN old opnd = Min.min old opnd ∧
     atomNew n .xchg old opnd = opnd ∧
     atomNew n (.cas e) old opnd = (if old = e.toNat % 2 ^ (8 * n) then opnd else old)) ∧
  (∀ (s : State) (f : AFields) (cap : TCap) (o : Nat),
     let off := (s.ctx.readS f.s.toNat).toNat % 2 ^ 48
     let n := if f.size.getLsbD 0 then 8 else 4
     let opnd := (s.ctx.readS f.data.toNat).toNat % 2 ^ (8 * n)
     let old := bytesNat (s.spadBytes s.cur o n)
     Quiet s → (s.tile s.cur).spadPoison = [] → readCapReg s.ctx f.k.toNat = .ok cap →
     s.check cap off n rA n .atomic = .ok (.spad o) → capKind cap ≠ 1 →
     let acts := fun (i : Instr) (op : AtomOp) (signed : Bool) =>
       (f.size.getLsbD 1 = false → Completes i s (ScratchpadWritten s o (natBytes n (atomNew n op old opnd)))) ∧
       (f.size.getLsbD 1 = true → Completes i s (fun t => ∃ u, ScratchpadWritten (numbered s) o (natBytes n (atomNew n op old opnd)) u ∧
         t = u.setCtx (u.ctx.setPort 5 (u.ctx.port 5 ++ [{
           value := (if signed then BitVec.ofInt 64 (BitVec.ofNat (8 * n) old).toInt else BitVec.ofNat 64 old).setWidth 512 }]))))
     acts (.aadd f) .add true ∧ acts (.aand f) .and false ∧ acts (.aor f) .or false ∧ acts (.axor f) .xor false ∧
     acts (.amax f) .max true ∧ acts (.amaxN f) .maxN false ∧ acts (.amin f) .min true ∧ acts (.aminN f) .minN false ∧
     acts (.axchg f) .xchg false ∧ acts (.afaddF32 f) .fadd32 false ∧ acts (.afaddBf16 f) .faddBf16 false) ∧
  (∀ (s : State) (f : AFields) (cap : TCap) (o : Nat),
     let off := (s.ctx.readS f.s.toNat).toNat % 2 ^ 48
     let r := fun i => (s.ctx.readS (f.data.toNat + i)).toNat
     Quiet s → (s.tile s.cur).spadPoison = [] → s.ctx.port 5 = [] → readCapReg s.ctx f.k.toNat = .ok cap → capKind cap ≠ 1 →
     let acts := fun (i : Instr) (n e new : Nat) (halves : List Word) =>
       s.check cap off n rA n .atomic = .ok (.spad o) →
       let old := bytesNat (s.spadBytes s.cur o n)
       Completes i s (fun t =>
         (t.ctx.port 5).map (fun x => x.value.setWidth 64) = halves ∧
         (old ≠ e % 2 ^ (8 * n) → ∀ x q, t.spadByte x q = s.spadByte x q) ∧
         (old = e % 2 ^ (8 * n) → ∀ x q, t.spadByte x q =
           if x = s.cur ∧ o ≤ q ∧ q < o + n then BitVec.ofNat 8 (new / 2 ^ (8 * (q - o))) else s.spadByte x q) ∧
         (∀ a, t.pocByte a = s.pocByte a))
     (let n := if f.size.getLsbD 0 then 8 else 4
      acts (.acas f) n (r 0) (r 1) [BitVec.ofNat 64 (bytesNat (s.spadBytes s.cur o n))]) ∧
     acts (.acasW f) 16 (r 0 + 2 ^ 64 * r 1) (r 2 + 2 ^ 64 * r 3)
       [BitVec.ofNat 64 (bytesNat (s.spadBytes s.cur o 8)), BitVec.ofNat 64 (bytesNat (s.spadBytes s.cur (o + 8) 8))])

/-- R256: a fence of a strand that owes nothing completes at once, at system scope where no write waits for the host. At crew
scope it moves nothing; wider, FENCE and FENCE.st leave no dirty sector in the tile's L1, FENCE and FENCE.ld no clean one;
FENCE.ld changes no byte of memory.
R257, R258: BIND of a region to a sync-object word enters it in the first free entry; bound already, it changes nothing;
with eight entries taken it traps BADDESC with 8. BIND.u takes the entry out; nothing else changes.
R258 to R260: REL adds 1 to the dword of a sync object in the scratchpad where no logged store of its regions waits; ACQ
issues, dropping its regions' clean sectors, when the dword is at least v, and blocks while it is below. -/
def Obligations.FencesAndEntryConsistency : Prop :=
  (∀ (s : State) (f : AFields), Quiet s → Sparse.risingFrom 0 (s.tile s.cur).l1 = true →
     (5 ≤ f.scope.toNat → s.hostOwes s.cur = false) →
     let dirty := fun (t : State) (sec : Nat) => ∃ x, (t.tile s.cur).l1Get sec = some x ∧ x.dirty.isSome = true
     let clean := fun (t : State) (sec : Nat) => ∃ x, (t.tile s.cur).l1Get sec = some x ∧ x.dirty = none
     let ends := fun (i : Instr) (P : State → Prop) => Completes i s (fun t =>
       t.ctx = { s.ctx with num := s.ctx.num + 1 } ∧ (∀ x q, t.spadByte x q = s.spadByte x q) ∧
       (f.scope.toNat ≤ 1 → t = numbered s) ∧ (2 ≤ f.scope.toNat → P t))
     ends (.fence f) (fun t => ∀ sec, (t.tile s.cur).l1Get sec = none) ∧
     ends (.fenceLd f) (fun t => (∀ sec, ¬ clean t sec) ∧ (∀ sec, dirty s sec → dirty t sec) ∧ SameMemory s t) ∧
     ends (.fenceSt f) (fun t => ∀ sec, ¬ dirty t sec)) ∧
  (∀ (s : State) (f : AFields) (cap rg : TCap), s.bindCheck f = .ok (cap, rg) →
     let off := (s.ctx.readS f.s.toNat).toNat % 2 ^ 48
     let entry := fun (i : Nat) => Sparse.get none s.ctx.binds i
     let bound := s.ctx.binds.any (fun x => match x.2 with | some b => b.same rg (capObj cap) off | none => false)
     (bound = true → exec (.bind f) s = .next s) ∧
     (bound = false → (∀ i < 8, entry i ≠ none) → exec (.bind f) s = .next (s.takeTrap .baddesc 8)) ∧
     (∀ i, bound = false → i < 8 → entry i = none → (∀ j < i, entry j ≠ none) →
       Completes (.bind f) s (fun t => t = s.setCtx { s.ctx with binds := t.ctx.binds } ∧
         (∃ b, Sparse.get none t.ctx.binds i = some b ∧ b.region.bits = rg.bits ∧ b.syncObj = capObj cap ∧ b.syncOff = off) ∧
         ∀ j, j ≠ i → Sparse.get none t.ctx.binds j = entry j)) ∧
     Completes (.bindU f) s (fun t => t = s.setCtx { s.ctx with binds := t.ctx.binds } ∧
       ∀ x, x ∈ t.ctx.binds ↔ x ∈ s.ctx.binds ∧ ∃ b, x.2 = some b ∧ b.same rg (capObj cap) off = false)) ∧
  (∀ (s : State) (f : AFields) (cap : TCap) (o : Nat),
     let off := (s.ctx.readS f.s.toNat).toNat % 2 ^ 48
     let count := bytesNat (s.spadBytes s.cur o 8)
     Quiet s → readCapReg s.ctx f.k.toNat = .ok cap → (s.tile s.cur).spadPoison = [] →
     (s.check cap off 8 rB 8 .sync = .ok (.spad o) → s.relWaits s.cur s.curCtx (capObj cap) off = false →
       Completes (.rel f) s (fun t => t.ctx = s.ctx ∧ ∀ x q, t.spadByte x q =
         if x = s.cur ∧ o ≤ q ∧ q < o + 8 then BitVec.ofNat 8 ((count + 1) / 2 ^ (8 * (q - o))) else s.spadByte x q)) ∧
     (s.check cap off 8 (rB + rR) 8 .sync = .ok (.spad o) →
       let v := s.ctx.readS f.data.toNat
       (v.toNat ≤ count → Completes (.acq f) s (fun t => t.ctx = s.ctx ∧ SameMemory s t ∧
         t = s.setTile s.cur { s.tile s.cur with l1 := (t.tile s.cur).l1 })) ∧
       (count < v.toNat → exec (.acq f) s = .next ((s.block s.cur s.curCtx (.acq f.k.toNat off v)).episodes s.cur))))

/-- R388 to R391, R397: KCHK makes the checks and nothing else; KINFO delivers a half of the register after 1 clk; LEA the
address that passed the checks, and KDER and KDER.s the derived capability, after 2.
R390, R202: a capability that KDER derives never has a right that its parent lacks, nor a byte outside its bounds, and an
untagged register, or one without the right to derive, traps KRIGHT.
R206: cap_check passes an access only where the capability is tagged, of a KIND the use takes, with every right asked for,
whole within its bounds and, in memory, within a valid object of the virtual function and of the capability's generation. -/
def Obligations.CapabilityDerivation : Prop :=
  (∀ (s : State) (f : AFields) (cap : TCap), readCapReg s.ctx f.k.toNat = .ok cap →
     let off := (s.ctx.readS f.s.toNat).toNat % 2 ^ 48
     let size := 2 ^ f.size.toNat
     let d := f.data.toNat % 32
     let lo := s.ctx.readS f.s.toNat
     let hi := s.ctx.readS (f.s.toNat + 1)
     (∀ p, s.check cap off size f.data.toNat size .untested = .ok p → exec (.kchk f) s = .next s) ∧
     Completes (.kinfo f) s (Owed s (s.clk + 1) (fun w => w = .sreg f.data.toNat
       (if f.size = 0 then cap.bits.setWidth 64 else (cap.bits >>> 64).setWidth 64))) ∧
     (∀ p, s.check cap off size 0 size .untested = .ok p →
       Completes (.lea f) s (Owed s (s.clk + 2) (fun w => w = .sreg f.data.toNat
         (BitVec.ofNat 64 (match p with | .spad o => o | .virt _ va _ => va))))) ∧
     (∀ old, readCapReg s.ctx d = .ok old → cap.tag = true → capRights cap &&& rD = rD →
       lo.toNat < 2 ^ 40 → hi.toNat < 2 ^ 48 → (hi.toNat / 2 ^ 40 % 2 ^ 6) &&& capRights cap = hi.toNat / 2 ^ 40 % 2 ^ 6 →
       (hi.toNat / 2 ^ 46 = capKind cap ∨ capKind cap = 0 ∧ 2 ≤ hi.toNat / 2 ^ 46) → capLow cap ≤ lo.toNat →
       lo.toNat + hi.toNat % 2 ^ 40 ≤ capLow cap + capLen cap →
       let made := fun (rights : Nat) (w : Wr) => ∃ n : TCap, w = .kreg d n ∧ n.tag = true ∧ capGen n = capGen cap ∧
         capObj n = capObj cap ∧ capKind n = hi.toNat / 2 ^ 46 ∧ capLow n = lo.toNat ∧ capLen n = hi.toNat % 2 ^ 40 ∧ capRights n = rights
       let asked := hi.toNat / 2 ^ 40 % 2 ^ 6
       (∃ n, Completes (.kder f) s (Owed s (s.clk + 2) (fun w => w = n)) ∧ made asked n) ∧
       (∃ n, Completes (.kderS f) s (Owed s (s.clk + 2) (fun w => w = n)) ∧ made (asked - (asked &&& rD)) n))) ∧
  (∀ (c n : TCap) (p q : Word) (sealed : Bool), derive c p q sealed = .ok n →
     c.tag = true ∧ n.tag = true ∧ capRights n &&& capRights c = capRights n ∧ capLow c ≤ capLow n ∧
       capLow n + capLen n ≤ capLow c + capLen c ∧ capObj n = capObj c ∧ capGen n = capGen c ∧
       (sealed = true → capRights n &&& rD = 0)) ∧
  (∀ (s : State) (vf spad : Nat) (cap : TCap) (off n need align : Nat) (u : Use) (p : Place),
     s.capCheck vf spad cap off n need align u = .ok p →
       cap.tag = true ∧ kindAllowed u (capKind cap) = true ∧ capRights cap &&& need = need ∧ off % align = 0 ∧
       capLow cap ≤ off ∧ off + n ≤ capLow cap + capLen cap ∧
       ((capObj cap = 0xFFFFFF ∧ p = .spad off ∧ capGen cap = 0 ∧ off + n ≤ spad) ∨
         ∃ e, capObj cap ≠ 0xFFFFFF ∧ s.objEntry vf (capObj cap) = some e ∧ e.valid = true ∧ e.vf = vf ∧
           e.gen = capGen cap ∧ off + n ≤ e.len ∧ p = .virt e.pasid (e.vabase + off) (some (capObj cap))))

/-! ### Vector slots -/

/-- R434, R435, R432, R87, R89: VADD, VSUB, VMUL and the VFMA forms round once under VRM, each element with its own draw under
sr; the results land 4 clk later, 5 for an octet, in the active lanes of dst and in the latch of the unit that takes
them. -/
def Obligations.VectorFloatArithmetic : Prop :=
  ∀ (s : State) (f : VFields) (B : Nat → List Vec), vReadable s f B → f.type.toNat < 4 →
    let g := groupSize f.width
    let b := typeBits f.type.toNat
    let fmt := typeFmt f.type.toNat
    let n := g * (512 / b)
    let gives := fun (i : Instr) (three : Bool) (fn : RMode → FVal → FVal → FVal → FRes) =>
      Completes i s (VOwed s f (if f.width = 3 then 2 else 1) (if s.ctx.vrm = 4 then (n + 3) / 4 else 0) (vTakes f)
        (fun cl => VElements s f cl (if f.width = 3 then 5 else 4) (vfLatch s cl) b g
          (let x := groupElems b (readVGroup s.ctx cl f.srcA.toNat g)
           let y := groupElems b (B cl)
           let z := if three then groupElems b (readVGroup s.ctx cl f.srcC.toNat g) else List.replicate n 0
           (List.range n).map (fun e => fn (vMode s s.ctx.vrm cl e) (fdecode fmt (x.getD e 0)) (fdecode fmt (y.getD e 0))
             (fdecode fmt (z.getD e 0))))))
    (∀ cl ∈ clustersOf f.target, (B cl).length = g) →
      gives (.vadd f) false (fun m x y _ => fadd fmt m x y) ∧
      gives (.vsub f) false (fun m x y _ => fadd fmt m x y.neg) ∧
      gives (.vmul f) false (fun m x y _ => fmul fmt m x y) ∧
      gives (.vfma f) true (fun m x y z => ffma fmt m x y z) ∧
      gives (.vfmaS f) true (fun m x y z => ffma fmt m x y z.neg) ∧
      gives (.vfmaN f) true (fun m x y z => ffma fmt m x.neg y z)

/-- R438, R439: the integer operations on elements of b bits, 2 clk after issue (VIMUL 3) in dst and vb2: wrapping, or clamped
to the range of the type with ISAT; the bitwise operations; and the shifts by the whole element of srcB.
R435, R436: VMAX and VMIN of floats as 06 R130 states them, of integers by the order of their type; VABS and VNEG of floats
in the sign bit alone, a NaN made canonical, and of signed integers exactly, the minimum clamped with ISAT. -/
def Obligations.VectorInteger : Prop :=
  (∀ (s : State) (f : VFields) (B : Nat → List Vec), vReadable s f B → 4 ≤ f.type.toNat →
     let g := groupSize f.width
     let b := typeBits f.type.toNat
     let val := fun (x : Nat) => if f.type = 7 then (x : Int) else (BitVec.ofNat b x).toInt
     let lo : Int := if f.type = 7 then 0 else -2 ^ (b - 1)
     let hi : Int := if f.type = 7 then 2 ^ 32 - 1 else 2 ^ (b - 1) - 1
     let clamp := fun (i : Int) => ({ code := ((Max.max lo (Min.min hi i)) % 2 ^ b).toNat
                                      flags := if i < lo ∨ hi < i then 1 else 0 } : FRes)
     let wrap := fun (i : Int) => ({ code := (i % 2 ^ b).toNat } : FRes)
     let gives := fun (i : Instr) (n : Nat) (fn : Nat → Nat → FRes) =>
       Completes i s (VOwed s f 0 0 (vTakes f) (fun cl => VElements s f cl n 2 b g
         (List.zipWith fn (groupElems b (readVGroup s.ctx cl f.srcA.toNat g)) (groupElems b (B cl)))))
     gives (.viadd f) 2 (fun x y => wrap ((x : Int) + y)) ∧ gives (.viaddSub f) 2 (fun x y => wrap ((x : Int) - y)) ∧
     gives (.viaddSat f) 2 (fun x y => clamp (val x + val y)) ∧
     gives (.viaddSubsat f) 2 (fun x y => clamp (val x - val y)) ∧
     gives (.vimul f) 3 (fun x y => wrap ((x : Int) * y)) ∧
     gives (.vand f) 2 (fun x y => wrap ((x &&& y : Nat) : Int)) ∧ gives (.vor f) 2 (fun x y => wrap ((x ||| y : Nat) : Int)) ∧
     gives (.vxor f) 2 (fun x y => wrap ((x ^^^ y : Nat) : Int)) ∧
     gives (.vshl f) 2 (fun x n => wrap ((x * 2 ^ n : Nat) : Int)) ∧
     gives (.vshr f) 2 (fun x n => wrap ((x / 2 ^ n : Nat) : Int)) ∧
     gives (.vsar f) 2 (fun x n => wrap ((BitVec.ofNat b x).toInt / 2 ^ n))) ∧
  (∀ (s : State) (f : VFields),
     let g := groupSize f.width
     let b := typeBits f.type.toNat
     let fmt := typeFmt f.type.toNat
     let float := decide (f.type.toNat < 4)
     let a := fun cl => groupElems b (readVGroup s.ctx cl f.srcA.toNat g)
     let val := fun (x : Nat) => if f.type = 7 then (x : Int) else (BitVec.ofNat b x).toInt
     let hold := if float then if f.width = 3 then 2 else 1 else 0
     let n := if float then if f.width = 3 then 5 else 4 else 2
     let latch := fun cl => if float then vfLatch s cl else 2
     let one := fun (i : Instr) (fn : Nat → FRes) =>
       Completes i s (VOwed s f hold 0 False (fun cl => VElements s f cl n (latch cl) b g ((a cl).map fn)))
     let sign := fun (flip : Bool) (x : Nat) =>
       if (fdecode fmt x).isNan then ({ code := fmt.nanCode } : FRes)
       else { code := (BitVec.ofNat b x &&& BitVec.ofNat b (2 ^ (b - 1) - 1) |||
         (if flip then ~~~(BitVec.ofNat b x) &&& BitVec.ofNat b (2 ^ (b - 1)) else 0)).toNat }
     let exact := fun (i : Int) =>
       if i = 2 ^ (b - 1) then ({ code := 2 ^ (b - 1) - 1, flags := 1 } : FRes) else { code := (i % 2 ^ b).toNat }
     (f.type ≠ 7 → one (.vabs f) (fun x => if float then sign false x else exact (Max.max (val x) (-(val x)))) ∧
       one (.vneg f) (fun x => if float then sign true x else exact (-(val x)))) ∧
     ∀ B : Nat → List Vec, vReadable s f B →
       let two := fun (i : Instr) (fn : Nat → Nat → FRes) =>
         Completes i s (VOwed s f hold 0 (vTakes f) (fun cl => VElements s f cl n (latch cl) b g
           (List.zipWith fn (a cl) (groupElems b (B cl)))))
       two (.vmax f) (fun x y => if float then fround fmt .rne (fmax (fdecode fmt x) (fdecode fmt y))
         else { code := if val x < val y then y else x }) ∧
       two (.vmin f) (fun x y => if float then fround fmt .rne (fmin (fdecode fmt x) (fdecode fmt y))
         else { code := if val y < val x then y else x }))

/-- R441, R166: a compare writes, 2 clk later, the bit of each active lane: 1 when its condition holds of every element of the
lane; NaN compares as unordered. vb2 receives the lanes whose bit is 1, and zero elsewhere. -/
def Obligations.VectorCompares : Prop :=
  ∀ (s : State) (f : VFields) (B : Nat → List Vec), vReadable s f B → f.width = 0 →
    let b := typeBits f.type.toNat
    let fmt := typeFmt f.type.toNat
    let val := fun (x : Nat) => if f.type = 7 then (x : Int) else (BitVec.ofNat b x).toInt
    let nan := fun x y => (fdecode fmt x).isNan ∨ (fdecode fmt y).isNan
    let order := fun x y => FVal.compare (fdecode fmt x) (fdecode fmt y)
    let gives := fun (i : Instr) (cond : Nat → Nat → Prop) => ∃ p : Nat → VPred,
      (∀ cl ∈ clustersOf f.target, ∀ i < 16, (p cl).getLsbD i = true ↔ ∀ e, e < 512 / b → e * b / 32 = i →
        cond (elemOf b (s.ctx.readV cl f.srcA.toNat) e) (elemOf b ((B cl).headD 0) e)) ∧
      Completes i s (VOwed s f 0 0 (vTakes f) (fun cl d w => d = s.clk + 2 ∧
        let act := activeLanes s.ctx cl f.pred
        ((f.nw = 0 ∧ w = .vpred cl f.dst.toNat act (p cl)) ∨ w = .vlatch cl 2 (laneMask (p cl &&& act)))))
    (f.type.toNat < 4 →
      gives (.vcmpEq f) (fun x y => ¬ nan x y ∧ order x y = 0) ∧ gives (.vcmpNe f) (fun x y => nan x y ∨ order x y ≠ 0) ∧
      gives (.vcmpLt f) (fun x y => ¬ nan x y ∧ order x y < 0) ∧ gives (.vcmpLe f) (fun x y => ¬ nan x y ∧ order x y ≤ 0) ∧
      gives (.vcmpUn f) nan) ∧
    (4 ≤ f.type.toNat →
      gives (.vcmpEq f) (fun x y => x = y) ∧ gives (.vcmpNe f) (fun x y => x ≠ y) ∧
      gives (.vcmpLt f) (fun x y => val x < val y) ∧ gives (.vcmpLe f) (fun x y => val x ≤ val y))

/-- R451 to R453, R440, R448, R167: VMOV delivers srcB bit for bit; VSEL whole lanes of srcA or srcB, all of them written;
VBCAST one element everywhere, an index beyond the group trapping SHAPE; VIDX B + e, with CLOFF an offset for each cluster;
VSHF a permutation or a rotation of the group; VXCL the registers of another cluster. -/
def Obligations.VectorTransport : Prop :=
  ∀ (s : State) (f : VFields),
    let g := groupSize f.width
    let b := typeBits f.type.toNat
    let n := g * (512 / b)
    let a := fun cl => groupElems b (readVGroup s.ctx cl f.srcA.toNat g)
    let imm : BitVec 12 := f.srcB ++ f.srcC
    let scalar := (s.ctx.readS f.srcB.toNat).toNat
    (∀ B : Nat → List Vec, vReadable s f B → (∀ cl ∈ clustersOf f.target, (B cl).length = g) →
      Completes (.vmov f) s (VOwed s f 0 0 (vTakes f) (fun cl => VDelivers s f f.pred cl 2 2 (B cl) 0)) ∧
      Completes (.vsel f) s (VOwed s f 0 0 (vTakes f) (fun cl => VDelivers s f 0 cl 2 2
        (let m := laneMask (s.ctx.readVp cl f.pred.toNat)
         List.zipWith (fun x y => (x &&& m) ||| (y &&& ~~~m)) (readVGroup s.ctx cl f.srcA.toNat g) (B cl)) 0)) ∧
      Completes (.vidx f) s (VOwed s f 0 0 (vTakes f) (fun cl => VElements s f cl 2 2 b g
        ((List.range n).map (fun e => { code :=
          ((groupElems b (B cl)).getD e 0 + e + (if f.srcA.getLsbD 0 then cl * n else 0)) % 2 ^ b })))) ∧
      Completes (.vshfPerm f) s (VOwed s f 0 0 (vTakes f) (fun cl => VElements s f cl 2 2 b g
        ((List.range n).map (fun e => { code := (a cl).getD ((groupElems b (B cl)).getD e 0 % n) 0 }))))) ∧
    (let r : Int := if f.bsel = 2 then scalar else imm.toInt
     Completes (.vshfRot f) s (VOwed s f 0 0 False (fun cl => VElements s f cl 2 2 b g
       ((List.range n).map (fun (e : Nat) => { code := (a cl).getD ((((e : Nat) : Int) + r) % (n : Int)).toNat 0 }))))) ∧
    (let j := if f.bsel = 2 then scalar else imm.toNat
     (j < n → Completes (.vbcast f) s (VOwed s f 0 0 False (fun cl => VElements s f cl 2 2 b g
       (List.replicate n { code := (a cl).getD j 0 })))) ∧
     (n ≤ j → exec (.vbcast f) s = .next (s.takeTrap .shape (BitVec.ofNat 64 j)))) ∧
    Completes (.vxcl f) s (VOwed s f 0 0 False (fun cl => VDelivers s f f.pred cl 3 5
      (let k := imm.toNat % 8
       let from' := if imm.toNat / 8 % 4 = 0 then (cl + k) % 8 else if imm.toNat / 8 % 4 = 1 then cl ^^^ k else k
       readVGroup s.ctx from' f.srcA.toNat g) 0))

/-- R442 to R444: VCVT converts every source element with the mode of its opcode, to a float rounded once (with .satf the
largest finite value and FCLMP in place of an infinity), or to an integer clamped to its range; under sr every source element
has a draw.
R445: the transcendentals deliver their function value after 8 clk in dst and vb3, and never draw.
R176: VACC copies rows of an accumulator into the group at dst after 6 clk, 16 columns to a cluster, and traps SHAPE where
the index is beyond 511, the accumulator is not the crew's, or the rows go past 127.
R177, R178: VPK packs 32 values of a cluster with one scale, which goes to dst + 1; VUPK multiplies every element with the
scale and rounds to FP32. -/
def Obligations.VectorConversions : Prop :=
  (∀ (s : State) (f : VFields),
     let g := groupSize f.width
     let t := f.type.toNat
     let b := typeBits t
     let n := g * (512 / b)
     let a := fun cl => groupElems b (readVGroup s.ctx cl f.srcA.toNat g)
     (let i := (f.srcB ++ f.srcC : BitVec 12).toNat
      let d := i % 8
      let gd := Max.max 1 (n * typeBits d / 512)
      let lo : Int := if d = 7 then 0 else -2 ^ (typeBits d - 1)
      let hi : Int := if d = 7 then 2 ^ 32 - 1 else 2 ^ (typeBits d - 1) - 1
      let value := fun x => if t < 4 then fdecode (typeFmt t) x
        else ofInt (if t = 7 then (x : Int) else (BitVec.ofNat b x).toInt)
      let rounded := fun m x => fround (typeFmt d) m (value x)
      let infinite := fun m x => (value x = .inf false ∨ value x = .inf true) ∨ (rounded m x).flags &&& 4 ≠ 0
      let one := fun (m : RMode) (x : Nat) => open Classical in
        if 4 ≤ d then
          ({ code := ((ftoInt m lo hi (value x)).1 % 2 ^ typeBits d).toNat, flags := (ftoInt m lo hi (value x)).2 } : FRes)
        else if 8 ≤ i ∧ infinite m x then
          { code := (typeFmt d).maxCode + fsign (typeFmt d) (value x).isNeg, flags := 8 }
        else rounded m x
      let gives := fun (k : Instr) (mode : Nat) =>
        Completes k s (VOwed s f (if f.width = 3 ∨ gd = 8 then 2 else 1) (if mode = 4 then (n + 3) / 4 else 0) False
          (fun cl => VElements s f cl (if f.width = 3 ∨ gd = 8 then 5 else 4) (vfLatch s cl) (typeBits d) gd
            ((List.range n).map (fun e => one (vMode s mode cl e) ((a cl).getD e 0)))))
      gives (.vcvtRne f) 0 ∧ gives (.vcvtRtz f) 1 ∧ gives (.vcvtRdn f) 2 ∧ gives (.vcvtRup f) 3 ∧ gives (.vcvtSr f) 4) ∧
     (let gives := fun (k : Instr) (fn : Nat → FRes) =>
        Completes k s (VOwed s f 0 0 False (fun cl => VElements s f cl 8 3 b g ((a cl).map fn)))
      let fmt := typeFmt t
      gives (.vexp2 f) (fexp2 fmt) ∧ gives (.vlog2 f) (flog2 fmt) ∧ gives (.vrcp f) (frcp fmt) ∧ gives (.vrsq f) (frsq fmt) ∧
        gives (.vsig f) (fsig fmt) ∧ gives (.vtanh f) (ftanh fmt) ∧
        ∀ x, (fdecode fmt x).isNan → ∀ fn ∈ [fexp2, flog2, frcp, frsq, fsig, ftanh], fn fmt x = { code := fmt.nanCode })) ∧
  (∀ (s : State) (f : VFields),
     let g := groupSize f.width
     let imm : BitVec 12 := f.srcB ++ f.srcC
     let v := if f.bsel = 2 then (s.ctx.readS f.srcB.toNat).toNat else imm.toNat
     let row := v % 128
     let acc := v / 128 % 4
     let owned := match s.curCrew with | some w => w.acc | none => 0
     (v < 512 → acc < owned → row + g ≤ 128 →
       Completes (.vacc f) s (VOwed s f 0 0 False (fun cl => VDelivers s f f.pred cl 6 7
         ((List.range g).map (fun m => vecOf 32 ((List.range 16).map (fun i =>
           (Sparse.get 0 (s.tile s.cur).acc (16384 * acc + 128 * (row + m) + 16 * cl + i)).toNat)))) 0))) ∧
     (512 ≤ v ∨ owned ≤ acc ∨ 128 < row + g → exec (.vacc f) s = .next (s.takeTrap .shape (BitVec.ofNat 64 v))) ∧
     (f.type = 0 → f.width = 1 →
       let a := fun cl => groupElems 32 (readVGroup s.ctx cl f.srcA.toNat 2)
       let gives := fun (k : Instr) (four : Bool) (bits draws : Nat) (mode : Nat → Nat → RMode) =>
         Completes k s (VOwed s f 1 draws False (fun cl =>
           let p := packBlock four ((List.range 32).map (mode cl)) (a cl)
           VDelivers s f f.pred cl 4 (vfLatch s cl) [vecOf bits (p.1.map (fun x => x.code)), BitVec.ofNat 512 p.2]
             ((p.1.zipIdx.map (fun x => if (activeLanes s.ctx cl f.pred).getLsbD (x.2 * bits / 32) then x.1.flags else 0)).foldl
               (fun x y => x ||| y) 0)))
       gives (.vpkPp8 f) false 8 0 (fun _ _ => .rne) ∧
       gives (.vpkMx4 f) true 4 (if s.ctx.vrm = 4 then 8 else 0) (fun cl e => vMode s s.ctx.vrm cl e)) ∧
     (f.width = 0 →
       let gives := fun (k : Instr) (bits : Nat) (dec : Nat → FVal) =>
         Completes k s (VOwed s f 1 0 False (fun cl => VElements s f cl 4 (vfLatch s cl) 32 2
           ((List.range 32).map (fun e => fround fp32 .rne (blockValue (dec (elemOf bits (s.ctx.readV cl f.srcA.toNat) e))
             (scaleVal (elemOf 32 (s.ctx.readV cl (f.srcA.toNat + 1)) 0)))))))
       gives (.vupkPp8 f) 8 pp8Dec ∧ gives (.vupkMx4 f) 4 (fdecode e2m1)))

/-- R172 to R175: VRED puts the tree sum, maximum or minimum of the elements of active lanes (the identity stands for the
others) into the sum latch of dst after 6 clk; VSUM takes the latch, leaves it EMPTY, and delivers its 64 bits in lanes 0 and
1 after 3 clk in vb6; VSCAN delivers the inclusive prefix results after 6 clk. -/
def Obligations.VectorReductions : Prop :=
  ∀ (s : State) (f : VFields),
    let g := groupSize f.width
    let t := f.type.toNat
    let b := typeBits t
    let n := g * (512 / b)
    let a := fun cl => groupElems b (readVGroup s.ctx cl f.srcA.toNat g)
    let live := fun cl e => (activeLanes s.ctx cl f.pred).getLsbD (e * b % 512 / 32)
    (let tree := fun (op cl : Nat) => (treeReduce op t (Nat.log2 n) ((List.range n).map (fun e =>
       ({ value := if live cl e then nodeOf t ((a cl).getD e 0) else nodeIdentity op t } : IRes)))).headD { value := 0 }
     let gives := fun (k : Instr) (op : Nat) (o : RedOp) =>
       Completes k s (VOwed s f 0 0 False (fun cl d w => d = s.clk + 6 ∧
         (w = .sum cl (f.dst.toNat % 4) o t (tree op cl).value ∨ ((tree op cl).flags ≠ 0 ∧ w = .satf (tree op cl).flags))))
     gives (.vredAdd f) 0 .add ∧ gives (.vredMax f) 1 .max ∧ gives (.vredMin f) 2 .min) ∧
    Completes (.vsum f) s (fun u =>
      let k := f.srcA.toNat % 4
      (∃ sum, VOwed (s.setCtx { s.ctx with sum := sum }) f 0 0 False (fun cl => VDelivers s f f.pred cl 3 6
        [if (s.ctx.readSum cl k).full then (s.ctx.readSum cl k).bits.setWidth 512 else 0] 0) u) ∧
      ∀ cl m, m < 4 → u.ctx.readSum cl m = if cl ∈ clustersOf f.target ∧ m = k then {} else s.ctx.readSum cl m) ∧
    (let gives := fun (k : Instr) (op : Nat) =>
       Completes k s (VOwed s f 0 0 False (fun cl =>
         let r := scanStages f op (Nat.log2 n) 1
           ((List.range n).map (fun e => if live cl e then (a cl).getD e 0 else scanIdentity f op)) 0
         VDelivers s f f.pred cl 6 6 (groupOf b 1 r.1) r.2))
     gives (.vscanAdd f) 0 ∧ gives (.vscanMax f) 1)

/-- R446, R449, R450, R115, R90: a vector load or gather whose lanes pass the checks issues a read in each cluster that the
slot reaches, in ascending order; the read of a strand that waits for nothing takes the word of each of its lanes, as they
are read one after another, and pushes its entry to vb4.
From a scratchpad without poison: the entry of a cluster holds member 0, zero in lanes that are not moved, and owes the
members of dst in the lanes that are; nothing else changes. -/
def Obligations.VectorLoads : Prop :=
  ∀ (s : State) (f : VFields) (cap : TCap),
    let g := groupSize f.width
    let o := (s.ctx.readS f.srcB.toNat).toNat % 2 ^ 48
    let base := fun cl => match f.target with | .broadcast => cl * g | .cluster _ => 0
    let live := fun cl i => (activeLanes s.ctx cl f.pred).getLsbD i
    let index := fun cl m i => elemOf 32 (s.ctx.readV cl (f.srcA.toNat + m)) i
    let waits := s.ctx.ports.any (fun p => p.2.any (fun e => e.held.isSome))
    readCapReg s.ctx (f.srcC.toNat % 32) = .ok cap →
    let issues := fun (k : Instr) (stream : Bool) (lanes : Nat → List (Nat × Nat)) =>
      ∀ p, s.lanesCheck cap o ((clustersOf f.target).flatMap (fun c => (lanes c).map (fun l => l.2))) false = .ok p →
        exec k s = .next ((clustersOf f.target).foldl (fun u c => u.vRead f p stream c (lanes c)) s) ∧
        (Quiet s → waits = false → ∀ (cl : Nat) (us : Nat → State) (ws : Nat → Nat),
          us 0 = numbered s →
          (∀ j l, (lanes cl)[j]? = some l → ∃ bs, bytesNat bs = ws j ∧
            (us j).readPlace s.cur s.curCtx (p.add l.2) 4 .plain stream = some (bs, us (j + 1))) →
          let u := us (lanes cl).length
          ∃ e : PortEntry, e.held = none ∧ e.failed = none ∧
            s.vRead f p stream cl (lanes cl) = u.setCtxAt s.cur s.curCtx ((u.ctxAt s.cur s.curCtx).setPort (16 + cl)
              ((u.ctxAt s.cur s.curCtx).port (16 + cl) ++ [e])) ∧
            ∀ j l, (lanes cl)[j]? = some l → l.1 < 16 → elemOf 32 e.value l.1 = ws j % 2 ^ 32)
    let fromSpad := fun (k : Instr) (moved : Nat → Nat → Nat → Bool) (place : Nat → Nat → Nat → Nat) (lanes : Nat → List (Nat × Nat)) =>
      s.lanesCheck cap o ((clustersOf f.target).flatMap (fun c => (lanes c).map (fun l => l.2))) false = .ok (.spad 0) →
      Quiet s → waits = false → (s.tile s.cur).spadPoison = [] →
      let value := fun cl m => vecOf 32 ((List.range 16).map (fun i =>
        if moved cl m i then bytesNat (s.spadBytes s.cur (place cl m i) 4) else 0))
      let mask := fun cl m => vecOf 32 ((List.range 16).map (fun i => if moved cl m i then 2 ^ 32 - 1 else 0))
      let entry := fun (cl : Nat) => ({
        value := value cl 0
        writes := if f.nw = 0 then (List.range g).map (fun m => .vreg cl (f.dst.toNat + m) (mask cl m) (value cl m))
          else [] } : PortEntry)
      Completes k s (fun t =>
        t = s.setCtx { s.ctx with num := s.ctx.num + (clustersOf f.target).length, ports := t.ctx.ports } ∧
        ∀ n, t.ctx.port n = s.ctx.port n ++ if 16 ≤ n ∧ n - 16 ∈ clustersOf f.target then [entry (n - 16)] else [])
    let whole := fun cl (_ i : Nat) => live cl i
    let line := fun cl m i => o + 64 * (m + base cl) + 4 * i
    let chosen := fun cl m i => live cl i && decide (index cl m i ≠ 2 ^ 32 - 1)
    issues (.vld f) false (vLanes s f o) ∧ issues (.vldSt f) true (vLanes s f o) ∧
    (capIsSpad cap = false → issues (.vgath f) false (vIndexed s f o f.srcA.toNat)) ∧
    (capIsSpad cap = true → issues (.vgathS f) false (vIndexed s f o f.srcA.toNat)) ∧
    fromSpad (.vld f) whole line (vLanes s f o) ∧ fromSpad (.vldSt f) whole line (vLanes s f o) ∧
    (capIsSpad cap = true →
      fromSpad (.vgathS f) chosen (fun cl m i => o + 4 * index cl m i) (vIndexed s f o f.srcA.toNat))

/-- R447, R449, R450: a vector store or scatter to the scratchpad by a strand that owes nothing writes the words of its active
lanes, clusters and elements in ascending order so that the last of two for one address remains, clears the tags of the units
it touches, and changes nothing else but poison. To memory, a store that issues to mapped pages is performed with its bytes
and mask; a slot whose capability is of the wrong kind traps KRIGHT.
R168 to R171: the VPART of one cluster, with a header of capacity 1 to 2^20 and a whole area that passes, appends the
indices of its true and its false lanes to the two lists in ascending order, past their capacity only in the counts, writes
NT and NF, and pushes them to vb4 with status 0; with a capacity out of range, or an area that does not pass, it writes
nothing and pushes the header's counts with status 2 or 1. -/
def Obligations.VectorStores : Prop :=
  (∀ (s : State) (f : VFields) (cap : TCap),
     let g := groupSize f.width
     let o := (s.ctx.readS f.srcB.toNat).toNat % 2 ^ 48
     let base := fun cl => match f.target with | .broadcast => cl * g | .cluster _ => 0
     let live := fun cl i => (activeLanes s.ctx cl f.pred).getLsbD i
     let data := fun cl m i => elemOf 32 (s.ctx.readV cl (f.srcA.toNat + m)) i
     let index := fun cl m i => elemOf 32 (s.ctx.readV cl (f.srcA.toNat + g + m)) i
     let spots := (List.range g).flatMap (fun m => (List.range 16).map (fun i => (m, i)))
     let toSpad := fun (k : Instr) (words : List (Nat × Nat)) =>
       s.lanesCheck cap o (words.map (fun w => w.1)) true = .ok (.spad 0) → Quiet s →
       Completes k s (fun t =>
         (∀ q, t.spadByte s.cur q = match (words.filter (fun w => decide (w.1 ≤ q ∧ q < w.1 + 4))).getLast? with
           | some w => BitVec.ofNat 8 (w.2 / 2 ^ (8 * (q - w.1)))
           | none => s.spadByte s.cur q) ∧
         (∀ u, Sparse.get false (t.tile s.cur).spadTag u =
           if words.any (fun w => w.1 / 16 == u) then false else Sparse.get false (s.tile s.cur).spadTag u) ∧
         (∀ x, x ≠ s.cur → t.tile x = s.tile x) ∧ t = { s with tiles := t.tiles } ∧
         t.tile s.cur = { s.tile s.cur with
           spad := (t.tile s.cur).spad, spadTag := (t.tile s.cur).spadTag, spadPoison := (t.tile s.cur).spadPoison })
     let lines := (clustersOf f.target).flatMap (fun cl => (spots.filter (fun x => live cl x.2)).map (fun x =>
       (o + 64 * (x.1 + base cl) + 4 * x.2, data cl x.1 x.2)))
     let picked := (clustersOf f.target).flatMap (fun cl =>
       (spots.filter (fun x => live cl x.2 && decide (index cl x.1 x.2 ≠ 2 ^ 32 - 1))).map (fun x =>
         (o + 4 * index cl x.1 x.2, data cl x.1 x.2)))
     readCapReg s.ctx (f.srcC.toNat % 32) = .ok cap →
     toSpad (.vst f) lines ∧ toSpad (.vstSt f) lines ∧ (capIsSpad cap = true → toSpad (.vscatS f) picked) ∧
     (capIsSpad cap = false → exec (.vscatS f) s = .next (s.takeTrap .kright (BitVec.ofNat 64 o)) ∧
       exec (.vgathS f) s = .next (s.takeTrap .kright (BitVec.ofNat 64 o))) ∧
     (capIsSpad cap = true → exec (.vscat f) s = .next (s.takeTrap .kright (BitVec.ofNat 64 o)) ∧
       exec (.vgath f) s = .next (s.takeTrap .kright (BitVec.ofNat 64 o))) ∧
     (∀ pasid va obj, s.lanesCheck cap o (picked.map (fun w => w.1)) true = .ok (.virt pasid va obj) → capIsSpad cap = false →
       exec (.vscat f) s = .next (picked.foldl (fun u w =>
         u.vPut s.ctx.num (.virt pasid (va + w.1) obj) (natBytes 4 w.2) none false) s)) ∧
     (∀ pasid va obj, s.lanesCheck cap o (lines.map (fun w => w.1)) true = .ok (.virt pasid va obj) →
       let issued := fun (poc : Bool) => (clustersOf f.target).foldl (fun u cl =>
         u.vWriteOut f (.virt pasid va obj) poc s.ctx.num (o + 64 * base cl) (vLanes s f o cl) cl) s
       exec (.vst f) s = .next (issued false) ∧ exec (.vstSt f) s = .next (issued true)) ∧
     (∀ pasid va obj bs mask poc a, Quiet s → s.rangeXlat pasid va bs.length true = .mapped a → HostClear s (.virt pasid va obj) →
       s.vPut s.ctx.num (.virt pasid va obj) bs mask poc = s.perform s.cur s.curCtx {
         pasid, va, obj, data := bs, mask, poc, num := s.ctx.num, scope := s.plainScope (.virt pasid va obj) })) ∧
  (∀ (s : State) (f : VFields) (cap : TCap) (c : Fin 8), f.target = .cluster c →
     let g := groupSize f.width
     let o := (s.ctx.readS f.srcB.toNat).toNat % 2 ^ 48
     let word := fun (u : State) a => bytesNat (u.spadBytes s.cur a 4)
     let size := word s (o + 8)
     let xs := ((List.range g).flatMap (fun m => (List.range 16).map (fun i =>
       (elemOf 32 (s.ctx.readV c.val (f.srcA.toNat + m)) i, (s.ctx.readVp c.val f.pred.toNat).getLsbD i)))).filter
         (fun x => decide (x.1 ≠ 2 ^ 32 - 1))
     let yes := (xs.filter (fun x => x.2)).map (fun x => x.1)
     let no := (xs.filter (fun x => !x.2)).map (fun x => x.1)
     let nt := word s o
     let nf := word s (o + 4)
     readCapReg s.ctx (f.srcC.toNat % 32) = .ok cap → Quiet s → capIsSpad cap = true → o % 16 = 0 →
     (s.tile s.cur).spadPoison = [] → (s.tile s.cur).owesPart s.nextOp = false → s.check cap o 16 (rR + rW) 16 .engine = .ok (.spad o) →
     let ends := fun (counts : List Nat) (P : State → Prop) => Completes (.vpart f) s (fun t => P t ∧
       t.ctx.port (16 + c.val) = s.ctx.port (16 + c.val) ++ [{
         value := vecOf 32 counts
         writes := if f.nw = 0 then [.vreg c.val f.dst.toNat (laneMask 0xFFFF) (vecOf 32 counts)] else [] }] ∧
       t.ctx.s = s.ctx.s ∧ t.ctx.v = s.ctx.v ∧ (∀ a, t.pocByte a = s.pocByte a))
     (1 ≤ size → size ≤ 2 ^ 20 → s.check cap o (16 + 8 * size) (rR + rW) 16 .engine = .ok (.spad o) →
       let nt' := (nt + yes.length) % 2 ^ 32
       let nf' := (nf + no.length) % 2 ^ 32
       ends [nt', nf', 0] (fun t =>
         word t o = nt' ∧ word t (o + 4) = nf' ∧
         (∀ j, j < yes.length → (nt + j) % 2 ^ 32 < size → word t (o + 16 + 4 * ((nt + j) % 2 ^ 32)) = yes.getD j 0) ∧
         (∀ j, j < no.length → (nf + j) % 2 ^ 32 < size →
           word t (o + 16 + 4 * size + 4 * ((nf + j) % 2 ^ 32)) = no.getD j 0) ∧
         ∀ q, ¬ (o ≤ q ∧ q < o + 8) →
           (∀ j, j < yes.length → (nt + j) % 2 ^ 32 < size → q / 4 ≠ (o + 16 + 4 * ((nt + j) % 2 ^ 32)) / 4) →
           (∀ j, j < no.length → (nf + j) % 2 ^ 32 < size → q / 4 ≠ (o + 16 + 4 * size + 4 * ((nf + j) % 2 ^ 32)) / 4) →
           t.spadByte s.cur q = s.spadByte s.cur q)) ∧
     (size = 0 ∨ 2 ^ 20 < size → ends [nt, nf, 2] (fun t => ∀ x q, t.spadByte x q = s.spadByte x q)) ∧
     (1 ≤ size → size ≤ 2 ^ 20 → (∀ p, s.check cap o (16 + 8 * size) (rR + rW) 16 .engine ≠ .ok p) →
       ends [nt, nf, 1] (fun t => ∀ x q, t.spadByte x q = s.spadByte x q)))

/-! ### Summary structures -/

/-- R179 to R181, R190: a summary instruction whose capability passes enters an operation for each cluster that it reaches into
the tile's reduction unit, in ascending order, with the elements of active lanes for an insertion and the lanes of srcA for a
clear, a merge or a query; a query takes its entry of vb4 at issue, without a value. SKCLR with parameters out of range traps
BADDESC with 2. Registers and memory stay.
R181 to R183, R189: the reduction unit performs the oldest operation of a tile once what comes before it is done: an
insertion or merge on a structure of its type, well formed, writes the new image; a query sends its answer to vb4; an
insertion into a structure of another TYPE raises BADDESC with reason 1 and the offset for its strand. The operation leaves
the queue.
R192, R196, R186: a key inserted into a heavy-hitter list raises its COUNT, or enters with COUNT 1 and ERR D where there is
room, or else lowers every COUNT by 1, dropping those that reach 0, and D rises; the order by COUNT and KEY stays. A key
inserted into a distinct count raises one register to the position of the first 1 bit behind its index bits, and no other. A
value inserted into a sketch is counted in N, or in NANS alone, and joins MIN, MAX and level 0. -/
def Obligations.SummaryOperationsQueue : Prop :=
  (∀ (s : State) (f : VFields) (cap : TCap) (p : Place), (s.tile s.cur).crew.isSome = true →
     let o := (s.ctx.readS f.srcB.toNat).toNat % 2 ^ 48
     let cs := clustersOf f.target
     let lanes := fun cl => (List.range 16).map (fun i => elemOf 32 (s.ctx.readV cl f.srcA.toNat) i)
     let b := typeBits f.type.toNat
     let live := fun cl => ((List.range (512 / b)).filter (fun e =>
       (activeLanes s.ctx cl f.pred).getLsbD (e * b / 32))).map (fun e => elemOf b (s.ctx.readV cl f.srcA.toNat) e)
     let entry := fun (op size : Nat) (bf : Bool) (place : Place) (es : List Nat) (act : VPred) (cl k : Nat) => ({
       id := s.nextOp + k, num := s.ctx.num + k, iss := { s.issuer s.cur s.curCtx with num := s.ctx.num + k }, op, cl, cap
       off := o, place, bf, elems := es, act, coin := (s.ctx.readCsr 0x1A).toNat % 4, size } : SumOp)
     let queued := fun (i : Instr) (entries : List SumOp) (pushed : Nat → List PortEntry) => Completes i s (fun t =>
       (t.tile s.cur).sumq = (s.tile s.cur).sumq ++ entries ∧ t.nextOp = s.nextOp + cs.length ∧
       (∀ n, t.ctx.port n = s.ctx.port n ++ pushed n) ∧
       t.ctx = { s.ctx with num := s.ctx.num + cs.length, ports := t.ctx.ports } ∧ SameMemory s t)
     let nothing := fun (_ : Nat) => ([] : List PortEntry)
     let each := fun (mk : Nat → Nat → SumOp) => cs.zipIdx.map (fun x => mk x.1 x.2)
     readCapReg s.ctx (f.srcC.toNat % 32) = .ok cap →
     (s.check cap o 32 (rR + rW) 64 .store = .ok p →
       let inserts := fun i op => queued i (each (fun cl k => entry op 0 (f.type == 1) p (live cl) 0 cl k)) nothing
       let merges := fun i op => queued i (each (fun cl k => entry op 0 (f.type == 1) p (lanes cl) 0 cl k)) nothing
       inserts (.skq f) 0x86 ∧ inserts (.skh f) 0x82 ∧ inserts (.skd f) 0x81 ∧
       merges (.skmrgQ f) 0x83 ∧ merges (.skmrgH f) 0x84 ∧ merges (.skmrgD f) 0x85) ∧
     (s.check cap o 32 rR 64 .engine = .ok p →
       let asks := fun i op => queued i
         (each (fun cl k => entry op 0 false p ((lanes cl).take 1) (activeLanes s.ctx cl f.pred) cl k))
         (fun n => (cs.zipIdx.filter (fun x => 16 + x.1 == n)).map (fun x => {
           cmd := some (s.nextOp + x.2)
           writes := if f.nw = 0 then [.vreg x.1 f.dst.toNat (laneMask (activeLanes s.ctx x.1 f.pred)) 0] else [] }))
       asks (.skqryQ f) 0x87 ∧ asks (.skqryR f) 0x88 ∧ asks (.skqryE f) 0x89) ∧
     (∀ area : Nat → Nat, (∀ cl ∈ cs, clearSize (lanes cl) = some (area cl) ∧
         s.check cap o (area cl) (rR + rW) 64 .store = .ok p) →
       queued (.skclr f) (each (fun cl k => entry 0x80 (area cl) false p ((lanes cl).take 4) 0 cl k)) nothing) ∧
     ((∃ cl ∈ cs, clearSize (lanes cl) = none) → exec (.skclr f) s = .next (s.takeTrap .baddesc 2))) ∧
  (∀ (s : State) (t : Nat) (o : SumOp) (rest : List SumOp), (s.tile t).sumq = o :: rest → s.sumReady t o = true →
     let unit := Instr.summaryUnitOperation t
     (∀ img u, s.sumImage t o o.off (rR + rW) true = .ok (img, u) → o.op ∈ [0x81, 0x82, 0x86] →
       (imgNat img 0 1 = sumType o.op → imageBad img = false →
         let m := sumInsert o img (u.sumDraw t o)
         exec unit s = .next ((((u.sumStore t o img m.1).sumDrawn t o m.2).sumPop t).retryReads)) ∧
       (imgNat img 0 1 ≠ sumType o.op →
         exec unit s = .next (((s.sumPop t).raise o.iss .baddesc (BitVec.ofNat 64 (1 + 256 * o.off))).retryReads))) ∧
     (∀ img src u v, s.sumImage t o o.off (rR + rW) true = .ok (img, u) → o.op ∈ [0x83, 0x84, 0x85] →
       u.sumImage t o o.source rR false = .ok (src, v) → mergeBad (sumType o.op) img src = none →
       (o.off + img.length ≤ o.source ∨ o.source + src.length ≤ o.off) →
       let m := mergeImages img src (v.sumDraw t o)
       exec unit s = .next ((((v.sumStore t o img m.1).sumDrawn t o m.2).sumPop t).retryReads)) ∧
     (∀ img u, s.sumImage t o o.off rR false = .ok (img, u) → o.op ∈ [0x87, 0x88, 0x89] →
       exec unit s = .next (((u.sumReply o (sumAnswer o.op (o.elems.getD 0 0) img)).sumPop t).retryReads)) ∧
     (∀ p, o.op = 0x80 → s.sumSpot t o o.off o.size (rR + rW) true = .ok p →
       exec unit s = .next (((s.sumClear t o).sumPop t).retryReads))) ∧
  ((∀ (h : Hitters) (x : Nat),
     let r := h.insert x
     r.n = (h.n + 1) % 2 ^ 64 ∧ r.m = h.m ∧
     ((∃ e ∈ h.es, e.key = x) → r.d = h.d ∧
       ∀ e, e ∈ r.es ↔ ∃ y ∈ h.es, e = if y.key = x then { y with count := Min.min (y.count + 1) (2 ^ 32 - 1) } else y) ∧
     ((∀ e ∈ h.es, e.key ≠ x) → h.es.length < h.m → r.d = h.d ∧
       ∀ e, e ∈ r.es ↔ e ∈ h.es ∨ e = { key := x, count := 1, err := Min.min h.d (2 ^ 32 - 1) }) ∧
     ((∀ e ∈ h.es, e.key ≠ x) → h.m ≤ h.es.length → r.d = (h.d + 1) % 2 ^ 64 ∧
       ∀ e, e ∈ r.es ↔ ∃ y ∈ h.es, 1 < y.count ∧ e = { y with count := y.count - 1 }) ∧
     (h.es.Pairwise (fun a b => b.count < a.count ∨ a.count = b.count ∧ a.key ≤ b.key) →
       r.es.Pairwise (fun a b => b.count < a.count ∨ a.count = b.count ∧ a.key ≤ b.key))) ∧
   (∀ (img : List Byte) (x : Nat),
     let p := imgNat img 1 1
     let w := (mix64 (BitVec.ofNat 64 x)).toNat % 2 ^ (64 - p)
     let i := (mix64 (BitVec.ofNat 64 x)).toNat / 2 ^ (64 - p)
     10 ≤ p → p ≤ 14 → img.length = 32 + 2 ^ p → ∃ r, 1 ≤ r ∧ r ≤ 65 - p ∧ w < 2 ^ (65 - p - r) ∧
       (r ≤ 64 - p → 2 ^ (64 - p - r) ≤ w) ∧
       let new := distinctInsert img x
       new.length = img.length ∧ imgNat new 8 8 = (imgNat img 8 8 + 1) % 2 ^ 64 ∧
       ∀ j, j < 8 ∨ 16 ≤ j → new.getD j 0 =
         if j = 32 + i then BitVec.ofNat 8 (Max.max (img.getD j 0).toNat r) else img.getD j 0) ∧
   (∀ (q : Sketch) (x : Nat),
     ((fdecode fp32 x).isNan = true → q.insert x = { q with nans := Min.min (q.nans + 1) (2 ^ 32 - 1) }) ∧
     ((fdecode fp32 x).isNan = false →
       let y := if x = 0x80000000 then 0 else x
       let r := q.insert x
       r.n = (q.n + 1) % 2 ^ 64 ∧ f32Key r.min = Min.min (f32Key y) (f32Key q.min) ∧
       f32Key r.max = Max.max (f32Key q.max) (f32Key y) ∧ r.nans = q.nans ∧
       (0 < q.levels → 0 < q.lv.length → (q.level 0).fill + 1 < q.k →
         r.level 0 = { q.level 0 with vals := (q.level 0).vals.set (q.level 0).fill y, fill := (q.level 0).fill + 1 }))))

/-! ### The matrix engine -/

/-- R151, R152, R158, R117: an M-slot instruction whose shape registers, accumulators, rings and drain area pass the checks
enters the matrix queue as its last entry, with the shapes and scales as they stand and MQPRIO; a full queue blocks it.
R153: MRING gives its ring, 1 clk later, the base, slot count and slot size of mh0, empty.
R152: a field of mh0 out of range traps SHAPE with 0. -/
def Obligations.MatrixOperationsQueue : Prop :=
  ∀ (s : State) (f : MFields),
    let t := s.tile s.cur
    let mh := (List.range 4).map s.ctx.readShape
    let w := fun i => (s.ctx.readShape i).toNat
    let field := fun i lo n => w i / 2 ^ lo % 2 ^ n
    let ea := f.acc.toNat + field 3 0 2
    let owned := match t.crew with | some c => c.acc | none => 0
    let fmt := f.fmt.toNat
    let ks := if fmt = 0 then 32 else if fmt < 5 then 64 else 128
    let vec := if fmt < 6 then 64 else 128
    let mT := field 3 2 1 + 1
    let nT := field 3 3 1 + 1
    let esb := f.scb.toNat + field 3 4 4
    let scales := (if fmt = 5 then 2 else if fmt < 5 then 0 else 1) * field 0 0 24
    let legal3 := w 3 < 2 ^ 25 ∧ field 3 8 8 = 0
    let entered := fun (i : Instr) (op : Nat) (sc : List Scales) =>
      t.mq.length < 8 → exec i s = .next (s.setTile s.cur { t with
        mq := t.mq ++ [{
          id := t.mqSeq, iss := s.issuer s.cur s.curCtx, op, word := packM op f, mh, scales := sc
          prio := (s.ctx.readCsr 0x1B).toNat % 8, entered := s.clk }]
        mqSeq := t.mqSeq + 1 })
    let loop := w 0 < 2 ^ 27 ∧ field 0 0 24 ≠ 0 ∧ w 1 < 2 ^ 24 ∧ field 1 16 8 ≤ ks ∧ field 1 8 8 ≤ 128 ∧ field 1 0 8 ≤ 128 ∧
      w 2 < 2 ^ (field 0 24 3 + 1) ∧ legal3
    (loop → ea + mT * nT ≤ Min.min 4 owned → (5 ≤ fmt → mT = 1 ∧ nT = 1 ∧ esb + scales ≤ 16) →
      f.ringA ≠ f.ringB → (∀ r ∈ [f.ringA.toNat, f.ringB.toNat], (t.ring r).slots ≠ 0 ∧ 128 * vec ≤ (t.ring r).slotsz) →
      let sc := (List.range scales).map (fun i => s.ctx.readSc (esb + i))
      entered (.mstep f) 0xD3 sc ∧ entered (.mstepx f) 0xD4 sc) ∧
    (w 0 < 2 ^ 25 → field 0 0 8 = 0 → legal3 → ea < Min.min 4 owned →
      field 0 0 24 + 16384 * (if field 0 24 1 = 1 then 2 else 4) ≤ t.crewSpad →
      entered (.mdrain f) 0xD0 [] ∧ entered (.mdrainCt f) 0xD1 []) ∧
    (legal3 → ea < Min.min 4 owned → entered (.mzero f) 0xD5 []) ∧
    (8 ≤ t.mq.length → ∀ i ∈ [Instr.mstep f, .mstepx f, .mdrain f, .mdrainCt f, .mzero f],
      exec i s = .next ((s.block s.cur s.curCtx .matrixQueue).episodes s.cur)) ∧
    (w 0 < 2 ^ 38 → field 0 0 8 = 0 → t.ringAllowed f.ringA.toNat = true →
      let slots := field 0 24 8 + 1
      let size := 256 * (field 0 32 6 + 1)
      field 0 0 24 + slots * size ≤ t.crewSpad → t.mq = [] → t.follows = [] → t.cq = [] →
      Completes (.mring f) s (Owed s (s.clk + 1) (fun x => x = .ring f.ringA.toNat (field 0 0 24) slots size)) ∧
      ∀ u : State, ((u.applyWr s.cur s.curCtx (.ring f.ringA.toNat (field 0 0 24) slots size)).tile s.cur).ring f.ringA.toNat =
        { base := field 0 0 24, slots := slots, slotsz := size, head := 0, count := 0 }) ∧
    (2 ^ 38 ≤ w 0 ∨ field 0 0 8 ≠ 0 → exec (.mring f) s = .next (s.takeTrap .shape 0)) ∧
    (t.mq.length < 8 → 2 ^ 27 ≤ w 0 ∨ field 0 0 24 = 0 → exec (.mstep f) s = .next (s.takeTrap .shape 0) ∧
      exec (.mstepx f) s = .next (s.takeTrap .shape 0))

/-- R156, R157, R145: an array step replaces each element of its accumulator in the live rows and columns by the exact sum of
the element and its products, rounded once, and no other element; the tail counts of mh1 limit the last row tile, the last
column tile and the last k index.
R154, R156, R160: the last piece of the operation that holds the array ends it: its entry leaves the queue, the array is
idle, its counter rises by 1 exactly where CTEN is set; MZERO leaves its accumulator all +0 and the others as they were.
Before its time is over, nothing happens.
R163: a step that fails its check is computed again in 32 clk, and changes no accumulator and no ring; at the third failure
the operation and the later ones of its strand leave the queue.
R161: the first follow-on word that waits enters the matrix queue, once it has room. -/
def Obligations.TrowelPerforms : Prop :=
  (∀ (t : Tile) (e : MqEntry) (step : Nat), mRows e.mh ≤ 128 → mCols e.mh ≤ 128 →
     let f := e.fields
     let nT := mNt e.mh
     let i := step / nT
     let j := step % nT
     let full := fun x n => if x = 0 then n else x
     let rows := if i + 1 = mMt e.mh then full (mRows e.mh) 128 else 128
     let cols := if j + 1 = nT then full (mCols e.mh) 128 else 128
     let nk := if e.k + 1 = mKt e.mh then full (mVk e.mh) (mKs f.fmt.toNat) else mKs f.fmt.toNat
     let acc := fun (u : Tile) b r c => Sparse.get 0 u.acc (16384 * b + 128 * r + c)
     ∃ x y : Nat → Nat → Operand, ∀ b r c, r < 128 → c < 128 →
       acc (t.arrayStep e step) b r c =
         if b = f.acc.toNat + mAccoff e.mh + step ∧ r < rows ∧ c < cols then
           BitVec.ofNat 32 (fround fp32 .rne (exactSum (fdecode fp32 (acc t b r c).toNat ::
             (List.range nk).map (fun k => operandMul (x r k) (y c k))))).code
         else acc t b r c) ∧
  (∀ (s : State) (t : Nat),
     let x := s.tile t
     (∀ (r : MRun) (e : MqEntry), x.mrun = some r → x.runEntry = some e → r.busy = true →
       (s.clk < r.due → exec (.matrixKStep t) s = .next s ∧ exec (.matrixComplete t) s = .next s ∧
         exec (.matrixReplay t) s = .next s) ∧
       (r.due ≤ s.clk → r.step + 1 = e.steps → e.k + 1 = e.pieces → x.pieceBad e r.step = false →
         Completes (.matrixComplete t) s (fun u =>
           (u.tile t).mq = x.mq.filter (fun y => y.id != e.id) ∧ (u.tile t).mrun = none ∧
           (∀ n, (u.tile t).readCt n = x.readCt n + if mCten e.mh ∧ n = mCt e.mh then 1 else 0) ∧
           (e.op = 0xD5 → ∀ b row col, row < 128 → col < 128 → Sparse.get 0 (u.tile t).acc (16384 * b + 128 * row + col) =
             if b = e.fields.acc.toNat + mAccoff e.mh then 0 else Sparse.get 0 x.acc (16384 * b + 128 * row + col)) ∧
           (isDrain e.op = true → (u.tile t).acc = x.acc) ∧
           (isStep e.op = true → e.stage = true →
             (u.tile t).acc = (x.arrayStep e r.step).acc ∧ (u.tile t).rings = (x.popRings e).rings))) ∧
       (r.due ≤ s.clk → isStep e.op = true → e.stage = true → x.stepChecked e r.step = true →
         (e.fails < 2 → Completes (.matrixReplay t) s (fun u =>
           (u.tile t).acc = x.acc ∧ (u.tile t).rings = x.rings ∧ (u.tile t).mrun = some { r with due := r.due + 32 } ∧
           ∀ y ∈ (u.tile t).mq, y.id = e.id → y.fails = e.fails + 1)) ∧
         (2 ≤ e.fails → Completes (.matrixReplay t) s (fun u =>
           (u.tile t).acc = x.acc ∧ (u.tile t).rings = x.rings ∧ (u.tile t).mrun = none ∧
           (u.tile t).mq = x.mq.filter (fun y => !(y.iss.ctx == e.iss.ctx && decide (e.id ≤ y.id))))))) ∧
     (x.mrun = none → x.held = true ∨ x.trowelWaits = true → exec (.matrixKStep t) s = .next s) ∧
     (x.mrun = none → x.held = false → x.trowelWaits = false → ∀ e, s.mBest t = some e →
       exec (.matrixKStep t) s = .next (s.setTile t { x with mrun := some {
         id := e.id, prio := Min.min 7 (e.prio + (s.clk - e.entered) / 2 ^ 12), busy := true, step := 0
         due := s.clk + (if e.op = 0xD5 then 8 else if e.op = 0xD0 then 8 else if e.op = 0xD1 then 10
           else if e.stage then 32 else 1) } })) ∧
     ∀ e rest, x.follows = e :: rest →
       (x.mq.length < 8 → exec (.followOnEnqueue t) s = .next (s.setTile t { x with
         follows := rest, mq := x.mq ++ [{ e with id := x.mqSeq, entered := s.clk }], mqSeq := x.mqSeq + 1 })) ∧
       (8 ≤ x.mq.length → exec (.followOnEnqueue t) s = .next s))

/-! ### Commands to the engines -/

/-- R370, R373, R375, R377, R415, R416, R404, R364, R276, R305, R457, R314, R429, R90, R118: an engine command whose queue has
room and whose operands pass the checks at issue (for CPYF, once the strand's earlier accesses to its descriptor have been
performed) enters the queue of its engine as its last command, with what its slot and
the strand's registers hold; without NR it takes the next entry of its engine's return port, whose status is not known yet.
Nothing else changes. A full queue, or sixteen collectives outstanding, blocks the bundle. -/
def Obligations.EngineCommandsQueue : Prop :=
  ∀ (s : State) (f : EFields),
    let off := (s.ctx.readS f.s.toNat).toNat % 2 ^ 48
    let nr := f.arg.getLsbD 17
    let me := s.issuer s.cur s.curCtx
    let taken := fun (port : Nat) =>
      let u := { s with nextOp := s.nextOp + 1 }
      if nr then u else u.setCtx (u.ctx.setPort port (u.ctx.port port ++ [{ cmd := some s.nextOp }]))
    let full := fun (i : Instr) (why : BlockWhy) => exec i s = .next ((s.block s.cur s.curCtx why).episodes s.cur)
    let engine := fun (op : Nat) (place : Option Place) (cap : TCap) => ({
      id := s.nextOp, op, tile := s.cur, iss := me, ct := f.ct.toNat, nr, arg := f.arg.toNat, hnd := f.hnd.toNat
      sval := s.ctx.readS f.s.toNat, place, cap, caps := s.ctx.k, mask := s.ctx.readShape 8, die := s.cur / 64 } : EngCmd)
    let mine := fun (q : List EngCmd) => (q.filter (fun c => c.iss.gang == me.gang && c.iss.crew == me.crew)).length
    -- copies
    (let copies := (s.tile s.cur).cq
     let cmd := fun (op : Nat) (p : Place) => ({
       id := s.nextOp, op, iss := me, place := p, desc := none, caps := s.ctx.k, ct := f.ct.toNat
       inc := f.arg.toNat % 2 ^ 16, nr, qprio := f.qprio.toNat, hnd := f.hnd.toNat, entered := s.clk } : CopyCmd)
     let enters := fun (c : CopyCmd) => (taken 8).setTile s.cur { (taken 8).tile s.cur with cq := copies ++ [c] }
     (∀ cap p, readCapReg s.ctx f.k.toNat = .ok cap → s.check cap off 64 (rR + rE) 64 .engine = .ok p → copies.length < 16 →
       exec (.cpy f) s = .next (enters (cmd 0xE4 p)) ∧ exec (.cpyg f) s = .next (enters (cmd 0xE7 p)) ∧
       exec (.cpys f) s = .next (enters (cmd 0xE8 p)) ∧ exec (.cpyz f) s = .next (enters (cmd 0xE9 p)) ∧
       ∀ o, p = .spad o → s.readBlocked s.cur s.curCtx s.ctx.num 0 p 64 = false → s.spadBad s.cur o 64 = false →
         let bs := s.spadBytes s.cur o 64
         (∀ e, s.followCheck (cmd 0xE5 p) bs = .ok e → exec (.cpyfA f) s = .next (enters { cmd 0xE5 p with
           desc := some bs
           follow := some e })) ∧
         ∀ e, s.followCheck (cmd 0xE6 p) bs = .ok e → exec (.cpyfB f) s = .next (enters { cmd 0xE6 p with
           desc := some bs
           follow := some e })) ∧
     (16 ≤ copies.length → full (.cpy f) (.engineQueue 0xE4) ∧ full (.cpyz f) (.engineQueue 0xE9))) ∧
    -- counter signals
    (let signals := (s.tile s.cur).sigq
     let enters := fun (i : Instr) (op : Nat) (target value : Word) =>
       exec i s = .next ((taken 13).setTile s.cur { (taken 13).tile s.cur with
         sigq := signals ++ [{ id := s.nextOp, op, iss := me, target, value, ct := f.ct.toNat, nr }] })
     let a := s.ctx.readS f.s.toNat
     let b := s.ctx.readS (f.s.toNat + 1)
     (signals.length < 16 → enters (.cset f) 0xEA 0 a ∧ enters (.sigcAdd f) 0xF3 a b ∧ enters (.sigcSet f) 0xF4 a b) ∧
     (16 ≤ signals.length → full (.cset f) (.engineQueue 0xEA) ∧ full (.sigcAdd f) (.engineQueue 0xF3) ∧
       full (.sigcSet f) (.engineQueue 0xF4))) ∧
    -- Mortar
    (let enters := fun (i : Instr) (c : EngCmd) => exec i s = .next ({ taken 9 with mortarQ := s.mortarQ ++ [c] } : State)
     (mine s.mortarQ < 16 →
       enters (.mtfet f) (engine 0xEB none {}) ∧ enters (.mthalo f) (engine 0xEC none {}) ∧
       enters (.mtinvWb f) (engine 0xED none {}) ∧ enters (.mtinvDrop f) (engine 0xEE none {}) ∧
       enters (.mtlook f) (engine 0xEF none {}) ∧ enters (.mtpin f) (engine 0xF0 none {}) ∧
       enters (.mtrel f) (engine 0xF2 none {}) ∧
       ∀ cap p, readCapReg s.ctx f.k.toNat = .ok cap → s.check cap off 64 (rR + rE) 64 .engine = .ok p →
         enters (.mtreg f) (engine 0xF1 (some p) cap)) ∧
     (16 ≤ mine s.mortarQ → full (.mtfet f) (.engineQueue 0xEB) ∧ full (.mtreg f) (.engineQueue 0xF1))) ∧
    -- collectives
    (let enters := fun (i : Instr) (op n : Nat) =>
       ∀ cap p, readCapReg s.ctx f.k.toNat = .ok cap → s.check cap off n (rR + rE) 64 .engine = .ok p →
         let u := taken 10
         exec i s = .next ({ u.setCtx { u.ctx with nColl := s.ctx.nColl + 1 } with hodQ := s.hodQ ++ [{
           id := s.nextOp, op, tile := s.cur, iss := me, ct := f.ct.toNat, nr, hnd := f.hnd.toNat
           cseq := f.arg.toNat % 2 ^ 16, place := some p }] } : State)
     let rows := [(Instr.clabt f, 0xD9, 64), (.clag f, 0xDA, 64), (.clarSum f, 0xDB, 64), (.clarMax f, 0xDC, 64),
       (.clbar f, 0xDD, 64), (.clbc f, 0xDE, 64), (.clopt f, 0xDF, 64), (.clrsSum f, 0xE0, 64), (.clrsMax f, 0xE1, 64),
       (.clrsh f, 0xE2, 160), (.clst f, 0xE3, 64)]
     (s.ctx.nColl < 16 → ∀ x ∈ rows, enters x.1 x.2.1 x.2.2) ∧ (16 ≤ s.ctx.nColl → ∀ x ∈ rows, full x.1 .collectives)) ∧
    -- Crown
    (let enters := fun (i : Instr) (c : EngCmd) => exec i s = .next ({ taken 11 with crownQ := s.crownQ ++ [c] } : State)
     (mine s.crownQ < 16 → enters (.wvadopt f) (engine 0xF9 none {}) ∧
       ∀ cap p, readCapReg s.ctx f.k.toNat = .ok cap → s.check cap off 64 (rR + rW + rE) 64 .engine = .ok p →
         enters (.wvdrop f) (engine 0xFA (some p) cap) ∧ enters (.wvhold f) (engine 0xFB (some p) cap) ∧
         enters (.wvpub f) (engine 0xFC (some p) cap) ∧ enters (.wvqry f) (engine 0xFD (some p) cap)) ∧
     (16 ≤ mine s.crownQ → full (.wvadopt f) (.engineQueue 0xF9) ∧ full (.wvhold f) (.engineQueue 0xFB))) ∧
    -- Brim
    (let enters := fun (i : Instr) (c : EngCmd) => exec i s = .next ({ taken 12 with brimQ := s.brimQ ++ [c] } : State)
     let n := 16 * (f.arg.toNat % 16 + 1)
     (mine s.brimQ < 16 → enters (.tjclose f) (engine 0xF5 none {}) ∧ enters (.tjopen f) (engine 0xF6 none {}) ∧
       ∀ cap p, readCapReg s.ctx f.k.toNat = .ok cap →
         (s.check cap off 32 (rR + rE) 32 .engine = .ok p → enters (.tjrd f) (engine 0xF7 (some p) cap)) ∧
         (s.check cap off n (rR + rE) 16 .engine = .ok p → enters (.tjrec f) (engine 0xF8 (some p) cap))) ∧
     (16 ≤ mine s.brimQ → full (.tjclose f) (.engineQueue 0xF5) ∧ full (.tjrec f) (.engineQueue 0xF8)))

/-! ### Ports, contexts and traps -/

/-- R90: the oldest owed entry of a return port arrives once its value is known, and its writes are performed then, in issue
order; one whose value is not known stays; a discarded one leaves the port with its writes performed; a failed one is kept for
the bundle that reads it, and writes nothing.
R321: a ready, running or blocked strand takes the oldest cause that an engine has queued for it, as KIND 1, before the bundle
that it would issue next, behind any that it passes over. -/
def Obligations.PortsAndCausesDeliver : Prop :=
  ∀ (s : State) (t c : Nat),
    let x := s.ctxAt t c
    (∀ (n : Nat) (pre post : List PortEntry) (e : PortEntry), x.port n = pre ++ e :: post → (∀ y ∈ pre, y.arrived = true) →
      e.arrived = false → e.kld = none →
      let known := e.held = none ∧ e.cmd = none ∧ e.twin = false
      let port := fun (es : List PortEntry) => x.setPort n es
      (known → e.failed = none → e.lost = false → exec (.returnPortDeliver t c n) s =
        .next (s.setCtxAt t c (e.writes.foldl Ctx.applyWr (port (pre ++ { e with arrived := true } :: post))))) ∧
      (known → e.failed = none → e.lost = true → exec (.returnPortDeliver t c n) s =
        .next (s.setCtxAt t c (e.writes.foldl Ctx.applyWr (port (pre ++ post))))) ∧
      (e.failed.isSome = true → e.lost = false → exec (.returnPortDeliver t c n) s =
        .next (s.setCtxAt t c (port (pre ++ { e with arrived := true } :: post)))) ∧
      (¬ known → e.failed = none → exec (.returnPortDeliver t c n) s = .next (s.setCtxAt t c x))) ∧
    (∀ (e : EngineCause) (rest : List EngineCause) (y : Ctx), x.causes = e :: rest → s.passOver t x = .ok y →
      (s.tile t).held = false →
      (x.run = .ready ∨ x.run = .running ∨ ∃ w, x.run = .blocked w) →
      exec (.engineCauseTake t c) s = .next ((s.setCtxAt t c { y with causes := rest }).trapAt t c 1 e.cause e.info))

/-- R319, R323, R62, R58: a trap leaves its cause, the address of its bundle and its information in TRAPC, TRAPPC and TRAPA;
results that are due later are captured with the clk that remain; the fixed-latency latches are cleared; no other register
changes; the core leaves the strand, which is TRAPPED, or FATAL where its virtual function has no usable trap area. -/
def Obligations.TrapEntry : Prop :=
  ∀ (s : State) (t c kind : Nat) (cause : Cause) (info : Word),
    let k := s.ctxAt t c
    (∀ p ∈ k.pending, s.clk < p.due) →
    let u := s.trapAt t c kind cause info
    let y := u.ctxAt t c
    y.readCsr 0x08 = BitVec.ofNat 64 (causeCode cause) ∧ y.readCsr 0x09 = BitVec.ofNat 64 k.pc ∧ y.readCsr 0x0A = info ∧
    y.s = k.s ∧ y.k = k.k ∧ y.p = k.p ∧ y.v = k.v ∧ y.vp = k.vp ∧ y.sum = k.sum ∧ y.shape = k.shape ∧
    (∀ n, y.readB n = 0) ∧ (∀ cl n, y.readVb cl n = 0) ∧ y.pending = [] ∧ (u.tile t).running ≠ some c ∧
    (s.trapRegion (s.tileVf t) t c = none → y.run = .fatal) ∧
    (∀ r, s.trapRegion (s.tileVf t) t c = some r → (∀ n, s.rangeXlat r.pasid r.va n true ≠ .forbidden) →
      y.run = .trapped ∧ y.capture = k.capture ++ k.pending.map (fun p => { p with due := p.due - s.clk }))

/-! ### The scheduler -/

/-- R49 to R51, R57: the free core takes the first takeable context behind the last one; a context that has had its 4,096 clk
is marked for rotation; a strand that WAITC has blocked is ready as soon as its counter has the value, and not before.
R381, R382, R33: a strand that has issued EXIT and is owed nothing retires, a handler's context becomes dormant again; the
crew is then counted among the retired of its gang. -/
def Obligations.ContextsRotateAndRetire : Prop :=
  ∀ (s : State) (t c : Nat),
    let x := s.tile t
    let k := s.ctxAt t c
    (∀ i, x.running = none → x.nextIssue ≤ s.clk → x.held = false → 1 ≤ i → i ≤ 4 → c = (x.last + i) % 4 →
      k.run = .ready → k.pending = [] →
      (∀ j, 1 ≤ j → j < i → ¬ ((s.ctxAt t ((x.last + j) % 4)).run = .ready ∧ (s.ctxAt t ((x.last + j) % 4)).pending = [])) →
      exec (.contextSwitch t) s = .next (s.setTile t { x.setCtx c { k with run := .running } with
        running := some c
        quantum := 0
        expired := false })) ∧
    (4096 ≤ x.quantum → exec (.quantumExpiry t) s = .next (s.setTile t { x with expired := true })) ∧
    (∀ n v, k.run = .blocked (.waitc n v) → exec (.strandWake t c) s =
      .next (if v.toNat ≤ (x.readCt n).toNat then s.setCtxAt t c { k with run := .ready } else s)) ∧
    (k.run = .exiting → x.drained c = true → k.handler = true →
      exec (.strandRetire t c) s = .next (s.setCtxAt t c { k with
        run := .dormant
        handler := false
        ports := [] })) ∧
    (k.run = .exiting → x.drained c = true → k.handler = false → Completes (.strandRetire t c) s (fun u =>
      (u.ctxAt t c).run = .retired ∧ (u.ctxAt t c).ports = [] ∧ (u.ctxAt t c).binds = [] ∧ (u.ctxAt t c).s = k.s)) ∧
    (∀ w g, x.crew = some w → s.gang w.gang = some g → s.crewDone t = true → w.idx ∉ g.retired →
      exec (.crewRetire t) s = .next ({ s with
        gangs := Sparse.set none s.gangs w.gang (some { g with retired := g.retired ++ [w.idx] }) } : State))

/-- R43 to R47, R32: GANG_ADMIT places the next gang of the admissible head record on the lowest free tiles of its partition:
its strands are ready at the variant's entry point with VARIANT, the arguments, the capabilities and the seed of the record,
and Clamp reserves its energy. R48: a reservation goes to the head that has waited longest among those that tiles alone hold
back.
R33, R42, R53: GANG_RETIRE of a gang all of whose crews have retired frees its tiles and adds 1 to its wave counter. -/
def Obligations.GangsComeAndGo : Prop :=
  ∀ (s : State) (v part : Nat),
    (∀ q r, (s.vf v).flr = false →
      let u := s.checkHeads v part
      u.admits v part = some (q, r) → r.coloc = false →
      let x := (u.vf v).queue part q
      let ts := (u.freeTiles v r.part).take r.crews
      let variant := match x.wave.bind (fun i => Sparse.get none u.waves i) with
        | some w => w.variant
        | none => (u.variantFor v r).getD 0
      ts.length = r.crews ∧ Completes (.gangAdmit v part) s (fun n =>
        (n.vf v).rv = (u.vf v).rv + r.energy ∧
        (∃ g, n.gang u.nextGang = some g ∧ g.vf = v ∧ g.part = r.part ∧ g.mark = x.mark ∧ g.pasid = r.region.pasid ∧
          g.tiles = ts.map some) ∧
        ∀ t ∈ ts, (∃ w, (n.tile t).crew = some w ∧ w.gang = u.nextGang ∧ w.strands = r.strands ∧ w.spad = r.spad) ∧
          ∀ c, c < 4 → c < r.strands →
            let k := n.ctxAt t c
            k.run = .ready ∧ k.pc = (r.vars.getD variant (0, 0)).2 ∧ k.readS 55 = BitVec.ofNat 64 variant ∧
            (∀ i a, r.args[i]? = some a → k.readS (56 + i) = a) ∧ (∀ i a, r.caps[i]? = some a → k.readK i = a) ∧
            k.readCsr 0x0D = r.seed)) ∧
    ((s.vf v).flr = false → Sparse.get none (s.vf v).reserve part = none →
      Completes (.tileReservation v part) s (fun n => match Sparse.get none (n.vf v).reserve part with
        | some q => s.mayReserve v part q = true ∧
          ∀ p < 64, s.mayReserve v part p = true → ((s.vf v).queue part q).since ≤ ((s.vf v).queue part p).since
        | none => ∀ p < 64, s.mayReserve v part p = false)) ∧
    (∀ id g w, s.gang id = some g → g.allRetired = true → Sparse.get none s.waves g.wave = some w →
      w.record.sigmode = false → g.fatal = false → s.gangFatal id g = false →
      Completes (.gangRetire id) s (fun n => n.gang id = none ∧
        (∀ t, some t ∈ g.tiles → (n.tile t).crew = none ∧ (n.tile t).l1 = []) ∧
        Sparse.get 0 (n.vf g.vf).wc w.record.wc = Sparse.get 0 (s.vf g.vf).wc w.record.wc + 1))

/-- R40: a write of TAIL within the ring's size takes effect, and one beyond it halts the queue; R39: LQTAIL and LQSTAT read as TAIL,
HEAD and HALT, and a reserved register as 0 (R7); R328: LQMARK sets the marks of
32 queues, 3 leaving one as it is; R337: a soft-error counter's bits written as 1 are cleared in every unit; R346: each
account is charged, refilled up to its CAP, and gates its tiles while its balance is below 0. -/
def Obligations.RegistersOfTheHost : Prop :=
  ∀ (s : State), s.boot.running = true →
    (∀ (v part q : Nat) (tail : BitVec 32), v < 16 → part < 2 → q < 64 →
      let x := (s.vf v).queue part q
      ((tail - x.head).toNat ≤ x.size → exec (.lqtailWrite v part q tail) s = .next (s.setQueue v part q { x with
        tail := tail
        since := if x.head = x.tail then s.clk else x.since })) ∧
      (x.size < (tail - x.head).toNat → Completes (.lqtailWrite v part q tail) s (fun u =>
        ((u.vf v).queue part q).halt = true ∧ ((u.vf v).queue part q).tail = x.tail)) ∧
      (∀ value : Word, exec (.registerWrite v (0x20000 + 0x400 * part + 16 * q) value) s =
        exec (.lqtailWrite v part q (value.setWidth 32)) s) ∧
      s.barRead v (0x20000 + 0x400 * part + 16 * q) = some (x.tail.setWidth 64) ∧
      s.barRead v (0x20000 + 0x400 * part + 16 * q + 8) = some (BitVec.ofNat 64 (2 ^ 63 * x.halt.toNat + x.head.toNat)) ∧
      s.barRead v (0x20800 + 8 * q) = some 0) ∧
    (∀ (v part half : Nat) (value : Word), v < 16 → part < 2 → half < 2 → Completes (.lqmarkWrite v part half value) s (fun u =>
      ∀ p q, p < 2 → q < 64 → (u.vf v).queue p q =
        let x := (s.vf v).queue p q
        let m := value.toNat / 4 ^ (q % 32) % 4
        if p = part ∧ q / 32 = half ∧ m ≠ 3 then { x with mark := m } else x)) ∧
    (∀ (n : Nat) (value : Word), n < 16 → Completes (.registerWrite 16 (0x30000 + 8 * n) value) s (fun u =>
      ∀ unit m, unit < 5 → m < 16 → Sparse.get 0 u.secnt (16 * unit + m) =
        if m = n then Sparse.get 0 s.secnt (16 * unit + m) &&& ~~~(value.setWidth 32) else Sparse.get 0 s.secnt (16 * unit + m))) ∧
    Completes .clampTick s (fun u => ∀ v < 16,
      let x := s.vf v
      let b := Min.min (x.cap : Int) (x.balance - Config.energy v (s.clk / Config.clampInterval) + x.share)
      u.vf v = { x with
        balance := b
        gated := decide (b < 0) })

/-! ### Pre-emption, resets and the block commands -/

/-- ENGINE_STOP (R60, R61): a frozen crew whose engines stand still has reached its stop points, and any other stays as it is.
SAVE_AREA_WRITE (R65): a crew that has reached them, whose accesses and Hod have settled, whose state can be read and whose
context-table entry names an area that is mapped, leaves its tile; the device keeps the tile's and the strands' state for that
area. Until then the crew stays as it is.
TILE_SCRUB (R72): a moving tile without a crew is scrubbed; with the last tile of its move, the tiles have their owner and their
roles, and A(v, d) its value, together.
GANG_RESUME (R70): once the log of a resuming gang has been replayed and its held deliveries have landed, fetch restarts; until
then nothing happens. -/
def Obligations.CrewsMove : Prop :=
  ∀ (s : State) (t : Nat),
    let x := s.tile t
    (∀ w, x.crew = some w → w.frozen = true → w.stopped = false → s.enginesStill t = true →
      Completes (.engineStop t) s (fun u => u.tile t = { x with crew := some { w with stopped := true } })) ∧
    (∀ w, x.crew = some w → w.frozen = false ∨ w.stopped = true ∨ s.enginesStill t = false → exec (.engineStop t) s = .next s) ∧
    (∀ w, x.crew = some w → w.stopped = false ∨ w.resuming = true ∨ s.accessesSettled t = false ∨ s.hodSettled w = false →
      exec (.saveAreaWrite t) s = .next s) ∧
    (∀ (w : Crew) (g : Gang) (area : Region) (ks : List Ctx), x.crew = some w → s.gang w.gang = some g →
      w.stopped = true → w.resuming = false →
      s.accessesSettled t = true → s.hodSettled w = true → x.saveBad w = false → (g.entryOf w.idx).bind (s.areaOf g.vf) = some area →
      (List.range 4).map (s.fetchCapture t) = ks.map some → (∃ pa, s.rangeXlat area.pasid area.va area.len true = .mapped pa) →
      Completes (.saveAreaWrite t) s (fun u =>
        (u.tile t).crew = none ∧ (∃ h, u.gang w.gang = some h ∧ h.tiles = g.tiles.set w.idx none) ∧
        ∃ y, Sparse.get none u.saves (256 * w.gang + w.idx) = some y ∧ y.area = area ∧ y.src = t ∧ y.crew = w ∧
          y.tile.spad = x.spad ∧ y.tile.ct = x.ct ∧ y.tile.acc = x.acc ∧ y.tile.l1 = [] ∧
          ∀ c k, ks[c]? = some k → y.tile.ctx c = k)) ∧
    (∀ m, x.tstate = .moving → x.crew = none → s.moves.find? (fun m => m.left.contains t) = some m → (∀ n ∈ m.left, n = t) →
      Completes (.tileScrub t) s (fun u =>
        (u.tile t).ctxs = [] ∧ (u.tile t).spad = [] ∧ (u.tile t).ct = [] ∧ (u.tile t).acc = [] ∧ (u.tile t).l1 = [] ∧
        (m.vf < 16 → Sparse.get 0 (u.vf m.vf).actors m.die = m.count) ∧
        ∀ n ∈ m.tiles, (u.tile n).owner = (if m.owner < 16 then some m.owner else none) ∧
          (u.tile n).tstate = if m.owner < 16 then u.roleOf m.owner n else .unassigned)) ∧
    (∀ m n, x.tstate = .moving → x.crew = none → s.moves.find? (fun m => m.left.contains t) = some m → n ∈ m.left → n ≠ t →
      Completes (.tileScrub t) s (fun u =>
        (u.tile t).ctxs = [] ∧ (u.tile t).spad = [] ∧ (u.tile t).ct = [] ∧ (u.tile t).acc = [] ∧ (u.tile t).l1 = [] ∧
        (u.tile t).tstate = .moving ∧ (u.tile t).owner = x.owner ∧
        u.moves = s.moves.map (fun y => if y = m then { m with left := m.left.filter (fun i => i != t) } else y))) ∧
    (x.tstate ≠ .moving ∨ x.crew ≠ none → exec (.tileScrub t) s = .next s) ∧
    (∀ id g n, s.gang id = some g → g.run = .resuming → some n ∈ g.tiles → (s.tile n).sideLog ≠ [] ∨ (s.tile n).landings ≠ [] →
      exec (.gangResume id) s = .next s) ∧
    (∀ id g, s.gang id = some g → g.run = .resuming →
      (∀ n, some n ∈ g.tiles → (s.tile n).sideLog = [] ∧ (s.tile n).landings = []) →
      Completes (.gangResume id) s (fun u =>
        (∃ h, u.gang id = some h ∧ h.run = .running ∧ h.hold = false ∧ h.tiles = g.tiles) ∧
        ∀ n w, some n ∈ g.tiles → (s.tile n).crew = some w → (u.tile n).nextIssue = s.clk + 1 ∧
          (u.tile n).crew = some { w with
            frozen := false
            stopped := false
            resuming := false
            waits := true }))

/-- R332: FLR stops every strand and engine of a virtual function at once and drops its commands, gangs and waves; when it
completes, its tiles are scrubbed, its queues are empty with their rings kept, and its objects and communicators are gone; what
the physical function has set stays. R333: a second one is merged.
R336: a tile that has raised MATCHK again and again leaves service. -/
def Obligations.FunctionReset : Prop :=
  ∀ (s : State) (v : Nat), v < 16 →
    (s.boot.running = true → (s.vf v).flr = false → Completes (.flrInitiate v) s (fun u =>
      (u.vf v).flr = true ∧ (u.vf v).blockQ = [] ∧ (u.vf v).accepted = [] ∧
      (∀ id g, u.gang id = some g → g.vf ≠ v) ∧ (∀ i w, Sparse.get none u.waves i = some w → w.vf ≠ v) ∧
      (∀ c ∈ u.mortarQ ++ u.crownQ ++ u.brimQ, c.iss.vf ≠ v) ∧ (∀ c ∈ u.hodQ, c.iss.vf ≠ v) ∧
      (∀ t, (s.tile t).owner = some v → (u.tile t).crew = none ∧ (u.tile t).ctxs = [] ∧ (u.tile t).l1 = []) ∧
      ((Sparse.keys s.tiles).Nodup → ∀ t, (s.tile t).owner ≠ some v → (u.tile t).ctxs = (s.tile t).ctxs))) ∧
    (s.boot.running = true → (s.vf v).flr = true → exec (.flrInitiate v) s = .next s) ∧
    ((s.vf v).flr = true → Completes (.flrComplete v) s (fun u =>
      (u.vf v).flr = false ∧ (u.vf v).objCount = 0 ∧ (u.vf v).objs = [] ∧ (u.vf v).trapArea = none ∧ (u.vf v).ctxTab = none ∧
      (u.vf v).share = (s.vf v).share ∧ (u.vf v).cap = (s.vf v).cap ∧ (u.vf v).balance = (s.vf v).balance ∧
      (∀ part q, let x := (s.vf v).queue part q
        let y := (u.vf v).queue part q
        y.head = x.tail ∧ y.tail = x.tail ∧ y.ring = x.ring ∧ y.size = x.size ∧ y.halt = false ∧ y.mark = 0) ∧
      (∀ k x, u.comm k = some x → x.vf ≠ v) ∧ (∀ w, Sparse.get none u.crownOwner w ≠ some v) ∧
      ∀ t, (s.tile t).owner = some v → s.inMove t = false → (u.tile t).owner = some v ∧ (u.tile t).tstate = .learner ∧
        (u.tile t).ctxs = [] ∧ (u.tile t).spad = [] ∧ (u.tile t).ct = [] ∧ (u.tile t).acc = [])) ∧
    (∀ t, (s.tile t).owner = some v → (s.tile t).tstate = .learner → (s.tile t).condemned = true → (s.tile t).crew = none →
      s.moves.any (fun m => m.vf == v && m.die == t / 64) = false →
      exec (.tileDisable t) s = .next (s.setTile t { tstate := .disabled }).measure)

/-- R350, R343: cold reset leaves the module as `State.reset` has it, and warm reset keeps memory, its tags and poison, CLK and
the tiles that are out of service; an image that is not verified or is older than the fuses allow, and ZIDENT fields of
no Zordex Z9 module (R12), leave
it in recovery. The counts of resets and of free values, and the outside world's inputs, are the model's own.
R344: the module answers SPDM requests. -/
def Obligations.ColdAndWarmReset : Prop :=
  ∀ (s : State) (image : Firmware) (msg : List Byte),
    let runs := image.verified = true ∧ s.boot.fuse ≤ image.version ∧ isZordex s.boot.zident = true
    (∃ r, exec (.coldReset image) s = .next { State.reset with
        resets := s.resets + 1
        free := s.free
        agenda := s.agenda
        inputs := s.inputs
        manual := s.manual
        tiles := s.boot.fusedTiles
        boot := { s.boot with
          flash := image
          running := r
          measured := [] } } ∧ (r = true ↔ runs)) ∧
    Completes (.warmReset image) s (fun u => u.mem = s.mem ∧ u.tags = s.tags ∧ u.poison = s.poison ∧ u.clk = s.clk ∧
      (u.boot.running = true ↔ runs) ∧ u.gangs = [] ∧ u.waves = [] ∧ u.vfs = [] ∧ u.atc = [] ∧ u.mortar = [] ∧ u.comms = [] ∧
      (∀ t, (u.tile t).crew = none ∧ (u.tile t).ctxs = [] ∧ (u.tile t).spad = []) ∧
      ∀ t, (s.tile t).tstate = .disabled → (u.tile t).tstate = .disabled) ∧
    exec (.spdmRequest msg) s = .next { s with doe := Config.spdmAnswer msg s.boot.measured }

/-- R422, R424: the oldest block command of a virtual function, once its block can be read and written, takes effect, writes
STATUS (0 in [7:0] and the subcode in [15:8]), and its counter rises by 1 unless NC is set. R42: WCSET sets a wave counter;
R222: TWM a tier's watermarks; R330: WATCH a watch range; R300: NODE the module's NODEID. A parameter outside its range has no
effect. -/
def Obligations.BlockCommandsEnd : Prop :=
  ∀ (s : State) (v : Nat) (c : BlockCmd) (rest : List BlockCmd) (b : List Byte),
    (s.vf v).accepted = [] → (s.vf v).blockQ = c :: rest → c.iss.vf = v → s.forkReady c.iss = true → (s.vf v).flr = false →
    let u := s.fork c.iss
    u.engPoison c.iss c.place 64 = none → (∃ pa, u.placeXlat c.place 64 true = .mapped pa) → u.engRead c.iss c.place 64 = some b →
    imgNat b 8 1 = 0x80 → imgNat b 9 7 = 0 →
    let Ends := fun (P : State → Prop) => Completes (.blockCommandEnd v) s (fun n =>
      P n ∧ (∀ o ∈ (n.vf v).blockQ, o.id ≠ c.id) ∧
      ∀ x, s.crewState c.iss.gang c.iss.crew = some x → ∃ y, n.crewState c.iss.gang c.iss.crew = some y ∧
        y.readCt c.ct = x.readCt c.ct + if c.nc then 0 else 1)
    let Done := fun (P : State → Prop) => Ends (fun n => P n ∧ ∀ o x, c.place = .spad o →
      s.crewState c.iss.gang c.iss.crew = some x → n.crewBytes c.iss o 4 = [0, BitVec.ofNat 8 c.sub, 0, 0])
    let value := BitVec.ofNat 64 (imgNat b 0x18 8)
    (c.sub = 0x0A → imgNat b 0x10 2 < 1024 → Done (fun n => Sparse.get 0 (n.vf v).wc (imgNat b 0x10 2) = value)) ∧
    (c.sub = 0x0A → 1024 ≤ imgNat b 0x10 2 → Ends (fun n => (n.vf v).wc = (s.vf v).wc)) ∧
    (c.sub = 0x11 → imgNat b 0x10 1 < 3 → (s.vf v).privileged = false → twmLo value ≤ twmHi value →
      Done (fun n => n.watermark v (imgNat b 0x10 1) = value)) ∧
    (c.sub = 0x10 → imgNat b 0x10 1 < 4 → imgNat b 0x11 1 < 4 → imgNat b 0x14 4 ≤ 0xFFFFFE →
      Done (fun n => Sparse.get none (n.vf v).watches (imgNat b 0x10 1) =
        if imgNat b 0x11 1 = 0 then none
        else some {
          obj := imgNat b 0x14 4
          low := imgNat b 0x18 8
          len := imgNat b 0x20 8
          reads := imgNat b 0x11 1 % 2 == 1
          writes := imgNat b 0x11 1 / 2 == 1 })) ∧
    (c.sub = 0x16 → imgNat b 0x10 2 < 4096 → Done (fun n => n.nodeId = BitVec.ofNat 12 (imgNat b 0x10 2)))

/-! ### The host, translations and tiers -/

/-- HOST_MEM_WRITE (R339, R205, R271): the host's write to memory is performed at its point of coherence, and clears the tags of
the units that it touches. HOST_MEM_READ: its read gives what stands there, and from then on it may hold the sectors of device
memory that it has read. Either stops at a window of registers. BACK_INVALIDATE_RESPONSE: the host holds the sector no more, and
the device's write that waited for it is performed.
HOST_SNOOP (R340): a snoop of a host sector that Mortar holds gets its data, and an invalidating one takes it away; another gets
none.
CXL_LINK_DOWN, CXL_LINK_UP (R338): the other port carries the requests of a port that is down, until that is up again. -/
def Obligations.HostSeesMemory : Prop :=
  ∀ (s : State) (addr len : Nat) (data : List Byte),
    (hostReaches addr data.length = true → Completes (.hostMemWrite addr data) s (fun u =>
      (∀ a, u.pocByte a = if addr ≤ a ∧ a < addr + data.length then data.getD (a - addr) 0 else s.pocByte a) ∧
      ∀ k, u.pocTag k = if data ≠ [] ∧ addr / 16 ≤ k ∧ k ≤ (addr + data.length - 1) / 16 then false else s.pocTag k)) ∧
    (hostReaches addr data.length = false → exec (.hostMemWrite addr data) s = .fault .hdmUndecoded) ∧
    (hostReaches addr len = true → Completes (.hostMemRead addr len) s (fun u =>
      u.hostRead = (List.range len).map (fun i => s.pocByte (addr + i)) ∧ (∀ a, u.pocByte a = s.pocByte a) ∧
      ∀ sec, Sparse.get false u.hostHeld sec =
        if len ≠ 0 ∧ addr / 64 ≤ sec ∧ sec ≤ (addr + len - 1) / 64 ∧ tierOf (64 * sec) ≠ 2 then true
        else Sparse.get false s.hostHeld sec)) ∧
    (hostReaches addr len = false → exec (.hostMemRead addr len) s = .fault .hdmUndecoded) ∧
    Completes (.backInvalidateResponse addr) s (fun u => Sparse.get false u.hostHeld (addr / 64) = false) ∧
    (∀ w, s.biQ = [w] → (∀ x ∈ w.cells, x.1 / 64 = addr / 64 ∧ inWcBank x.1 = false) → w.cells ≠ [] → s.deferred = [] →
      (s.performHeld (addr / 64)).retryReads = s.performHeld (addr / 64) →
      Completes (.backInvalidateResponse addr) s (fun u => u.biQ = [] ∧
        ∀ a, u.pocByte a = match w.cells.reverse.find? (fun x => x.1 == a) with
          | some x => x.2
          | none => s.pocByte a)) ∧
    (∀ (m : MortarSector) (inv : Bool), tierOf addr = 2 → Sparse.get none s.mortar (addr / 64) = some m →
      Completes (.hostSnoop addr inv) s (fun u => u.hostRead = s.pocBytes (64 * (addr / 64)) 64 ∧
        (∀ a, u.pocByte a = s.pocByte a) ∧
        Sparse.get none u.mortar (addr / 64) = if inv then none else some { m with dirty := false })) ∧
    (∀ inv : Bool, tierOf addr ≠ 2 ∨ Sparse.get none s.mortar (addr / 64) = none →
      exec (.hostSnoop addr inv) s = .next { s with hostRead := [] }) ∧
    (∀ p v : Nat, p < 2 → s.cxlDown = [] → Completes (.cxlLinkDown p) s (fun u => u.cxlPort v = some (1 - p) ∧
      exec (.cxlLinkUp p) u = .next s)) ∧
    (∀ p : Nat, p < 2 → p ∈ s.cxlDown → exec (.cxlLinkDown p) s = .next s) ∧
    (∀ p : Nat, Completes (.cxlLinkUp p) s (fun u => p ∉ u.cxlDown ∧ (∀ q, q ≠ p → (q ∈ u.cxlDown ↔ q ∈ s.cxlDown)) ∧
      u.comms = s.comms ∧ u.tiles = s.tiles))

/-- R210, R211, R338: a translation of 4 KiB, 2 MiB or 1 GiB that answers a request is kept for its pages, and the writes and
reads that waited for it are tried again; where the host has none, a page request follows it; a page request that succeeds
asks again, and one that fails gives every access that waited its outcome. An invalidation leaves no translation of its
pages.
R214: the oldest store of the side log whose page is mapped, and that waits for nothing else, is performed. -/
def Obligations.TranslationsComeAndGo : Prop :=
  ∀ (s : State) (pasid vpage : Nat),
    let rest := s.dropReq pasid vpage
    let marked := fun (f : PageReq → PageReq) => s.pageReqs.map (fun r => if r.pasid = pasid ∧ r.vpage = vpage then f r else r)
    (s.hasReq pasid vpage false = true →
      (∀ m : PageMap,
        let first := pageBase vpage m.size
        let u := s.atcFill pasid vpage m
        exec (.atsTranslationResponse pasid vpage (some m)) s = .next (u.flushDeferred).retryReads ∧
        Sparse.get none u.atc (atcKey pasid first) = some { map := m, accessed := true } ∧
        u.pageReqs = s.pageReqs.filter (fun r =>
          ¬ (r.pasid = pasid ∧ first ≤ r.vpage ∧ r.vpage < first + mapPages m))) ∧
      ((s.pageReqs.filter (fun r => r.pri)).length < 512 → Completes (.atsTranslationResponse pasid vpage none) s (fun u =>
        u.pageReqs = marked (fun r => { r with pri := true }) ∧ u.atc = s.atc ∧ ∀ a, u.pocByte a = s.pocByte a))) ∧
    (s.hasReq pasid vpage true = true →
      exec (.priResponse pasid vpage true) s = .next { s with
        pageReqs := marked (fun r => { r with
          pri := false
          brought := true }) } ∧
      exec (.priResponse pasid vpage false) s = .next (rest.failPage pasid vpage)) ∧
    (∀ count, vpage + count ≤ 2 ^ 45 → Completes (.atsInvalidation pasid vpage count) s (fun u =>
      (∀ p va w, p = pasid → vpage ≤ va / 4096 → va / 4096 < vpage + count → u.lookupVa p va w = .missing) ∧
      ∀ k e, Sparse.get none s.atc k = some e →
        ¬ (k / 2 ^ 45 = pasid ∧ vpage < k % 2 ^ 45 + mapPages e.map ∧ k % 2 ^ 45 < vpage + count) →
        Sparse.get none u.atc k = some e)) ∧
    (∀ t e pa, s.replayNext t = some e → s.rangeXlat e.pasid e.va e.data.length true = .mapped pa →
      e.tag = none → exec (.sideLogReplay t) s =
        .next (((s.setTile t { s.tile t with sideLog := (s.tile t).sideLog.filter (fun y => y.seq != e.seq) }).perform t e.ctx
          e.req).retryReads))

/-- R222, R223: from above HI until at or below LO, the hand of the clock sweep clears the access bit of a page that has been
used, and starts one that has not on its way a tier down; a page of T1 or T2 that two sweeps have found used moves up into
room, unless the host may hold a part of it. The page's bytes are copied, and its accesses wait until the host has committed
the page table, or refused.
R200: a sector leaves L1 32,768 clk after the later of its fill and its first write, and what was written reaches memory.
R334, R335: the scrubber counts what it corrects, and poisons what it cannot. -/
def Obligations.PagesAndSectorsMove : Prop :=
  ∀ (s : State) (pasid vpage dest : Nat),
    let key := atcKey pasid vpage
    let going := s.moving pasid vpage
    let moved := fun (page : Nat) => s.pageMoves ++ [({ pasid := pasid, vpage := vpage, dest := page } : PageMove)]
    let copied := fun (e : AtcEntry) (u : State) => u.pageMoves = moved dest ∧
      let n := mapPages e.map
      (e.map.ppage + n ≤ dest ∨ dest + n ≤ e.map.ppage → ∀ i < 4096 * n,
        Sparse.get 0 u.mem (4096 * dest + i) = Sparse.get 0 u.mem (4096 * e.map.ppage + i))
    (∀ e v, s.handAt pasid vpage = some (e, v) → (s.vf v).privileged = false →
      s.pageFixed v pasid vpage (mapPages e.map) = false → going = false → s.pageHeld e.map = false →
      s.demotes v (tierOf (4096 * e.map.ppage)) = true →
      (e.accessed = true → Completes (.pageDemote pasid vpage dest) s (fun u =>
        Sparse.get none u.atc key = some { e with accessed := false, swept := e.swept + 1 } ∧ u.pageMoves = s.pageMoves)) ∧
      (e.accessed = false → tierOf (4096 * dest) = tierOf (4096 * e.map.ppage) + 1 →
        Completes (.pageDemote pasid vpage dest) s (copied e)) ∧
      (e.accessed = false → tierOf (4096 * e.map.ppage) = 2 →
        Completes (.pageDemote pasid vpage dest) s (fun u => u.pageMoves = moved e.map.ppage))) ∧
    (∀ e v, s.handAt pasid vpage = some (e, v) → going = false → s.pageHeld e.map = false → e.accessed = true →
      1 ≤ e.swept → tierOf (4096 * dest) + 1 = tierOf (4096 * e.map.ppage) →
      let u := s.sweepPast pasid vpage e
      u.occupancy v (tierOf (4096 * dest)) < twmHi (s.watermark v (tierOf (4096 * dest))) →
      Completes (.pagePromote pasid vpage dest) s (copied e)) ∧
    (going = true →
      let stays : State := { s with pageMoves := s.pageMoves.filter (fun m => !(m.pasid == pasid && m.vpage == vpage)) }
      let gone : State := { stays with atc := Sparse.set none s.atc key none }
      exec (.pageTableCommit pasid vpage false) s = .next stays.flushDeferred.retryReads ∧
      let n := match Sparse.get none s.atc key with
        | some e => mapPages e.map
        | none => 1
      let wanted := ((List.range n).map (fun i => vpage + i)).filter (gone.pageWanted pasid)
      exec (.pageTableCommit pasid vpage true) s =
        .next (wanted.foldl (fun (u : State) p => u.touchPage pasid (4096 * p)) gone).flushDeferred) ∧
    (∀ t sec x, (s.tile t).l1Get sec = some x →
      (s.clk < Nat.max x.fill (x.dirty.getD 0) + 32768 → exec (.l1SectorExpiry t sec) s = .next s) ∧
      (Nat.max x.fill (x.dirty.getD 0) + 32768 ≤ s.clk → Completes (.l1SectorExpiry t sec) s (fun u =>
        (u.tile t).l1Get sec = none ∧ (∀ n, n ≠ sec → (u.tile t).l1Get n = (s.tile t).l1Get n) ∧
        (x.dirty = none → ∀ a, u.pocByte a = s.pocByte a) ∧
        (x.dirty.isSome = true → s.awaits sec = false → ∀ i < 64, x.dmask.getLsbD i = true → inWcBank (64 * sec + i) = false →
          u.pocByte (64 * sec + i) = vecByte x.data i)))) ∧
    (∀ sector outcome,
      let unit := memUnit (64 * sector)
      let up := fun (x : BitVec 32) => if x = BitVec.allOnes 32 then x else x + 1
      exec (.backgroundScrub (.mem sector) 0) s = .next s ∧
      Completes (.backgroundScrub (.mem sector) 1) s (fun u => u.poison = s.poison ∧
        Sparse.get 0 u.secnt (16 * unit) = up (Sparse.get 0 s.secnt (16 * unit))) ∧
      (2 ≤ outcome → Completes (.backgroundScrub (.mem sector) outcome) s (fun u => Sparse.get false u.poison sector = true ∧
        Sparse.get 0 u.secnt (16 * unit + 1) = up (Sparse.get 0 s.secnt (16 * unit + 1)))))

/-! ### What engines do with their commands -/

/-- R371, R374: the copy engine, from one scratchpad area to another, moves bytes in the order of iteration, those of one
destination sector at a time and written as one: up to the end of the sector or of the command, or to a byte that goes elsewhere.
R145: RING_PUSH: with the last byte of a slot, TAIL and COUNT of the ring advance. R374, R375: a copy that has moved all its
bytes ends: its counter rises by INC, or by 1 where INC is 0, and its status gives the bytes moved.
R377: CSET gives its counter of the crew the value. R415, R416: SIGC adds it to, or puts it into, a counter of the crew
that its target names; a target that its wave has not is refused. The old value's low half is returned. -/
def Obligations.CopyEngineRuns : Prop :=
  (∀ (s : State) (t : Nat) (c : CopyCmd) (b : List Byte), c.desc = some b →
     let d := copyDesc b
     (∀ capA capB a z sa da ss ds n, c.sides = some (.linear capA (.spad a) sa ss, .linear capB (.spad z) da ds) →
       isIndexed c.op = false →
       let from' := fun j => a + linearOff d sa ss none (c.cursor + j)
       let dest := fun j => z + linearOff d da ds none (c.cursor + j)
       0 < n → n ≤ 64 - dest 0 % 64 → c.cursor + n ≤ d.total → (∀ j < n, dest j = dest 0 + j) →
       (n = 64 - dest 0 % 64 ∨ c.cursor + n = d.total ∨ dest n ≠ dest 0 + n) →
       (∀ j < n, s.engPoison c.iss (.spad (from' j)) 1 = none) →
       s.copyTurn t c = .moved (s.engWrite c.iss (.spad (dest 0)) ((List.range n).flatMap (fun j => s.crewBytes c.iss (from' j) 1))) { c with
         cursor := c.cursor + n
         first := some (c.first.getD (dest 0))
         pageS := none
         pageD := none }) ∧
     (∀ u, s.copyNext t = (u, some c) →
       (∀ v e side r, c.pushes = true → u.copyTurn t c = .moved v e → e.sides = some (side, .ring r) → e.cursor ≠ c.cursor →
         let x := (v.tile t).ring r
         e.cursor % x.slotsz = 0 → Completes (.ringPush t) s (fun w =>
           (w.tile t).ring r = { x with
             tail := (x.tail + 1) % x.slots
             count := x.count + 1 } ∧
           (w.tile t).cq = (v.tile t).cq.map (fun o => if o.id = e.id then e else o))) ∧
       (c.sides.isSome = true → d.total ≤ c.cursor → c.follow = none → c.hnd = 0 → Completes (.copyComplete t) s (fun w =>
         Ended u w c.iss c.ct (if c.inc = 0 then 1 else c.inc) c.nr 8 c.id (c.cursor * 2 ^ 24 + c.op * 2 ^ 8) ∧
         ∀ o ∈ (w.tile t).cq, o.id ≠ c.id)))) ∧
  (∀ (s : State) (t : Nat) (c : SignalCmd) (rest : List SignalCmd),
     (s.tile t).sigq = c :: rest → s.forkReady c.iss = true →
     let status := fun (old : Word) (st : Nat) => old.toNat % 2 ^ 32 * 2 ^ 32 + c.op * 2 ^ 8 + st
     let Done := fun (n : Nat) (f : Word → Word) => Completes (.signalApply t) s (fun u =>
       (u.tile n).readCt c.ct = f ((s.tile n).readCt c.ct) ∧ (u.tile t).sigq = rest ∧
       Answered s u c.iss c.nr 13 c.id (status ((s.tile n).readCt c.ct) 0))
     (∀ n, c.op = 0xEA → s.crewTile c.iss.gang c.iss.crew = some n → Done n (fun _ => c.value)) ∧
     (∀ g k n, s.sigTarget c = .inr (g, k) → s.crewTile g k = some n →
       (c.op = 0xF3 → Done n (fun old => old + c.value)) ∧ (c.op = 0xF4 → Done n (fun _ => c.value))) ∧
     (∀ st, c.op ≠ 0xEA → s.sigTarget c = .inl st → Completes (.signalApply t) s (fun u =>
       (∀ n, (u.tile n).ct = (s.tile n).ct) ∧ (u.tile t).sigq = rest ∧ Answered s u c.iss c.nr 13 c.id (status 0 st))) ∧
     (2 ^ 24 ≤ c.target.toNat → s.sigTarget c = .inl 1) ∧
     ∀ g w, s.gang c.iss.gang = some g → Sparse.get none s.waves g.wave = some w → w.record.crews ≤ c.target.toNat % 256 →
       s.sigTarget c = .inl 1)

/-- R235, R243: the first command of a virtual function at Mortar that nothing holds back takes effect, once no write to the
lines of the function waits for the host, and ends with its status.
R241: MTINV leaves no line of its tensor, and written back its bytes read as before; R230: MTHALO switches the halo; R237:
MTREL ends the registration; a TID that is not registered gives status 5.
R218: a probe fill copies its block into the slot, makes the tag valid where it still may be, and its counter rises.
R53, R61: a delivery that was held lands, and its counter rises. -/
def Obligations.MortarAndFillsComplete : Prop :=
  ∀ (s : State),
    (∀ v c rest u st tid res, mortarHeads v [] s.mortarQ = c :: rest → s.forkReady c.iss = true →
      (s.fork c.iss).vfPending c.iss.vf = false →
      (s.fork c.iss).mortarRun c = .done u st tid res → Completes (.mortarComplete v) s (fun w =>
        Ended u w c.iss c.ct 1 c.nr 9 c.id (res % 2 ^ 32 * 2 ^ 32 + tid * 2 ^ 16 + c.op * 2 ^ 8 + st) ∧
        ∀ o ∈ w.mortarQ, o.id ≠ c.id)) ∧
    (∀ (c : EngCmd), c.place = none → c.arg % 2 ^ 16 ≠ 0 →
      let v := c.iss.vf
      let tid := c.arg % 2 ^ 16
      let NoLine := fun (u : State) => ∀ sec m, Sparse.get none u.mortar sec = some m → ¬ (m.tag.vf = v ∧ m.tag.tid = tid)
      (Sparse.get none (s.vf v).tensors tid = none → s.mortarRun c = .done s 5 tid 0) ∧
      ∀ x, Sparse.get none (s.vf v).tensors tid = some x →
        (c.op = 0xEC → s.mortarRun c = .done (s.setTensor v tid (some { x with haloOn := c.arg / 2 ^ 16 % 2 == 1 })) 0 tid 0) ∧
        (c.op = 0xED → ∃ u n, s.mortarRun c = .done u 0 tid n ∧ NoLine u ∧
          ∀ a, u.pocByte a = s.pocByte a) ∧
        (c.op = 0xEE → ∃ u n, s.mortarRun c = .done u 0 tid n ∧ NoLine u) ∧
        (c.op = 0xF2 → ∃ u, s.mortarRun c = .done u 0 tid 0 ∧ Sparse.get none (u.vf v).tensors tid = none ∧
          ((s.vf v).objBase = none → NoLine u))) ∧
    (∀ t j f w pa bs, Sparse.get none (s.tile t).fills j = some f → s.crewTile f.iss.gang f.iss.crew = some t →
      s.forkReady f.iss = true → (s.tile t).crew = some w → w.stopped = false →
      let u := s.fork f.iss
      u.capCurrent f.iss.vf f.cap = true → u.lookupVa f.pasid (4096 * f.blk) false = .mapped pa →
      u.engPoison f.iss f.place 4096 = none → (u.touchPage f.pasid (4096 * f.blk)).engRead f.iss f.place 4096 = some bs →
      Completes (.probeFillComplete t j) s (fun n =>
        (n.tile t).probeSlot j = { (s.tile t).probeSlot j with
          pending := false
          valid := f.live } ∧
        Sparse.get none (n.tile t).fills j = none ∧ (n.tile t).readCt f.ct = (s.tile t).readCt f.ct + 1 ∧
        ∀ i < bs.length, n.spadByte t (f.dst + i) = bs.getD i 0)) ∧
    (∀ t idx l w, (s.tile t).landings[idx]? = some l → (s.tile t).crew = some w → w.frozen = false → l.coll = none → l.hnd = 0 →
      Completes (.landingComplete t idx) s (fun u =>
        (u.tile t).readCt l.ct = (s.tile t).readCt l.ct + BitVec.ofNat 64 l.inc ∧
        (u.tile t).landings = (s.tile t).landings.eraseIdx idx ∧
        ∀ o, u.spadByte t o = l.cells.foldl (fun b y => if y.1 = o then y.2 else b) (s.spadByte t o)))

/-! ### Collectives, the links, the Crown and Brim -/

/-- CHUNK_BEGIN (R281, R285): the best candidate of a die, if its next chunk can begin, begins it, and the pointer moves past its
slot. What its rank contributes from a source that is mapped and not poisoned is staged here.
CHUNK_LAND (R281, R283): a chunk that has every contribution is combined, written into the destination of the rank, in the
scratchpad or in a mapped page, and counted as landed; without a destination it is counted; for a crew that is being saved it
is held. Chunks that can land are taken in the order of R285 (22 R469; the model's reading, log 140).
COLLECTIVE_COMPLETE (R279): a command that has failed, with another status than MISMATCH, ends at its member, and its strand is
told.
ABORT_MESSAGE (R293): an abort ends what has not completed ABORTED, and marks what had completed as late; a second one does
nothing. MEMBER_LOST (R294): the first member that is declared lost is kept, and no other. PAUSE_REQUEST, STOP_CHUNK,
RESUME_BROADCAST (R295): the members of a module that is asked to pause stand still, and concurrent requests share one pause;
once the stop chunk is known they go on; a resume lets them all go on. -/
def Obligations.CollectivesRun : Prop :=
  (∀ (s : State) (die k r : Nat) (c : CollCmd),
     (∀ j rest x u, s.hodQ = [] →
       let m := (s.settleRaws die).serveAsks.markCandidates die
       m.hodOrder die = (k, j) :: rest → m.comm k = some x → m.beginner x die = some (r, c) → m.beginChunk k r x c = .done u →
       Completes (.chunkBegin die) s (fun n => Sparse.get 0 n.hodPtr die = (j + 1) % 64 ∧
         ∀ y, u.comm k = some y → n.comm k = some { y with since := Sparse.set 0 y.since die (u.clk + 1) })) ∧
     (∀ x p q n o pa bs cap, cdChain c.desc = false → c.isReshard = false → c.src = some (cap, p) →
       c.gives x r c.begun (some p) = some (some q, n, o) → s.capCurrent c.iss.vf cap = true →
       (∀ g ∈ c.takers x r c.begun, x.node g = s.nodeId.toNat ∧ (x.table.getD g (0, 0)).2 / 64 = (x.member r).die) →
       s.placeXlat q n false = .mapped pa → s.engPoison c.iss q n = none → (s.placeTouch q n).engRead c.iss q n = some bs →
       ∃ u, s.beginChunk k r x c = .done u ∧
         u.comm k = some ((x.stage c.n r (c.unit x r c.begun).1 o bs [(x.member r).die]).onCmd r c.id
         (fun d => { d with begun := c.begun + 1 }))) ∧
     (∀ q ins rest x, s.landings die = (k, r, c, q, ins) :: rest → s.comm k = some x → c.opt = none →
       (∀ a b, c.result x r q ins = some (a, b) → c.dst = none →
         exec (.chunkLand die) s = .next ((s.markLanded k r x c (c.together q)).pointPast die x)) ∧
       (∀ a bs cap off, c.result x r q ins = some (a, bs) → c.dst = some (cap, .spad off) → s.crewHeld c.iss = false →
         exec (.chunkLand die) s = .next (((s.engWrite c.iss (.spad (off + a)) bs).markLanded k r x c (c.together q)).pointPast die x)) ∧
       (∀ a bs cap p va obj pa, c.result x r q ins = some (a, bs) → c.dst = some (cap, .virt p va obj) →
         s.capCurrent c.iss.vf cap = true → s.placeXlat (.virt p (va + a) obj) bs.length true = .mapped pa →
         exec (.chunkLand die) s = .next (((s.engWrite c.iss (.virt p (va + a) obj) bs).markLanded k r x c (c.together q)).pointPast die x)) ∧
       (∀ a bs cap off, c.result x r q ins = some (a, bs) → c.dst = some (cap, .spad off) → s.crewHeld c.iss = true →
         Completes (.chunkLand die) s (fun u => u.mem = s.mem ∧ (∀ t, (u.tile t).spad = (s.tile t).spad) ∧
           ∃ y, u.comm k = some y ∧ y.members = (x.onCmd r c.id (fun d => { d with held := d.held ++ c.together q })).members))) ∧
     (∀ st res rest x, s.verdicts die = (k, r, c, st, res) :: rest → s.comm k = some x → st ≠ 0 → st ≠ 5 →
       Completes (.collectiveComplete die) s (fun u => u = s.endMember k r c st res)) ∧
     (∀ st res x, s.comm k = some x → st ≠ 3 → c.crown = none → c.hnd = 0 ∨ c.pcn ≠ 0 →
       let u := s.endMember k r c st res
       Ended (s.onStrand c.iss (fun y => { y with nColl := y.nColl - 1 })) u c.iss c.ct 1 c.nr 10 c.id
         (res % 2 ^ 32 * 2 ^ 32 + c.n % 2 ^ 16 * 2 ^ 16 + c.op * 2 ^ 8 + st) ∧
       ∃ y, u.comm k = some y ∧ ∀ d ∈ (y.member r).cmds, d.id ≠ c.id)) ∧
  (∀ (s : State) (k : Nat) (x : Comm), s.comm k = some x →
     (x.aborted = false → Completes (.abortMessage k) s (fun u => ∃ y, u = s.setComm k y ∧ y.aborted = true ∧
       ∀ (r : Nat) (m : Member), Sparse.get none x.members r = some m → ∃ n, Sparse.get none y.members r = some n ∧
         n.cmds = m.cmds.map (fun c => if c.ended.isSome then c else { c with ended := some (2, c.landed.length) }) ∧
         n.history = m.history.map (fun o => if o.st = 0 then { o with late := true } else o))) ∧
     (x.aborted = true → exec (.abortMessage k) s = .next s) ∧
     (∀ r, r < x.nrank → x.lost = none → Completes (.memberLost k r) s (fun u => u.comm k = some { x with lost := some r })) ∧
     (∀ r, x.lost ≠ none → exec (.memberLost k r) s = .next s) ∧
     (∀ r, x.pausers = [] → x.node 0 ≠ s.nodeId.toNat → Completes (.pauseRequest k r) s (fun u => ∃ y, u.comm k = some y ∧
       y.pausers = [r] ∧ ∀ (q : Nat) (m : Member), Sparse.get none x.members q = some m →
         Sparse.get none y.members q = some { m with paused := true })) ∧
     (∀ r, x.pausers ≠ [] → r ∉ x.pausers → exec (.pauseRequest k r) s =
       .next (s.setComm k { x with pausers := x.pausers ++ [r] })) ∧
     (∀ p, Completes (.stopChunk k p) s (fun u => ∃ y, u = s.setComm k y ∧ y.stop = some p ∧ y.pausers = x.pausers ∧
       ∀ (q : Nat) (m : Member), Sparse.get none x.members q = some m →
         Sparse.get none y.members q = some { m with paused := false })) ∧
     Completes (.resumeBroadcast k) s (fun u => ∃ y, u = s.setComm k y ∧ y.stop = none ∧ y.pausers = [] ∧ y.begun = [] ∧
       ∀ (q : Nat) (m : Member), Sparse.get none x.members q = some m →
         Sparse.get none y.members q = some { m with paused := false }))

/-- R297 to R300: a flit in order takes effect and is acknowledged, and what follows a gap is not taken but asked for; a
duplicate is acknowledged again. A credit lets flits of its channel go; an ack releases the replay buffer, and a nak resends
what is left of it, up to 16 times in a row, after which the port retrains. A port that comes back resends; one that does not
is down, and its flits take other routes. A flit of an unknown TYPE is counted. -/
def Obligations.LinksDeliver : Prop :=
  ∀ (s : State) (p : Nat),
    let x := s.link p
    let up := x.up = true
    let acks := fun (u : State) => ∃ g, (p, g) ∈ u.sent ∧ g.pay = .ack ∧ g.ackseq = ((u.link p).rxSeq + 4095) % 4096
    (∀ f : Flit, up → x.arrival f.seq = .inOrder → f.dest = s.nodeId.toNat → s.taken f = false →
      (∀ k n r q off bs y, f.pay = .piece k n r q off bs → s.comm k = some y → Completes (.dataFlit p f) s (fun u =>
        u.taken f = true ∧ u.comm k = some (y.arrive n r q off bs).trim ∧ (u.link p).rxSeq = (x.rxSeq + 1) % 4096 ∧ acks u)) ∧
      (∀ k n y, f.pay = .stop k n → s.comm k = some y → Completes (.managementFlit p f) s (fun u =>
        u.comm k = some (y.stopAt n) ∧ (u.link p).rxSeq = (x.rxSeq + 1) % 4096 ∧ acks u))) ∧
    (∀ f : Flit, up → x.arrival f.seq = .duplicate → Completes (.dataFlit p f) s (fun u => u = { s with sent := u.sent } ∧ acks u)) ∧
    (∀ f : Flit, up → x.arrival f.seq = .inOrder → f.dest = s.nodeId.toNat → s.taken f = true →
      Completes (.dataFlit p f) s (fun u => u.comms = s.comms ∧ acks u)) ∧
    (∀ f : Flit, up → x.arrival f.seq = .gap → x.nakked = none → Completes (.dataFlit p f) s (fun u =>
      u.comms = s.comms ∧ (u.link p).rxSeq = x.rxSeq ∧ ∃ g, u.sent = s.sent ++ [(p, g)] ∧ g.pay = .nak ∧
        g.ackseq = (x.rxSeq + 4095) % 4096)) ∧
    (∀ f : Flit, ∀ r, up → x.arrival f.seq = .gap → x.nakked = some r →
      let d := (f.seq % 4096 + 4096 - x.rxSeq) % 4096
      (r < d → Completes (.dataFlit p f) s (fun u => u.sent = s.sent ∧ (u.link p).nakked = some d)) ∧
      (d ≤ r → Completes (.dataFlit p f) s (fun u => ∃ g, u.sent = s.sent ++ [(p, g)] ∧ g.pay = .nak))) ∧
    (up → Completes (.badCrcFlit p) s (fun u => (u.link p).rxSeq = x.rxSeq ∧
      ∃ g, u.sent = s.sent ++ [(p, g)] ∧ g.pay = .nak ∧ g.ackseq = (x.rxSeq + 4095) % 4096)) ∧
    (∀ f : Flit, f.vc < 8 → f.lane < 8 → f.seq < 4096 → f.ackseq < 4096 →
      let b := flitImage f
      b.length = 256 ∧ imgNat b 0 1 = flitType f.pay ∧ imgNat b 0 8 / 2 ^ 8 % 8 = f.vc ∧ imgNat b 0 8 / 2 ^ 11 % 8 = f.lane ∧
      imgNat b 0 8 / 2 ^ 14 % 2 ^ 12 = f.seq ∧ imgNat b 0 8 / 2 ^ 26 % 2 ^ 12 = f.ackseq ∧ imgNat b 0 8 / 2 ^ 38 = 0 ∧
      imgNat b 248 4 = 0 ∧ crcGood b = true) ∧
    (up → x.waiting = [] → ∀ vc n, Completes (.creditFlit p vc n) s (fun u => (u.link p).credit vc = x.credit vc + n ∧
      ∀ q, q ≠ vc → (u.link p).credit q = x.credit q)) ∧
    (∀ a f b, up → x.waiting = [] → x.replay = a ++ f :: b → (∀ g ∈ a, g.seq ≠ f.seq) →
      Completes (.ackFlit p f.seq) s (fun u => (u.link p).replay = b ∧ (u.link p).fails = 0)) ∧
    (∀ n, up → (∀ g ∈ x.replay, g.seq ≠ n) → Completes (.nakFlit p n) s (fun u => (u.link p).fails = x.fails + 1 ∧
      u.sent = s.sent ++ if x.fails < 16 then x.replay.map (fun f => (p, f)) else [])) ∧
    (up → exec (.badTypeFlit p) s = .next (s.softError (linkUnit p) 14)) ∧
    (up → 16 < x.fails → Completes (.portRetrain p) s (fun u => u.link p = { x with retrain := some s.clk })) ∧
    (∀ n, x.down = false → x.retrain = some n → x.waiting = [] → Completes (.retrainComplete p) s (fun u =>
      (u.link p).up = true ∧ (u.link p).fails = 0 ∧ u.sent = s.sent ++ x.replay.map (fun f => (p, f)))) ∧
    (∀ n, x.down = false → x.retrain = some n → n + 2 ^ 22 ≤ s.clk → Completes (.portDown p) s (fun u =>
      (u.link p).down = true ∧ (u.link p).replay = [] ∧ (u.link p).waiting = []))

/-- R305, R306, R308: the first command that has reached the Crown takes effect. R310: WVADOPT of a strand without a hold takes
one on the published version of its set. R303, R306: a publication makes its version the published one, and the one before it
RETIRING, or FREE where nobody reads it; a claim takes the lowest free slot.
R307: a broadcast takes a free slot at a peer; when it has landed it is published, or its slot is free again.
R314: TJCLOSE closes the strand's sequence. -/
def Obligations.CrownAndBrimComplete : Prop :=
  ∀ (s : State), s.broadcasts = [] →
    (∀ c rest n w j, s.crownQ = c :: rest → c.here = true ∨ rest = [] → c.bc = none → c.place = none → s.forkReady c.iss = true →
      s.crewTile c.iss.gang c.iss.crew = some n →
      let a := (s.ctxAt n c.iss.ctx).readCsr 0x07
      let x := s.crownSlot w j
      w = adoptSet a → adoptHeld a = false → Sparse.get none s.crownOwner w = some c.iss.vf → s.published w = some j →
      x.readers ≠ BitVec.allOnes 32 →
      Completes .crownComplete s (fun u => (u.crownSlot w j).readers = x.readers + 1 ∧
        (u.ctxAt n c.iss.ctx).readCsr 0x07 = mkAdopt x.ver j w true (adoptLag a) (adoptMode a) ∧
        (u.tile n).readCt c.ct = (s.tile n).readCt c.ct + 1 ∧ ∀ o ∈ u.crownQ, o.id ≠ c.id)) ∧
    (∀ w j, j < 4 → (s.crownSlot w j).state = 1 →
      let u := s.publish w j
      (u.crownSlot w j).state = 2 ∧ (∀ o, s.published w = some o →
        (u.crownSlot w o).state = if (s.crownSlot w o).readers = 0 then 0 else 3)) ∧
    (∀ w ver j u, s.claimSlot w ver = some (j, u) → (s.crownSlot w j).state = 0 ∧ (∀ i < j, (s.crownSlot w i).state ≠ 0) ∧
      (u.crownSlot w j).state = 1 ∧ (u.crownSlot w j).ver = ver) ∧
    (∀ w k ver x j, s.comm k = some x → x.crown = some w → x.heads = [] → s.crownFind w [0] none = some j →
      Completes (.broadcastClaim w k ver) s (fun u => (u.crownSlot w j).state = 1 ∧ (u.crownSlot w j).ver = BitVec.ofNat 32 ver ∧
        ∃ b, u.broadcasts = [b] ∧ b.set = w ∧ b.ver = ver ∧ b.comm = k ∧ b.slot = some j)) ∧
    (∀ (b : Broadcast) (j e : Nat), b.root = false → b.slot = some j → b.ended = some e → (s.crownSlot b.set j).state = 1 →
      let t : State := { s with broadcasts := [b] }
      (e ≠ 0 → Completes (.broadcastLand b.set) t (fun u => u.broadcasts = [] ∧ (u.crownSlot b.set j).state = 0)) ∧
      (e = 0 → s.published b.set = none → j < 4 → Completes (.broadcastLand b.set) t (fun u => u.broadcasts = [] ∧
        (u.crownSlot b.set j).state = 2))) ∧
    (∀ c rest n g b, s.brimQ = c :: rest → c.here = true ∨ rest = [] → c.op = 0xF5 → c.place = none → s.forkReady c.iss = true →
      s.crewTile c.iss.gang c.iss.crew = some n →
      let h := (s.ctxAt n c.iss.ctx).tjHandle
      let r := s.tjRing c.iss.vf (tjRingOf h)
      s.tjCurrent c.iss.vf h = true → r.region = some g → (s.fork c.iss).vaRead g.pasid (r.slotVa g (tjSlotOf h)) 64 = some b →
      c.hnd = 0 → Completes .brimComplete s (fun u => tjOpen (u.ctxAt n c.iss.ctx).tjHandle = false ∧
        (u.tile n).readCt c.ct = (s.tile n).readCt c.ct + 1 ∧ ∀ o ∈ u.brimQ, o.id ≠ c.id))

/-! ### The machine as a whole -/

/-- R82, R92, R90: after reset every register of every strand is zero or false, p0 reads true, every return port is empty, and
the CSRs that R92 gives a reset value of 0 read 0. CLK counts from 0. That accumulators, counters, scratchpad and memory read
0 then is the model's choice (log entry 4). -/
def Obligations.RegistersAtReset : Prop :=
  State.reset.clk = 0 ∧
  ∀ (t c : Nat), let x := State.reset.ctxAt t c
    (∀ n, x.readS n = 0) ∧ (∀ n, x.readK n = {}) ∧ (∀ n, n < 16 → (x.readP n = true ↔ n = 0)) ∧
    (∀ n, x.readB n = 0 ∧ x.port n = []) ∧ (∀ i, x.readShape i = 0) ∧ (∀ n, x.readSc n = 0) ∧
    (∀ cl r, x.readV cl r = 0) ∧ (∀ cl n, x.readVp cl n = 0) ∧ (∀ cl n, (x.readSum cl n).bits = 0) ∧
    (∀ cl n, x.readVb cl n = 0) ∧ x.callStack = [] ∧ x.loops = [] ∧
    (∀ n, n ∈ [0x00, 0x07, 0x08, 0x09, 0x0A, 0x0B, 0x0C] ∨ (0x10 ≤ n ∧ n ≤ 0x17) ∨ n = 0x1A ∨ n = 0x1B →
      x.readCsr n = 0) ∧
    (State.reset.tile t).probecfg = 0 ∧ (State.reset.tile t).sideLog = [] ∧
    (∀ a, (State.reset.tile t).readCt a = 0) ∧ (∀ a, State.reset.pocByte a = 0) ∧ ∀ o, State.reset.spadByte t o = 0

/-- R102, R105, R108, R111, R113, R116, R118, R119, R121: words written out from the tables of 05 decode to the instruction
that they stand for, one for each class of slot. -/
def Obligations.WordsDecode : Prop :=
  decodeSlot .c 0b00000101_1010_1_0000000000000010100 = .ok (.brc { pred := 10, sense := 1, opnd := 20 }) ∧
  decodeSlot .s0 0b00100000_000101_0_00_0000110_00000111 =
    .ok (.add { inS1 := false, dst := 5, nw := 0, width := 0, srcA := 6, srcB := 7 }) ∧
  decodeSlot .s1 0b01010011_000100_1_01_0001000_11111111 =
    .ok (.sub { inS1 := true, dst := 4, nw := 1, width := 1, srcA := 8, srcB := 255 }) ∧
  decodeSlot .a 0b01111001_001001_00_000_00011_000010_11 =
    .ok (.ld { data := 9, order := 0, scope := 0, k := 3, s := 2, size := 3 }) ∧
  decodeSlot (.v (.cluster 3)) 0b10001100_000_00_0_000001_000010_000011_00_000000_0101_0000 =
    .ok (.vadd { target := .cluster 3, type := 0, width := 0, nw := 0, dst := 1, srcA := 2, srcB := 3, bsel := 0, srcC := 0,
                 pred := 5 }) ∧
  decodeSlot .m (0b11010101_0000_0000_10_00_0000_0000 * 2 ^ 36) =
    .ok (.mzero { ringA := 0, ringB := 0, acc := 2, pop := 0, fmt := 0, scb := 0 }) ∧
  decodeSlot .e 0b11101010_00000_000011_00010001_001_0000000000000000_000000000000000000 =
    .ok (.cset { k := 0, s := 3, ct := 17, qprio := 1, hnd := 0, arg := 0 }) ∧
  decodeSlot .k 0b11010110_0011_000100_00000000000101 = .ok (.ldsA { sc := 3, base := 4, disp := 5 }) ∧
  decodeSlot .k 0b11011000_100000000000000000000001 = .ok (.limm 0x800001)

/-- R75 to R77, R102 to R122: every well-formed slot instruction, swap bit and empty bundle is read back from the bytes of the
bundle that holds it alone, with every operand, and the bundle has the length of those bytes. -/
def Obligations.DecodingReadsTheEncoding : Prop :=
  ∀ i : Instr, WellFormed i → encode i ≠ [] →
    ∃ b, decodeBundle (encode i) = .bundle b ∧ b.slots = [i] ∧ b.length = (encode i).length ∧ b.hint = 0

/-- R102 to R122, R421: a slot word decodes only to the instruction that it encodes: no bit of it is dropped, and no two words
of a slot mean the same instruction. The one other case is a SYSC word whose subcode is unassigned. -/
def Obligations.DecodedWordsAreEncodings : Prop :=
  ∀ (p : SlotPos) (w : Nat) (i : Instr), w < 2 ^ (8 * slotBytes p) → decodeSlot p w = .ok i →
    WellFormed i ∧ (encodeSlot i = some (p, w) ∨
      (p = .c ∧ w / 2 ^ 24 = 0x0C ∧ (w / 2 ^ 13 % 64 = 0 ∨ 0x1B < w / 2 ^ 13 % 64) ∧
        i = .unassignedCode 1 (BitVec.ofNat 64 w)))

/-- R57, R78 to R81, R88: a step. The engine or host step at the head of the agenda, if there is one, is executed. Else the
first tile whose core can issue writes the results due, passes over a bundle that a LOOP or ERET skips, and fetches the
bundle at pc, whose pages are then used. Its swaps come first. Then, where no slot blocks or traps, its slots execute in
order, and the strand moves on; for a bundle of one instruction the step is exec of that instruction. A slot that blocks or
traps stops the whole bundle. With no tile left to issue, the clk ends. -/
def Obligations.StepRunsTheDecodedBundle : Prop :=
  (∀ (s : State) (i : Instr) (rest : List Instr), s.agenda = i :: rest → step s = exec i { s with agenda := rest }) ∧
  (∀ s : State, s.agenda = [] → s.nextLive = none → step s = .next s.nextClk) ∧
  ∀ (s : State) (t c : Nat) (x : Ctx) (bs : List Byte) (b : Bundle),
    s.agenda = [] → s.nextLive = some t → (s.tile t).running = some c →
    let r := (s.turn t).landDue t c
    (r.ctxAt t c).causes = [] → r.passOver t (r.ctxAt t c) = .ok x →
    let u := r.setCtxAt t c x
    u.fetchBundle t x = .ok bs → decodeBundle bs = .bundle b →
    let w := u.touchCode t x.pc bs.length
    let s0 := w.setCtxAt t c { w.ctxAt t c with seqpc := seqNext (w.tile t).code.va (w.ctxAt t c).pc b.length }
    let s1 := runSlots t c s0 (b.slots.filter isSwap)
    let is := b.slots.filter (fun i => !isSwap i)
    ((∀ i ∈ is, slotStop t c (exec i s1) = .goes) → step s = .next ((runSlots t c s1 is).finish t c b)) ∧
    (∀ (i : Instr) (v : State), b.slots = [i] → (s0.ctxAt t c).acting = true → exec i s0 = .next v →
      slotStop t c (exec i s0) = .goes → step s = .next (v.finish t c b)) ∧
    (∀ why, firstBlock (is.map (fun i => slotStop t c (exec i s1))) = some why →
      step s = .next (s0.stopBundle t c (.block why))) ∧
    ∀ k info, firstBlock (is.map (fun i => slotStop t c (exec i s1))) = none →
      decidingTrap (is.map (fun i => slotStop t c (exec i s1))) = some (k, info) →
      step s = .next (s0.stopBundle t c (.trap k info))

/-- R200, R205, R219, R222: the memory keeps its canonical form in every step: no address is listed twice or out of order, and
none lists what an unlisted one reads as, so that equal memories are equal data. -/
def Obligations.StepKeepsMemoryCanonical : Prop :=
  ∀ s t : State, Memory.wf s = true → step s = .next t → Memory.wf t = true

/-- The memory has its canonical form after reset, with any slot word placed where the next step fetches. -/
def Obligations.ResetMemoryIsCanonical : Prop :=
  Memory.wf State.reset = true ∧ ∀ nbits w, Memory.wf (State.reset.withFetchWord nbits w) = true
end

