-- ==== Sys2Proof/Laws/Decode.lean ====
section
/-! SUPPORT. The field layouts of Decode.lean: what reading the fields of a packed word gives, its opcode and its size; and
how the bytes of a bundle of one slot are cut. -/
namespace Sys2Proof.Laws
open Sys2Proof Sys2Proof.Machine

/-! ### Bytes -/

theorem leNat_leBytes (n w : Nat) : leNat (leBytes n w) = w % 256 ^ n := by
  induction n generalizing w with
  | zero => simp [leBytes, leNat, Nat.mod_one]
  | succ n ih =>
    have h : 256 ^ (n + 1) = 256 * 256 ^ n := by rw [Nat.pow_succ, Nat.mul_comm]
    rw [h, Nat.mod_mul]
    simp only [leBytes, leNat, ih, BitVec.toNat_ofNat]

@[simp] theorem length_leBytes (n w : Nat) : (leBytes n w).length = n := by
  induction n generalizing w with
  | zero => rfl
  | succ n ih => simp [leBytes, ih]

theorem leNat_leBytes_of_lt {n w : Nat} (h : w < 256 ^ n) : leNat (leBytes n w) = w := by
  rw [leNat_leBytes, Nat.mod_eq_of_lt h]

/-! ### Layouts -/

theorem field_eq {n lo w : Nat} {x : BitVec n} (h : w / 2 ^ lo % 2 ^ n = x.toNat) : field n lo w = x := by
  apply BitVec.eq_of_toNat_eq
  simpa [field] using h

theorem unpackS_packS (op : Nat) (f : SFields) : unpackS f.inS1 (packS op f) = f := by
  obtain ⟨b, dst, nw, width, a, c⟩ := f
  have := dst.isLt; have := nw.isLt; have := width.isLt; have := a.isLt; have := c.isLt
  simp only [unpackS, packS, SFields.mk.injEq, true_and]
  refine ⟨field_eq ?_, field_eq ?_, field_eq ?_, field_eq ?_, field_eq ?_⟩ <;> omega

theorem packS_op (op : Nat) (f : SFields) : packS op f / 2 ^ 24 = op := by
  obtain ⟨b, dst, nw, width, a, c⟩ := f
  have := dst.isLt; have := nw.isLt; have := width.isLt; have := a.isLt; have := c.isLt
  simp only [packS]; omega

theorem packS_srcB (op : Nat) (f : SFields) : packS op f % 256 = f.srcB.toNat := by
  obtain ⟨b, dst, nw, width, a, c⟩ := f
  have := c.isLt
  simp only [packS]; omega

theorem unpackShadow_packShadow (f : ShadowFields) : unpackShadow f.inS1 (packShadow f) = f := by
  obtain ⟨b, nw, a, c⟩ := f
  have := nw.isLt; have := a.isLt; have := c.isLt
  simp only [unpackShadow, packShadow, ShadowFields.mk.injEq, true_and]
  refine ⟨field_eq ?_, field_eq ?_, field_eq ?_⟩ <;> omega

theorem packShadow_form (f : ShadowFields) :
    packShadow f / 2 ^ 24 = 0x46 ∧ 128 ≤ packShadow f % 256 ∧ packShadow f / 2 ^ 18 % 64 = 0 ∧
      packShadow f / 2 ^ 15 % 4 = 0 ∧ packShadow f / 2 ^ 6 % 2 = 0 ∧ packShadow f < 2 ^ 32 := by
  obtain ⟨b, nw, a, c⟩ := f
  have := nw.isLt; have := a.isLt; have := c.isLt
  simp only [packShadow]; omega

theorem unpackA_packA (op : Nat) (f : AFields) : unpackA (packA op f) = f := by
  obtain ⟨a, b, c, d, e, g⟩ := f
  have := a.isLt; have := b.isLt; have := c.isLt; have := d.isLt; have := e.isLt; have := g.isLt
  simp only [unpackA, packA, AFields.mk.injEq]
  refine ⟨field_eq ?_, field_eq ?_, field_eq ?_, field_eq ?_, field_eq ?_, field_eq ?_⟩ <;> omega

theorem packA_op (op : Nat) (f : AFields) : packA op f / 2 ^ 24 = op := by
  obtain ⟨a, b, c, d, e, g⟩ := f
  have := a.isLt; have := b.isLt; have := c.isLt; have := d.isLt; have := e.isLt; have := g.isLt
  simp only [packA]; omega

theorem unpackC_packC (op : Nat) (f : CFields) : unpackC (packC op f) = f := by
  obtain ⟨a, b, c⟩ := f
  have := a.isLt; have := b.isLt; have := c.isLt
  simp only [unpackC, packC, CFields.mk.injEq]
  refine ⟨field_eq ?_, field_eq ?_, field_eq ?_⟩ <;> omega

theorem packC_op (op : Nat) (f : CFields) : packC op f / 2 ^ 24 = op := by
  obtain ⟨a, b, c⟩ := f
  have := a.isLt; have := b.isLt; have := c.isLt
  simp only [packC]; omega

theorem unpackSysc_packSysc {sub : Nat} (h : sub < 64) (f : SyscFields) : unpackSysc (packSysc sub f) = f := by
  obtain ⟨a, b, c⟩ := f
  have := a.isLt; have := b.isLt; have := c.isLt
  simp only [unpackSysc, packSysc, SyscFields.mk.injEq]
  refine ⟨field_eq ?_, field_eq ?_, field_eq ?_⟩ <;> omega

theorem packSysc_form {sub : Nat} (h : sub < 64) (f : SyscFields) :
    packSysc sub f / 2 ^ 24 = 0x0C ∧ packSysc sub f / 2 ^ 13 % 64 = sub ∧ packSysc sub f % 128 = 0 ∧
      packSysc sub f < 2 ^ 32 := by
  obtain ⟨a, b, c⟩ := f
  have := a.isLt; have := b.isLt; have := c.isLt
  simp only [packSysc]; omega

theorem unpackV_packV (op : Nat) (f : VFields) : unpackV f.target (packV op f) = f := by
  obtain ⟨t, ty, w, nw, d, a, b, bs, c, p⟩ := f
  have := ty.isLt; have := w.isLt; have := nw.isLt; have := d.isLt; have := a.isLt; have := b.isLt
  have := bs.isLt; have := c.isLt; have := p.isLt
  simp only [unpackV, packV, VFields.mk.injEq, true_and]
  refine ⟨field_eq ?_, field_eq ?_, field_eq ?_, field_eq ?_, field_eq ?_, field_eq ?_, field_eq ?_, field_eq ?_,
    field_eq ?_⟩ <;> omega

theorem packV_form (op : Nat) (f : VFields) : packV op f / 2 ^ 40 = op ∧ packV op f % 16 = 0 := by
  obtain ⟨t, ty, w, nw, d, a, b, bs, c, p⟩ := f
  have := ty.isLt; have := w.isLt; have := nw.isLt; have := d.isLt; have := a.isLt; have := b.isLt
  have := bs.isLt; have := c.isLt; have := p.isLt
  simp only [packV]; omega

theorem unpackM_packM (op : Nat) (f : MFields) : unpackM (packM op f) = f := by
  obtain ⟨a, b, c, d, e, g⟩ := f
  have := a.isLt; have := b.isLt; have := c.isLt; have := d.isLt; have := e.isLt; have := g.isLt
  simp only [unpackM, packM, MFields.mk.injEq]
  refine ⟨field_eq ?_, field_eq ?_, field_eq ?_, field_eq ?_, field_eq ?_, field_eq ?_⟩ <;> omega

theorem packM_form (op : Nat) (f : MFields) : packM op f / 2 ^ 56 = op ∧ packM op f % 2 ^ 36 = 0 := by
  obtain ⟨a, b, c, d, e, g⟩ := f
  have := a.isLt; have := b.isLt; have := c.isLt; have := d.isLt; have := e.isLt; have := g.isLt
  simp only [packM]; omega

theorem unpackE_packE (op : Nat) (f : EFields) : unpackE (packE op f) = f := by
  obtain ⟨a, b, c, d, e, g⟩ := f
  have := a.isLt; have := b.isLt; have := c.isLt; have := d.isLt; have := e.isLt; have := g.isLt
  simp only [unpackE, packE, EFields.mk.injEq]
  refine ⟨field_eq ?_, field_eq ?_, field_eq ?_, field_eq ?_, field_eq ?_, field_eq ?_⟩ <;> omega

theorem packE_op (op : Nat) (f : EFields) : packE op f / 2 ^ 56 = op := by
  obtain ⟨a, b, c, d, e, g⟩ := f
  have := a.isLt; have := b.isLt; have := c.isLt; have := d.isLt; have := e.isLt; have := g.isLt
  simp only [packE]; omega

theorem unpackK_packK (op : Nat) (f : KFields) : unpackK (packK op f) = f := by
  obtain ⟨a, b, c⟩ := f
  have := a.isLt; have := b.isLt; have := c.isLt
  simp only [unpackK, packK, KFields.mk.injEq]
  refine ⟨field_eq ?_, field_eq ?_, field_eq ?_⟩ <;> omega

theorem packK_op (op : Nat) (f : KFields) : packK op f / 2 ^ 24 = op := by
  obtain ⟨a, b, c⟩ := f
  have := a.isLt; have := b.isLt; have := c.isLt
  simp only [packK]; omega

/-! ### A word is put together from its fields again -/

theorem packS_unpackS {op w : Nat} {b : Bool} (h : w / 2 ^ 24 = op) : packS op (unpackS b w) = w := by
  simp only [packS, unpackS, field, BitVec.toNat_ofNat]; omega

theorem packShadow_unpackShadow {w : Nat} {b : Bool} (h : w / 2 ^ 24 = 0x46) (h1 : 128 ≤ w % 256)
    (h2 : w / 2 ^ 18 % 64 = 0) (h3 : w / 2 ^ 15 % 4 = 0) (h4 : w / 2 ^ 6 % 2 = 0) :
    packShadow (unpackShadow b w) = w := by
  simp only [packShadow, unpackShadow, field, BitVec.toNat_ofNat]; omega

theorem packA_unpackA {op w : Nat} (h : w / 2 ^ 24 = op) : packA op (unpackA w) = w := by
  simp only [packA, unpackA, field, BitVec.toNat_ofNat]; omega

theorem packC_unpackC {op w : Nat} (h : w / 2 ^ 24 = op) : packC op (unpackC w) = w := by
  simp only [packC, unpackC, field, BitVec.toNat_ofNat]; omega

theorem packSysc_unpackSysc {sub w : Nat} (h : w / 2 ^ 24 = 0x0C) (h1 : w / 2 ^ 13 % 64 = sub) (h2 : w % 128 = 0) :
    packSysc sub (unpackSysc w) = w := by
  simp only [packSysc, unpackSysc, field, BitVec.toNat_ofNat]; omega

/-- A field and what lies above it. -/
theorem div_split (w lo n : Nat) : w / 2 ^ lo = w / 2 ^ lo % 2 ^ n + 2 ^ n * (w / 2 ^ (lo + n)) := by
  rw [Nat.pow_add, ← Nat.div_div_eq_div_mul, Nat.mod_add_div]

theorem packV_unpackV {op w : Nat} {t : VTarget} (h : w / 2 ^ 40 = op) (h1 : w % 16 = 0) : packV op (unpackV t w) = w := by
  simp only [packV, unpackV, field, BitVec.toNat_ofNat]
  have e0 := div_split w 0 4
  have e1 := div_split w 4 4
  have e2 := div_split w 8 6
  have e3 := div_split w 14 2
  have e4 := div_split w 16 6
  have e5 := div_split w 22 6
  have e6 := div_split w 28 6
  have e7 := div_split w 34 1
  have e8 := div_split w 35 2
  have e9 := div_split w 37 3
  simp only [Nat.reduceAdd, Nat.pow_zero, Nat.div_one] at e0 e1 e2 e3 e4 e5 e6 e7 e8 e9
  have h0 : w % 2 ^ 4 = 0 := h1
  rw [h0] at e0
  rw [h] at e9
  generalize w / 2 ^ 4 = w4 at *
  generalize w / 2 ^ 8 = w8 at *
  generalize w / 2 ^ 14 = w14 at *
  generalize w / 2 ^ 16 = w16 at *
  generalize w / 2 ^ 22 = w22 at *
  generalize w / 2 ^ 28 = w28 at *
  generalize w / 2 ^ 34 = w34 at *
  generalize w / 2 ^ 35 = w35 at *
  generalize w / 2 ^ 37 = w37 at *
  generalize w4 % 2 ^ 4 = x4 at *
  generalize w8 % 2 ^ 6 = x8 at *
  generalize w14 % 2 ^ 2 = x14 at *
  generalize w16 % 2 ^ 6 = x16 at *
  generalize w22 % 2 ^ 6 = x22 at *
  generalize w28 % 2 ^ 6 = x28 at *
  generalize w34 % 2 ^ 1 = x34 at *
  generalize w35 % 2 ^ 2 = x35 at *
  generalize w37 % 2 ^ 3 = x37 at *
  clear h h1 h0
  omega

theorem packM_unpackM {op w : Nat} (h : w / 2 ^ 56 = op) (h1 : w % 2 ^ 36 = 0) : packM op (unpackM w) = w := by
  simp only [packM, unpackM, field, BitVec.toNat_ofNat]; omega

theorem packE_unpackE {op w : Nat} (h : w / 2 ^ 56 = op) : packE op (unpackE w) = w := by
  simp only [packE, unpackE, field, BitVec.toNat_ofNat]; omega

theorem packK_unpackK {op w : Nat} (h : w / 2 ^ 24 = op) : packK op (unpackK w) = w := by
  simp only [packK, unpackK, field, BitVec.toNat_ofNat]; omega

/-! ### One slot -/

/-- A word of the right class without reserved bits set, whose fields name a well-formed instruction, decodes to it. -/
theorem decodeSlot_of {p : SlotPos} {w : Nat} {i : Instr} (hc : opClass (slotOpcode p w) = some (posClass p))
    (hr : reservedBits p w = false) (hs : slotInstr p w = some i) (hi : WellFormed i) : decodeSlot p w = .ok i := by
  have hi : illop i = none := hi
  simp [decodeSlot, hc, hr, hs, hi]

/-- What a decoded word satisfies. -/
theorem decodeSlot_ok {p : SlotPos} {w : Nat} {i : Instr} (h : decodeSlot p w = .ok i) :
    opClass (slotOpcode p w) = some (posClass p) ∧ reservedBits p w = false ∧ slotInstr p w = some i ∧ WellFormed i := by
  unfold decodeSlot at h
  split at h
  · cases h
  next cl hcl =>
    split at h
    next hp =>
      split at h
      · cases h
      next hr =>
        split at h
        · cases h
        next j hj =>
          split at h
          next hi => cases h; exact ⟨by rw [hcl, hp], by simpa using hr, hj, hi⟩
          next => cases h
    next => cases h

/-! ### A bundle of one slot -/

/-- The header of a bundle of one slot announces that slot alone. -/
theorem header_of_one (p : SlotPos) :
    headerSlots (oneSlotHeader p) = [p] ∧ headerLength (oneSlotHeader p) = 4 + slotBytes p ∧
      headerReports (oneSlotHeader p) = [] ∧ headerInstrs (oneSlotHeader p) = [] ∧ oneSlotHeader p < 2 ^ 16 := by
  cases p with
  | v t => cases t with
    | broadcast => decide
    | cluster c => revert c; decide
  | _ => decide

theorem unitClash_one (x : Nat × Instr) : unitClash [x] = [] := by
  cases h : sUnit x.2 <;> simp [unitClash, h]

/-- A slot that decodes is the instruction that its fields name. -/
theorem slotInstr_of_decodeSlot {p : SlotPos} {w : Nat} {i : Instr} (h : decodeSlot p w = .ok i) : slotInstr p w = some i := by
  unfold decodeSlot at h
  split at h
  · cases h
  · split at h
    · split at h
      · cases h
      · split at h
        · cases h
        · next j hj => split at h <;> simp_all
    · cases h

/-- A bundle of one slot decodes to what the slot decodes to. -/
theorem decodeBundle_one {p : SlotPos} {w : Nat} {i : Instr} (hw : w < 256 ^ slotBytes p) (h : decodeSlot p w = .ok i) :
    decodeBundle (leBytes 4 (oneSlotHeader p) ++ leBytes (slotBytes p) w) =
      .bundle { hint := 0, mswap := false, eswap := false, slots := [i], length := 4 + slotBytes p } := by
  obtain ⟨h1, h2, h3, h4, h5⟩ := header_of_one p
  have ht : (leBytes 4 (oneSlotHeader p) ++ leBytes (slotBytes p) w).take 4 = leBytes 4 (oneSlotHeader p) := by
    rw [List.take_append_of_le_length (by simp), List.take_of_length_le (by simp)]
  have hd : (leBytes 4 (oneSlotHeader p) ++ leBytes (slotBytes p) w).drop 4 = leBytes (slotBytes p) w := by
    rw [List.drop_append_of_le_length (by simp), List.drop_of_length_le (by simp)]; rfl
  have hh : leNat (leBytes 4 (oneSlotHeader p)) = oneSlotHeader p := leNat_leBytes_of_lt (by omega)
  have hn : ∃ n, numberSlots 5 [p] = [(n, p)] := by cases p <;> exact ⟨_, rfl⟩
  obtain ⟨n, hn⟩ := hn
  have hl : leNat ((leBytes (slotBytes p) w).take (slotBytes p)) = w := by
    rw [List.take_of_length_le (by simp), leNat_leBytes_of_lt hw]
  have e1 : oneSlotHeader p / 2 ^ 16 = 0 := by omega
  have e2 : oneSlotHeader p / 2 ^ 18 = 0 := by omega
  have e3 : oneSlotHeader p / 2 ^ 19 = 0 := by omega
  unfold decodeBundle
  rw [ht, hd, hh]
  simp only [h1, hn, cutSlots, hl, List.map, h, slotInstr_of_decodeSlot h, Option.map_some, List.filterMap, h2, h3, h4, conflicts, unitClash_one, lowestReport, List.append_nil,
    List.nil_append, List.any, Bool.false_eq_true, if_false, e1, e2, e3, field, List.isEmpty]
  rfl

end Sys2Proof.Laws
end

