-- ==== Sys2Proof/Laws/Link.lean ====
section
/-! SUPPORT. What sending over the Dravy Link can change: the ports and the flits sent, and nothing else of the module. -/
namespace Sys2Proof.Laws
open Sys2Proof Sys2Proof.Machine

/-- Flits that leave a port change its registers and what has been sent. -/
theorem pump_changes (s : State) (p n : Nat) : ∃ l o, s.pump p n = { s with links := l, sent := o } := by
  induction n generalizing s with
  | zero => exact ⟨s.links, s.sent, rfl⟩
  | succ n ih =>
    simp only [State.pump]
    split
    · exact ⟨s.links, s.sent, rfl⟩
    · split
      · exact ⟨s.links, s.sent, rfl⟩
      · split
        · exact ⟨s.links, s.sent, rfl⟩
        · obtain ⟨l, o, h⟩ := ih _
          exact ⟨l, o, h⟩

theorem sendFlit_changes (s : State) (f : Flit) : ∃ l o, s.sendFlit f = { s with links := l, sent := o } := by
  unfold State.sendFlit
  split
  · exact ⟨s.links, s.sent, rfl⟩
  · obtain ⟨l, o, h⟩ := pump_changes _ _ _
    exact ⟨l, o, h⟩

/-- A message takes a number too. -/
theorem sendPay_changes (s : State) (d vc lane : Nat) (pay : FlitPay) :
    ∃ l o n, s.sendPay d vc lane pay = { s with links := l, sent := o, linkTx := n } := by
  obtain ⟨l, o, h⟩ := sendFlit_changes { s with linkTx := Sparse.set 0 s.linkTx d (Sparse.get 0 s.linkTx d + 1) }
    { dest := d, seq := 0, ackseq := 0, vc, lane, pay, src := s.nodeId.toNat, num := Sparse.get 0 s.linkTx d }
  exact ⟨l, o, _, h⟩

theorem sendAll_changes (s : State) (ds : List Nat) (vc lane : Nat) (pay : FlitPay) :
    ∃ l o n, s.sendAll ds vc lane pay = { s with links := l, sent := o, linkTx := n } := by
  unfold State.sendAll
  induction ds generalizing s with
  | nil => exact ⟨s.links, s.sent, s.linkTx, rfl⟩
  | cons d ds ih =>
    obtain ⟨l, o, n, h⟩ := sendPay_changes s d vc lane pay
    obtain ⟨l', o', n', h'⟩ := ih { s with links := l, sent := o, linkTx := n }
    exact ⟨l', o', n', by rw [List.foldl_cons, h, h']⟩

/-- Telling a broadcast's root changes the communicators, or sends a flit. -/
theorem tellRoot_changes (s : State) (k r : Nat) (c : CollCmd) :
    ∃ y l o n, s.tellRoot k r c = { s with comms := y, links := l, sent := o, linkTx := n } := by
  unfold State.tellRoot
  split
  · exact ⟨s.comms, s.links, s.sent, s.linkTx, rfl⟩
  · simp only
    split
    · exact ⟨s.comms, s.links, s.sent, s.linkTx, rfl⟩
    · split
      · exact ⟨_, s.links, s.sent, s.linkTx, rfl⟩
      · obtain ⟨l, o, n, h⟩ := sendPay_changes s _ _ _ _
        exact ⟨s.comms, l, o, n, h⟩

end Sys2Proof.Laws
end

