-- ==== Sys2Proof/Laws/Sparse.lean ====
section
/-! SUPPORT. The laws of sparse maps: read after write, and that writes keep the canonical form. -/
namespace Sys2Proof.Laws
open Sys2Proof.Machine

variable {α : Type}

theorem get_drop_same (d : α) (m : Sparse α) (k : Nat) : Sparse.get d (m.drop k) k = d := by
  induction m with
  | nil => rfl
  | cons x t ih =>
    obtain ⟨a, v⟩ := x
    by_cases h : a = k <;> simp [Sparse.drop, Sparse.get, h, ih]

theorem get_drop_other (d : α) (m : Sparse α) {k j : Nat} (hj : j ≠ k) :
    Sparse.get d (m.drop k) j = Sparse.get d m j := by
  induction m with
  | nil => rfl
  | cons x t ih =>
    obtain ⟨a, v⟩ := x
    by_cases h : a = k
    · subst h; simp [Sparse.drop, Sparse.get, ih, Ne.symm hj]
    · simp only [Sparse.drop, if_neg h, Sparse.get, ih]

theorem get_put_other (d : α) (m : Sparse α) {k j : Nat} (v : α) (hj : j ≠ k) :
    Sparse.get d (m.put k v) j = Sparse.get d m j := by
  induction m with
  | nil => simp [Sparse.put, Sparse.get, Ne.symm hj]
  | cons x t ih =>
    obtain ⟨a, w⟩ := x
    by_cases h : k < a
    · simp [Sparse.put, Sparse.get, h, Ne.symm hj]
    · simp [Sparse.put, Sparse.get, h, ih]

/-- A key that reads as nothing is listed nowhere. -/
theorem get_put_drop (d : α) (m : Sparse α) (k : Nat) (v : α) :
    Sparse.get d ((m.drop k).put k v) k = v := by
  induction m with
  | nil => simp [Sparse.drop, Sparse.put, Sparse.get]
  | cons x t ih =>
    obtain ⟨a, w⟩ := x
    by_cases h : a = k
    · simp [Sparse.drop, h, ih]
    · by_cases h' : k < a <;> simp [Sparse.drop, Sparse.put, Sparse.get, h, h', ih]

variable [DecidableEq α]

@[simp] theorem get_set_same (d : α) (m : Sparse α) (k : Nat) (v : α) :
    Sparse.get d (Sparse.set d m k v) k = v := by
  unfold Sparse.set
  split
  · rw [get_drop_same]; exact Eq.symm ‹_›
  · exact get_put_drop d m k v

theorem get_set_other (d : α) (m : Sparse α) {k j : Nat} (v : α) (hj : j ≠ k) :
    Sparse.get d (Sparse.set d m k v) j = Sparse.get d m j := by
  unfold Sparse.set
  split
  · exact get_drop_other d m hj
  · rw [get_put_other d _ v hj, get_drop_other d m hj]

theorem get_set (d : α) (m : Sparse α) (k j : Nat) (v : α) :
    Sparse.get d (Sparse.set d m k v) j = if j = k then v else Sparse.get d m j := by
  by_cases h : j = k
  · subst h; simp
  · simp [h, get_set_other d m v h]

omit [DecidableEq α] in
theorem drop_drop (m : Sparse α) (i : Nat) : Sparse.drop (Sparse.drop m i) i = Sparse.drop m i := by
  induction m with
  | nil => rfl
  | cons p r ih => obtain ⟨e, w⟩ := p; by_cases h : e = i <;> simp [Sparse.drop, h, ih]

omit [DecidableEq α] in
theorem drop_of_absent {m : Sparse α} {i : Nat} (h : ∀ p ∈ m, p.1 ≠ i) : Sparse.drop m i = m := by
  induction m with
  | nil => rfl
  | cons p r ih =>
    obtain ⟨e, w⟩ := p
    have he : e ≠ i := h (e, w) (by simp)
    simp [Sparse.drop, he, ih (fun p hp => h p (by simp [hp]))]

omit [DecidableEq α] in
theorem drop_put {m : Sparse α} {i : Nat} (a : α) (h : ∀ p ∈ m, p.1 ≠ i) : Sparse.drop (Sparse.put m i a) i = m := by
  induction m with
  | nil => simp [Sparse.put, Sparse.drop]
  | cons p r ih =>
    obtain ⟨e, w⟩ := p
    have he : e ≠ i := h (e, w) (by simp)
    have hr : ∀ p ∈ r, p.1 ≠ i := fun p hp => h p (by simp [hp])
    by_cases hlt : i < e
    · simp [Sparse.put, Sparse.drop, hlt, he, drop_of_absent hr]
    · simp [Sparse.put, Sparse.drop, hlt, he, ih hr]

/-! ### The canonical form -/

omit [DecidableEq α] in
theorem risingFrom_mono {m : Sparse α} {lo lo' : Nat} (h : Sparse.risingFrom lo m = true) (hl : lo' ≤ lo) :
    Sparse.risingFrom lo' m = true := by
  cases m with
  | nil => rfl
  | cons x t =>
    obtain ⟨a, v⟩ := x
    simp only [Sparse.risingFrom, Bool.and_eq_true, decide_eq_true_eq] at h ⊢
    exact ⟨by omega, h.2⟩

omit [DecidableEq α] in
theorem risingFrom_drop {m : Sparse α} {lo : Nat} (k : Nat) (h : Sparse.risingFrom lo m = true) :
    Sparse.risingFrom lo (m.drop k) = true := by
  induction m generalizing lo with
  | nil => rfl
  | cons x t ih =>
    obtain ⟨a, v⟩ := x
    simp only [Sparse.risingFrom, Bool.and_eq_true, decide_eq_true_eq] at h
    simp only [Sparse.drop]
    split
    · exact ih (risingFrom_mono h.2 (by omega))
    · simp only [Sparse.risingFrom, Bool.and_eq_true, decide_eq_true_eq]
      exact ⟨h.1, ih h.2⟩

omit [DecidableEq α] in
/-- A map without key k, with k put in. -/
theorem risingFrom_put {m : Sparse α} {lo k : Nat} (v : α) (hk : lo ≤ k) (h : Sparse.risingFrom lo m = true)
    (hn : ∀ p ∈ m, p.1 ≠ k) : Sparse.risingFrom lo (m.put k v) = true := by
  induction m generalizing lo with
  | nil => simpa [Sparse.put, Sparse.risingFrom] using hk
  | cons x t ih =>
    obtain ⟨a, w⟩ := x
    simp only [Sparse.risingFrom, Bool.and_eq_true, decide_eq_true_eq] at h
    have ha : a ≠ k := hn (a, w) (by simp)
    simp only [Sparse.put]
    split
    · simp only [Sparse.risingFrom, Bool.and_eq_true, decide_eq_true_eq]
      exact ⟨hk, by omega, h.2⟩
    · simp only [Sparse.risingFrom, Bool.and_eq_true, decide_eq_true_eq]
      exact ⟨h.1, ih (by omega) h.2 (fun p hp => hn p (by simp [hp]))⟩

omit [DecidableEq α] in
theorem not_mem_drop (m : Sparse α) (k : Nat) : ∀ p ∈ m.drop k, p.1 ≠ k := by
  induction m with
  | nil => simp [Sparse.drop]
  | cons x t ih =>
    obtain ⟨a, v⟩ := x
    simp only [Sparse.drop]
    split
    · exact ih
    · intro p hp
      rcases List.mem_cons.mp hp with rfl | hp
      · assumption
      · exact ih p hp

omit [DecidableEq α] in
theorem mem_of_mem_drop {m : Sparse α} {k : Nat} {p : Nat × α} (h : p ∈ m.drop k) : p ∈ m := by
  induction m with
  | nil => simp [Sparse.drop] at h
  | cons x t ih =>
    obtain ⟨a, v⟩ := x
    simp only [Sparse.drop] at h
    split at h
    · exact List.mem_cons_of_mem _ (ih h)
    · rcases List.mem_cons.mp h with rfl | h
      · simp
      · exact List.mem_cons_of_mem _ (ih h)

omit [DecidableEq α] in
theorem mem_of_mem_put {m : Sparse α} {k : Nat} {v : α} {p : Nat × α} (h : p ∈ m.put k v) :
    p = (k, v) ∨ p ∈ m := by
  induction m with
  | nil => simpa [Sparse.put] using h
  | cons x t ih =>
    obtain ⟨a, w⟩ := x
    simp only [Sparse.put] at h
    split at h
    · rcases List.mem_cons.mp h with h | h
      · exact .inl h
      · exact .inr h
    · rcases List.mem_cons.mp h with h | h
      · exact .inr (by simp [h])
      · exact (ih h).imp id (fun h => by simp [h])

/-- Every write keeps the canonical form. -/
theorem wf_set (d : α) {m : Sparse α} (k : Nat) (v : α) (h : Sparse.wf d m = true) :
    Sparse.wf d (Sparse.set d m k v) = true := by
  simp only [Sparse.wf, Bool.and_eq_true, List.all_eq_true, decide_eq_true_eq] at h ⊢
  unfold Sparse.set
  split
  · exact ⟨risingFrom_drop k h.1, fun p hp => h.2 p (mem_of_mem_drop hp)⟩
  · refine ⟨risingFrom_put v (Nat.zero_le k) (risingFrom_drop k h.1) (not_mem_drop m k), fun p hp => ?_⟩
    rcases mem_of_mem_put hp with rfl | hp
    · assumption
    · exact h.2 p (mem_of_mem_drop hp)

/-- Of two writes of a key the later one stands. -/
theorem set_set (d : α) (m : Sparse α) (i : Nat) (a b : α) :
    Sparse.set d (Sparse.set d m i a) i b = Sparse.set d m i b := by
  have key : Sparse.drop (Sparse.set d m i a) i = Sparse.drop m i := by
    unfold Sparse.set
    split
    · exact drop_drop m i
    · exact drop_put _ (not_mem_drop m i)
  unfold Sparse.set at key ⊢
  rw [key]

theorem wf_nil (d : α) : Sparse.wf d ([] : Sparse α) = true := rfl

end Sys2Proof.Laws
end

