-- ==== Sys2Proof/Laws/State.lean ====
section
/-! SUPPORT. The fields of the state after each update: one lemma per field per update, and what reads of a tile, a
context and a virtual function give after a write of one. -/
namespace Sys2Proof.Laws
open Sys2Proof.Machine

variable (s : State) (t c v : Nat) (x : Tile) (k : Ctx) (y : Vf)

/-! ### setTile -/

@[simp] theorem setTile_clk : (s.setTile t x).clk = s.clk := rfl
@[simp] theorem setTile_cursor : (s.setTile t x).cursor = s.cursor := rfl
@[simp] theorem setTile_cur : (s.setTile t x).cur = s.cur := rfl
@[simp] theorem setTile_agenda : (s.setTile t x).agenda = s.agenda := rfl
@[simp] theorem setTile_inputs : (s.setTile t x).inputs = s.inputs := rfl
@[simp] theorem setTile_free : (s.setTile t x).free = s.free := rfl
@[simp] theorem setTile_mem : (s.setTile t x).mem = s.mem := rfl
@[simp] theorem setTile_tags : (s.setTile t x).tags = s.tags := rfl
@[simp] theorem setTile_poison : (s.setTile t x).poison = s.poison := rfl
@[simp] theorem setTile_mortar : (s.setTile t x).mortar = s.mortar := rfl
@[simp] theorem setTile_mdata : (s.setTile t x).mdata = s.mdata := rfl
@[simp] theorem setTile_mtags : (s.setTile t x).mtags = s.mtags := rfl
@[simp] theorem setTile_hostHeld : (s.setTile t x).hostHeld = s.hostHeld := rfl
@[simp] theorem setTile_biQ : (s.setTile t x).biQ = s.biQ := rfl
@[simp] theorem setTile_hist : (s.setTile t x).hist = s.hist := rfl
@[simp] theorem setTile_atc : (s.setTile t x).atc = s.atc := rfl
@[simp] theorem setTile_pageReqs : (s.setTile t x).pageReqs = s.pageReqs := rfl
@[simp] theorem setTile_pfSupq : (s.setTile t x).pfSupq = s.pfSupq := rfl
@[simp] theorem setTile_dropRec : (s.setTile t x).dropRec = s.dropRec := rfl
@[simp] theorem setTile_gangs : (s.setTile t x).gangs = s.gangs := rfl
@[simp] theorem setTile_waves : (s.setTile t x).waves = s.waves := rfl
@[simp] theorem setTile_vfs : (s.setTile t x).vfs = s.vfs := rfl
@[simp] theorem setTile_nextGang : (s.setTile t x).nextGang = s.nextGang := rfl
@[simp] theorem setTile_nextWave : (s.setTile t x).nextWave = s.nextWave := rfl
@[simp] theorem setTile_nextOp : (s.setTile t x).nextOp = s.nextOp := rfl
@[simp] theorem setTile_manual : (s.setTile t x).manual = s.manual := rfl
@[simp] theorem setTile_saves : (s.setTile t x).saves = s.saves := rfl
@[simp] theorem setTile_moves : (s.setTile t x).moves = s.moves := rfl
@[simp] theorem setTile_pageMoves : (s.setTile t x).pageMoves = s.pageMoves := rfl
@[simp] theorem setTile_deferred : (s.setTile t x).deferred = s.deferred := rfl
@[simp] theorem setTile_staging : (s.setTile t x).staging = s.staging := rfl
@[simp] theorem setTile_stagingTags : (s.setTile t x).stagingTags = s.stagingTags := rfl
@[simp] theorem setTile_mortarQ : (s.setTile t x).mortarQ = s.mortarQ := rfl
@[simp] theorem setTile_crownQ : (s.setTile t x).crownQ = s.crownQ := rfl
@[simp] theorem setTile_brimQ : (s.setTile t x).brimQ = s.brimQ := rfl
@[simp] theorem setTile_crownOwner : (s.setTile t x).crownOwner = s.crownOwner := rfl
@[simp] theorem setTile_crown : (s.setTile t x).crown = s.crown := rfl
@[simp] theorem setTile_broadcasts : (s.setTile t x).broadcasts = s.broadcasts := rfl
@[simp] theorem setTile_comms : (s.setTile t x).comms = s.comms := rfl
@[simp] theorem setTile_hodQ : (s.setTile t x).hodQ = s.hodQ := rfl
@[simp] theorem setTile_hodPtr : (s.setTile t x).hodPtr = s.hodPtr := rfl
@[simp] theorem setTile_nodeId : (s.setTile t x).nodeId = s.nodeId := rfl
@[simp] theorem setTile_routes : (s.setTile t x).routes = s.routes := rfl
@[simp] theorem setTile_links : (s.setTile t x).links = s.links := rfl
@[simp] theorem setTile_sent : (s.setTile t x).sent = s.sent := rfl
@[simp] theorem setTile_pnrp : (s.setTile t x).pnrp = s.pnrp := rfl
@[simp] theorem setTile_activates : (s.setTile t x).activates = s.activates := rfl
@[simp] theorem setTile_resets : (s.setTile t x).resets = s.resets := rfl
@[simp] theorem setTile_secnt : (s.setTile t x).secnt = s.secnt := rfl
@[simp] theorem setTile_monitors : (s.setTile t x).monitors = s.monitors := rfl
@[simp] theorem setTile_cxlDown : (s.setTile t x).cxlDown = s.cxlDown := rfl
@[simp] theorem setTile_hostRead : (s.setTile t x).hostRead = s.hostRead := rfl
@[simp] theorem setTile_doe : (s.setTile t x).doe = s.doe := rfl
@[simp] theorem setTile_boot : (s.setTile t x).boot = s.boot := rfl
@[simp] theorem setTile_poisonM : (s.setTile t x).poisonM = s.poisonM := rfl
@[simp] theorem setTile_stagingPoison : (s.setTile t x).stagingPoison = s.stagingPoison := rfl
@[simp] theorem setTile_linkTx : (s.setTile t x).linkTx = s.linkTx := rfl
@[simp] theorem setTile_linkSeen : (s.setTile t x).linkSeen = s.linkSeen := rfl

/-! ### setCtxAt -/

@[simp] theorem setCtxAt_clk : (s.setCtxAt t c k).clk = s.clk := rfl
@[simp] theorem setCtxAt_cursor : (s.setCtxAt t c k).cursor = s.cursor := rfl
@[simp] theorem setCtxAt_cur : (s.setCtxAt t c k).cur = s.cur := rfl
@[simp] theorem setCtxAt_agenda : (s.setCtxAt t c k).agenda = s.agenda := rfl
@[simp] theorem setCtxAt_inputs : (s.setCtxAt t c k).inputs = s.inputs := rfl
@[simp] theorem setCtxAt_free : (s.setCtxAt t c k).free = s.free := rfl
@[simp] theorem setCtxAt_mem : (s.setCtxAt t c k).mem = s.mem := rfl
@[simp] theorem setCtxAt_tags : (s.setCtxAt t c k).tags = s.tags := rfl
@[simp] theorem setCtxAt_poison : (s.setCtxAt t c k).poison = s.poison := rfl
@[simp] theorem setCtxAt_mortar : (s.setCtxAt t c k).mortar = s.mortar := rfl
@[simp] theorem setCtxAt_mdata : (s.setCtxAt t c k).mdata = s.mdata := rfl
@[simp] theorem setCtxAt_mtags : (s.setCtxAt t c k).mtags = s.mtags := rfl
@[simp] theorem setCtxAt_hostHeld : (s.setCtxAt t c k).hostHeld = s.hostHeld := rfl
@[simp] theorem setCtxAt_biQ : (s.setCtxAt t c k).biQ = s.biQ := rfl
@[simp] theorem setCtxAt_hist : (s.setCtxAt t c k).hist = s.hist := rfl
@[simp] theorem setCtxAt_atc : (s.setCtxAt t c k).atc = s.atc := rfl
@[simp] theorem setCtxAt_pageReqs : (s.setCtxAt t c k).pageReqs = s.pageReqs := rfl
@[simp] theorem setCtxAt_pfSupq : (s.setCtxAt t c k).pfSupq = s.pfSupq := rfl
@[simp] theorem setCtxAt_dropRec : (s.setCtxAt t c k).dropRec = s.dropRec := rfl
@[simp] theorem setCtxAt_gangs : (s.setCtxAt t c k).gangs = s.gangs := rfl
@[simp] theorem setCtxAt_waves : (s.setCtxAt t c k).waves = s.waves := rfl
@[simp] theorem setCtxAt_vfs : (s.setCtxAt t c k).vfs = s.vfs := rfl
@[simp] theorem setCtxAt_nextGang : (s.setCtxAt t c k).nextGang = s.nextGang := rfl
@[simp] theorem setCtxAt_nextWave : (s.setCtxAt t c k).nextWave = s.nextWave := rfl
@[simp] theorem setCtxAt_nextOp : (s.setCtxAt t c k).nextOp = s.nextOp := rfl
@[simp] theorem setCtxAt_manual : (s.setCtxAt t c k).manual = s.manual := rfl
@[simp] theorem setCtxAt_saves : (s.setCtxAt t c k).saves = s.saves := rfl
@[simp] theorem setCtxAt_moves : (s.setCtxAt t c k).moves = s.moves := rfl
@[simp] theorem setCtxAt_pageMoves : (s.setCtxAt t c k).pageMoves = s.pageMoves := rfl
@[simp] theorem setCtxAt_deferred : (s.setCtxAt t c k).deferred = s.deferred := rfl
@[simp] theorem setCtxAt_staging : (s.setCtxAt t c k).staging = s.staging := rfl
@[simp] theorem setCtxAt_stagingTags : (s.setCtxAt t c k).stagingTags = s.stagingTags := rfl
@[simp] theorem setCtxAt_mortarQ : (s.setCtxAt t c k).mortarQ = s.mortarQ := rfl
@[simp] theorem setCtxAt_crownQ : (s.setCtxAt t c k).crownQ = s.crownQ := rfl
@[simp] theorem setCtxAt_brimQ : (s.setCtxAt t c k).brimQ = s.brimQ := rfl
@[simp] theorem setCtxAt_crownOwner : (s.setCtxAt t c k).crownOwner = s.crownOwner := rfl
@[simp] theorem setCtxAt_crown : (s.setCtxAt t c k).crown = s.crown := rfl
@[simp] theorem setCtxAt_broadcasts : (s.setCtxAt t c k).broadcasts = s.broadcasts := rfl
@[simp] theorem setCtxAt_comms : (s.setCtxAt t c k).comms = s.comms := rfl
@[simp] theorem setCtxAt_hodQ : (s.setCtxAt t c k).hodQ = s.hodQ := rfl
@[simp] theorem setCtxAt_hodPtr : (s.setCtxAt t c k).hodPtr = s.hodPtr := rfl
@[simp] theorem setCtxAt_nodeId : (s.setCtxAt t c k).nodeId = s.nodeId := rfl
@[simp] theorem setCtxAt_routes : (s.setCtxAt t c k).routes = s.routes := rfl
@[simp] theorem setCtxAt_links : (s.setCtxAt t c k).links = s.links := rfl
@[simp] theorem setCtxAt_sent : (s.setCtxAt t c k).sent = s.sent := rfl
@[simp] theorem setCtxAt_pnrp : (s.setCtxAt t c k).pnrp = s.pnrp := rfl
@[simp] theorem setCtxAt_activates : (s.setCtxAt t c k).activates = s.activates := rfl
@[simp] theorem setCtxAt_resets : (s.setCtxAt t c k).resets = s.resets := rfl
@[simp] theorem setCtxAt_secnt : (s.setCtxAt t c k).secnt = s.secnt := rfl
@[simp] theorem setCtxAt_monitors : (s.setCtxAt t c k).monitors = s.monitors := rfl
@[simp] theorem setCtxAt_cxlDown : (s.setCtxAt t c k).cxlDown = s.cxlDown := rfl
@[simp] theorem setCtxAt_hostRead : (s.setCtxAt t c k).hostRead = s.hostRead := rfl
@[simp] theorem setCtxAt_doe : (s.setCtxAt t c k).doe = s.doe := rfl
@[simp] theorem setCtxAt_boot : (s.setCtxAt t c k).boot = s.boot := rfl
@[simp] theorem setCtxAt_poisonM : (s.setCtxAt t c k).poisonM = s.poisonM := rfl
@[simp] theorem setCtxAt_stagingPoison : (s.setCtxAt t c k).stagingPoison = s.stagingPoison := rfl
@[simp] theorem setCtxAt_linkTx : (s.setCtxAt t c k).linkTx = s.linkTx := rfl
@[simp] theorem setCtxAt_linkSeen : (s.setCtxAt t c k).linkSeen = s.linkSeen := rfl

/-! ### setCtx -/

@[simp] theorem setCtx_clk : (s.setCtx k).clk = s.clk := rfl
@[simp] theorem setCtx_cursor : (s.setCtx k).cursor = s.cursor := rfl
@[simp] theorem setCtx_cur : (s.setCtx k).cur = s.cur := rfl
@[simp] theorem setCtx_agenda : (s.setCtx k).agenda = s.agenda := rfl
@[simp] theorem setCtx_inputs : (s.setCtx k).inputs = s.inputs := rfl
@[simp] theorem setCtx_free : (s.setCtx k).free = s.free := rfl
@[simp] theorem setCtx_mem : (s.setCtx k).mem = s.mem := rfl
@[simp] theorem setCtx_tags : (s.setCtx k).tags = s.tags := rfl
@[simp] theorem setCtx_poison : (s.setCtx k).poison = s.poison := rfl
@[simp] theorem setCtx_mortar : (s.setCtx k).mortar = s.mortar := rfl
@[simp] theorem setCtx_mdata : (s.setCtx k).mdata = s.mdata := rfl
@[simp] theorem setCtx_mtags : (s.setCtx k).mtags = s.mtags := rfl
@[simp] theorem setCtx_hostHeld : (s.setCtx k).hostHeld = s.hostHeld := rfl
@[simp] theorem setCtx_biQ : (s.setCtx k).biQ = s.biQ := rfl
@[simp] theorem setCtx_hist : (s.setCtx k).hist = s.hist := rfl
@[simp] theorem setCtx_atc : (s.setCtx k).atc = s.atc := rfl
@[simp] theorem setCtx_pageReqs : (s.setCtx k).pageReqs = s.pageReqs := rfl
@[simp] theorem setCtx_pfSupq : (s.setCtx k).pfSupq = s.pfSupq := rfl
@[simp] theorem setCtx_dropRec : (s.setCtx k).dropRec = s.dropRec := rfl
@[simp] theorem setCtx_gangs : (s.setCtx k).gangs = s.gangs := rfl
@[simp] theorem setCtx_waves : (s.setCtx k).waves = s.waves := rfl
@[simp] theorem setCtx_vfs : (s.setCtx k).vfs = s.vfs := rfl
@[simp] theorem setCtx_nextGang : (s.setCtx k).nextGang = s.nextGang := rfl
@[simp] theorem setCtx_nextWave : (s.setCtx k).nextWave = s.nextWave := rfl
@[simp] theorem setCtx_nextOp : (s.setCtx k).nextOp = s.nextOp := rfl
@[simp] theorem setCtx_manual : (s.setCtx k).manual = s.manual := rfl
@[simp] theorem setCtx_saves : (s.setCtx k).saves = s.saves := rfl
@[simp] theorem setCtx_moves : (s.setCtx k).moves = s.moves := rfl
@[simp] theorem setCtx_pageMoves : (s.setCtx k).pageMoves = s.pageMoves := rfl
@[simp] theorem setCtx_deferred : (s.setCtx k).deferred = s.deferred := rfl
@[simp] theorem setCtx_staging : (s.setCtx k).staging = s.staging := rfl
@[simp] theorem setCtx_stagingTags : (s.setCtx k).stagingTags = s.stagingTags := rfl
@[simp] theorem setCtx_mortarQ : (s.setCtx k).mortarQ = s.mortarQ := rfl
@[simp] theorem setCtx_crownQ : (s.setCtx k).crownQ = s.crownQ := rfl
@[simp] theorem setCtx_brimQ : (s.setCtx k).brimQ = s.brimQ := rfl
@[simp] theorem setCtx_crownOwner : (s.setCtx k).crownOwner = s.crownOwner := rfl
@[simp] theorem setCtx_crown : (s.setCtx k).crown = s.crown := rfl
@[simp] theorem setCtx_broadcasts : (s.setCtx k).broadcasts = s.broadcasts := rfl
@[simp] theorem setCtx_comms : (s.setCtx k).comms = s.comms := rfl
@[simp] theorem setCtx_hodQ : (s.setCtx k).hodQ = s.hodQ := rfl
@[simp] theorem setCtx_hodPtr : (s.setCtx k).hodPtr = s.hodPtr := rfl
@[simp] theorem setCtx_nodeId : (s.setCtx k).nodeId = s.nodeId := rfl
@[simp] theorem setCtx_routes : (s.setCtx k).routes = s.routes := rfl
@[simp] theorem setCtx_links : (s.setCtx k).links = s.links := rfl
@[simp] theorem setCtx_sent : (s.setCtx k).sent = s.sent := rfl
@[simp] theorem setCtx_pnrp : (s.setCtx k).pnrp = s.pnrp := rfl
@[simp] theorem setCtx_activates : (s.setCtx k).activates = s.activates := rfl
@[simp] theorem setCtx_resets : (s.setCtx k).resets = s.resets := rfl
@[simp] theorem setCtx_secnt : (s.setCtx k).secnt = s.secnt := rfl
@[simp] theorem setCtx_monitors : (s.setCtx k).monitors = s.monitors := rfl
@[simp] theorem setCtx_cxlDown : (s.setCtx k).cxlDown = s.cxlDown := rfl
@[simp] theorem setCtx_hostRead : (s.setCtx k).hostRead = s.hostRead := rfl
@[simp] theorem setCtx_doe : (s.setCtx k).doe = s.doe := rfl
@[simp] theorem setCtx_boot : (s.setCtx k).boot = s.boot := rfl
@[simp] theorem setCtx_poisonM : (s.setCtx k).poisonM = s.poisonM := rfl
@[simp] theorem setCtx_stagingPoison : (s.setCtx k).stagingPoison = s.stagingPoison := rfl
@[simp] theorem setCtx_linkTx : (s.setCtx k).linkTx = s.linkTx := rfl
@[simp] theorem setCtx_linkSeen : (s.setCtx k).linkSeen = s.linkSeen := rfl

/-! ### setVf -/

@[simp] theorem setVf_clk : (s.setVf v y).clk = s.clk := rfl
@[simp] theorem setVf_cursor : (s.setVf v y).cursor = s.cursor := rfl
@[simp] theorem setVf_cur : (s.setVf v y).cur = s.cur := rfl
@[simp] theorem setVf_agenda : (s.setVf v y).agenda = s.agenda := rfl
@[simp] theorem setVf_inputs : (s.setVf v y).inputs = s.inputs := rfl
@[simp] theorem setVf_free : (s.setVf v y).free = s.free := rfl
@[simp] theorem setVf_mem : (s.setVf v y).mem = s.mem := rfl
@[simp] theorem setVf_tags : (s.setVf v y).tags = s.tags := rfl
@[simp] theorem setVf_poison : (s.setVf v y).poison = s.poison := rfl
@[simp] theorem setVf_mortar : (s.setVf v y).mortar = s.mortar := rfl
@[simp] theorem setVf_mdata : (s.setVf v y).mdata = s.mdata := rfl
@[simp] theorem setVf_mtags : (s.setVf v y).mtags = s.mtags := rfl
@[simp] theorem setVf_hostHeld : (s.setVf v y).hostHeld = s.hostHeld := rfl
@[simp] theorem setVf_biQ : (s.setVf v y).biQ = s.biQ := rfl
@[simp] theorem setVf_hist : (s.setVf v y).hist = s.hist := rfl
@[simp] theorem setVf_atc : (s.setVf v y).atc = s.atc := rfl
@[simp] theorem setVf_pageReqs : (s.setVf v y).pageReqs = s.pageReqs := rfl
@[simp] theorem setVf_pfSupq : (s.setVf v y).pfSupq = s.pfSupq := rfl
@[simp] theorem setVf_dropRec : (s.setVf v y).dropRec = s.dropRec := rfl
@[simp] theorem setVf_tiles : (s.setVf v y).tiles = s.tiles := rfl
@[simp] theorem setVf_gangs : (s.setVf v y).gangs = s.gangs := rfl
@[simp] theorem setVf_waves : (s.setVf v y).waves = s.waves := rfl
@[simp] theorem setVf_nextGang : (s.setVf v y).nextGang = s.nextGang := rfl
@[simp] theorem setVf_nextWave : (s.setVf v y).nextWave = s.nextWave := rfl
@[simp] theorem setVf_nextOp : (s.setVf v y).nextOp = s.nextOp := rfl
@[simp] theorem setVf_manual : (s.setVf v y).manual = s.manual := rfl
@[simp] theorem setVf_saves : (s.setVf v y).saves = s.saves := rfl
@[simp] theorem setVf_moves : (s.setVf v y).moves = s.moves := rfl
@[simp] theorem setVf_pageMoves : (s.setVf v y).pageMoves = s.pageMoves := rfl
@[simp] theorem setVf_deferred : (s.setVf v y).deferred = s.deferred := rfl
@[simp] theorem setVf_staging : (s.setVf v y).staging = s.staging := rfl
@[simp] theorem setVf_stagingTags : (s.setVf v y).stagingTags = s.stagingTags := rfl
@[simp] theorem setVf_mortarQ : (s.setVf v y).mortarQ = s.mortarQ := rfl
@[simp] theorem setVf_crownQ : (s.setVf v y).crownQ = s.crownQ := rfl
@[simp] theorem setVf_brimQ : (s.setVf v y).brimQ = s.brimQ := rfl
@[simp] theorem setVf_crownOwner : (s.setVf v y).crownOwner = s.crownOwner := rfl
@[simp] theorem setVf_crown : (s.setVf v y).crown = s.crown := rfl
@[simp] theorem setVf_broadcasts : (s.setVf v y).broadcasts = s.broadcasts := rfl
@[simp] theorem setVf_comms : (s.setVf v y).comms = s.comms := rfl
@[simp] theorem setVf_hodQ : (s.setVf v y).hodQ = s.hodQ := rfl
@[simp] theorem setVf_hodPtr : (s.setVf v y).hodPtr = s.hodPtr := rfl
@[simp] theorem setVf_nodeId : (s.setVf v y).nodeId = s.nodeId := rfl
@[simp] theorem setVf_routes : (s.setVf v y).routes = s.routes := rfl
@[simp] theorem setVf_links : (s.setVf v y).links = s.links := rfl
@[simp] theorem setVf_sent : (s.setVf v y).sent = s.sent := rfl
@[simp] theorem setVf_pnrp : (s.setVf v y).pnrp = s.pnrp := rfl
@[simp] theorem setVf_activates : (s.setVf v y).activates = s.activates := rfl
@[simp] theorem setVf_resets : (s.setVf v y).resets = s.resets := rfl
@[simp] theorem setVf_secnt : (s.setVf v y).secnt = s.secnt := rfl
@[simp] theorem setVf_monitors : (s.setVf v y).monitors = s.monitors := rfl
@[simp] theorem setVf_cxlDown : (s.setVf v y).cxlDown = s.cxlDown := rfl
@[simp] theorem setVf_hostRead : (s.setVf v y).hostRead = s.hostRead := rfl
@[simp] theorem setVf_doe : (s.setVf v y).doe = s.doe := rfl
@[simp] theorem setVf_boot : (s.setVf v y).boot = s.boot := rfl
@[simp] theorem setVf_poisonM : (s.setVf v y).poisonM = s.poisonM := rfl
@[simp] theorem setVf_stagingPoison : (s.setVf v y).stagingPoison = s.stagingPoison := rfl
@[simp] theorem setVf_linkTx : (s.setVf v y).linkTx = s.linkTx := rfl
@[simp] theorem setVf_linkSeen : (s.setVf v y).linkSeen = s.linkSeen := rfl

/-! ### A context of a tile -/

@[simp] theorem tile_setCtx_owner : (x.setCtx c k).owner = x.owner := rfl
@[simp] theorem tile_setCtx_tstate : (x.setCtx c k).tstate = x.tstate := rfl
@[simp] theorem tile_setCtx_crew : (x.setCtx c k).crew = x.crew := rfl
@[simp] theorem tile_setCtx_running : (x.setCtx c k).running = x.running := rfl
@[simp] theorem tile_setCtx_last : (x.setCtx c k).last = x.last := rfl
@[simp] theorem tile_setCtx_nextIssue : (x.setCtx c k).nextIssue = x.nextIssue := rfl
@[simp] theorem tile_setCtx_quantum : (x.setCtx c k).quantum = x.quantum := rfl
@[simp] theorem tile_setCtx_expired : (x.setCtx c k).expired = x.expired := rfl
@[simp] theorem tile_setCtx_ct : (x.setCtx c k).ct = x.ct := rfl
@[simp] theorem tile_setCtx_acc : (x.setCtx c k).acc = x.acc := rfl
@[simp] theorem tile_setCtx_spad : (x.setCtx c k).spad = x.spad := rfl
@[simp] theorem tile_setCtx_spadTag : (x.setCtx c k).spadTag = x.spadTag := rfl
@[simp] theorem tile_setCtx_spadPoison : (x.setCtx c k).spadPoison = x.spadPoison := rfl
@[simp] theorem tile_setCtx_l1 : (x.setCtx c k).l1 = x.l1 := rfl
@[simp] theorem tile_setCtx_sideLog : (x.setCtx c k).sideLog = x.sideLog := rfl
@[simp] theorem tile_setCtx_logSeq : (x.setCtx c k).logSeq = x.logSeq := rfl
@[simp] theorem tile_setCtx_evc : (x.setCtx c k).evc = x.evc := rfl
@[simp] theorem tile_setCtx_vf0 : (x.setCtx c k).vf0 = x.vf0 := rfl
@[simp] theorem tile_setCtx_mould : (x.setCtx c k).mould = x.mould := rfl
@[simp] theorem tile_setCtx_rings : (x.setCtx c k).rings = x.rings := rfl
@[simp] theorem tile_setCtx_mq : (x.setCtx c k).mq = x.mq := rfl
@[simp] theorem tile_setCtx_mqSeq : (x.setCtx c k).mqSeq = x.mqSeq := rfl
@[simp] theorem tile_setCtx_mrun : (x.setCtx c k).mrun = x.mrun := rfl
@[simp] theorem tile_setCtx_follows : (x.setCtx c k).follows = x.follows := rfl
@[simp] theorem tile_setCtx_cq : (x.setCtx c k).cq = x.cq := rfl
@[simp] theorem tile_setCtx_sigq : (x.setCtx c k).sigq = x.sigq := rfl
@[simp] theorem tile_setCtx_sumq : (x.setCtx c k).sumq = x.sumq := rfl
@[simp] theorem tile_setCtx_landings : (x.setCtx c k).landings = x.landings := rfl
@[simp] theorem tile_setCtx_probecfg : (x.setCtx c k).probecfg = x.probecfg := rfl
@[simp] theorem tile_setCtx_probe : (x.setCtx c k).probe = x.probe := rfl
@[simp] theorem tile_setCtx_pl : (x.setCtx c k).pl = x.pl := rfl
@[simp] theorem tile_setCtx_fills : (x.setCtx c k).fills = x.fills := rfl
@[simp] theorem tile_setCtx_matchks : (x.setCtx c k).matchks = x.matchks := rfl

@[simp] theorem tile_setCtx_ctx : (x.setCtx c k).ctx c = k := by simp [Tile.ctx, Tile.setCtx]

theorem tile_setCtx_ctx_other {d : Nat} (h : d ≠ c) : (x.setCtx c k).ctx d = x.ctx d :=
  get_set_other _ _ _ h

/-! ### Reads after writes -/

@[simp] theorem setTile_tile : (s.setTile t x).tile t = x := by simp [State.tile, State.setTile]

theorem setTile_tile_other {u : Nat} (h : u ≠ t) : (s.setTile t x).tile u = s.tile u := get_set_other _ _ _ h

@[simp] theorem setTile_vf (i : Nat) : (s.setTile t x).vf i = s.vf i := rfl
@[simp] theorem setTile_gang (g : Nat) : (s.setTile t x).gang g = s.gang g := rfl
@[simp] theorem setVf_vf : (s.setVf v y).vf v = y := by simp [State.vf, State.setVf]
@[simp] theorem setVf_tile (i : Nat) : (s.setVf v y).tile i = s.tile i := rfl
@[simp] theorem setVf_ctxAt (i j : Nat) : (s.setVf v y).ctxAt i j = s.ctxAt i j := rfl

@[simp] theorem setTile_ctxAt (d : Nat) : (s.setTile t x).ctxAt t d = x.ctx d := by simp [State.ctxAt]

@[simp] theorem setCtxAt_ctxAt : (s.setCtxAt t c k).ctxAt t c = k := by simp [State.setCtxAt]

theorem setCtxAt_ctxAt_other {d : Nat} (h : d ≠ c) : (s.setCtxAt t c k).ctxAt t d = s.ctxAt t d := by
  simp [State.setCtxAt, tile_setCtx_ctx_other _ _ _ h]; rfl

@[simp] theorem setCtxAt_running : ((s.setCtxAt t c k).tile t).running = (s.tile t).running := by
  simp [State.setCtxAt]

@[simp] theorem setCtx_curCtx : (s.setCtx k).curCtx = s.curCtx := by simp [State.curCtx, State.setCtx]

@[simp] theorem setCtx_ctx : (s.setCtx k).ctx = k := by simp [State.ctx, State.setCtx, State.curCtx]

@[simp] theorem tile_setCtx_setCtx (k' : Ctx) : (x.setCtx c k).setCtx c k' = x.setCtx c k' := by
  simp [Tile.setCtx, set_set]

@[simp] theorem setTile_setTile (x' : Tile) : (s.setTile t x).setTile t x' = s.setTile t x' := by
  simp [State.setTile, set_set]

@[simp] theorem setCtxAt_setCtxAt (k' : Ctx) : (s.setCtxAt t c k).setCtxAt t c k' = s.setCtxAt t c k' := by
  simp [State.setCtxAt]

@[simp] theorem setCtx_setCtx (k' : Ctx) : (s.setCtx k).setCtx k' = s.setCtx k' := by
  have h : (s.setCtx k).setCtx k' = (s.setCtx k).setCtxAt s.cur (s.setCtx k).curCtx k' := rfl
  rw [h, setCtx_curCtx]
  exact setCtxAt_setCtxAt s s.cur s.curCtx k k'

/-- A change of the current context alone changes no byte of memory, tag or scratchpad. -/
@[simp] theorem setTile_pocByte (a : Nat) : (s.setTile t x).pocByte a = s.pocByte a := rfl
@[simp] theorem setTile_pocTag (a : Nat) : (s.setTile t x).pocTag a = s.pocTag a := rfl

theorem setCtxAt_spadByte (u off : Nat) : (s.setCtxAt t c k).spadByte u off = s.spadByte u off := by
  by_cases h : u = t
  · subst h; simp [State.spadByte, State.setCtxAt]
  · simp [State.spadByte, State.setCtxAt, setTile_tile_other _ _ _ h]

@[simp] theorem setCtx_spadByte (u off : Nat) : (s.setCtx k).spadByte u off = s.spadByte u off :=
  setCtxAt_spadByte s s.cur s.curCtx k u off

end Sys2Proof.Laws
end

