-- ==== Sys2Proof/Laws/Memory.lean ====
section
/-! SUPPORT. The memory operations: that each keeps the canonical form, and what a byte reads after a write. -/
namespace Sys2Proof.Laws
open Sys2Proof.Machine

/-! ### Folds -/

/-- What every step of a fold keeps, the fold keeps. -/
theorem foldl_keeps {α β : Type} {P : β → Prop} (f : β → α → β) (hf : ∀ b a, P b → P (f b a)) (l : List α) {b : β}
    (h : P b) : P (l.foldl f b) := by
  induction l generalizing b with
  | nil => exact h
  | cons a t ih => exact ih (hf b a h)

/-! ### The canonical form -/

theorem memory_wf_iff (s : State) : Memory.wf s = true ↔
    Sparse.wf 0 s.mem = true ∧ Sparse.wf false s.tags = true ∧ Sparse.wf false s.poison = true ∧
      Sparse.wf none s.mdata = true ∧ Sparse.wf none s.mtags = true := by
  simp [Memory.wf, Bool.and_eq_true, and_assoc]

/-- The canonical form depends on the five memories alone. -/
theorem memory_wf_congr {s t : State} (hm : t.mem = s.mem) (ht : t.tags = s.tags) (hp : t.poison = s.poison)
    (hd : t.mdata = s.mdata) (hg : t.mtags = s.mtags) : Memory.wf t = Memory.wf s := by
  simp [Memory.wf, hm, ht, hp, hd, hg]

theorem poke_wf {s : State} (pa : Nat) (b : Byte) (h : Memory.wf s = true) : Memory.wf (s.poke pa b) = true := by
  rw [memory_wf_iff] at h ⊢
  obtain ⟨h1, h2, h3, h4, h5⟩ := h
  exact ⟨wf_set 0 pa b h1, h2, h3, wf_set none pa none h4, h5⟩

theorem pocPut_wf {s : State} (pa : Nat) (b : Byte) (h : Memory.wf s = true) : Memory.wf (s.pocPut pa b) = true := by
  rw [memory_wf_iff] at h ⊢
  obtain ⟨h1, h2, h3, h4, h5⟩ := h
  exact ⟨h1, h2, h3, wf_set none pa (some b) h4, h5⟩

theorem pocPutTag_wf {s : State} (u : Nat) (b : Bool) (h : Memory.wf s = true) : Memory.wf (s.pocPutTag u b) = true := by
  rw [memory_wf_iff] at h ⊢
  obtain ⟨h1, h2, h3, h4, h5⟩ := h
  exact ⟨h1, h2, h3, h4, wf_set none u (some b) h5⟩

theorem keepHist_wf (s : State) (d : Nat) (w : Word) : Memory.wf (s.keepHist d w) = Memory.wf s := rfl
theorem setTile_wf (s : State) (t : Nat) (x : Tile) : Memory.wf (s.setTile t x) = Memory.wf s := rfl
theorem setCtxAt_wf (s : State) (t c : Nat) (x : Ctx) : Memory.wf (s.setCtxAt t c x) = Memory.wf s := rfl
theorem takeFree_wf (s : State) : Memory.wf s.takeFree.2 = Memory.wf s := rfl

theorem mortarWriteBack_wf {s : State} (sec : Nat) (h : Memory.wf s = true) : Memory.wf (s.mortarWriteBack sec) = true := by
  unfold State.mortarWriteBack
  generalize List.range 64 = l
  generalize List.range 4 = l'
  refine foldl_keeps (P := fun s : State => Memory.wf s = true) _ ?_ _
    (foldl_keeps (P := fun s : State => Memory.wf s = true) _ ?_ _ h)
  · intro s i h
    split
    next b hb =>
      rw [memory_wf_iff] at h ⊢
      obtain ⟨h1, h2, h3, h4, h5⟩ := h
      exact ⟨h1, wf_set false _ b h2, h3, h4, wf_set none _ none h5⟩
    next => exact h
  · intro s i h
    split
    next b hb =>
      rw [memory_wf_iff] at h ⊢
      obtain ⟨h1, h2, h3, h4, h5⟩ := h
      exact ⟨wf_set 0 _ b h1, h2, h3, wf_set none _ none h4, h5⟩
    next => exact h

theorem mortarDrop_wf {s : State} (sec : Nat) (h : Memory.wf s = true) : Memory.wf (s.mortarDrop sec) = true := by
  unfold State.mortarDrop
  generalize List.range 64 = l
  generalize List.range 4 = l'
  refine foldl_keeps (P := fun s : State => Memory.wf s = true) _ ?_ _
    (foldl_keeps (P := fun s : State => Memory.wf s = true) _ ?_ _ h)
  · intro s i h
    rw [memory_wf_iff] at h ⊢
    obtain ⟨h1, h2, h3, h4, h5⟩ := h
    exact ⟨h1, h2, h3, h4, wf_set none _ none h5⟩
  · intro s i h
    rw [memory_wf_iff] at h ⊢
    obtain ⟨h1, h2, h3, h4, h5⟩ := h
    exact ⟨h1, h2, h3, wf_set none _ none h4, h5⟩

theorem mortarEvict_wf {s : State} (tag : MTag) (h : Memory.wf s = true) : Memory.wf (s.mortarEvict tag) = true := by
  unfold State.mortarEvict
  generalize s.mortar.filter _ = l
  exact foldl_keeps (P := fun s : State => Memory.wf s = true)
    (fun (s : State) (x : Nat × Option MortarSector) => (s.mortarWriteBack x.1).mortarDrop x.1)
    (fun _ x h => mortarDrop_wf x.1 (mortarWriteBack_wf x.1 h)) l h

theorem mortarTrim_wf (slice n k : Nat) : ∀ {s : State}, Memory.wf s = true → Memory.wf (s.mortarTrim slice n k) = true := by
  induction k with
  | zero => exact fun h => h
  | succ k ih =>
    intro s h
    unfold State.mortarTrim
    dsimp only
    split
    · exact h
    · split
      · exact ih (mortarEvict_wf _ (by rw [takeFree_wf]; exact h))
      · exact h

theorem mortarRoom_wf {s : State} (tag : MTag) (h : Memory.wf s = true) : Memory.wf (s.mortarRoom tag) = true := by
  unfold State.mortarRoom
  split
  · exact h
  · dsimp only
    split
    · exact h
    · exact mortarTrim_wf _ _ _ h

/-- Presence in Mortar keeps the form, whatever it evicts. -/
theorem mortarTouch_wf {s : State} (sec : Nat) (tag : MTag) (d : Bool) (h : Memory.wf s = true) :
    Memory.wf (s.mortarTouch sec tag d) = true := by
  unfold State.mortarTouch
  split
  · split
    · exact h
    · have h' := mortarRoom_wf tag (mortarDrop_wf sec (mortarWriteBack_wf sec h))
      generalize ((s.mortarWriteBack sec).mortarDrop sec).mortarRoom tag = r at h' ⊢
      exact h'
  · exact mortarRoom_wf tag h

theorem sectorStore_wf {s : State} (w : SectorWrite) (h : Memory.wf s = true) : Memory.wf (s.sectorStore w) = true := by
  unfold State.sectorStore
  split
  · exact h
  next pa x rest hw =>
    have h0 := mortarTouch_wf (pa / 64) w.tag true h
    have h1 := foldl_keeps (P := fun s : State => Memory.wf s = true) (fun s d => s.keepHist d (s.pocDword d))
      (fun s d h => h) ((w.cells.map (fun x => x.1 / 8)).eraseDups) h0
    have h2 := foldl_keeps (P := fun s : State => Memory.wf s = true) (fun s (x : Nat × Byte) => s.pocPut x.1 x.2)
      (fun s x h => pocPut_wf x.1 x.2 h) w.cells h1
    have h3 := foldl_keeps (P := fun s : State => Memory.wf s = true) (fun s (u : Nat × Bool) => s.pocPutTag u.1 u.2)
      (fun s u h => pocPutTag_wf u.1 u.2 h) w.units h2
    dsimp only
    generalize hg : List.foldl (fun s (u : Nat × Bool) => State.pocPutTag s u.1 u.2) _ _ = r at h3 ⊢
    split
    next b hb =>
      rw [memory_wf_iff] at h3 ⊢
      obtain ⟨h1, h2, h3, h4, h5⟩ := h3
      exact ⟨h1, h2, wf_set false (pa / 64) b h3, h4, h5⟩
    · exact h3

theorem sectorWrite_wf {s : State} (w : SectorWrite) (h : Memory.wf s = true) : Memory.wf (s.sectorWrite w) = true := by
  unfold State.sectorWrite
  split
  · exact h
  · split
    · exact h
    · exact sectorStore_wf w h

theorem pocWrite_wf {s : State} (tag : MTag) (b : Bool) (cells : List (Nat × Byte)) (h : Memory.wf s = true) :
    Memory.wf (s.pocWrite tag b cells) = true := sectorWrite_wf _ h

theorem l1WriteBack_wf {s : State} (t sec : Nat) (h : Memory.wf s = true) : Memory.wf (s.l1WriteBack t sec) = true := by
  unfold State.l1WriteBack
  split
  next =>
    split
    · exact h
    · exact sectorWrite_wf _ h
  next => exact h

theorem l1Flush_wf {s : State} (t sec : Nat) (h : Memory.wf s = true) : Memory.wf (s.l1Flush t sec) = true :=
  l1WriteBack_wf t sec h

theorem l1Room_wf {s : State} (t sec : Nat) (h : Memory.wf s = true) : Memory.wf (s.l1Room t sec) = true := by
  unfold State.l1Room
  dsimp only
  split
  · exact h
  · split
    · exact h
    · exact l1Flush_wf _ _ (l1Flush_wf _ _ (by rw [takeFree_wf]; exact h))

theorem l1Ensure_wf {s : State} (t sec : Nat) (tag : MTag) (h : Memory.wf s = true) : Memory.wf (s.l1Ensure t sec tag) = true := by
  unfold State.l1Ensure
  split
  · exact h
  · exact mortarTouch_wf sec tag false (l1Room_wf t sec h)

/-- A write of bytes to a tile's scratchpad keeps its canonical form. -/
theorem spadPut_wf {x : Tile} (off : Nat) (b : Byte) (h : x.spadWf = true) : (x.spadPut off b).spadWf = true := by
  simp only [Tile.spadWf, Tile.spadPut, Bool.and_eq_true] at h ⊢
  exact ⟨wf_set 0 off b h.1, wf_set false (off / 16) false h.2⟩

theorem spadCells_wf {x : Tile} (cells : List (Nat × Byte)) (h : x.spadWf = true) : (x.spadCells cells).spadWf = true :=
  foldl_keeps (P := fun x : Tile => x.spadWf = true) (fun x (y : Nat × Byte) => x.spadPut y.1 y.2)
    (fun _ y h => spadPut_wf y.1 y.2 h) cells h

/-! ### What a byte reads after a write -/

/-- A byte written at its home slice reads as written at its point of coherence, and every other byte as before. -/
theorem pocByte_pocPut (s : State) (pa a : Nat) (b : Byte) (hw : inWcBank pa = false) :
    (s.pocPut pa b).pocByte a = if a = pa then b else s.pocByte a := by
  simp only [State.pocPut, State.pocByte, get_set]
  by_cases ha : a = pa
  · simp [ha, hw]
  · simp only [ha, if_false]; rfl

/-- A byte put into a scratchpad reads as put, and every other byte as before. -/
theorem spadPut_get (x : Tile) (off o : Nat) (b : Byte) :
    Sparse.get 0 (x.spadPut off b).spad o = if o = off then b else Sparse.get 0 x.spad o := by
  simp [Tile.spadPut, get_set]

end Sys2Proof.Laws
end

