-- ==== Sys2Proof/Laws/PerInstr.lean ====
section
/-! SUPPORT. A family of lemmas, one per constructor: the word that the encoder gives fits its slot, and its opcode belongs to
the class of the slot's position (05 R102, R120). A device step has no word. -/
namespace Sys2Proof.Laws.WordFits
open Sys2Proof Sys2Proof.Machine

/-- The word of an instruction fits its slot and carries an opcode of the slot's class. -/
def Statement (i : Instr) : Prop :=
  ∀ p w, encodeSlot i = some (p, w) → w < 2 ^ (8 * slotBytes p) ∧ opClass (slotOpcode p w) = some (posClass p)

theorem of_word {i : Instr} {p : SlotPos} {w : Nat} (h : encodeSlot i = some (p, w)) (hw : w < 2 ^ (8 * slotBytes p))
    (hc : opClass (slotOpcode p w) = some (posClass p)) : Statement i := by
  intro q v hq
  rw [h] at hq
  cases hq
  exact ⟨hw, hc⟩

theorem of_none {i : Instr} (h : encodeSlot i = none) : Statement i := by
  intro q v hq
  rw [h] at hq
  cases hq

theorem s_word {i : Instr} {op : Nat} {f : SFields} (h : encodeSlot i = some (if f.inS1 then .s1 else .s0, packS op f))
    (ho : opClass op = some .s) (hop : op < 256) : Statement i := by
  have h1 := packS_op op f
  cases hb : f.inS1 <;> rw [hb] at h <;> refine of_word h ?_ ?_
  · show packS op f < 2 ^ 32; omega
  · simp only [slotOpcode, posClass, h1, ho, Bool.false_eq_true, if_false]
  · show packS op f < 2 ^ 32; omega
  · simp only [slotOpcode, posClass, h1, ho, if_true]

theorem shadow_word {i : Instr} {f : ShadowFields}
    (h : encodeSlot i = some (if f.inS1 then .s1 else .s0, packShadow f)) : Statement i := by
  obtain ⟨h1, -, -, -, -, h2⟩ := packShadow_form f
  cases hb : f.inS1 <;> rw [hb] at h <;> refine of_word h ?_ ?_
  · exact h2
  · simp only [slotOpcode, posClass, h1, Bool.false_eq_true, if_false]; decide
  · exact h2
  · simp only [slotOpcode, posClass, h1, if_true]; decide

theorem a_word {i : Instr} {op : Nat} {f : AFields} (h : encodeSlot i = some (.a, packA op f))
    (ho : opClass op = some .a) (hop : op < 256) : Statement i := by
  have h1 := packA_op op f
  refine of_word h ?_ ?_
  · show packA op f < 2 ^ 32; omega
  · simp only [slotOpcode, posClass, h1, ho]

theorem c_word {i : Instr} {op : Nat} {f : CFields} (h : encodeSlot i = some (.c, packC op f))
    (ho : opClass op = some .c) (hop : op < 256) : Statement i := by
  have h1 := packC_op op f
  refine of_word h ?_ ?_
  · show packC op f < 2 ^ 32; omega
  · simp only [slotOpcode, posClass, h1, ho]

theorem sysc_word {i : Instr} {sub : Nat} {f : SyscFields} (h : encodeSlot i = some (.c, packSysc sub f))
    (hs : sub < 64) : Statement i := by
  obtain ⟨h1, -, -, h2⟩ := packSysc_form hs f
  refine of_word h h2 ?_
  simp only [slotOpcode, posClass, h1]; decide

theorem v_word {i : Instr} {op : Nat} {f : VFields} (h : encodeSlot i = some (.v f.target, packV op f))
    (ho : opClass op = some .v) (hop : op < 256) : Statement i := by
  have h1 := (packV_form op f).1
  refine of_word h ?_ ?_
  · show packV op f < 2 ^ 48; omega
  · simp only [slotOpcode, posClass, h1, ho]

theorem m_word {i : Instr} {op : Nat} {f : MFields} (h : encodeSlot i = some (.m, packM op f))
    (ho : opClass op = some .m) (hop : op < 256) : Statement i := by
  have h1 := (packM_form op f).1
  refine of_word h ?_ ?_
  · show packM op f < 2 ^ 64; omega
  · simp only [slotOpcode, posClass, h1, ho]

theorem e_word {i : Instr} {op : Nat} {f : EFields} (h : encodeSlot i = some (.e, packE op f))
    (ho : opClass op = some .e) (hop : op < 256) : Statement i := by
  have h1 := packE_op op f
  refine of_word h ?_ ?_
  · show packE op f < 2 ^ 64; omega
  · simp only [slotOpcode, posClass, h1, ho]

theorem k_word {i : Instr} {op : Nat} {f : KFields} (h : encodeSlot i = some (.k, packK op f))
    (ho : opClass op = some .k) (hop : op < 256) : Statement i := by
  have h1 := packK_op op f
  refine of_word h ?_ ?_
  · show packK op f < 2 ^ 32; omega
  · simp only [slotOpcode, posClass, h1, ho]

/-! ### One lemma per constructor -/

theorem barc (f : CFields) : Statement (.barc f) := c_word rfl rfl (by decide)
theorem barg (f : CFields) : Statement (.barg f) := c_word rfl rfl (by decide)
theorem bargA (f : CFields) : Statement (.bargA f) := c_word rfl rfl (by decide)
theorem br (f : CFields) : Statement (.br f) := c_word rfl rfl (by decide)
theorem brc (f : CFields) : Statement (.brc f) := c_word rfl rfl (by decide)
theorem call (f : CFields) : Statement (.call f) := c_word rfl rfl (by decide)
theorem eret (f : CFields) : Statement (.eret f) := c_word rfl rfl (by decide)
theorem exit (f : CFields) : Statement (.exit f) := c_word rfl rfl (by decide)
theorem loop (f : CFields) : Statement (.loop f) := c_word rfl rfl (by decide)
theorem probe (f : CFields) : Statement (.probe f) := c_word rfl rfl (by decide)
theorem ret (f : CFields) : Statement (.ret f) := c_word rfl rfl (by decide)
theorem trap (f : CFields) : Statement (.trap f) := c_word rfl rfl (by decide)
theorem waitc (f : CFields) : Statement (.waitc f) := c_word rfl rfl (by decide)
theorem waitvEq (f : CFields) : Statement (.waitvEq f) := c_word rfl rfl (by decide)
theorem waitvNe (f : CFields) : Statement (.waitvNe f) := c_word rfl rfl (by decide)
theorem waitvGe (f : CFields) : Statement (.waitvGe f) := c_word rfl rfl (by decide)
theorem yield (f : CFields) : Statement (.yield f) := c_word rfl rfl (by decide)
theorem syscTsel (f : SyscFields) : Statement (.syscTsel f) := sysc_word rfl (by decide)
theorem syscCourse (f : SyscFields) : Statement (.syscCourse f) := sysc_word rfl (by decide)
theorem syscSave (f : SyscFields) : Statement (.syscSave f) := sysc_word rfl (by decide)
theorem syscRestore (f : SyscFields) : Statement (.syscRestore f) := sysc_word rfl (by decide)
theorem syscFlr (f : SyscFields) : Statement (.syscFlr f) := sysc_word rfl (by decide)
theorem syscWarm (f : SyscFields) : Statement (.syscWarm f) := sysc_word rfl (by decide)
theorem syscAssign (f : SyscFields) : Statement (.syscAssign f) := sysc_word rfl (by decide)
theorem syscVfcfg (f : SyscFields) : Statement (.syscVfcfg f) := sysc_word rfl (by decide)
theorem syscLqcfg (f : SyscFields) : Statement (.syscLqcfg f) := sysc_word rfl (by decide)
theorem syscWcset (f : SyscFields) : Statement (.syscWcset f) := sysc_word rfl (by decide)
theorem syscCtxtab (f : SyscFields) : Statement (.syscCtxtab f) := sysc_word rfl (by decide)
theorem syscObjtab (f : SyscFields) : Statement (.syscObjtab f) := sysc_word rfl (by decide)
theorem syscObjinv (f : SyscFields) : Statement (.syscObjinv f) := sysc_word rfl (by decide)
theorem syscTraparea (f : SyscFields) : Statement (.syscTraparea f) := sysc_word rfl (by decide)
theorem syscSupq (f : SyscFields) : Statement (.syscSupq f) := sysc_word rfl (by decide)
theorem syscWatch (f : SyscFields) : Statement (.syscWatch f) := sysc_word rfl (by decide)
theorem syscTwm (f : SyscFields) : Statement (.syscTwm f) := sysc_word rfl (by decide)
theorem syscPnrp (f : SyscFields) : Statement (.syscPnrp f) := sysc_word rfl (by decide)
theorem syscStage (f : SyscFields) : Statement (.syscStage f) := sysc_word rfl (by decide)
theorem syscComreg (f : SyscFields) : Statement (.syscComreg f) := sysc_word rfl (by decide)
theorem syscVcshare (f : SyscFields) : Statement (.syscVcshare f) := sysc_word rfl (by decide)
theorem syscNode (f : SyscFields) : Statement (.syscNode f) := sysc_word rfl (by decide)
theorem syscRoute (f : SyscFields) : Statement (.syscRoute f) := sysc_word rfl (by decide)
theorem syscCrownset (f : SyscFields) : Statement (.syscCrownset f) := sysc_word rfl (by decide)
theorem syscTjring (f : SyscFields) : Statement (.syscTjring f) := sysc_word rfl (by decide)
theorem syscSecnt (f : SyscFields) : Statement (.syscSecnt f) := sysc_word rfl (by decide)
theorem syscMonsel (f : SyscFields) : Statement (.syscMonsel f) := sysc_word rfl (by decide)
theorem blockCommandEnd (vf : Nat) : Statement (.blockCommandEnd vf) := of_none rfl
theorem add (f : SFields) : Statement (.add f) := s_word rfl rfl (by decide)
theorem addSat (f : SFields) : Statement (.addSat f) := s_word rfl rfl (by decide)
theorem and (f : SFields) : Statement (.and f) := s_word rfl rfl (by decide)
theorem andn (f : SFields) : Statement (.andn f) := s_word rfl rfl (by decide)
theorem clz (f : SFields) : Statement (.clz f) := s_word rfl rfl (by decide)
theorem cmpEq (f : SFields) : Statement (.cmpEq f) := s_word rfl rfl (by decide)
theorem cmpNe (f : SFields) : Statement (.cmpNe f) := s_word rfl rfl (by decide)
theorem cmpLt (f : SFields) : Statement (.cmpLt f) := s_word rfl rfl (by decide)
theorem cmpLe (f : SFields) : Statement (.cmpLe f) := s_word rfl rfl (by decide)
theorem cmpLtn (f : SFields) : Statement (.cmpLtn f) := s_word rfl rfl (by decide)
theorem cmpLen (f : SFields) : Statement (.cmpLen f) := s_word rfl rfl (by decide)
theorem cnt (f : SFields) : Statement (.cnt f) := s_word rfl rfl (by decide)
theorem crd (f : SFields) : Statement (.crd f) := s_word rfl rfl (by decide)
theorem ctz (f : SFields) : Statement (.ctz f) := s_word rfl rfl (by decide)
theorem cwr (f : SFields) : Statement (.cwr f) := s_word rfl rfl (by decide)
theorem div (f : SFields) : Statement (.div f) := s_word rfl rfl (by decide)
theorem divN (f : SFields) : Statement (.divN f) := s_word rfl rfl (by decide)
theorem divR (f : SFields) : Statement (.divR f) := s_word rfl rfl (by decide)
theorem divRn (f : SFields) : Statement (.divRn f) := s_word rfl rfl (by decide)
theorem ext (f : SFields) : Statement (.ext f) := s_word rfl rfl (by decide)
theorem fadd (f : SFields) : Statement (.fadd f) := s_word rfl rfl (by decide)
theorem fcmpEq (f : SFields) : Statement (.fcmpEq f) := s_word rfl rfl (by decide)
theorem fcmpLt (f : SFields) : Statement (.fcmpLt f) := s_word rfl rfl (by decide)
theorem fcmpLe (f : SFields) : Statement (.fcmpLe f) := s_word rfl rfl (by decide)
theorem fcmpUn (f : SFields) : Statement (.fcmpUn f) := s_word rfl rfl (by decide)
theorem fcvtFs (f : SFields) : Statement (.fcvtFs f) := s_word rfl rfl (by decide)
theorem fcvtSf (f : SFields) : Statement (.fcvtSf f) := s_word rfl rfl (by decide)
theorem fcvtFb (f : SFields) : Statement (.fcvtFb f) := s_word rfl rfl (by decide)
theorem fcvtBf (f : SFields) : Statement (.fcvtBf f) := s_word rfl rfl (by decide)
theorem ffma (f : SFields) : Statement (.ffma f) := s_word rfl rfl (by decide)
theorem fmax (f : SFields) : Statement (.fmax f) := s_word rfl rfl (by decide)
theorem fmin (f : SFields) : Statement (.fmin f) := s_word rfl rfl (by decide)
theorem fmul (f : SFields) : Statement (.fmul f) := s_word rfl rfl (by decide)
theorem ins (f : SFields) : Statement (.ins f) := s_word rfl rfl (by decide)
theorem max (f : SFields) : Statement (.max f) := s_word rfl rfl (by decide)
theorem maxN (f : SFields) : Statement (.maxN f) := s_word rfl rfl (by decide)
theorem min (f : SFields) : Statement (.min f) := s_word rfl rfl (by decide)
theorem minN (f : SFields) : Statement (.minN f) := s_word rfl rfl (by decide)
theorem mov (f : SFields) : Statement (.mov f) := s_word rfl rfl (by decide)
theorem movShadow (f : ShadowFields) : Statement (.movShadow f) := shadow_word rfl
theorem mul (f : SFields) : Statement (.mul f) := s_word rfl rfl (by decide)
theorem mulh (f : SFields) : Statement (.mulh f) := s_word rfl rfl (by decide)
theorem mulhN (f : SFields) : Statement (.mulhN f) := s_word rfl rfl (by decide)
theorem nrg (f : SFields) : Statement (.nrg f) := s_word rfl rfl (by decide)
theorem or (f : SFields) : Statement (.or f) := s_word rfl rfl (by decide)
theorem plog (f : SFields) : Statement (.plog f) := s_word rfl rfl (by decide)
theorem popc (f : SFields) : Statement (.popc f) := s_word rfl rfl (by decide)
theorem rnds (f : SFields) : Statement (.rnds f) := s_word rfl rfl (by decide)
theorem sar (f : SFields) : Statement (.sar f) := s_word rfl rfl (by decide)
theorem sel (f : SFields) : Statement (.sel f) := s_word rfl rfl (by decide)
theorem shl (f : SFields) : Statement (.shl f) := s_word rfl rfl (by decide)
theorem shr (f : SFields) : Statement (.shr f) := s_word rfl rfl (by decide)
theorem sub (f : SFields) : Statement (.sub f) := s_word rfl rfl (by decide)
theorem subSat (f : SFields) : Statement (.subSat f) := s_word rfl rfl (by decide)
theorem xor (f : SFields) : Statement (.xor f) := s_word rfl rfl (by decide)
theorem aadd (f : AFields) : Statement (.aadd f) := a_word rfl rfl (by decide)
theorem aand (f : AFields) : Statement (.aand f) := a_word rfl rfl (by decide)
theorem acas (f : AFields) : Statement (.acas f) := a_word rfl rfl (by decide)
theorem acasW (f : AFields) : Statement (.acasW f) := a_word rfl rfl (by decide)
theorem acq (f : AFields) : Statement (.acq f) := a_word rfl rfl (by decide)
theorem afaddF32 (f : AFields) : Statement (.afaddF32 f) := a_word rfl rfl (by decide)
theorem afaddBf16 (f : AFields) : Statement (.afaddBf16 f) := a_word rfl rfl (by decide)
theorem amax (f : AFields) : Statement (.amax f) := a_word rfl rfl (by decide)
theorem amaxN (f : AFields) : Statement (.amaxN f) := a_word rfl rfl (by decide)
theorem amin (f : AFields) : Statement (.amin f) := a_word rfl rfl (by decide)
theorem aminN (f : AFields) : Statement (.aminN f) := a_word rfl rfl (by decide)
theorem aor (f : AFields) : Statement (.aor f) := a_word rfl rfl (by decide)
theorem axchg (f : AFields) : Statement (.axchg f) := a_word rfl rfl (by decide)
theorem axor (f : AFields) : Statement (.axor f) := a_word rfl rfl (by decide)
theorem bind (f : AFields) : Statement (.bind f) := a_word rfl rfl (by decide)
theorem bindU (f : AFields) : Statement (.bindU f) := a_word rfl rfl (by decide)
theorem fence (f : AFields) : Statement (.fence f) := a_word rfl rfl (by decide)
theorem fenceLd (f : AFields) : Statement (.fenceLd f) := a_word rfl rfl (by decide)
theorem fenceSt (f : AFields) : Statement (.fenceSt f) := a_word rfl rfl (by decide)
theorem kchk (f : AFields) : Statement (.kchk f) := a_word rfl rfl (by decide)
theorem kder (f : AFields) : Statement (.kder f) := a_word rfl rfl (by decide)
theorem kderS (f : AFields) : Statement (.kderS f) := a_word rfl rfl (by decide)
theorem kinfo (f : AFields) : Statement (.kinfo f) := a_word rfl rfl (by decide)
theorem kld (f : AFields) : Statement (.kld f) := a_word rfl rfl (by decide)
theorem kst (f : AFields) : Statement (.kst f) := a_word rfl rfl (by decide)
theorem ld (f : AFields) : Statement (.ld f) := a_word rfl rfl (by decide)
theorem ldN (f : AFields) : Statement (.ldN f) := a_word rfl rfl (by decide)
theorem ldc (f : AFields) : Statement (.ldc f) := a_word rfl rfl (by decide)
theorem lea (f : AFields) : Statement (.lea f) := a_word rfl rfl (by decide)
theorem rel (f : AFields) : Statement (.rel f) := a_word rfl rfl (by decide)
theorem st (f : AFields) : Statement (.st f) := a_word rfl rfl (by decide)
theorem stm (f : AFields) : Statement (.stm f) := a_word rfl rfl (by decide)
theorem ldsA (f : KFields) : Statement (.ldsA f) := k_word rfl rfl (by decide)
theorem ldsB (f : KFields) : Statement (.ldsB f) := k_word rfl rfl (by decide)
theorem limm (imm : BitVec 24) : Statement (.limm imm) := by
  have := imm.isLt
  refine of_word rfl ?_ ?_
  · show 0xD8 * 2 ^ 24 + imm.toNat < 2 ^ 32; omega
  · have h : (0xD8 * 2 ^ 24 + imm.toNat) / 2 ^ 24 = 0xD8 := by omega
    simp only [slotOpcode, posClass, h]; decide
theorem skclr (f : VFields) : Statement (.skclr f) := v_word rfl rfl (by decide)
theorem skd (f : VFields) : Statement (.skd f) := v_word rfl rfl (by decide)
theorem skh (f : VFields) : Statement (.skh f) := v_word rfl rfl (by decide)
theorem skmrgQ (f : VFields) : Statement (.skmrgQ f) := v_word rfl rfl (by decide)
theorem skmrgH (f : VFields) : Statement (.skmrgH f) := v_word rfl rfl (by decide)
theorem skmrgD (f : VFields) : Statement (.skmrgD f) := v_word rfl rfl (by decide)
theorem skq (f : VFields) : Statement (.skq f) := v_word rfl rfl (by decide)
theorem skqryQ (f : VFields) : Statement (.skqryQ f) := v_word rfl rfl (by decide)
theorem skqryR (f : VFields) : Statement (.skqryR f) := v_word rfl rfl (by decide)
theorem skqryE (f : VFields) : Statement (.skqryE f) := v_word rfl rfl (by decide)
theorem vabs (f : VFields) : Statement (.vabs f) := v_word rfl rfl (by decide)
theorem vacc (f : VFields) : Statement (.vacc f) := v_word rfl rfl (by decide)
theorem vadd (f : VFields) : Statement (.vadd f) := v_word rfl rfl (by decide)
theorem vand (f : VFields) : Statement (.vand f) := v_word rfl rfl (by decide)
theorem vbcast (f : VFields) : Statement (.vbcast f) := v_word rfl rfl (by decide)
theorem vcmpEq (f : VFields) : Statement (.vcmpEq f) := v_word rfl rfl (by decide)
theorem vcmpNe (f : VFields) : Statement (.vcmpNe f) := v_word rfl rfl (by decide)
theorem vcmpLt (f : VFields) : Statement (.vcmpLt f) := v_word rfl rfl (by decide)
theorem vcmpLe (f : VFields) : Statement (.vcmpLe f) := v_word rfl rfl (by decide)
theorem vcmpUn (f : VFields) : Statement (.vcmpUn f) := v_word rfl rfl (by decide)
theorem vcvtRne (f : VFields) : Statement (.vcvtRne f) := v_word rfl rfl (by decide)
theorem vcvtRtz (f : VFields) : Statement (.vcvtRtz f) := v_word rfl rfl (by decide)
theorem vcvtRdn (f : VFields) : Statement (.vcvtRdn f) := v_word rfl rfl (by decide)
theorem vcvtRup (f : VFields) : Statement (.vcvtRup f) := v_word rfl rfl (by decide)
theorem vcvtSr (f : VFields) : Statement (.vcvtSr f) := v_word rfl rfl (by decide)
theorem vexp2 (f : VFields) : Statement (.vexp2 f) := v_word rfl rfl (by decide)
theorem vfma (f : VFields) : Statement (.vfma f) := v_word rfl rfl (by decide)
theorem vfmaS (f : VFields) : Statement (.vfmaS f) := v_word rfl rfl (by decide)
theorem vfmaN (f : VFields) : Statement (.vfmaN f) := v_word rfl rfl (by decide)
theorem vgath (f : VFields) : Statement (.vgath f) := v_word rfl rfl (by decide)
theorem vgathS (f : VFields) : Statement (.vgathS f) := v_word rfl rfl (by decide)
theorem viadd (f : VFields) : Statement (.viadd f) := v_word rfl rfl (by decide)
theorem viaddSat (f : VFields) : Statement (.viaddSat f) := v_word rfl rfl (by decide)
theorem viaddSub (f : VFields) : Statement (.viaddSub f) := v_word rfl rfl (by decide)
theorem viaddSubsat (f : VFields) : Statement (.viaddSubsat f) := v_word rfl rfl (by decide)
theorem vidx (f : VFields) : Statement (.vidx f) := v_word rfl rfl (by decide)
theorem vimul (f : VFields) : Statement (.vimul f) := v_word rfl rfl (by decide)
theorem vld (f : VFields) : Statement (.vld f) := v_word rfl rfl (by decide)
theorem vldSt (f : VFields) : Statement (.vldSt f) := v_word rfl rfl (by decide)
theorem vlog2 (f : VFields) : Statement (.vlog2 f) := v_word rfl rfl (by decide)
theorem vmax (f : VFields) : Statement (.vmax f) := v_word rfl rfl (by decide)
theorem vmin (f : VFields) : Statement (.vmin f) := v_word rfl rfl (by decide)
theorem vmov (f : VFields) : Statement (.vmov f) := v_word rfl rfl (by decide)
theorem vmul (f : VFields) : Statement (.vmul f) := v_word rfl rfl (by decide)
theorem vneg (f : VFields) : Statement (.vneg f) := v_word rfl rfl (by decide)
theorem vor (f : VFields) : Statement (.vor f) := v_word rfl rfl (by decide)
theorem vpart (f : VFields) : Statement (.vpart f) := v_word rfl rfl (by decide)
theorem vpkPp8 (f : VFields) : Statement (.vpkPp8 f) := v_word rfl rfl (by decide)
theorem vpkMx4 (f : VFields) : Statement (.vpkMx4 f) := v_word rfl rfl (by decide)
theorem vrcp (f : VFields) : Statement (.vrcp f) := v_word rfl rfl (by decide)
theorem vredAdd (f : VFields) : Statement (.vredAdd f) := v_word rfl rfl (by decide)
theorem vredMax (f : VFields) : Statement (.vredMax f) := v_word rfl rfl (by decide)
theorem vredMin (f : VFields) : Statement (.vredMin f) := v_word rfl rfl (by decide)
theorem vrsq (f : VFields) : Statement (.vrsq f) := v_word rfl rfl (by decide)
theorem vsar (f : VFields) : Statement (.vsar f) := v_word rfl rfl (by decide)
theorem vscanAdd (f : VFields) : Statement (.vscanAdd f) := v_word rfl rfl (by decide)
theorem vscanMax (f : VFields) : Statement (.vscanMax f) := v_word rfl rfl (by decide)
theorem vscat (f : VFields) : Statement (.vscat f) := v_word rfl rfl (by decide)
theorem vscatS (f : VFields) : Statement (.vscatS f) := v_word rfl rfl (by decide)
theorem vsel (f : VFields) : Statement (.vsel f) := v_word rfl rfl (by decide)
theorem vshfPerm (f : VFields) : Statement (.vshfPerm f) := v_word rfl rfl (by decide)
theorem vshfRot (f : VFields) : Statement (.vshfRot f) := v_word rfl rfl (by decide)
theorem vshl (f : VFields) : Statement (.vshl f) := v_word rfl rfl (by decide)
theorem vshr (f : VFields) : Statement (.vshr f) := v_word rfl rfl (by decide)
theorem vsig (f : VFields) : Statement (.vsig f) := v_word rfl rfl (by decide)
theorem vst (f : VFields) : Statement (.vst f) := v_word rfl rfl (by decide)
theorem vstSt (f : VFields) : Statement (.vstSt f) := v_word rfl rfl (by decide)
theorem vsub (f : VFields) : Statement (.vsub f) := v_word rfl rfl (by decide)
theorem vsum (f : VFields) : Statement (.vsum f) := v_word rfl rfl (by decide)
theorem vtanh (f : VFields) : Statement (.vtanh f) := v_word rfl rfl (by decide)
theorem vupkPp8 (f : VFields) : Statement (.vupkPp8 f) := v_word rfl rfl (by decide)
theorem vupkMx4 (f : VFields) : Statement (.vupkMx4 f) := v_word rfl rfl (by decide)
theorem vxcl (f : VFields) : Statement (.vxcl f) := v_word rfl rfl (by decide)
theorem vxor (f : VFields) : Statement (.vxor f) := v_word rfl rfl (by decide)
theorem mdrain (f : MFields) : Statement (.mdrain f) := m_word rfl rfl (by decide)
theorem mdrainCt (f : MFields) : Statement (.mdrainCt f) := m_word rfl rfl (by decide)
theorem mring (f : MFields) : Statement (.mring f) := m_word rfl rfl (by decide)
theorem mstep (f : MFields) : Statement (.mstep f) := m_word rfl rfl (by decide)
theorem mstepx (f : MFields) : Statement (.mstepx f) := m_word rfl rfl (by decide)
theorem mzero (f : MFields) : Statement (.mzero f) := m_word rfl rfl (by decide)
theorem clabt (f : EFields) : Statement (.clabt f) := e_word rfl rfl (by decide)
theorem clag (f : EFields) : Statement (.clag f) := e_word rfl rfl (by decide)
theorem clarSum (f : EFields) : Statement (.clarSum f) := e_word rfl rfl (by decide)
theorem clarMax (f : EFields) : Statement (.clarMax f) := e_word rfl rfl (by decide)
theorem clbar (f : EFields) : Statement (.clbar f) := e_word rfl rfl (by decide)
theorem clbc (f : EFields) : Statement (.clbc f) := e_word rfl rfl (by decide)
theorem clopt (f : EFields) : Statement (.clopt f) := e_word rfl rfl (by decide)
theorem clrsSum (f : EFields) : Statement (.clrsSum f) := e_word rfl rfl (by decide)
theorem clrsMax (f : EFields) : Statement (.clrsMax f) := e_word rfl rfl (by decide)
theorem clrsh (f : EFields) : Statement (.clrsh f) := e_word rfl rfl (by decide)
theorem clst (f : EFields) : Statement (.clst f) := e_word rfl rfl (by decide)
theorem cpy (f : EFields) : Statement (.cpy f) := e_word rfl rfl (by decide)
theorem cpyfA (f : EFields) : Statement (.cpyfA f) := e_word rfl rfl (by decide)
theorem cpyfB (f : EFields) : Statement (.cpyfB f) := e_word rfl rfl (by decide)
theorem cpyg (f : EFields) : Statement (.cpyg f) := e_word rfl rfl (by decide)
theorem cpys (f : EFields) : Statement (.cpys f) := e_word rfl rfl (by decide)
theorem cpyz (f : EFields) : Statement (.cpyz f) := e_word rfl rfl (by decide)
theorem cset (f : EFields) : Statement (.cset f) := e_word rfl rfl (by decide)
theorem mtfet (f : EFields) : Statement (.mtfet f) := e_word rfl rfl (by decide)
theorem mthalo (f : EFields) : Statement (.mthalo f) := e_word rfl rfl (by decide)
theorem mtinvWb (f : EFields) : Statement (.mtinvWb f) := e_word rfl rfl (by decide)
theorem mtinvDrop (f : EFields) : Statement (.mtinvDrop f) := e_word rfl rfl (by decide)
theorem mtlook (f : EFields) : Statement (.mtlook f) := e_word rfl rfl (by decide)
theorem mtpin (f : EFields) : Statement (.mtpin f) := e_word rfl rfl (by decide)
theorem mtreg (f : EFields) : Statement (.mtreg f) := e_word rfl rfl (by decide)
theorem mtrel (f : EFields) : Statement (.mtrel f) := e_word rfl rfl (by decide)
theorem sigcAdd (f : EFields) : Statement (.sigcAdd f) := e_word rfl rfl (by decide)
theorem sigcSet (f : EFields) : Statement (.sigcSet f) := e_word rfl rfl (by decide)
theorem tjclose (f : EFields) : Statement (.tjclose f) := e_word rfl rfl (by decide)
theorem tjopen (f : EFields) : Statement (.tjopen f) := e_word rfl rfl (by decide)
theorem tjrd (f : EFields) : Statement (.tjrd f) := e_word rfl rfl (by decide)
theorem tjrec (f : EFields) : Statement (.tjrec f) := e_word rfl rfl (by decide)
theorem wvadopt (f : EFields) : Statement (.wvadopt f) := e_word rfl rfl (by decide)
theorem wvdrop (f : EFields) : Statement (.wvdrop f) := e_word rfl rfl (by decide)
theorem wvhold (f : EFields) : Statement (.wvhold f) := e_word rfl rfl (by decide)
theorem wvpub (f : EFields) : Statement (.wvpub f) := e_word rfl rfl (by decide)
theorem wvqry (f : EFields) : Statement (.wvqry f) := e_word rfl rfl (by decide)
theorem mswap : Statement .mswap := of_none rfl
theorem eswap : Statement .eswap := of_none rfl
theorem resultWriteback (tile : Nat) (ctx : Nat) : Statement (.resultWriteback tile ctx) := of_none rfl
theorem returnPortDeliver (tile : Nat) (ctx : Nat) (port : Nat) : Statement (.returnPortDeliver tile ctx port) := of_none rfl
theorem lqtailWrite (vf : Nat) (part : Nat) (q : Nat) (tail : BitVec 32) : Statement (.lqtailWrite vf part q tail) := of_none rfl
theorem lqmarkWrite (vf : Nat) (part : Nat) (half : Nat) (value : Word) : Statement (.lqmarkWrite vf part half value) := of_none rfl
theorem registerWrite (fn : Nat) (offset : Nat) (value : Word) : Statement (.registerWrite fn offset value) := of_none rfl
theorem gangAdmit (vf : Nat) (part : Nat) : Statement (.gangAdmit vf part) := of_none rfl
theorem tileReservation (vf : Nat) (part : Nat) : Statement (.tileReservation vf part) := of_none rfl
theorem quantumExpiry (tile : Nat) : Statement (.quantumExpiry tile) := of_none rfl
theorem contextSwitch (tile : Nat) : Statement (.contextSwitch tile) := of_none rfl
theorem strandWake (tile : Nat) (ctx : Nat) : Statement (.strandWake tile ctx) := of_none rfl
theorem strandRetire (tile : Nat) (ctx : Nat) : Statement (.strandRetire tile ctx) := of_none rfl
theorem crewRetire (tile : Nat) : Statement (.crewRetire tile) := of_none rfl
theorem gangRetire (gang : Nat) : Statement (.gangRetire gang) := of_none rfl
theorem landingComplete (tile : Nat) (idx : Nat) : Statement (.landingComplete tile idx) := of_none rfl
theorem engineStop (tile : Nat) : Statement (.engineStop tile) := of_none rfl
theorem saveAreaWrite (tile : Nat) : Statement (.saveAreaWrite tile) := of_none rfl
theorem tileScrub (tile : Nat) : Statement (.tileScrub tile) := of_none rfl
theorem gangResume (gang : Nat) : Statement (.gangResume gang) := of_none rfl
theorem mouldReplay (tile : Nat) (ctx : Nat) : Statement (.mouldReplay tile ctx) := of_none rfl
theorem engineCauseTake (tile : Nat) (ctx : Nat) : Statement (.engineCauseTake tile ctx) := of_none rfl
theorem tileDisable (tile : Nat) : Statement (.tileDisable tile) := of_none rfl
theorem flrInitiate (vf : Nat) : Statement (.flrInitiate vf) := of_none rfl
theorem flrComplete (vf : Nat) : Statement (.flrComplete vf) := of_none rfl
theorem coldReset (image : Firmware) : Statement (.coldReset image) := of_none rfl
theorem warmReset (image : Firmware) : Statement (.warmReset image) := of_none rfl
theorem spdmRequest (msg : List Byte) : Statement (.spdmRequest msg) := of_none rfl
theorem hostMemWrite (addr : Nat) (data : List Byte) : Statement (.hostMemWrite addr data) := of_none rfl
theorem hostMemRead (addr : Nat) (len : Nat) : Statement (.hostMemRead addr len) := of_none rfl
theorem hostSnoop (addr : Nat) (invalidate : Bool) : Statement (.hostSnoop addr invalidate) := of_none rfl
theorem backInvalidateResponse (addr : Nat) : Statement (.backInvalidateResponse addr) := of_none rfl
theorem atsInvalidation (pasid : Nat) (vpage : Nat) (count : Nat) : Statement (.atsInvalidation pasid vpage count) := of_none rfl
theorem atsTranslationResponse (pasid : Nat) (vpage : Nat) (answer : Option PageMap) : Statement (.atsTranslationResponse pasid vpage answer) := of_none rfl
theorem priResponse (pasid : Nat) (vpage : Nat) (ok : Bool) : Statement (.priResponse pasid vpage ok) := of_none rfl
theorem sideLogReplay (tile : Nat) : Statement (.sideLogReplay tile) := of_none rfl
theorem cxlLinkDown (port : Nat) : Statement (.cxlLinkDown port) := of_none rfl
theorem clampTick : Statement .clampTick := of_none rfl
theorem l1SectorExpiry (tile : Nat) (sector : Nat) : Statement (.l1SectorExpiry tile sector) := of_none rfl
theorem backgroundScrub (site : ScrubSite) (outcome : Nat) : Statement (.backgroundScrub site outcome) := of_none rfl
theorem pageDemote (pasid : Nat) (vpage : Nat) (dest : Nat) : Statement (.pageDemote pasid vpage dest) := of_none rfl
theorem pagePromote (pasid : Nat) (vpage : Nat) (dest : Nat) : Statement (.pagePromote pasid vpage dest) := of_none rfl
theorem probeFillComplete (tile : Nat) (slot : Nat) : Statement (.probeFillComplete tile slot) := of_none rfl
theorem ringPush (tile : Nat) : Statement (.ringPush tile) := of_none rfl
theorem copyComplete (tile : Nat) : Statement (.copyComplete tile) := of_none rfl
theorem followOnEnqueue (tile : Nat) : Statement (.followOnEnqueue tile) := of_none rfl
theorem matrixKStep (tile : Nat) : Statement (.matrixKStep tile) := of_none rfl
theorem matrixReplay (tile : Nat) : Statement (.matrixReplay tile) := of_none rfl
theorem matrixComplete (tile : Nat) : Statement (.matrixComplete tile) := of_none rfl
theorem mortarComplete (vf : Nat) : Statement (.mortarComplete vf) := of_none rfl
theorem signalApply (tile : Nat) : Statement (.signalApply tile) := of_none rfl
theorem summaryUnitOperation (tile : Nat) : Statement (.summaryUnitOperation tile) := of_none rfl
theorem chunkBegin (die : Nat) : Statement (.chunkBegin die) := of_none rfl
theorem chunkLand (die : Nat) : Statement (.chunkLand die) := of_none rfl
theorem collectiveComplete (die : Nat) : Statement (.collectiveComplete die) := of_none rfl
theorem dataFlit (port : Nat) (flit : Flit) : Statement (.dataFlit port flit) := of_none rfl
theorem creditFlit (port : Nat) (vc : Nat) (count : Nat) : Statement (.creditFlit port vc count) := of_none rfl
theorem ackFlit (port : Nat) (ackseq : Nat) : Statement (.ackFlit port ackseq) := of_none rfl
theorem nakFlit (port : Nat) (ackseq : Nat) : Statement (.nakFlit port ackseq) := of_none rfl
theorem managementFlit (port : Nat) (flit : Flit) : Statement (.managementFlit port flit) := of_none rfl
theorem abortMessage (comm : Nat) : Statement (.abortMessage comm) := of_none rfl
theorem memberLost (comm : Nat) (rank : Nat) : Statement (.memberLost comm rank) := of_none rfl
theorem pauseRequest (comm : Nat) (rank : Nat) : Statement (.pauseRequest comm rank) := of_none rfl
theorem stopChunk (comm : Nat) (chunk : Nat) : Statement (.stopChunk comm chunk) := of_none rfl
theorem resumeBroadcast (comm : Nat) : Statement (.resumeBroadcast comm) := of_none rfl
theorem portRetrain (port : Nat) : Statement (.portRetrain port) := of_none rfl
theorem portDown (port : Nat) : Statement (.portDown port) := of_none rfl
theorem crownComplete : Statement .crownComplete := of_none rfl
theorem broadcastClaim (w : Nat) (comm : Nat) (ver : Nat) : Statement (.broadcastClaim w comm ver) := of_none rfl
theorem broadcastLand (w : Nat) : Statement (.broadcastLand w) := of_none rfl
theorem brimComplete : Statement .brimComplete := of_none rfl
theorem badTypeFlit (port : Nat) : Statement (.badTypeFlit port) := of_none rfl
theorem badCrcFlit (port : Nat) : Statement (.badCrcFlit port) := of_none rfl
theorem retrainComplete (port : Nat) : Statement (.retrainComplete port) := of_none rfl
theorem cxlLinkUp (port : Nat) : Statement (.cxlLinkUp port) := of_none rfl
theorem pageTableCommit (pasid : Nat) (vpage : Nat) (ok : Bool) : Statement (.pageTableCommit pasid vpage ok) := of_none rfl
theorem emptyBundle : Statement .emptyBundle := of_none rfl
theorem unassignedCode (pos : Nat) (word : BitVec 64) : Statement (.unassignedCode pos word) := of_none rfl

end Sys2Proof.Laws.WordFits
end

