-- ==== Sys2Proof/Laws/Results.lean ====
section
/-! SUPPORT. What the shared result operations do: `emit` and the forms of a result that the slots give it. -/
namespace Sys2Proof.Laws
open Sys2Proof Sys2Proof.Machine

/-- A pending result joins those of the strand: alone or merged with an entry of the same bundle. -/
theorem ctx_emit_owes (c : Ctx) (p : Pending) (d : Nat) (w : Wr) :
    (c.emit p).Owes d w ↔ c.Owes d w ∨ (d = p.due ∧ w ∈ p.writes) := by
  unfold Ctx.emit
  split
  next q hq =>
    have hmem := List.mem_of_find?_eq_some hq
    have hprop := List.find?_some hq
    simp only [Bool.and_eq_true, beq_iff_eq, bne_iff_ne] at hprop
    obtain ⟨⟨⟨⟨⟨hd, hc⟩, hcl⟩, hi⟩, hu⟩, -⟩ := hprop
    simp only [Ctx.Owes, List.mem_map]
    constructor
    · rintro ⟨_, ⟨r, hr, rfl⟩, hdue, hw⟩
      split at hw
      next h =>
        rw [if_pos h] at hdue
        simp only [Bool.and_eq_true, beq_iff_eq] at h
        rcases List.mem_append.mp hw with hw | hw
        · exact .inl ⟨r, hr, hdue, hw⟩
        · exact .inr ⟨by rw [← hdue]; exact h.1.1.1.1, hw⟩
      next h => rw [if_neg h] at hdue; exact .inl ⟨r, hr, hdue, hw⟩
    · rintro (⟨r, hr, hdue, hw⟩ | ⟨hdue, hw⟩)
      · refine ⟨_, ⟨r, hr, rfl⟩, ?_, ?_⟩
        · split <;> exact hdue
        · split
          · exact List.mem_append_left _ hw
          · exact hw
      · refine ⟨_, ⟨q, hmem, rfl⟩, ?_, ?_⟩
        · rw [if_pos (by simp [hd, hc, hcl, hi, hu])]; simp [hd, hdue]
        · rw [if_pos (by simp [hd, hc, hcl, hi, hu])]; exact List.mem_append_right _ hw
  next =>
    simp only [Ctx.Owes, List.mem_append, List.mem_singleton]
    constructor
    · rintro ⟨r, hr | rfl, hdue, hw⟩
      · exact .inl ⟨r, hr, hdue, hw⟩
      · exact .inr ⟨hdue.symm, hw⟩
    · rintro (⟨r, hr, hdue, hw⟩ | ⟨hdue, hw⟩)
      · exact ⟨r, .inl hr, hdue, hw⟩
      · exact ⟨p, .inr rfl, hdue.symm, hw⟩

theorem ctx_emit_frame (c : Ctx) (p : Pending) : c.emit p = { c with pending := (c.emit p).pending } := by
  unfold Ctx.emit
  split <;> rfl

/-- A result of latency n. -/
theorem emit_owed (s : State) (cls : MouldClass) (cl slot n : Nat) (ws : List Wr) :
    Owed s (s.clk + n) (fun w => w ∈ ws) (s.emit cls cl slot n ws) := by
  unfold State.emit
  constructor
  · simp only [setCtx_ctx]
    rw [← ctx_emit_frame]
  · intro d w
    simp only [setCtx_ctx]
    exact ctx_emit_owes _ _ d w

theorem owed_congr {s t : State} {due : Nat} {W V : Wr → Prop} (h : Owed s due W t) (hw : ∀ w, W w ↔ V w) :
    Owed s due V t := ⟨h.only, fun d w => by rw [h.owes, hw]⟩

/-- The members of a group, the latch and the flags. -/
theorem mem_groupWr (nw : BitVec 1) (dst latch : Nat) (rs : List IRes) (w : Wr) :
    w ∈ groupWr nw dst latch rs ↔
      (nw = 0 ∧ ∃ i v, (rs.map (fun r => r.value))[i]? = some v ∧ w = .sreg (dst + i) v) ∨
        w = .latch latch ((rs.map (fun r => r.value)).headD 0) ∨
        (rs.foldl (fun a r => a ||| r.flags) 0 ≠ 0 ∧ w = .satf (rs.foldl (fun a r => a ||| r.flags) 0)) := by
  have hhead : (rs.headD { value := 0 }).value = (rs.map (fun r => r.value)).headD 0 := by cases rs <;> rfl
  have hfl : (rs.map (fun r => r.flags)).foldl (fun a b => a ||| b) 0 = rs.foldl (fun a r => a ||| r.flags) 0 := by
    rw [List.foldl_map]
  have hz : w ∈ rs.zipIdx.map (fun x => Wr.sreg (dst + x.2) x.1.value) ↔
      ∃ i v, (rs.map (fun r => r.value))[i]? = some v ∧ w = .sreg (dst + i) v := by
    simp only [List.mem_map, Prod.exists, List.mem_zipIdx_iff_getElem?, List.getElem?_map, Option.map_eq_some_iff]
    constructor
    · rintro ⟨r, i, hr, rfl⟩; exact ⟨i, r.value, ⟨r, hr, rfl⟩, rfl⟩
    · rintro ⟨i, v, ⟨r, hr, rfl⟩, rfl⟩; exact ⟨r, i, hr, rfl⟩
  unfold groupWr flagWr
  rw [hfl, hhead]
  generalize rs.foldl (fun a r => a ||| r.flags) 0 = fl
  simp only [List.mem_append, List.mem_singleton]
  by_cases hn : nw = 0 <;> by_cases hf : fl = 0 <;> simp [hn, hf, hz, or_assoc]

theorem sEmit_group (s : State) (op : Nat) (f : SFields) (n latch : Nat) (rs : List IRes) :
    ScalarResult s f n latch (rs.map (fun r => r.value)) (rs.foldl (fun a r => a ||| r.flags) 0)
      (s.sEmit op f n (groupWr f.nw f.dst.toNat latch rs)) :=
  owed_congr (emit_owed s .s 0 _ n _) (fun w => mem_groupWr f.nw f.dst.toNat latch rs w)

theorem sEmit_pred (s : State) (op : Nat) (f : SFields) (n latch : Nat) (b : Bool) :
    PredicateResult s f n latch b (s.sEmit op f n (predWr f.nw (f.dst.toNat % 16) latch b)) :=
  owed_congr (emit_owed s .s 0 _ n _) (fun w => by
    unfold predWr boolWord
    by_cases hn : f.nw = 0 <;> simp [hn])

/-! ### The scalar slots (04 R87, R88) -/

/-- A binary operation on readable sources: its results element by element, and their flags together. -/
theorem sBinary_ok {s r : State} {f : SFields} {A B : List Word} (op n latch : Nat) (fn : Word → Word → IRes)
    (h : s.sSources f readSrcB = .ok (A, B, r)) :
    ∃ t, s.sBinary op f n latch fn = .ok t ∧
      ScalarResult r f n latch ((List.zipWith fn A B).map (fun r => r.value))
        ((List.zipWith fn A B).foldl (fun a r => a ||| r.flags) 0) t :=
  ⟨_, by unfold State.sBinary; rw [h]; rfl, sEmit_group r op f n latch _⟩

/-- The same for the scalar FP unit. -/
theorem sBinaryFp_ok {s r : State} {f : SFields} {A B : List Word} (op : Nat) (fn : Word → Word → IRes)
    (h : s.sSources f readSrcBFp = .ok (A, B, r)) :
    ∃ t, s.sBinaryFp op f fn = .ok t ∧
      ScalarResult r f 4 4 ((List.zipWith fn A B).map (fun r => r.value))
        ((List.zipWith fn A B).foldl (fun a r => a ||| r.flags) 0) t :=
  ⟨_, by unfold State.sBinaryFp; rw [h]; rfl, sEmit_group r op f 4 4 _⟩

/-- A unary operation on a readable source. -/
theorem sUnary_ok {s : State} {c : Ctx} {f : SFields} {A : List Word} (op n latch : Nat) (fn : Word → IRes)
    (h : readCode s.ctx f.srcA.toNat (groupSize f.width) = .ok (A, c)) :
    ∃ t, s.sUnary op f n latch fn = .ok t ∧
      ScalarResult (s.setCtx c) f n latch ((A.map fn).map (fun r => r.value))
        ((A.map fn).foldl (fun a r => a ||| r.flags) 0) t :=
  ⟨_, by unfold State.sUnary; rw [h]; rfl, sEmit_group (s.setCtx c) op f n latch _⟩

/-- A compare on readable sources. -/
theorem sCompare_ok {s r : State} {f : SFields} {A B : List Word} (op n latch : Nat)
    {readB : Ctx → BitVec 8 → Nat → Res (List Word × Ctx)} (fn : Word → Word → Bool)
    (h : s.sSources f readB = .ok (A, B, r)) :
    ∃ t, s.sCompare op f n latch readB fn = .ok t ∧ PredicateResult r f n latch (fn (A.headD 0) (B.headD 0)) t :=
  ⟨_, by unfold State.sCompare; rw [h]; rfl, sEmit_pred r op f n latch _⟩

/-- The CSR unit delivers one value. -/
theorem sCsrUnit_result (s : State) (op : Nat) (f : SFields) (v : Word) :
    ScalarResult s f 2 7 [v] 0 (s.sCsrUnit op f v) := by
  simpa [State.sCsrUnit] using sEmit_group s op f 2 7 [{ value := v }]

/-- Results without flags leave none. -/
theorem flags_zero {rs : List IRes} (h : ∀ r ∈ rs, r.flags = 0) : rs.foldl (fun a r => a ||| r.flags) 0 = 0 := by
  suffices ∀ rs : List IRes, (∀ r ∈ rs, r.flags = 0) → ∀ x : BitVec 4, rs.foldl (fun a r => a ||| r.flags) x = x from
    this rs h 0
  intro rs
  induction rs with
  | nil => intros; rfl
  | cons r t ih =>
    intro h x
    rw [List.foldl_cons, h r (by simp), ih (fun r hr => h r (by simp [hr]))]
    simp

/-! ### How a slot's outcome becomes the next state -/

@[simp] theorem settle_ok (s t : State) : settle s (.ok t) = .next t := rfl
@[simp] theorem settle_trap (s : State) (k : Cause) (i : Word) : settle s (.trap k i) = .next (s.takeTrap k i) := rfl
@[simp] theorem settle_block (s : State) (w : BlockWhy) :
    settle s (.block w) = .next ((s.block s.cur s.curCtx w).episodes s.cur) := rfl

@[simp] theorem bind_ok {α β : Type} (a : α) (k : α → Res β) : (Res.ok a).bind k = k a := rfl
@[simp] theorem bind_trap {α β : Type} (c : Cause) (i : Word) (k : α → Res β) : (Res.trap c i : Res α).bind k = .trap c i := rfl
@[simp] theorem bind_block {α β : Type} (w : BlockWhy) (k : α → Res β) : (Res.block w : Res α).bind k = .block w := rfl
@[simp] theorem need_true (c : Cause) (i : Word) : Res.need true c i = .ok () := rfl
@[simp] theorem need_false (c : Cause) (i : Word) : Res.need false c i = .trap c i := rfl

/-- A chain of steps goes on only where its first step did. -/
theorem bind_eq_ok {α β : Type} {r : Res α} {k : α → Res β} {b : β} :
    r.bind k = .ok b ↔ ∃ a, r = .ok a ∧ k a = .ok b := by
  cases r <;> simp [Res.bind]

end Sys2Proof.Laws
end

