-- ==== Sys2Proof/Tests/Slice0.lean ====
section
/-! SUPPORT. Tests: ill-formed terms that WellFormed refuses, words written out from the encodings of 05 and the examples of
the instruction reference (17 to 20) with what they decode to, states that meet the hypotheses of the statements, and single
steps with the results that the examples of spec/ give. -/
namespace Sys2Proof.Tests
open Sys2Proof Sys2Proof.Machine
set_option Elab.async false

/-! ### Small states -/

/-- One strand of one crew on tile 0, its context 0 running, and nothing else. -/
def base : State := State.reset.loadStrand

/-- The same with the strand's context as given. -/
def withCtx (c : Ctx) : State := base.setCtxAt 0 0 { c with run := .running }

/-- The same as a supervisor strand of the physical function (mark 2) or of none (mark 0). -/
def marked (m : Nat) (s : State) : State :=
  { s with gangs := s.gangs.map (fun x => (x.1, x.2.map (fun g => { g with mark := m }))) }

/-- dst 4, sources s5 and s6. -/
def sf : SFields := { inS1 := false, dst := 4, nw := 0, width := 0, srcA := 5, srcB := 6 }

def regs (l : List (Nat × Word)) : Ctx := l.foldl (fun c x => c.writeS x.1 x.2) {}

def cOff : CFields := { pred := 0, sense := 1, opnd := 0 }
def cOn (opnd : BitVec 19) : CFields := { pred := 0, sense := 0, opnd }

/-! ### Witnesses: states that meet the hypotheses of the statements -/

theorem test_witness_ScalarSourceForms :
    (∃ c : Ctx, ∃ e, isPort 3 = true ∧ c.portHead 3 = some e ∧ e.failed = none ∧ e.kld = none ∧ e.arrived = true) ∧
      (isPort 3 = true ∧ ({} : Ctx).portHead 3 = none) ∧ isPort 0 = false :=
  ⟨⟨({} : Ctx).setPort 3 [{ value := 7, arrived := true }], _, rfl, rfl, rfl, rfl, rfl⟩, by decide, by decide⟩

theorem of_sources {α β γ : Type} [DecidableEq α] [DecidableEq β] {r : Res (α × β × γ)} (x : α) (y : β)
    (h : (match r with | .ok z => decide (z.1 = x ∧ z.2.1 = y) | _ => false) = true) : ∃ z, r = .ok (x, y, z) := by
  match r, h with
  | .ok (a, b, c), h =>
    simp only [decide_eq_true_eq] at h
    exact ⟨c, by rw [h.1, h.2]⟩

theorem of_source {α γ : Type} [DecidableEq α] {r : Res (α × γ)} (x : α)
    (h : (match r with | .ok z => decide (z.1 = x) | _ => false) = true) : ∃ z, r = .ok (x, z) := by
  match r, h with
  | .ok (a, c), h =>
    simp only [decide_eq_true_eq] at h
    exact ⟨c, by rw [h]⟩

theorem of_ok {α : Type} {r : Res α} (h : (match r with | .ok _ => true | _ => false) = true) : ∃ z, r = .ok z := by
  match r, h with
  | .ok a, _ => exact ⟨a, rfl⟩

theorem of_next {o : Host.Outcome State Fault Refusal} (h : (match o with | .next _ => true | _ => false) = true) :
    ∃ t, o = .next t := by
  match o, h with
  | .next a, _ => exact ⟨a, rfl⟩

/-- The sources of ScalarIntegerResults, ScalarShifts, ScalarMaxMin and the integer clauses of ScalarConditions and
ScalarDivisionAndBits: a count of 64, a shift by 2^64 - 1, a group, and for the divides a divisor that is 0 and one that is not. -/
theorem test_witness_ScalarSources :
    (∃ r, (withCtx (regs [(5, 7), (6, 64)])).sSources sf readSrcB = .ok ([7], [64], r)) ∧
    (∃ r, (withCtx (regs [(5, 7)])).sSources { sf with srcB := 0xFF } readSrcB = .ok ([7], [0xFFFFFFFFFFFFFFFF], r)) ∧
    (∃ r, (withCtx (regs [(4, 1), (5, 2), (6, 3), (7, 4)])).sSources { sf with width := 1, srcA := 4 } readSrcB =
      .ok ([1, 2], [3, 4], r)) ∧
    (∃ r, (withCtx (regs [(5, 7)])).sSources sf readSrcB = .ok ([7], [0], r)) ∧
    (∃ r, (withCtx (regs [(5, 7)])).sSources sf readSrcBFp = .ok ([7], [0], r)) :=
  ⟨of_sources _ _ (by decide +kernel), of_sources _ _ (by decide +kernel), of_sources _ _ (by decide +kernel),
    of_sources _ _ (by decide +kernel), of_sources _ _ (by decide +kernel)⟩

theorem test_witness_ScalarUnary :
    ∃ c, readCode (withCtx (regs [(5, 7)])).ctx sf.srcA.toNat (groupSize sf.width) = .ok ([7], c) :=
  of_source _ (by decide +kernel)

theorem test_witness_CsrUnitShadowsAndScales :
    (∃ c, readCode base.ctx sf.srcA.toNat 1 = .ok ([0], c)) ∧
    cwrRefuses 0x0C (base.tile 0).crewSpad 0 = false ∧ cwrRefuses 0x0C (base.tile 0).crewSpad 7 = true ∧
    (let f : KFields := { sc := 3, base := 4, disp := 0 }
     (base.ctx.readS f.base.toNat).toNat % 2 ^ 48 + 64 * f.disp.toNat + 1536 ≤ (base.tile base.cur).crewSpad ∧
       (base.tile base.cur).spadPoison = []) :=
  ⟨of_source _ (by decide +kernel), by decide +kernel, by decide +kernel, by decide +kernel⟩

theorem test_witness_ResultsLandInOrder :
    let p : Pending := { due := 5, cls := .s, cluster := 0, slot := 0, ipc := 0, writes := [.sreg 4 1] }
    let q : Pending := { due := 6, cls := .s, cluster := 0, slot := 0, ipc := 64, writes := [.sreg 4 2] }
    let s := { withCtx { pending := [p, q] } with clk := 6 }
    (s.ctxAt 0 0).pending = [p, q] ∧ p.due ≤ s.clk ∧ q.due ≤ s.clk ∧
      ∀ r ∈ ({ withCtx { pending := [p, q] } with clk := 4 }.ctxAt 0 0).pending, 4 < r.due := by decide +kernel

theorem test_witness_ResultsAsElements :
    ([1, 2, 3, 4, 5, 6, 7, 8, 9, 10, 11, 12, 13, 14, 15, 16] : List Nat).length = 1 * (512 / 32) := by decide

theorem test_witness_HeaderAndUnassigned :
    (¬ (2 = 1 ∧ (0xFF000000#64).toNat / 2 ^ 24 = 0x0C)) ∧
    (base.curMark ≠ 0 ∧ guardHolds base.ctx (BitVec.ofNat 4 ((0x0C03E000#64).toNat / 2 ^ 20))
      (BitVec.ofNat 1 ((0x0C03E000#64).toNat / 2 ^ 19)) = true) ∧
    ¬ guardTrue base cOff.pred cOff.sense := by
  unfold guardTrue; decide +kernel

theorem test_witness_TransfersOfControl :
    guardTrue base (cOn 4).pred (cOn 4).sense ∧ base.ctx.callStack = [] ∧
      (withCtx { callStack := List.range 16 }).ctx.callStack.length = 16 ∧
      (withCtx { callStack := List.range 15 }).ctx.callStack = 0 :: (List.range 15).tail := by
  unfold guardTrue; decide +kernel

/-! ### A strand with memory -/

/-- The scratchpad as a region of 4 KiB, a region of an object of 64 KiB at virtual address 0x10000, and one over a sync-object
dword of it, each with every right. -/
def spadCap : TCap := mkCap 0 0xFFFFFF 63 0 0 4096
def memCap : TCap := mkCap 1 0 63 0 0 0x10000

/-- The object; its first page, at physical page 0x10, is mapped, and its second is not. -/
def obj : ObjEntry :=
  { vabase := 0x10000, len := 0x10000, gen := 1, tid := 0, pasid := 0, vf := 0, tier := 0, nodem := false, valid := true }

def withMem (c : Ctx) : State :=
  let s := withCtx { c with k := if c.k.isEmpty then [(1, spadCap), (2, memCap)] else c.k }
  { s.setVf 0 { s.vf 0 with objCount := 1, objs := [(0, some obj)] } with
    atc := Sparse.set none s.atc (atcKey 0 0x10) (some { map := { ppage := 0x10, writable := true } }) }

/-- Address register s2, data register s6. -/
def af (k : BitVec 5) (size : BitVec 2) : AFields := { data := 6, order := 0, scope := 0, k, s := 2, size }

/-- The word of WAITV of size 64 with capability k, offset s2 and value s6. -/
def waitOpnd (k : Nat) : BitVec 19 := BitVec.ofNat 19 (k * 2 ^ 14 + 2 * 2 ^ 8 + 6 * 2 ^ 2 + 3)

theorem of_place {r : Option (List Byte × State)} (bs : List Byte)
    (h : (match r with | some z => decide (z.1 = bs) | none => false) = true) : ∃ z, r = some (bs, z) := by
  match r, h with
  | some (a, z), h =>
    simp only [decide_eq_true_eq] at h
    exact ⟨z, by rw [h]⟩

theorem test_witness_LoopsRepeatTheBody :
    (guardTrue base (cOn 0xA010).pred (cOn 0xA010).sense ∧ base.ctx.readS 5 = 0 ∧
      ((withCtx { regs [(5, 1)] with loops := List.replicate 4 { start := 0, stop := 0, rem := 1 } }).ctx.readS
        ((0xA010#19).toNat / 2 ^ 13)).toNat % 2 ^ 32 ≠ 0) ∧
    (let c : Ctx := { pc := 64, loops := [{ start := 0, stop := 64, rem := 2 }, { start := 0, stop := 64, rem := 1 }] }
     c.npc = none ∧ c.loops = { start := 0, stop := 64, rem := 2 } :: c.loops.tail) := by
  unfold guardTrue; decide +kernel

/-- Two strands of one crew, the other one at its BARC or not. -/
def twoStrands (c d : Ctx) : State :=
  (withCtx c).setTile 0 { (withCtx c).tile 0 with
    crew := ((withCtx c).tile 0).crew.map (fun w => { w with strands := 2 })
    ctxs := [(0, { c with run := .running }), (1, d)] }

/-- Two crews of one gang, on tiles 0 and 1. -/
def twoCrews : State :=
  let s := base.setTile 1 { owner := some 0, crew := ((base.tile 0).crew.map (fun w => { w with idx := 1 }))
                            ctxs := [(0, { run := .ready })] }
  { s with gangs := s.gangs.map (fun x => (x.1, x.2.map (fun g => { g with tiles := [some 0, some 1] }))) }

theorem test_witness_Barriers :
    (guardTrue base (cOn 0).pred (cOn 0).sense ∧ base.ctx.handler = false ∧ base.ctx.relCrew = false ∧
      (withCtx { relCrew := true }).ctx.relCrew = true ∧ (withCtx { handler := true }).ctx.handler = true) ∧
    (let s := twoStrands {} { run := .ready }
     (s.tile s.cur).settled s.curCtx = true ∧ s.ctx.participates = true ∧ s.curCtx < 4 ∧ (s.ctxAt s.cur 1).participates = true ∧
       (s.ctxAt s.cur 1).atBarc = false) ∧
    (let s := twoStrands {} { run := .blocked .barc }
     s.ctx.participates = true ∧ (s.ctxAt s.cur 1).participates = true ∧ (s.ctxAt s.cur 1).atBarc = true) ∧
    ((twoCrews.tile 0).crew.isSome = true ∧ (twoCrews.gang 0).isSome = true ∧
      (twoCrews.gang 0).any (fun g => g.gbar.isSome && decide (1 < g.tiles.length) && !g.retired.contains 1 &&
        g.tiles.getD 1 none == some 1) = true ∧
      twoCrews.ctx.bargA = none ∧ twoCrews.ctx.heldBack = false ∧ (twoCrews.tile 0).sideLog = [] ∧ (twoCrews.tile 0).sumq = [] ∧ (twoCrews.tile 0).l1 = [] ∧
      (twoCrews.ctxAt 1 0).participates = true ∧ (twoCrews.ctxAt 1 0).atBarg = false) ∧
    ((withCtx { relGang := true }).ctx.relGang = true ∧ (withCtx { relGang := true }).ctx.owesRead = false ∧
      ((withCtx { handler := true }).gang 0).any (fun g => g.gbar.isSome) = true) ∧
    (let s : State := { base with gangs := base.gangs.map (fun x => (x.1, x.2.map (fun g => { g with gbar := none }))) }
     (s.gang 0).any (fun g => g.gbar.isNone) = true) := by
  unfold guardTrue; decide +kernel

/-- A strand that owes a read of scratchpad offset o. -/
def owing (o : Nat) : Ctx :=
  { num := 1, ports := [(3, [{ held := some { place := .spad o, kind := .load 8 true [5] .plain false, seq := 0 } }])] }

theorem test_witness_WaitInstructions :
    (base.ctx.readS 6).toNat ≤ ((base.tile base.cur).readCt 9).toNat ∧
    ((base.tile base.cur).readCt 9).toNat < ((withCtx (regs [(6, 1)])).ctx.readS 6).toNat ∧
    (base.ctx.owesRead = false ∧ (withCtx (owing 0)).ctx.owesRead = true) ∧
    (guardTrue (withMem {}) (cOn (waitOpnd 2)).pred (cOn (waitOpnd 2)).sense ∧ Quiet (withMem {})) ∧
    readCapReg (withMem {}).ctx ((waitOpnd 2).toNat / 2 ^ 14) = .ok memCap ∧
    (withMem {}).check memCap 0 8 rR 8 .load = .ok (.virt 0 0x10000 (some 0)) ∧
    ∃ u, (withMem {}).readPlace 0 0 (.virt 0 0x10000 (some 0)) 8 .home false = some ([0, 0, 0, 0, 0, 0, 0, 0], u) := by
  refine ⟨by decide +kernel, by decide +kernel, by decide +kernel, ?_, by decide +kernel, by decide +kernel,
    of_place _ (by decide +kernel)⟩
  unfold guardTrue Quiet; decide +kernel

/-- A sync-object region (KIND 1) over the scratchpad, and a scratchpad sync-object dword at 0. -/
def syncCap : TCap := mkCap 0 0xFFFFFF 63 1 0 4096

/-- PROBECFG: on, 2 slots from scratchpad offset 0. -/
def probing (x : Tile → Tile) : State :=
  let s := withMem {}
  s.setTile 0 (x { s.tile 0 with probecfg := 0x0001000002000000 })

def withHit (x : Tile) : Tile := { x with probe := [(1, { valid := true, pasid := 0, blk := 16 })] }
def withFill (x : Tile) : Tile := { x with probe := [(1, { pending := true, pasid := 0, blk := 16 })] }

theorem test_witness_ProbeLooksUp :
    (∀ s ∈ [probing id, probing withHit,
      probing withFill],
      guardTrue s (cOn (waitOpnd 2)).pred (cOn (waitOpnd 2)).sense ∧
      readCapReg s.ctx ((cOn (waitOpnd 2)).opnd.toNat / 2 ^ 14) = .ok memCap ∧ probeOn (s.tile s.cur).probecfg = true ∧
      probeSlots (s.tile s.cur).probecfg ≠ 0 ∧ s.check memCap 0 1 rR 1 .load = .ok (.virt 0 0x10000 (some 0)) ∧
      s.check memCap 0 4096 rR 1 .load = .ok (.virt 0 0x10000 (some 0))) ∧
    ((probing withHit).tile 0).probeFind 0 16 false =
      some 1 ∧
    ((probing withFill).tile 0).probeFind 0 16 true =
      some 1 ∧
    ((probing id).tile 0).probeFind 0 16 false = none ∧ ((probing id).tile 0).probeFind 0 16 true = none ∧
    ((probing id).tile 0).subtreeEligible 1 = true := by
  unfold guardTrue; decide +kernel

/-- A trapped strand in context 1, named by ERTGT of the supervisor strand in context 0. -/
def trapped : State :=
  twoStrands { ertgt := 0x8000000000000100 } { run := .trapped, csr := [(8, 0x0A), (9, 64)] }

theorem test_witness_SupervisorReturn :
    trapped.curMark ≠ 0 ∧ guardTrue trapped (cOn 0).pred (cOn 0).sense ∧ trapped.ctx.ertgt.getLsbD 63 = true ∧
      (trapped.ctxAt 0 1).run = .trapped ∧ trapped.tileVf 0 = trapped.curVf ∧ trapped.curCtx = 0 ∧
      base.ctx.ertgt.getLsbD 63 = false := by
  unfold guardTrue; decide +kernel

/-- The capability of a block in memory in k2, CTL in s5 naming it, its counter 17 and offset 64. -/
def ctl : Word := BitVec.ofNat 64 (2 * 2 ^ 48 + 17 * 2 ^ 53 + 0x40)
def sysc : SyscFields := { pred := 0, sense := 0, arg := 5 }

theorem test_witness_SupervisorCommandsQueue :
    ((marked 0 base).curMark = 0 ∧ guardTrue (marked 0 base) (cOn 0).pred (cOn 0).sense) ∧
    ((marked 1 base).curMark = 1 ∧ guardTrue (marked 1 base) sysc.pred sysc.sense) ∧
    (let s := withMem (regs [(5, ctl)])
     guardTrue s sysc.pred sysc.sense ∧ s.curMark = 2 ∧ s.ctx.readK (ctl.toNat / 2 ^ 48 % 2 ^ 5) = memCap ∧
       ∀ size ∈ [64, 128], ∃ p ∈ [0x10000, 0x10040],
         s.check memCap (if size = 64 then 0x40 else 0) size (rR + rW) size .engine = .ok (.virt 0 p (some 0))) ∧
    ctl.toNat < 2 ^ 62 ∧ 2 ^ 62 ≤ (0x4002000000000040#64).toNat ∧ (withMem { nBlock := 8 }).ctx.nBlock = 8 := by
  unfold guardTrue; decide +kernel

theorem test_witness_LoadsDeliverValues :
    Quiet (withMem {}) ∧ readCapReg (withMem {}).ctx (af 2 3).k.toNat = .ok memCap ∧
    (withMem {}).check memCap 0 8 rR 8 .load = .ok (.virt 0 0x10000 (some 0)) ∧
    (withMem {}).watch memCap 0 8 true false (.virt 0 0x10000 (some 0)) = .ok () ∧
    (∃ u, (numbered (withMem {})).readPlace 0 0 (.virt 0 0x10000 (some 0)) 8 .plain false = some ([0, 0, 0, 0, 0, 0, 0, 0], u)) ∧
    (∃ u, (numbered (withMem {})).readConstant 0 0 (.virt 0 0x10000 (some 0)) 8 0 = some ([0, 0, 0, 0, 0, 0, 0, 0], u)) ∧
    (∃ u, (numbered (withMem {})).readPlace 0 0 (.virt 0 0x10000 (some 0)) 16 .plain false =
      some ([0, 0, 0, 0, 0, 0, 0, 0, 0, 0, 0, 0, 0, 0, 0, 0], u)) ∧
    (let s := withMem (regs [(2, 0x1000)])
     s.check memCap 0x1000 8 rR 8 .load = .ok (.virt 0 0x11000 (some 0)) ∧ Sparse.get none s.atc (atcKey 0 0x11) = none ∧
       s.watch memCap 0x1000 8 true false (.virt 0 0x11000 (some 0)) = .ok ()) := by
  refine ⟨by unfold Quiet; decide +kernel, by decide +kernel, by decide +kernel, by decide +kernel, of_place _ (by decide +kernel),
    of_place _ (by decide +kernel), of_place _ (by decide +kernel), by decide +kernel⟩

def fullLog (s : State) : State :=
  let e : LogEntry := { seq := 0, ctx := 0, op := 0, order := 0, scope := 0, aop := none, pasid := 0, va := 0, mask := 0, data := [] }
  s.setTile 0 { s.tile 0 with sideLog := List.replicate 256 e }

theorem test_witness_Stores :
    Quiet (withMem {}) ∧ HostClear (withMem {}) (.virt 0 0x10000 (some 0)) ∧ HostClear (withMem {}) (.virt 0 0x11000 (some 0)) ∧
    ((withMem {}).tile 0).l1Lines (Config.l1Set (0x1003F / 128) % 512) = [] ∧
    readCapReg (withMem {}).ctx (af 1 3).k.toNat = .ok spadCap ∧
    (withMem {}).check spadCap 0 8 rW 8 .store = .ok (.spad 0) ∧
    (withMem {}).check spadCap 0 16 rW 16 .store = .ok (.spad 0) ∧
    readCapReg (withMem {}).ctx ((af 1 3).data.toNat % 32) = .ok {} ∧
    (let s := { withMem {} with atc := [(atcKey 0 0x10, some { map := { ppage := 2 ^ 30, writable := true } })] }
     s.check memCap 0 16 rW 16 .store = .ok (.virt 0 0x10000 (some 0)) ∧ s.placeTier (.virt 0 0x10000 (some 0)) = some 2) ∧
    (withMem {}).check memCap 0 8 rW 8 .store = .ok (.virt 0 0x10000 (some 0)) ∧
    (withMem {}).watch memCap 0 8 false true (.virt 0 0x10000 (some 0)) = .ok () ∧
    (withMem {}).rangeXlat 0 0x10000 8 true = .mapped 0 ∧
    (let s := withMem (regs [(2, 0x1000)])
     s.check memCap 0x1000 8 rW 8 .store = .ok (.virt 0 0x11000 (some 0)) ∧ s.rangeXlat 0 0x11000 8 true = .missing ∧
       s.watch memCap 0x1000 8 false true (.virt 0 0x11000 (some 0)) = .ok () ∧ (s.tile 0).sideLog.length + 1 ≤ 256 ∧
       256 < ((fullLog s).tile 0).sideLog.length + 1) ∧
    ((withMem {}).lookupVa 0 0x1003F true = .mapped 0x1003F ∧ tierOf 0x1003F ≠ 2) := by
  unfold Quiet HostClear; decide +kernel

theorem test_witness_AtomicResults :
    (0 < 8 ∧ 2 ^ 64 - 1 < 2 ^ (8 * 8)) ∧ Quiet (withMem {}) ∧ ((withMem {}).tile 0).spadPoison = [] ∧ (withMem {}).ctx.port 5 = [] ∧ capKind spadCap ≠ 1 ∧
    (withMem {}).check spadCap 0 4 rA 4 .atomic = .ok (.spad 0) ∧
    (withMem {}).check spadCap 0 8 rA 8 .atomic = .ok (.spad 0) ∧
    (withMem {}).check spadCap 0 16 rA 16 .atomic = .ok (.spad 0) := by
  unfold Quiet; decide +kernel

/-- BIND of the region in k6 to the dword at s2 in k1. -/
def withBinds (n : Nat) : State :=
  withMem { k := [(1, syncCap), (6, memCap)],
            binds := (List.range n).map (fun i => (i, some { region := memCap, syncObj := i, syncOff := 8 * i, syncGen := 0 })) }

theorem test_witness_FencesAndEntryConsistency :
    Quiet (withMem {}) ∧ Sparse.risingFrom 0 ((withMem {}).tile 0).l1 = true ∧
    (∃ z, (withBinds 0).bindCheck (af 1 0) = .ok z) ∧ (∃ z, (withBinds 8).bindCheck (af 1 0) = .ok z) ∧
    ((withBinds 8).ctx.binds.length = 8 ∧ ∀ i < 8, Sparse.get none (withBinds 8).ctx.binds i ≠ none) ∧
    readCapReg (withBinds 0).ctx (af 1 0).k.toNat = .ok syncCap ∧ ((withBinds 0).tile 0).spadPoison = [] ∧
    (withBinds 0).check syncCap 0 8 rB 8 .sync = .ok (.spad 0) ∧
    (withBinds 0).check syncCap 0 8 (rB + rR) 8 .sync = .ok (.spad 0) ∧
    (withBinds 0).relWaits 0 0 (capObj syncCap) 0 = false ∧
    ((withBinds 0).ctx.readS 6).toNat ≤ bytesNat ((withBinds 0).spadBytes 0 0 8) ∧
    bytesNat ((withBinds 0).spadBytes 0 0 8) < (1#64).toNat := by
  refine ⟨by unfold Quiet; decide +kernel, by decide +kernel, of_ok (by decide +kernel), of_ok (by decide +kernel),
    by decide +kernel, by decide +kernel, by decide +kernel, by decide +kernel, by decide +kernel, by decide +kernel,
    by decide +kernel, by decide +kernel⟩

theorem test_witness_CapabilityDerivation :
    readCapReg (withMem {}).ctx 2 = .ok memCap ∧
    (withMem {}).check memCap 0 8 (rR + rW) 8 .untested = .ok (.virt 0 0x10000 (some 0)) ∧
    (withMem {}).check memCap 0 8 0 8 .untested = .ok (.virt 0 0x10000 (some 0)) ∧
    (let lo : Word := 0x40
     let hi : Word := BitVec.ofNat 64 (2 ^ 46 * 0 + 2 ^ 40 * 48 + 0x1000)
     memCap.tag = true ∧ capRights memCap &&& rD = rD ∧ lo.toNat < 2 ^ 40 ∧ hi.toNat < 2 ^ 48 ∧
       (hi.toNat / 2 ^ 40 % 2 ^ 6) &&& capRights memCap = hi.toNat / 2 ^ 40 % 2 ^ 6 ∧ hi.toNat / 2 ^ 46 = capKind memCap ∧
       capLow memCap ≤ lo.toNat ∧ lo.toNat + hi.toNat % 2 ^ 40 ≤ capLow memCap + capLen memCap) ∧
    (∃ n, derive memCap 0x40 (BitVec.ofNat 64 (2 ^ 40 * 48 + 0x1000)) true = .ok n) ∧
    (withMem {}).capCheck 0 0x1000 memCap 0 8 (rR + rW) 8 .load = .ok (.virt 0 0x10000 (some 0)) ∧
    (withMem {}).capCheck 0 0x1000 spadCap 0xFF8 8 rR 8 .load = .ok (.spad 0xFF8) := by
  refine ⟨by decide +kernel, by decide +kernel, by decide +kernel, by decide +kernel, of_ok (by decide +kernel),
    by decide +kernel, by decide +kernel⟩

/-! ### Vector slots -/

/-- Sources v1 and v2, dst v3 of cluster 0, under vp0. -/
def vf (type : BitVec 3) (width : BitVec 2) : VFields :=
  { target := .cluster 0, type, width, nw := 0, dst := 8, srcA := 16, srcB := 24, bsel := 0, srcC := 1, pred := 0 }

theorem readable (f : VFields) (h : f.target = .cluster 0) (s : State) (x : List Vec)
    (hr : ∃ c, readVSrcB s.ctx 0 f = .ok (x, c)) : vReadable s f (fun _ => x) := by
  intro cl hcl
  rw [h] at hcl
  have h0 : cl = 0 := by simpa [clustersOf] using hcl
  subst h0
  exact hr

/-- VectorFloatArithmetic, VectorInteger, VectorCompares, VectorTransport: floats, integers, an octet. -/
theorem test_witness_VectorSources :
    vReadable base (vf 0 0) (fun _ => [0]) ∧ vReadable base (vf 7 0) (fun _ => [0]) ∧
    vReadable base (vf 0 3) (fun _ => [0, 0, 0, 0, 0, 0, 0, 0]) ∧ (vf 0 0).type.toNat < 4 ∧ 4 ≤ (vf 7 0).type.toNat ∧
    (vf 0 0).width = 0 ∧ (∀ cl ∈ clustersOf (vf 0 3).target, [0, 0, 0, 0, 0, 0, 0, (0 : Vec)].length = groupSize (vf 0 3).width) :=
  ⟨readable _ rfl _ _ (of_source _ (by decide +kernel)), readable _ rfl _ _ (of_source _ (by decide +kernel)),
    readable _ rfl _ _ (of_source _ (by decide +kernel)),
    by decide, by decide, by decide, by decide⟩

/-- VACC of row 127 of accumulator 3, of a row pair past 127, and of an accumulator that is not there; VBCAST beyond. -/
theorem test_witness_VectorConversions :
    (let imm : BitVec 12 := (7#6) ++ (63#6)
     imm.toNat < 512 ∧ imm.toNat / 128 % 4 < 4 ∧ imm.toNat % 128 + 1 ≤ 128 ∧ 128 < imm.toNat % 128 + 2) ∧
    512 ≤ ((8#6) ++ (0#6) : BitVec 12).toNat ∧ (base.curCrew.map (fun w => w.acc)) = some 4 ∧
    (vf 0 1).type = 0 ∧ (vf 0 1).width = 1 ∧ 16 ≤ ((0#6) ++ (16#6) : BitVec 12).toNat := by decide +kernel

theorem of_res {α : Type} [DecidableEq α] {r : Res α} (x : α) (h : (match r with | .ok z => decide (z = x) | _ => false) = true) :
    r = .ok x := by
  match r, h with
  | .ok a, h => simp only [decide_eq_true_eq] at h; rw [h]

theorem test_witness_VectorLoads :
    (let s := withMem {}
     let f := vf 0 0
     readCapReg s.ctx (f.srcC.toNat % 32) = .ok spadCap ∧ Quiet s ∧
       s.ctx.ports.any (fun p => p.2.any (fun e => e.held.isSome)) = false ∧ (s.tile s.cur).spadPoison = [] ∧
       s.lanesCheck spadCap 0 ((clustersOf f.target).flatMap (fun c => (vLanes s f 0 c).map (fun l => l.2))) false = .ok (.spad 0) ∧
       s.lanesCheck spadCap 0 ((clustersOf f.target).flatMap (fun c => (vIndexed s f 0 f.srcA.toNat c).map (fun l => l.2))) false =
         .ok (.spad 0) ∧ capIsSpad spadCap = true) ∧
    (let s := withMem {}
     let f := { vf 0 0 with srcC := 2 }
     readCapReg s.ctx (f.srcC.toNat % 32) = .ok memCap ∧ capIsSpad memCap = false ∧
       s.lanesCheck memCap 0 ((clustersOf f.target).flatMap (fun c => (vLanes s f 0 c).map (fun l => l.2))) false =
         .ok (.virt 0 0x10000 (some 0))) := by
  unfold Quiet; decide +kernel

theorem test_witness_VectorStores :
    (let s := withMem {}
     s.lanesCheck spadCap 0 ((List.range 16).map (fun i => 4 * i)) true = .ok (.spad 0) ∧
       s.lanesCheck memCap 0 ((List.range 16).map (fun i => 4 * i)) true = .ok (.virt 0 0x10000 (some 0)) ∧
       s.rangeXlat 0 0x10000 64 true = .mapped 0) ∧
    (∀ n ∈ [1, 2], let s := (withMem {}).setTile 0 (((withMem {}).tile 0).spadPut 8 (BitVec.ofNat 8 n))
      bytesNat (s.spadBytes 0 8 4) = n ∧ s.check spadCap 0 16 (rR + rW) 16 .engine = .ok (.spad 0) ∧
        s.check spadCap 0 (16 + 8 * n) (rR + rW) 16 .engine = .ok (.spad 0) ∧ (s.tile 0).owesPart s.nextOp = false) ∧
    bytesNat ((withMem {}).spadBytes 0 8 4) = 0 ∧
    (let s := (withMem {}).setTile 0 (((withMem {}).tile 0).spadPut 10 16)
     bytesNat (s.spadBytes 0 8 4) = 2 ^ 20 ∧
       (match s.check spadCap 0 (16 + 8 * 2 ^ 20) (rR + rW) 16 .engine with | .ok _ => false | _ => true) = true) := by
  decide +kernel

/-! ### Summary structures -/

/-- A summary operation on the structure at 0 of the scratchpad. -/
def sumOp (op : Nat) (elems : List Nat) : SumOp :=
  { id := 0, num := 0, iss := base.issuer 0 0, op, cl := 0, cap := spadCap, off := 0, place := .spad 0, bf := false, elems
    act := 0xFFFF, coin := 0, size := 1056 }

/-- Two distinct counts of 2^10 registers, at 0 and at 2,048, and an operation at the head of the queue. -/
def summed (o : SumOp) : State :=
  let s := withMem {}
  s.setTile 0 { ((((s.tile 0).spadPut 0 (BitVec.ofNat 8 tDistinct)).spadPut 1 10).spadPut 2048 (BitVec.ofNat 8 tDistinct)).spadPut 2049 10
    with sumq := [o] }

theorem test_witness_SummaryOperationsQueue :
    ((withMem {}).tile 0).crew.isSome = true ∧
    (withMem {}).check spadCap 0 32 (rR + rW) 64 .store = .ok (.spad 0) ∧
    (withMem {}).check spadCap 0 32 rR 64 .load = .ok (.spad 0) ∧
    clearSize [tDistinct + 256 * 10, 0] = some 1056 ∧ clearSize [tDistinct + 256 * 9, 0] = none ∧
    (∀ o ∈ [sumOp 0x81 [7], sumOp 0x82 [7], sumOp 0x85 [2048], sumOp 0x87 [0], sumOp 0x80 [tDistinct + 256 * 10, 0]],
      ((summed o).tile 0).sumq = [o] ∧ (summed o).sumReady 0 o = true) ∧
    (match (summed (sumOp 0x81 [7])).sumImage 0 (sumOp 0x81 [7]) 0 (rR + rW) true with
     | .ok (img, _) => decide (imgNat img 0 1 = sumType 0x81) && !imageBad img && decide (imgNat img 0 1 ≠ sumType 0x82)
     | _ => false) = true ∧
    (match (summed (sumOp 0x85 [2048])).sumImage 0 (sumOp 0x85 [2048]) 0 (rR + rW) true with
     | .ok (img, u) => (match u.sumImage 0 (sumOp 0x85 [2048]) 2048 rR false with
       | .ok (src, _) => (mergeBad (sumType 0x85) img src).isNone && decide (img.length ≤ 2048)
       | _ => false)
     | _ => false) = true ∧
    (match (summed (sumOp 0x80 [])).sumRead 0 (sumOp 0x80 []) 0 1056 (rR + rW) true with | .ok _ => true | _ => false) = true := by
  decide +kernel

theorem test_witness_SummaryInsertions :
    (let h : Hitters := { n := 1, d := 0, m := 1, es := [{ key := 5, count := 1, err := 0 }] }
     (∃ e ∈ h.es, e.key = 5) ∧ (∀ e ∈ h.es, e.key ≠ 6) ∧ h.m ≤ h.es.length) ∧
    (fdecode fp32 0x7FC00000).isNan = true ∧ (fdecode fp32 0x3F800000).isNan = false := by decide +kernel

/-! ### The matrix engine -/

def mf : MFields := { ringA := 0, ringB := 1, acc := 0, pop := 0, fmt := 0, scb := 0 }

/-- Shapes of one k tile, and two rings of one slot. -/
def matrixState (mq : List MqEntry) : State :=
  let s := withCtx { shape := [(0, 1)] }
  s.setTile 0 { s.tile 0 with
    mq, rings := [(0, { base := 0, slots := 1, slotsz := 8192, head := 0, count := 0 }),
                  (1, { base := 8192, slots := 1, slotsz := 8192, head := 0, count := 0 })] }

/-- MZERO of accumulator 0, or MSTEP, as an entry of the queue. -/
def mEntry (op : Nat) (fails : Nat) : MqEntry :=
  { id := 0, iss := base.issuer 0 0, op, word := packM op mf, mh := [1, 0, 1, 0], scales := [], prio := 0, entered := 0, fails }

theorem test_witness_MatrixOperationsQueue :
    (let s := matrixState []
     let w := fun i => (s.ctx.readShape i).toNat
     w 0 < 2 ^ 27 ∧ w 0 % 2 ^ 24 ≠ 0 ∧ w 1 < 2 ^ 24 ∧ w 2 < 2 ∧ w 3 < 2 ^ 25 ∧ mf.ringA ≠ mf.ringB ∧
       (∀ r ∈ [0, 1], ((s.tile 0).ring r).slots ≠ 0 ∧ 128 * 64 ≤ ((s.tile 0).ring r).slotsz) ∧
       ((s.tile 0).crew.map (fun c => c.acc)) = some 4 ∧ (s.tile 0).mq.length < 8 ∧ (s.tile 0).ringAllowed 0 = true ∧
       16384 * 4 ≤ (s.tile 0).crewSpad) ∧
    8 ≤ ((matrixState (List.replicate 8 (mEntry 0xD5 0))).tile 0).mq.length ∧
    (base.ctx.readShape 0).toNat % 2 ^ 24 = 0 ∧ (base.tile 0).mq = [] ∧ (base.tile 0).follows = [] ∧ (base.tile 0).cq = [] := by
  decide +kernel

/-- An entry holds the array, its last piece due at 32. -/
def running (e : MqEntry) (clk : Nat) : State :=
  let s := matrixState [e]
  { s.setTile 0 { s.tile 0 with mrun := some { id := 0, prio := 0, busy := true, step := 0, due := 32 } } with clk := clk }

theorem test_witness_TrowelPerforms :
    (mRows (mEntry 0xD3 0).mh ≤ 128 ∧ mCols (mEntry 0xD3 0).mh ≤ 128) ∧
    (∀ e ∈ [mEntry 0xD5 0, mEntry 0xD3 0, mEntry 0xD3 2], ((running e 32).tile 0).runEntry = some e ∧ 0 + 1 = e.steps ∧
      e.k + 1 = e.pieces) ∧ (mEntry 0xD3 0).stage = true ∧ isStep (mEntry 0xD3 0).op = true ∧
    (running (mEntry 0xD5 0) 31).clk < 32 ∧
    (let s := matrixState [mEntry 0xD5 0]
     (s.tile 0).mrun = none ∧ (s.tile 0).held = false ∧ s.mBest 0 = some (mEntry 0xD5 0)) ∧
    (let x := { (matrixState []).tile 0 with follows := [mEntry 0xD5 0] }
     x.follows = mEntry 0xD5 0 :: [] ∧ x.mq.length < 8) := by decide +kernel

/-! ### Engines -/

def ef : EFields := { k := 2, s := 2, ct := 9, qprio := 0, hnd := 0, arg := 0 }

/-- A descriptor of 8,192 linear bytes of k2 into ring 0 that is followed by MZERO of accumulator 2. -/
def followDesc : List Byte :=
  natBytes 4 0x0002_0C01 ++ natBytes 4 8192 ++ natBytes 2 1 ++ natBytes 2 1 ++ natBytes 2 1 ++ natBytes 2 0 ++
    natBytes 40 0 ++ natBytes 8 0xD500_8000_0000_0000

def copyCmd (op : Nat) (caps : Sparse TCap) : CopyCmd :=
  { id := 0, op, iss := (withMem {}).issuer 0 0, place := .spad 0, desc := none, caps, ct := 9, inc := 0, nr := false, qprio := 0
    hnd := 0, entered := 0 }

theorem test_witness_EngineCommandsQueue :
    readCapReg (withMem {}).ctx ef.k.toNat = .ok memCap ∧
    (withMem {}).check memCap 0 64 (rR + rE) 64 .engine = .ok (.virt 0 0x10000 (some 0)) ∧
    (withMem {}).check memCap 0 160 (rR + rE) 64 .engine = .ok (.virt 0 0x10000 (some 0)) ∧
    (withMem {}).check memCap 0 64 (rR + rW + rE) 64 .engine = .ok (.virt 0 0x10000 (some 0)) ∧
    (withMem {}).check memCap 0 32 (rR + rE) 32 .engine = .ok (.virt 0 0x10000 (some 0)) ∧
    (withMem {}).check memCap 0 16 (rR + rE) 16 .engine = .ok (.virt 0 0x10000 (some 0)) ∧
    (withMem {}).check spadCap 0 64 (rR + rE) 64 .engine = .ok (.spad 0) ∧ (withMem {}).spadBad (withMem {}).cur 0 64 = false ∧
    ((withMem {}).tile 0).cq.length < 16 ∧ ((withMem {}).tile 0).sigq.length < 16 ∧ (withMem {}).ctx.nColl < 16 ∧
    (withMem { nColl := 16 }).ctx.nColl = 16 ∧ (List.replicate 16 (copyCmd 0xE4 [])).length = 16 ∧
    (let s := withMem {}
     let s := s.setTile 0 { s.tile 0 with rings := ((matrixState []).tile 0).rings }
     ∀ op ∈ [0xE5, 0xE6],
       (match s.followCheck (copyCmd op s.ctx.k) followDesc with | .ok _ => true | _ => false) = true) := by
  decide +kernel

/-! ### Ports, traps and the scheduler -/

theorem test_witness_PortsAndCausesDeliver :
    (∀ e ∈ ([{ value := 7 }, { value := 7, lost := true }, { cmd := some 3 }, { failed := some (.page, 0) }] : List PortEntry),
      let s := withCtx (({} : Ctx).setPort 3 [{ value := 1, arrived := true }, e])
      (s.ctxAt 0 0).port 3 = [{ value := 1, arrived := true }] ++ e :: [] ∧ e.arrived = false ∧ e.kld = none) ∧
    (let s := withCtx { causes := [{ cause := .shape, info := 5 }] }
     (s.ctxAt 0 0).causes = { cause := .shape, info := 5 } :: [] ∧ (s.tile 0).held = false ∧ (s.ctxAt 0 0).run = .running) := by
  decide +kernel

/-- Two results due later, and a trap area of which the first page is mapped. -/
def areaState : State :=
  let s := withMem { pending := [{ due := 9, cls := .s, cluster := 0, slot := 0, ipc := 0, writes := [.sreg 4 1] }] }
  s.setVf 0 { s.vf 0 with trapArea := some { pasid := 0, va := 0x10000, len := 2 ^ 26 } }

theorem mem_of_get {α : Type} (m : Sparse (Option α)) (k : Nat) (v : α) (h : Sparse.get none m k = some v) : (k, some v) ∈ m := by
  induction m with
  | nil => cases h
  | cons x t ih =>
    unfold Sparse.get at h
    split at h
    next hk => rw [← hk, ← h]; exact List.mem_cons_self ..
    next => exact List.mem_cons_of_mem _ (ih h)

/-- The page that is found is listed. -/
theorem mem_of_pageAt (s : State) (p v b : Nat) (e : AtcEntry) (h : s.pageAt p v = some (b, e)) : ∃ k, (k, some e) ∈ s.atc := by
  unfold State.pageAt at h
  obtain ⟨z, _, hz⟩ := List.exists_of_findSome?_eq_some h
  split at hz
  next f hf =>
    split at hz
    · obtain ⟨-, rfl⟩ : _ ∧ f = e := by simpa using hz
      exact ⟨_, mem_of_get _ _ _ hf⟩
    · cases hz
  next => cases hz

/-- No page forbids a write where every page may be written. -/
theorem not_forbidden (s : State) (p va : Nat)
    (h : s.atc.all (fun x => x.2.all (fun e => e.map.writable && !inWcBank (4096 * e.map.ppage))) = true) :
    s.lookupVa p va true ≠ .forbidden := by
  unfold State.lookupVa
  split
  · simp
  next b e hp =>
    obtain ⟨k, hk⟩ := mem_of_pageAt _ _ _ _ _ hp
    have he := List.all_eq_true.mp h _ hk
    simp only [Option.all_some, Bool.and_eq_true, Bool.not_eq_true'] at he
    simp [he]
    split <;> simp

/-- A page of 4 KiB that is listed is found. -/
theorem pageAt_of_get (s : State) (p v : Nat) (e : AtcEntry) (h : Sparse.get none s.atc (atcKey p v) = some e) :
    s.pageAt p v = some (v, e) := by
  have hn : v < v + mapPages e.map := by unfold mapPages; split <;> (try split) <;> omega
  simp [State.pageAt, List.findSome?, pageBase, h, hn]

theorem test_witness_TrapEntry :
    (∀ p ∈ (areaState.ctxAt 0 0).pending, areaState.clk < p.due) ∧
    (withMem {}).trapRegion ((withMem {}).tileVf 0) 0 0 = none ∧
    areaState.trapRegion (areaState.tileVf 0) 0 0 = some { pasid := 0, va := 0x10000, len := 65536 } ∧
    ∀ n, areaState.rangeXlat 0 0x10000 n true ≠ .forbidden := by
  refine ⟨by decide +kernel, by decide +kernel, by decide +kernel, ?_⟩
  intro n
  have page : ∀ va, areaState.lookupVa 0 va true ≠ .forbidden := by
    exact fun va => not_forbidden _ _ _ (by decide +kernel)
  unfold State.rangeXlat
  generalize pagesOf 0x10000 n = ps
  suffices h : ∀ (x : Xlat), x ≠ .forbidden → ps.foldl (fun x p => match x, areaState.lookupVa 0 (4096 * p) true with
    | .forbidden, _ => .forbidden
    | _, .forbidden => .forbidden
    | .missing, _ => .missing
    | _, .missing => .missing
    | x, _ => x) x ≠ .forbidden from h _ (by decide)
  induction ps with
  | nil => intro x hx; exact hx
  | cons p ps ih =>
    intro x hx
    rw [List.foldl_cons]
    apply ih
    have := page (4096 * p)
    cases x <;> cases hl : areaState.lookupVa 0 (4096 * p) true <;> simp_all

theorem test_witness_ContextsRotateAndRetire :
    (let s := (twoStrands {} { run := .ready }).setTile 0 { (twoStrands {} { run := .ready }).tile 0 with running := none, last := 0 }
     (s.tile 0).running = none ∧ (s.tile 0).nextIssue ≤ s.clk ∧ (s.tile 0).held = false ∧ 1 = ((s.tile 0).last + 1) % 4 ∧
       (s.ctxAt 0 1).run = .ready ∧ (s.ctxAt 0 1).pending = []) ∧
    4096 ≤ ((base.setTile 0 { base.tile 0 with quantum := 4096 }).tile 0).quantum ∧
    (∀ n < 2, (match ((base.setCtxAt 0 0 { base.ctx with run := .blocked (.waitc 9 (BitVec.ofNat 64 n)) }).ctxAt 0 0).run with
      | .blocked (.waitc m v) => m == 9 && v.toNat == n
      | _ => false) = true) ∧
    (∀ h ∈ [false, true], let s := base.setCtxAt 0 0 { base.ctx with run := .exiting, handler := h }
      (s.ctxAt 0 0).run = .exiting ∧ (s.tile 0).drained 0 = true ∧ (s.ctxAt 0 0).handler = h) ∧
    (let s := base.setCtxAt 0 0 { base.ctx with run := .retired }
     (match (s.tile 0).crew, s.gang 0 with
      | some w, some g => decide (w.gang = 0) && s.crewDone 0 && !g.retired.contains w.idx
      | _, _ => false) = true) := by decide +kernel

/-- The gang of tile 0, changed. -/
def onGang (f : Gang → Gang) (s : State) : State := { s with gangs := s.gangs.map (fun (x : Nat × Option Gang) => (x.1, x.2.map f)) }

/-- Bytes at an address of an empty memory. -/
def bytesAt (a : Nat) (bs : List Byte) : Sparse Byte :=
  (bs.zipIdx.map (fun (b : Byte × Nat) => (a + b.2, b.1))).filter (fun (x : Nat × Byte) => x.2 != 0)

/-! A launch record with one gang of one crew of two strands, code at 0x11000 and no table, in queue 3 of partition 0. -/

def recBytes (prio : Nat) : List Byte :=
  natBytes 16 (mkCap 1 0 63 0 0x1000 0x1000).bits.toNat ++ natBytes 16 (mkCap 1 0 63 0 0x2000 16).bits.toNat ++ natBytes 8 9 ++
  natBytes 8 (1 * 2 ^ 56 + 1 * 2 ^ 32 + 2 * 2 ^ 18 + prio * 2 ^ 13) ++
  natBytes 8 (1 * 2 ^ 40 + 3 * 2 ^ 24 + 0x1000) ++ natBytes 4 5 ++ natBytes 2 6 ++ natBytes 2 0 ++
  natBytes 64 0 ++ (natBytes 8 0 ++ natBytes 8 0x40) ++ natBytes 48 0 ++ (List.range 8).flatMap (fun i => natBytes 8 (100 + i))

def recOne : Rec := recOf (recBytes 7) {} {}

/-- The ring of queue 3 lies on the object's first page. -/
def launching : State :=
  let s := (withMem {}).setTile 0 { owner := some 0, tstate := .learner }
  let s := { s with gangs := [], waves := [], mem := bytesAt 0x10000 (recBytes 7) }
  s.setVf 0 { s.vf 0 with
    cap := 100, balance := 100
    queues := [(3, { ring := some { pasid := 0, va := 0x10000, len := 4096 }, size := 16, tail := 1 })] }

/-- Queue 3's head, checked, wants a tile more than there is, and has waited long enough. -/
def wanting : State :=
  let s := launching.setVf 0 { launching.vf 0 with
    queues := [(3, { ring := some { pasid := 0, va := 0x10000, len := 4096 }, size := 16, tail := 1
                     checked := some { recOne with crews := 2 } })] }
  { s with clk := 2 ^ 16 }

theorem test_witness_GangsComeAndGo :
    (launching.vf 0).flr = false ∧
    (match (launching.checkHeads 0 0).admits 0 0 with
     | some (q, r) => decide (q = 3) && !r.coloc && decide (r.crews = 1 ∧ r.energy = 5)
     | none => false) = true ∧
    Sparse.get none (launching.vf 0).reserve 0 = none ∧
    (wanting.mayReserve 0 0 3 = true ∧ Sparse.get none (wanting.vf 0).reserve 0 = none) ∧
    (let s := onGang (fun g => { g with retired := [0] }) base
     (match s.gang 0, Sparse.get none s.waves 0 with
      | some g, some w => decide (g.wave = 0) && g.allRetired && !w.record.sigmode && !g.fatal && !s.gangFatal 0 g
      | _, _ => false) = true) := by decide +kernel

theorem test_witness_RegistersOfTheHost :
    base.boot.running = true ∧
    (let x := (launching.vf 0).queue 0 3
     ((16#32) - x.head).toNat ≤ x.size ∧ x.size < ((17#32) - x.head).toNat) := by decide +kernel

/-! ### Pre-emption and resets -/

/-- The crew of tile 0 frozen, and stopped as given. -/
def frozen (stop resuming : Bool) (s : State) : State :=
  s.setTile 0 { s.tile 0 with
    crew := (s.tile 0).crew.map (fun w => { w with frozen := true, stopped := stop, resuming := resuming })
    running := none }

/-- n pages from 0x10 up, each at its own address. -/
def pageTable (n : Nat) : Sparse (Option AtcEntry) :=
  (List.range n).map (fun i => (0x10 + i, some { map := { ppage := 0x10 + i, writable := true } }))

theorem pageTable_get (n i : Nat) (h : i < n) :
    Sparse.get none (pageTable n) (0x10 + i) = some { map := { ppage := 0x10 + i, writable := true } } := by
  unfold pageTable
  have key : ∀ (k a : Nat), i < a + k → a ≤ i → Sparse.get none ((List.range' a k).map (fun j =>
      (0x10 + j, some ({ map := { ppage := 0x10 + j, writable := true } } : AtcEntry)))) (0x10 + i) =
      some { map := { ppage := 0x10 + i, writable := true } } := by
    intro k
    induction k with
    | zero => intro a h1 h2; omega
    | succ k ih =>
      intro a h1 h2
      rw [List.range'_succ, List.map_cons, Sparse.get]
      by_cases hia : a = i
      · subst hia; simp
      · rw [if_neg (by omega)]
        exact ih (a + 1) (by omega) (by omega)
  rw [List.range_eq_range']
  exact key n 0 (by omega) (by omega)

theorem mapped_of_pages (s : State) (pasid va n : Nat)
    (h : ∀ p ∈ pagesOf va n, ∃ pa, s.lookupVa pasid (4096 * p) true = .mapped pa) :
    ∃ pa, s.rangeXlat pasid va n true = .mapped pa := by
  unfold State.rangeXlat
  generalize pagesOf va n = ps at h
  suffices g : ∀ a, ∃ pa, ps.foldl (fun (x : Xlat) p => match x, s.lookupVa pasid (4096 * p) true with
      | .forbidden, _ => .forbidden
      | _, .forbidden => .forbidden
      | .missing, _ => .missing
      | _, .missing => .missing
      | x, _ => x) (.mapped a) = .mapped pa from g 0
  induction ps with
  | nil => intro a; exact ⟨a, rfl⟩
  | cons p ps ih =>
    intro a
    obtain ⟨b, hb⟩ := h p (List.mem_cons_self ..)
    rw [List.foldl_cons, hb]
    exact ih (fun q hq => h q (List.mem_cons_of_mem _ hq)) a

/-- Context 0 ready on the stopped crew; the context table on the object's first page, entry 0 of it in use. -/
def savable : State :=
  let s := frozen true false (withMem {})
  let s := s.setCtxAt 0 0 { s.ctxAt 0 0 with run := .ready }
  let s := { s with atc := pageTable 560 }
  let s := s.setVf 0 { s.vf 0 with
    ctxTab := some { pasid := 0, va := 0x10000, len := 4096 }, ctxLen := 128
    objs := [(0, some { obj with len := 0x1000000 })] }
  let c := mkCap 1 0 63 0 0 0x230000
  let s := { s with
    mem := bytesAt 0x10000 (natBytes 16 c.bits.toNat)
    tags := [(0x1000, true)] }
  onGang (fun g => { g with run := .saving, entries := [0] }) s

/-- Tile 1, the last of a move to virtual function 0, and no crew. -/
def movingTile : State :=
  { base.setTile 1 { owner := some 0, tstate := .moving } with
    moves := [{ vf := 0, die := 0, tiles := [1], count := 1, owner := 0, left := [1] }] }

theorem of_mem_pagesOf (va n p : Nat) (h : p ∈ pagesOf va n) : ∃ i, i < (va + n - 1) / 4096 - va / 4096 + 1 ∧ va / 4096 + i = p := by
  unfold pagesOf at h
  split at h
  · cases h
  · simpa using h

theorem test_witness_SaveArea : ∃ pa, savable.rangeXlat 0 0x10000 0x230000 true = .mapped pa := by
  have atc : savable.atc = pageTable 560 := by decide +kernel
  have moves : savable.pageMoves = [] := by decide +kernel
  apply mapped_of_pages
  intro p hp
  obtain ⟨i, hi, rfl⟩ := of_mem_pagesOf _ _ _ hp
  have hp : savable.pageAt 0 (0x10 + i) = some (0x10 + i, { map := { ppage := 0x10 + i, writable := true } }) := by
    exact pageAt_of_get _ _ _ _ (by rw [atc, atcKey, show 2 ^ 45 * 0 + (0x10 + i) = 0x10 + i by omega]; exact pageTable_get 560 i (by omega))
  have hb : inWcBank (4096 * (0x10 + i)) = false := by
    have : ¬ Config.wcBank ≤ 4096 * (0x10 + i) := by unfold Config.wcBank; omega
    simp [inWcBank, this]
  simp [State.lookupVa, State.moving, hp, moves, hb]

theorem test_witness_CrewsMove :
    (match ((frozen false false base).tile 0).crew with
     | some w => w.frozen && !w.stopped && (frozen false false base).enginesStill 0
     | none => false) = true ∧
    (match (savable.tile 0).crew, savable.gang 0 with
     | some w, some g => decide (w.gang = 0) && w.stopped && !w.resuming && savable.accessesSettled 0 && savable.hodSettled w &&
       decide ((g.entryOf w.idx).bind (savable.areaOf g.vf) = some { pasid := 0, va := 0x10000, len := 0x230000 })
     | _, _ => false) = true ∧
    ((List.range 4).map (savable.fetchCapture 0)).all (fun k => k.isSome) = true ∧
    ((movingTile.tile 1).tstate = .moving ∧ (movingTile.tile 1).crew = none ∧
      (movingTile.moves.find? (fun m => m.left.contains 1)).map (fun m => m.left) = some [1]) ∧
    (let s := frozen true true base
     let s := onGang (fun g => { g with run := .resuming }) s
     (match s.gang 0 with | some g => decide (g.run = .resuming ∧ g.tiles = [some 0]) | none => false) = true ∧
       (s.tile 0).sideLog = [] ∧ (s.tile 0).landings = []) ∧
    (savable.tile 0).crew.all (fun w => !(savable.tile 0).saveBad w) = true := by decide +kernel

/-- Where a crew or a tile stays as it is: not frozen, not stopped, its move not over, a delivery still held. -/
theorem test_witness_CrewsStay :
    (base.tile 0).crew.map (fun w => (w.frozen, w.stopped)) = some (false, false) ∧ (base.tile 0).tstate ≠ .moving ∧
    (let s := { movingTile with
       moves := [{ vf := 0, die := 0, tiles := [1, 2], count := 2, owner := 0, left := [1, 2] }] }
     (s.tile 1).tstate = .moving ∧ (s.tile 1).crew = none ∧
       (s.moves.find? (fun m => m.left.contains 1)).map (fun m => m.left) = some [1, 2]) ∧
    (let s := frozen true true base
     let s := onGang (fun g => { g with run := .resuming }) s
     let s := s.setTile 0 { s.tile 0 with landings := [{ cells := [], ct := 9, inc := 1, hnd := 0, len := 0, off := 0 }] }
     (match s.gang 0 with | some g => decide (g.run = .resuming ∧ g.tiles = [some 0]) | none => false) = true ∧
       (s.tile 0).landings ≠ []) := by decide +kernel

theorem test_witness_FunctionReset :
    base.boot.running = true ∧ (base.vf 0).flr = false ∧ ((base.setVf 0 { base.vf 0 with flr := true }).vf 0).flr = true ∧
    (Sparse.keys base.tiles).Nodup ∧ (base.tile 1).owner ≠ some 0 ∧
    (let s := base.setTile 0 { owner := some 0, tstate := .learner, matchks := [1, 2, 3] }
     (s.tile 0).owner = some 0 ∧ (s.tile 0).tstate = .learner ∧ (s.tile 0).condemned = true ∧ (s.tile 0).crew = none ∧
       s.moves.any (fun m => m.vf == 0 && m.die == 0 / 64) = false) := by decide +kernel

/-! ### Block commands, the host and translations -/

/-- A block command of tile 0's strand whose block lies at 0 of the scratchpad, with its parameters from byte 0x10 up. -/
def blockState (sub : Nat) (params : List Byte) : State :=
  let s := (withMem {}).setTile 0 { (withMem {}).tile 0 with
    spad := bytesAt 0 (natBytes 8 0 ++ natBytes 1 0x80 ++ natBytes 7 0 ++ params) }
  let c : BlockCmd := { id := 0, sub, tile := 0, iss := s.issuer 0 0, pf := true, place := .spad 0, cap := spadCap, ct := 9, nc := false }
  s.setVf 0 { s.vf 0 with blockQ := [c] }

/-- What BlockCommandsEnd asks of a state. -/
def blockReady (s : State) : Bool :=
  match (s.vf 0).blockQ with
  | c :: _ =>
    let u := s.fork c.iss
    (s.vf 0).accepted.isEmpty && decide (c.iss.vf = 0) && s.forkReady c.iss && !(s.vf 0).flr && (u.engPoison c.iss c.place 64).isNone &&
      (match u.placeXlat c.place 64 true with | .mapped _ => true | _ => false) &&
      (match u.engRead c.iss c.place 64 with
       | some b => decide (imgNat b 8 1 = 0x80 ∧ imgNat b 9 7 = 0)
       | none => false) && (s.crewState c.iss.gang c.iss.crew).isSome
  | [] => false

/-- WCSET of the last counter and of none, TWM with marks that differ, WATCH of the last range, NODE. -/
theorem test_witness_BlockCommandsEnd :
    (∀ x ∈ ([(0x0A, natBytes 2 1023 ++ natBytes 6 0 ++ natBytes 8 5), (0x0A, natBytes 2 1024),
        (0x11, natBytes 8 2 ++ natBytes 8 (2 ^ 32 + 1)), (0x10, natBytes 1 3 ++ natBytes 1 3 ++ natBytes 2 0 ++ natBytes 4 0xFFFFFE),
        (0x16, natBytes 2 4095)] : List (Nat × List Byte)), blockReady (blockState x.1 x.2) = true) ∧
    ((blockState 0x11 []).vf 0).privileged = false ∧
    twmLo (BitVec.ofNat 64 (2 ^ 32 + 1)) ≤ twmHi (BitVec.ofNat 64 (2 ^ 32 + 1)) := by decide +kernel

/-- A sector of T2 in Mortar. -/
def hostSector : Nat := (Config.t0Bytes + Config.t1Bytes) / 64
def withSector : State :=
  { base with mortar := [(hostSector, some { tag := { vf := 0, pasid := 0, tid := 0, c := 0, line := 0 }, dirty := true })] }

theorem test_witness_HostSeesMemory :
    hostReaches (Config.t0Bytes + Config.t1Bytes - 1) 2 = true ∧ hostReaches Config.wcBank 1 = false ∧
    tierOf (64 * hostSector) = 2 ∧ (Sparse.get none withSector.mortar (64 * hostSector / 64)).isSome = true ∧ base.cxlDown = [] ∧
    tierOf 0 ≠ 2 ∧ Sparse.get none base.mortar hostSector = none ∧ 1 ∈ ({ base with cxlDown := [1] } : State).cxlDown := by
  decide +kernel

/-- Page 0x11 is asked for. -/
def asking (pri : Bool) : State := { withMem {} with pageReqs := [{ pasid := 0, vpage := 0x11, pri := pri }] }

/-- A store to page 0x10 in the side log of tile 0. -/
def logged : State :=
  let e : LogEntry := { seq := 0, ctx := 0, pasid := 0, va := 0x10000, op := 0, order := 0, scope := 0, aop := none, mask := 0, data := [7] }
  (withMem {}).setTile 0 { (withMem {}).tile 0 with sideLog := [e], logSeq := 1 }

theorem test_witness_TranslationsComeAndGo :
    (asking false).hasReq 0 0x11 false = true ∧ (asking true).hasReq 0 0x11 true = true ∧
    ((asking false).pageReqs.filter (fun r => r.pri)).length < 512 ∧ 2 ^ 45 - 1 + 1 ≤ 2 ^ 45 ∧
    (match logged.replayNext 0 with
     | some e => (match logged.rangeXlat e.pasid e.va e.data.length true with | .mapped _ => true | _ => false) && e.tag.isNone
     | none => false) = true := by decide +kernel

/-! ### Pages, sectors, engines -/

/-- The first pages of T0 and T1. -/
def t0Page : Nat := 0
def t1Page : Nat := Config.t0Bytes / 4096

/-- Page 0x10, used or not, swept so often, and virtual function 0 above its mark where the page is in T0. -/
def paged (accessed : Bool) (ppage swept : Nat) : State :=
  let s := withMem {}
  let s := s.setVf 0 { s.vf 0 with twm := if ppage < t1Page then [(0, 0)] else [] }
  { s with atc := [(atcKey 0 0x10, some { map := { ppage, writable := true }, accessed, swept })] }

theorem test_witness_PagesAndSectorsMove :
    (∀ a ∈ [false, true], let s := paged a 0x10 1
      (s.handAt 0 0x10).map (fun x => x.2) = some 0 ∧ (s.vf 0).privileged = false ∧ s.pageFixed 0 0 0x10 1 = false ∧
        s.atc.all (fun x => x.2.all (fun e => mapPages e.map == 1 && !s.pageHeld e.map)) = true ∧ s.demotes 0 (tierOf (4096 * 0x10)) = true ∧
        s.pageMoves = []) ∧
    tierOf (4096 * t1Page) = tierOf (4096 * 0x10) + 1 ∧
    (let s := paged true t1Page 1
     tierOf (4096 * t0Page) + 1 = tierOf (4096 * t1Page) ∧
       (match Sparse.get none s.atc (atcKey 0 0x10) with
        | some e => e.accessed && decide (1 ≤ e.swept) &&
          decide ((s.sweepPast 0 0x10 e).occupancy 0 0 < twmHi (s.watermark 0 0))
        | none => false) = true) ∧
    (let s := { paged false 0x10 0 with pageMoves := [{ pasid := 0, vpage := 0x10, dest := t1Page }] }
     s.pageMoves.any (fun m => m.pasid == 0 && m.vpage == 0x10) = true) ∧
    (∀ d ∈ [none, some 1],
      let s := base.setTile 0 { base.tile 0 with
        l1 := [(5, some { data := 0, tags := 0, fill := 0, dirty := d, dmask := 2, mtag := { vf := 0, pasid := 0, tid := 0, c := 0, line := 0 } })] }
      (match (s.tile 0).l1Get 5 with
       | some x => decide (s.clk < Nat.max x.fill (x.dirty.getD 0) + 32768) && x.dirty == d && x.dmask.getLsbD 1
       | none => false) = true) ∧ inWcBank (64 * 5 + 1) = false ∧ base.awaits 5 = false := by
  decide +kernel

/-- A copy of 128 bytes of the scratchpad from 0x40 to 0x180, of which the first 64 are at `cursor`. -/
def copying (cursor : Nat) : CopyCmd :=
  { copyCmd 0xE4 [] with
    desc := some (natBytes 4 1 ++ natBytes 4 128 ++ natBytes 2 1 ++ natBytes 2 1 ++ natBytes 2 1 ++ natBytes 50 0)
    sides := some (.linear spadCap (.spad 0) 0x40 [], .linear spadCap (.spad 0) 0x180 [])
    cursor := cursor }

/-- The same, whose destination is slots of 64 bytes of ring 0. -/
def pushing : CopyCmd := { copying 0 with sides := some (.linear spadCap (.spad 0) 0x40 [], .ring 0) }

def ringState (q : List CopyCmd) : State :=
  (withMem {}).setTile 0 { (withMem {}).tile 0 with cq := q, rings := [(0, { base := 0x800, slots := 2, slotsz := 64 })] }

def signal (op : Nat) (target : Word) : SignalCmd := { id := 0, op, iss := base.issuer 0 0, target, value := 5, ct := 9, nr := true }

/-- R374: 64 bytes from 0x44, in two sectors of the source, are written as one. -/
theorem test_copy_writes_whole_sectors :
    (match (ringState []).copyTurn 0 { copying 0 with
        sides := some (.linear spadCap (.spad 0) 0x44 [], .linear spadCap (.spad 0) 0x180 []) } with
     | .moved _ e => e.cursor
     | _ => 0) = 64 := by decide +kernel

theorem test_witness_CopyEngineRuns :
    (let d := copyDesc ((copying 0).desc.getD [])
     let dest := fun j => linearOff d 0x180 [] none j
     isIndexed 0xE4 = false ∧ d.total = 128 ∧ dest 0 % 64 = 0 ∧ (∀ j < 64, dest j = dest 0 + j) ∧
       (∀ j < 64, (ringState []).engPoison (copying 0).iss (.spad (linearOff d 0x40 [] none j)) 1 = none) ∧
       -- where the clauses meet: the end of the command, and a byte that goes elsewhere
       (let e := { d with n0 := 16, n1 := 2 }
        e.total = 32 ∧ linearOff e 0x180 [32] none 16 ≠ linearOff e 0x180 [32] none 0 + 16)) ∧
    (pushing.pushes = true ∧
      (match (ringState [pushing]).copyNext 0 with
       | (u, some c) => (match u.copyTurn 0 c with
         | .moved _ e => decide (e.cursor ≠ c.cursor ∧ e.cursor % 64 = 0) && c.pushes
         | _ => false)
       | _ => false) = true) ∧
    (match (ringState [copying 128]).copyNext 0 with
     | (_, some c) => c.sides.isSome && decide ((copyDesc (c.desc.getD [])).total ≤ c.cursor) && c.follow.isNone && c.hnd == 0
     | _ => false) = true ∧
    (∀ op ∈ [0xEA, 0xF3, 0xF4],
      let s := base.setTile 0 { base.tile 0 with sigq := [signal op 0] }
      (s.tile 0).sigq = [signal op 0] ∧ s.forkReady (signal op 0).iss = true ∧
        s.crewTile (signal op 0).iss.gang (signal op 0).iss.crew = some 0 ∧
        (match s.sigTarget (signal op 0) with
         | .inr (g, k) => decide (s.crewTile g k = some 0)
         | _ => op == 0xEA) = true) ∧
    base.sigTarget (signal 0xF3 (BitVec.ofNat 64 (2 ^ 24))) = .inl 1 ∧
    (match Sparse.get none base.waves 0 with | some w => decide (w.record.crews ≤ (1#64).toNat % 256) | none => false) = true := by
  decide +kernel

/-! ### Mortar, collectives, links, the Crown and Brim -/

/-- A command of tile 0's strand, without a place. -/
def engCmd (op arg : Nat) : EngCmd :=
  { id := 0, op, tile := 0, iss := base.issuer 0 0, ct := 9, nr := true, arg, hnd := 0, sval := 0, place := none, cap := {}, caps := []
    mask := 0, die := 0 }

def tensor : Tensor :=
  { obj := 0, pasid := 0, vabase := 0x10000, fmt := 1, rank := 1, halo := [0, 0, 0, 0], dim := [16, 1, 1, 1], stride := [0, 0, 0]
    scoff := 0, tile := [16, 1, 1, 1], off := 0 }

/-- A fill of slot 1 from block 0x10 on its way, with block 0x10 mapped to an empty page. -/
def filling : State :=
  let f : ProbeFill := { dst := 0, pasid := 0, blk := 0x10, cap := memCap, off := 0, ct := 9, iss := base.issuer 0 0 }
  (withMem {}).setTile 0 { (withMem {}).tile 0 with fills := [(1, some f)], probe := [(1, { pending := true, pasid := 0, blk := 0x10 })] }

def landing : State :=
  base.setTile 0 { base.tile 0 with landings := [{ cells := [(0, 7)], ct := 9, inc := 1, hnd := 0, len := 1, off := 0 }] }

theorem test_witness_MortarAndFillsComplete :
    (let c := engCmd 0xEC (2 ^ 16 + 3)
     let s := { base with mortarQ := [c] }
     mortarHeads 0 [] s.mortarQ = c :: [] ∧ s.forkReady c.iss = true ∧
       (match (s.fork c.iss).mortarRun c with | .done _ _ _ _ => true | _ => false) = true ∧ c.place = none ∧ c.arg % 2 ^ 16 ≠ 0 ∧
       Sparse.get none (s.vf 0).tensors 3 = none ∧ Sparse.wf none s.mortar = true ∧ (s.vf 0).objBase = none ∧
       Sparse.get none ((s.setVf 0 { s.vf 0 with tensors := [(3, some tensor)] }).vf 0).tensors 3 = some tensor) ∧
    (match Sparse.get none (filling.tile 0).fills 1, (filling.tile 0).crew with
     | some f, some w =>
       let u := filling.fork f.iss
       decide (filling.crewTile f.iss.gang f.iss.crew = some 0) && filling.forkReady f.iss && !w.stopped && u.capCurrent f.iss.vf f.cap &&
         (match u.lookupVa f.pasid (4096 * f.blk) false with | .mapped _ => true | _ => false)
     | _, _ => false) = true ∧
    (match (landing.tile 0).landings[0]?, (landing.tile 0).crew with
     | some l, some w => !w.frozen && l.coll.isNone && l.hnd == 0
     | _, _ => false) = true := by
  decide +kernel

theorem regionBytes_isSome (s : State) (r : Region) (off n : Nat) (hq : s.biQ = [])
    (h : ∀ i < n, ∃ pa, s.lookupVa r.pasid (r.va + off + i) false = .mapped pa) : (s.regionBytes r off n).isSome = true := by
  unfold State.regionBytes State.regionPending State.spaceBytes
  simp only [hq, List.isEmpty_nil, Bool.not_true, Bool.false_and, Bool.false_eq_true, if_false]
  have h' : ∀ i ∈ List.range n, ∃ pa, s.lookupVa r.pasid (r.va + off + i) false = .mapped pa := by simpa using h
  generalize List.range n = l at h'
  induction l with
  | nil => rfl
  | cons i l ih =>
    have t := ih (fun j hj => h' j (List.mem_cons_of_mem _ hj))
    obtain ⟨pa, hpa⟩ := h' i (List.mem_cons_self ..)
    obtain ⟨bs, hbs⟩ := Option.isSome_iff_exists.mp t
    rw [List.foldr_cons, hbs, hpa]
    rfl

theorem engPoison_none (s : State) (i : Issuer) (pasid va n : Nat) (obj : Option Nat) (h : s.poison = []) :
    s.engPoison i (.virt pasid va obj) n = none := by
  unfold State.engPoison
  rw [List.findSome?_eq_none_iff]
  intro x _
  simp only [h, Sparse.get]
  split <;> rfl

/-- The fill's block is there to be read, without poison. -/
theorem test_witness_ProbeFill :
    let u := filling.fork (base.issuer 0 0)
    u.engPoison (base.issuer 0 0) (.virt 0 (4096 * 0x10) (some 0)) 4096 = none ∧
      ((u.touchPage 0 (4096 * 0x10)).engRead (base.issuer 0 0) (.virt 0 (4096 * 0x10) (some 0)) 4096).isSome = true := by
  have hq : (filling.fork (base.issuer 0 0)).poison = [] := by decide +kernel
  have hb : ((filling.fork (base.issuer 0 0)).touchPage 0 (4096 * 0x10)).biQ = [] := by decide +kernel
  refine ⟨engPoison_none (filling.fork (base.issuer 0 0)) _ 0 (4096 * 0x10) 4096 (some 0) hq, ?_⟩
  unfold State.engRead State.vaRead
  refine regionBytes_isSome ((filling.fork (base.issuer 0 0)).touchPage 0 (4096 * 0x10)) _ _ _ hb ?_
  have hm : ((filling.fork (base.issuer 0 0)).touchPage 0 (4096 * 0x10)).pageMoves = [] := by decide +kernel
  have hp : Sparse.get none ((filling.fork (base.issuer 0 0)).touchPage 0 (4096 * 0x10)).atc (atcKey 0 0x10) =
      some { map := { ppage := 0x10, writable := true }, accessed := true } := by decide +kernel
  intro i hi
  refine ⟨0x10 * 4096 + (4096 * 0x10 + 0 + i) % 4096, ?_⟩
  simp only [State.lookupVa, State.moving, show (4096 * 0x10 + 0 + i) / 4096 = 0x10 by omega, pageAt_of_get _ _ _ _ hp, hm]
  simp

/-- A CLAR.sum of 64 bytes of FP32 at the one rank of a communicator. -/
def arDesc : List Byte := natBytes 1 1 ++ natBytes 1 1 ++ natBytes 6 0 ++ natBytes 8 64 ++ natBytes 48 0
def arCmd (begun : Nat) : CollCmd :=
  { id := 0, op := 0xDB, tile := 0, iss := base.issuer 0 0, ct := 9, nr := true, hnd := 0, cseq := 0, place := none, desc := arDesc
    steps := [{ kind := 2, mask := 0, vec := 64, base := 0 }], src := some (spadCap, .spad 0), begun := begun }
def comm1 (cs : List CollCmd) : Comm :=
  { vf := 0, cid := 1, nax := 1, prio := 0, vc := 3, axes := [1], nrank := 1, stg := [4, 0, 0, 0], image := [], table := [(0, 0)]
    digest := 0, slots := [(0, some 2)], members := [(0, some { die := 0, next := 1, cmds := cs })] }
def hod (x : Comm) : State := { base with comms := [(1, some x)] }

theorem test_witness_CollectivesRun :
    (let s := hod (comm1 [arCmd 0])
     let m := s.markCandidates 0
     s.hodQ = [] ∧ m.hodOrder 0 = [(1, 2)] ∧ (m.comm 1).isSome = true ∧
       (match m.comm 1 with
        | some x => (match m.beginner x 0 with
          | some (r, c) => r == 0 && (match m.beginChunk 1 r x c with | .done _ => true | _ => false)
          | none => false)
        | none => false) = true) ∧
    (let s := hod (comm1 [arCmd 0])
     let c := arCmd 0
     cdChain c.desc = false ∧ c.isReshard = false ∧ c.gives (comm1 []) 0 c.begun (some (.spad 0)) = some (some (.spad 0), 64, 0) ∧
       s.capCurrent c.iss.vf spadCap = true ∧ s.engPoison c.iss (.spad 0) 64 = none ∧
       ((s.placeTouch (.spad 0) 64).engRead c.iss (.spad 0) 64).isSome = true) ∧
    (∀ st ∈ [1, 2, 4, 6], (hod (comm1 [{ arCmd 0 with ended := some (st, 0) }])).verdicts 0 =
      [(1, 0, { arCmd 0 with ended := some (st, 0) }, st, 0)]) ∧
    ((comm1 []).aborted = false ∧ (comm1 []).lost = none ∧ 0 < (comm1 []).nrank ∧ (comm1 []).pausers = [] ∧
      ({ comm1 [] with table := [(5, 0)] } : Comm).node 0 ≠ base.nodeId.toNat ∧ 1 ∉ ({ comm1 [] with pausers := [0] } : Comm).pausers) := by
  decide +kernel

/-- The chunk has begun; its 64 bytes stand staged. -/
def landable (dst : Option (TCap × Place)) : State :=
  hod { comm1 [{ arCmd 1 with dst := dst }] with
    heads := [(0, 0, (comm1 []).head (arCmd 0))]
    staged := [{ n := 0, rank := 0, chunk := 0, parts := [(0, List.replicate 64 0)], dies := [0] }] }

theorem test_witness_ChunkLand :
    (match (landable none).landings 0 with
     | [(1, 0, c, 0, [(0, bs)])] => bs.length == 64 && c.opt.isNone && c.dst.isNone
     | _ => false) = true ∧
    (match (landable (some (spadCap, .spad 0))).landings 0 with
     | [(1, 0, c, 0, _)] => c.dst == some (spadCap, .spad 0) && !(landable none).crewHeld c.iss
     | _ => false) = true := by decide +kernel

/-- A page to land in, and a crew that is being saved. -/
theorem test_witness_ChunkLandElsewhere :
    (let s := landable (some (spadCap, .virt 0 0x10000 none))
     let s := { s with
       atc := (withMem {}).atc
       vfs := (withMem {}).vfs }
     match s.landings 0 with
     | [(1, 0, c, 0, _)] => c.dst == some (spadCap, .virt 0 0x10000 none) && s.capCurrent c.iss.vf spadCap &&
         (match s.placeXlat (.virt 0 0x10000 none) 64 true with | .mapped _ => true | _ => false)
     | _ => false) = true ∧
    (let s := frozen true true (landable (some (spadCap, .spad 0)))
     match s.landings 0 with
     | [(1, 0, c, 0, _)] => c.dst == some (spadCap, .spad 0) && s.crewHeld c.iss
     | _ => false) = true ∧
    ({ comm1 [] with lost := some 0 } : Comm).lost ≠ none := by decide +kernel

/-- Port 0 with these registers. -/
def port (x : LinkPort) : State := base.setLink 0 x
def flit (seq : Nat) (pay : FlitPay) : Flit := { dest := 0, seq, ackseq := 0, vc := 3, lane := 0, pay }

theorem test_witness_LinksDeliver :
    (base.link 0).up = true ∧ (base.link 0).arrival 0 = .inOrder ∧ (base.link 0).arrival 1 = .gap ∧
    (base.link 0).arrival 4095 = .duplicate ∧ (base.link 0).arrival 2048 = .duplicate ∧ (base.link 0).arrival 2047 = .gap ∧
    (flit 0 (.stop 1 0)).dest = base.nodeId.toNat ∧ ((hod (comm1 [])).comm 1).isSome = true ∧
    (base.link 0).nakked = none ∧ ((port { nakked := some 2 }).link 0).nakked = some 2 ∧ base.taken (flit 0 .ack) = false ∧
    (port { nakked := some 2 }).link 0 = { nakked := some 2 } ∧ (base.link 0).waiting = [] ∧
    ((port { replay := [flit 3 .ack, flit 4 .ack] }).link 0).replay = [flit 3 .ack] ++ flit 4 .ack :: [] ∧
    (∀ g ∈ ((port { replay := [flit 3 .ack] }).link 0).replay, g.seq ≠ 2) ∧
    (∀ n ∈ [15, 16], ((port { fails := n }).link 0).fails = n ∧ ((port { fails := n }).link 0).up = true) ∧
    (let s := { port { retrain := some 0 } with clk := 2 ^ 22 }
     (s.link 0).down = false ∧ (s.link 0).retrain = some 0 ∧ 0 + 2 ^ 22 ≤ s.clk) := by
  decide +kernel

/-- Weight set 5 of virtual function 0 with version 3 published in slot 1 and version 4 building in slot 2. -/
def weights : State :=
  { base with
    crownOwner := [(5, some 0)]
    crown := [(21, { ver := 3, state := 2 }), (22, { ver := 4, state := 1 })]
    crownQ := [engCmd 0xF9 0] }

/-- The strand names set 5 in ADOPT, and holds nothing. -/
def adopting : State := weights.setCtxAt 0 0 (weights.ctx.writeCsr 0x07 (mkAdopt 0 0 5 false 0 0))

/-- The strand has a sequence open in slot 0 of ring 3, whose header is on page 0x10. -/
def recording : State :=
  let s := withMem { tjHandle := BitVec.ofNat 64 (2 ^ 63 + 3) }
  let s := s.setVf 0 { s.vf 0 with tjrings := [(3, { region := some { pasid := 0, va := 0x10000, len := 4096 }, slots := 4, maxrec := 4 })] }
  { s with brimQ := [engCmd 0xF5 0] }

theorem test_witness_CrownAndBrimComplete :
    (let c := engCmd 0xF9 0
     let a := (adopting.ctxAt 0 0).readCsr 0x07
     adopting.broadcasts = [] ∧ adopting.crownQ = c :: [] ∧ c.bc = none ∧ c.place = none ∧ adopting.forkReady c.iss = true ∧
       adopting.crewTile c.iss.gang c.iss.crew = some 0 ∧ adoptSet a = 5 ∧ adoptHeld a = false ∧
       Sparse.get none adopting.crownOwner 5 = some 0 ∧ adopting.published 5 = some 1) ∧
    (weights.crownSlot 5 2).state = 1 ∧ weights.crownFind 5 [0] none = some 0 ∧ (weights.claimSlot 5 9).isSome = true ∧
    ({ comm1 [] with crown := some 5 } : Comm).heads = [] ∧
    (let s := { weights with crown := [(22, { ver := 4, state := 1 })] }
     (s.crownSlot 5 2).state = 1 ∧ s.published 5 = none) ∧
    (let c := engCmd 0xF5 0
     let h := (recording.ctxAt 0 0).tjHandle
     recording.brimQ = c :: [] ∧ recording.forkReady c.iss = true ∧ recording.tjCurrent c.iss.vf h = true ∧ c.hnd = 0 ∧
       (match (recording.tjRing c.iss.vf (tjRingOf h)).region with
        | some g => ((recording.fork c.iss).vaRead g.pasid ((recording.tjRing c.iss.vf (tjRingOf h)).slotVa g (tjSlotOf h)) 64).isSome
        | none => false) = true) := by
  decide +kernel

/-! ### The machine as a whole -/

theorem test_witness_DecodingReadsTheEncoding :
    WellFormed (.add sf) ∧ (encode (.add sf)).length = 8 ∧ encode (.add sf) ≠ [] := by decide +kernel

theorem test_witness_DecodedWordsAreEncodings :
    (match decodeSlot .s0 0x20140607 with | .ok i => decide (WellFormed i ∧ encodeSlot i = some (.s0, 0x20140607)) | _ => false) = true ∧
    (match decodeSlot .c (0x0C * 2 ^ 24 + 0x1C * 2 ^ 13) with
     | .ok i => decide (i = .unassignedCode 1 (BitVec.ofNat 64 (0x0C * 2 ^ 24 + 0x1C * 2 ^ 13)))
     | _ => false) = true := by decide +kernel

/-- The bundle of one instruction where the next step fetches. -/
def fetching (i : Instr) (s : State) : State := s.placeBundle (encode i)

/-- The step's fetch: the strand to issue, no cause, and the bundle of one slot. -/
noncomputable def fetches (s : State) (is : List Instr) : Bool :=
  match s.nextLive with
  | some t => (match (s.tile t).running with
    | some c =>
      let r := (s.turn t).landDue t c
      (r.ctxAt t c).causes.isEmpty && (match r.passOver t (r.ctxAt t c) with
        | .ok x => (match (r.setCtxAt t c x).fetchBundle t x with
          | .ok bs => (match decodeBundle bs with
            | .bundle b => decide (b.slots = is)
            | _ => false)
          | _ => false)
        | _ => false)
    | none => false)
  | none => false

theorem test_witness_StepRunsTheDecodedBundle :
    ({ base with agenda := [.clampTick] } : State).agenda = .clampTick :: [] ∧
    (State.reset.agenda = [] ∧ State.reset.nextLive = none) ∧
    (let s := fetching (.add sf) base
     s.agenda = [] ∧ fetches s [.add sf] = true ∧ (s.ctxAt 0 0).acting = true ∧ slotStop 0 0 (exec (.add sf) s) = .goes) ∧
    (let i := Instr.waitc { pred := 0, sense := 0, opnd := BitVec.ofNat 19 (9 * 2 ^ 11 + 5 * 2 ^ 5) }
     let s := fetching i (withCtx (regs [(5, 1)]))
     fetches s [i] = true ∧ (firstBlock [slotStop 0 0 (exec i s)]).isSome = true) ∧
    (let i := Instr.unassignedCode 2 0
     (firstBlock [slotStop 0 0 (exec i base)]).isNone = true ∧ (decidingTrap [slotStop 0 0 (exec i base)]).isSome = true) := by
  decide +kernel

theorem test_witness_StepKeepsMemoryCanonical :
    Memory.wf (fetching (.add sf) base) = true ∧
    (match step (fetching (.add sf) base) with | .next _ => true | _ => false) = true := by decide +kernel

/-! ### Words written out from the tables of 05 (R105 to R121) and 19 (R421) -/

/-- A slot word decodes to this instruction. -/
noncomputable def reads (p : SlotPos) (w : Nat) (i : Instr) : Bool :=
  match decodeSlot p w with
  | .ok j => decide (j = i)
  | .error _ => false

/-- A slot word is refused with this reason. -/
noncomputable def refuses (p : SlotPos) (w r : Nat) : Bool :=
  match decodeSlot p w with
  | .ok _ => false
  | .error q => q == r

/-- 05 R111, R112, R121: the C slots with guard !p3, each with its operands. -/
theorem test_words_C : (
    reads .c 0x01380000 (.barc { pred := 3, sense := 1, opnd := 0x0 }) &&
    reads .c 0x02380000 (.barg { pred := 3, sense := 1, opnd := 0x0 }) &&
    reads .c 0x0338A000 (.bargA { pred := 3, sense := 1, opnd := 0xA000 }) &&
    reads .c 0x0407FFE0 (.br { pred := 0, sense := 0, opnd := 0x7FFE0 }) &&
    reads .c 0x053FFFE0 (.brc { pred := 3, sense := 1, opnd := 0x7FFE0 }) &&
    reads .c 0x063FFFE0 (.call { pred := 3, sense := 1, opnd := 0x7FFE0 }) &&
    reads .c 0x07380000 (.eret { pred := 3, sense := 1, opnd := 0x0 }) &&
    reads .c 0x08380000 (.exit { pred := 3, sense := 1, opnd := 0x0 }) &&
    reads .c 0x09389FFF (.loop { pred := 3, sense := 1, opnd := 0x9FFF }) &&
    reads .c 0x0A3946FE (.probe { pred := 3, sense := 1, opnd := 0x146FE }) &&
    reads .c 0x0B380000 (.ret { pred := 3, sense := 1, opnd := 0x0 }) &&
    reads .c 0x0D380012 (.trap { pred := 3, sense := 1, opnd := 0x12 }) &&
    reads .c 0x0E3848C0 (.waitc { pred := 3, sense := 1, opnd := 0x48C0 }) &&
    reads .c 0x0F38831B (.waitvEq { pred := 3, sense := 1, opnd := 0x831B }) &&
    reads .c 0x1038831B (.waitvNe { pred := 3, sense := 1, opnd := 0x831B }) &&
    reads .c 0x1138831B (.waitvGe { pred := 3, sense := 1, opnd := 0x831B }) &&
    reads .c 0x12380000 (.yield { pred := 3, sense := 1, opnd := 0x0 })) = true := by
  decide +kernel

/-- 05 R105 to R107, R121: the S slots with dst 4, s5 and s6, or the operands that the instruction takes. -/
theorem test_words_S_1 : (
    reads .s0 0x20100506 (.add sf) &&
    reads .s0 0x21100506 (.addSat sf) &&
    reads .s0 0x22100506 (.and sf) &&
    reads .s0 0x23100506 (.andn sf) &&
    reads .s0 0x24100500 (.clz { sf with srcB := 0 }) &&
    reads .s0 0x25100506 (.cmpEq sf) &&
    reads .s0 0x26100506 (.cmpNe sf) &&
    reads .s0 0x27100506 (.cmpLt sf) &&
    reads .s0 0x28100506 (.cmpLe sf) &&
    reads .s0 0x29100506 (.cmpLtn sf) &&
    reads .s0 0x2A100506 (.cmpLen sf) &&
    reads .s0 0x2B100083 (.cnt { sf with srcA := 0, srcB := 0x83 }) &&
    reads .s0 0x2C10009C (.crd { sf with srcA := 0, srcB := 0x9c }) &&
    reads .s0 0x2D100500 (.ctz { sf with srcB := 0 }) &&
    reads .s0 0x2E000587 (.cwr { sf with dst := 0, srcB := 0x87 }) &&
    reads .s0 0x2F100506 (.div sf) &&
    reads .s0 0x30100506 (.divN sf) &&
    reads .s0 0x31100506 (.divR sf) &&
    reads .s0 0x32100506 (.divRn sf) &&
    reads .s0 0x33100506 (.ext sf)) = true := by
  decide +kernel

/-- 05 R105 to R107, R121: the S slots with dst 4, s5 and s6, or the operands that the instruction takes. -/
theorem test_words_S_2 : (
    reads .s0 0x34100506 (.fadd sf) &&
    reads .s0 0x35100506 (.fcmpEq sf) &&
    reads .s0 0x36100506 (.fcmpLt sf) &&
    reads .s0 0x37100506 (.fcmpLe sf) &&
    reads .s0 0x38100506 (.fcmpUn sf) &&
    reads .s0 0x39100500 (.fcvtFs { sf with srcB := 0 }) &&
    reads .s0 0x3A100500 (.fcvtSf { sf with srcB := 0 }) &&
    reads .s0 0x3B100500 (.fcvtFb { sf with srcB := 0 }) &&
    reads .s0 0x3C100500 (.fcvtBf { sf with srcB := 0 }) &&
    reads .s0 0x3D100506 (.ffma sf) &&
    reads .s0 0x3E100506 (.fmax sf) &&
    reads .s0 0x3F100506 (.fmin sf) &&
    reads .s0 0x40100506 (.fmul sf) &&
    reads .s0 0x41100506 (.ins sf) &&
    reads .s0 0x42100506 (.max sf) &&
    reads .s0 0x43100506 (.maxN sf) &&
    reads .s0 0x44100506 (.min sf) &&
    reads .s0 0x45100506 (.minN sf) &&
    reads .s0 0x46100500 (.mov { sf with srcB := 0 }) &&
    reads .s0 0x47100506 (.mul sf)) = true := by
  decide +kernel

/-- 05 R105 to R107, R121: the S slots with dst 4, s5 and s6, or the operands that the instruction takes. -/
theorem test_words_S_3 : (
    reads .s0 0x48100506 (.mulh sf) &&
    reads .s0 0x49100506 (.mulhN sf) &&
    reads .s0 0x4A100000 (.nrg { sf with srcA := 0, srcB := 0 }) &&
    reads .s0 0x4B100506 (.or sf) &&
    reads .s0 0x4C100182 (.plog { sf with srcA := 1, srcB := 0x82 }) &&
    reads .s0 0x4D100500 (.popc { sf with srcB := 0 }) &&
    reads .s0 0x4E100000 (.rnds { sf with srcA := 0, srcB := 0 }) &&
    reads .s0 0x4F100506 (.sar sf) &&
    reads .s0 0x501005C2 (.sel { sf with srcB := 0xc2 }) &&
    reads .s0 0x51100506 (.shl sf) &&
    reads .s0 0x52100506 (.shr sf) &&
    reads .s0 0x53100506 (.sub sf) &&
    reads .s0 0x54100506 (.subSat sf) &&
    reads .s0 0x55100506 (.xor sf)) = true := by
  decide +kernel

/-- 05 R108 to R110, R121: the A slots on [k1 + s2]. -/
theorem test_words_A_1 : (
    reads .a 0x601B810B (.aadd { af 1 3 with order := 3, scope := 4 }) &&
    reads .a 0x611B810B (.aand { af 1 3 with order := 3, scope := 4 }) &&
    reads .a 0x621B810B (.acas { af 1 3 with order := 3, scope := 4 }) &&
    reads .a 0x6323810B (.acasW { af 1 3 with data := 8, order := 3, scope := 4 }) &&
    reads .a 0x6419C10B (.acq { af 1 3 with order := 1, scope := 6 }) &&
    reads .a 0x651B810B (.afaddF32 { af 1 3 with order := 3, scope := 4 }) &&
    reads .a 0x661B810B (.afaddBf16 { af 1 3 with order := 3, scope := 4 }) &&
    reads .a 0x671B810B (.amax { af 1 3 with order := 3, scope := 4 }) &&
    reads .a 0x681B810B (.amaxN { af 1 3 with order := 3, scope := 4 }) &&
    reads .a 0x691B810B (.amin { af 1 3 with order := 3, scope := 4 }) &&
    reads .a 0x6A1B810B (.aminN { af 1 3 with order := 3, scope := 4 }) &&
    reads .a 0x6B1B810B (.aor { af 1 3 with order := 3, scope := 4 }) &&
    reads .a 0x6C1B810B (.axchg { af 1 3 with order := 3, scope := 4 }) &&
    reads .a 0x6D1B810B (.axor { af 1 3 with order := 3, scope := 4 }) &&
    reads .a 0x6E18010B (.bind (af 1 3)) &&
    reads .a 0x6F18010B (.bindU (af 1 3)) &&
    reads .a 0x70008000 (.fence { af 1 0 with data := 0, scope := 4, k := 0, s := 0 }) &&
    reads .a 0x71008000 (.fenceLd { af 1 0 with data := 0, scope := 4, k := 0, s := 0 }) &&
    reads .a 0x72008000 (.fenceSt { af 1 0 with data := 0, scope := 4, k := 0, s := 0 }) &&
    reads .a 0x7318010A (.kchk (af 1 2))) = true := by
  decide +kernel

/-- 05 R108 to R110, R121: the A slots on [k1 + s2]. -/
theorem test_words_A_2 : (
    reads .a 0x7418010B (.kder (af 1 3)) &&
    reads .a 0x7518010B (.kderS (af 1 3)) &&
    reads .a 0x76180101 (.kinfo { af 1 1 with s := 0 }) &&
    reads .a 0x7719410B (.kld { af 1 3 with order := 1, scope := 2 }) &&
    reads .a 0x781A410B (.kst { af 1 3 with order := 2, scope := 2 }) &&
    reads .a 0x7919410B (.ld { af 1 3 with order := 1, scope := 2 }) &&
    reads .a 0x7A19410B (.ldN { af 1 3 with order := 1, scope := 2 }) &&
    reads .a 0x7B18010B (.ldc (af 1 3)) &&
    reads .a 0x7C18010A (.lea (af 1 2)) &&
    reads .a 0x7D02C10B (.rel { af 1 3 with data := 0, order := 2, scope := 6 }) &&
    reads .a 0x7E1AA10B (.st { af 1 3 with order := 2, scope := 5 }) &&
    reads .a 0x7F1AA10B (.stm { af 1 3 with order := 2, scope := 5 })) = true := by
  decide +kernel

/-- 05 R113 to R115, R121: the V slots of cluster 0, each with operands that it takes. -/
theorem test_words_V_1 : (
    reads (.v (.cluster 0)) 0x80E004188100 (.skclr { vf 7 0 with dst := 0, bsel := 2 }) &&
    reads (.v (.cluster 0)) 0x81E004188100 (.skd { vf 7 0 with dst := 0, bsel := 2 }) &&
    reads (.v (.cluster 0)) 0x82E004188100 (.skh { vf 7 0 with dst := 0, bsel := 2 }) &&
    reads (.v (.cluster 0)) 0x83E004188100 (.skmrgQ { vf 7 0 with dst := 0, bsel := 2 }) &&
    reads (.v (.cluster 0)) 0x84E004188100 (.skmrgH { vf 7 0 with dst := 0, bsel := 2 }) &&
    reads (.v (.cluster 0)) 0x85E004188100 (.skmrgD { vf 7 0 with dst := 0, bsel := 2 }) &&
    reads (.v (.cluster 0)) 0x862004188100 (.skq { vf 1 0 with dst := 0, bsel := 2 }) &&
    reads (.v (.cluster 0)) 0x87E084188100 (.skqryQ { vf 7 0 with bsel := 2 }) &&
    reads (.v (.cluster 0)) 0x88E084188100 (.skqryR { vf 7 0 with bsel := 2 }) &&
    reads (.v (.cluster 0)) 0x89E084188100 (.skqryE { vf 7 0 with bsel := 2 }) &&
    reads (.v (.cluster 0)) 0x8A2084000050 (.vabs { vf 1 0 with srcB := 0, srcC := 0, pred := 5 }) &&
    reads (.v (.cluster 0)) 0x8B008007FF00 (.vacc { vf 0 0 with srcA := 0, bsel := 3, srcB := 7, srcC := 63 }) &&
    reads (.v (.cluster 0)) 0x8C2884180020 (.vadd { vf 1 1 with srcC := 0, pred := 2 }) &&
    reads (.v (.cluster 0)) 0x8DA484180000 (.vand { vf 5 0 with srcC := 0, nw := 1 }) &&
    reads (.v (.cluster 0)) 0x8E408401C200 (.vbcast { vf 2 0 with bsel := 3, srcB := 1, srcC := 2 }) &&
    reads (.v (.cluster 0)) 0x8F6094180000 (.vcmpEq { vf 3 0 with dst := 9, srcC := 0 }) &&
    reads (.v (.cluster 0)) 0x906094180000 (.vcmpNe { vf 3 0 with dst := 9, srcC := 0 }) &&
    reads (.v (.cluster 0)) 0x916094180000 (.vcmpLt { vf 3 0 with dst := 9, srcC := 0 }) &&
    reads (.v (.cluster 0)) 0x926094180000 (.vcmpLe { vf 3 0 with dst := 9, srcC := 0 }) &&
    reads (.v (.cluster 0)) 0x936094180000 (.vcmpUn { vf 3 0 with dst := 9, srcC := 0 })) = true := by
  decide +kernel

/-- 05 R113 to R115, R121: the V slots of cluster 0, each with operands that it takes. -/
theorem test_words_V_2 : (
    reads (.v (.cluster 0)) 0x94008400C100 (.vcvtRne { vf 0 0 with bsel := 3, srcB := 0, srcC := 1 }) &&
    reads (.v (.cluster 0)) 0x95008400C100 (.vcvtRtz { vf 0 0 with bsel := 3, srcB := 0, srcC := 1 }) &&
    reads (.v (.cluster 0)) 0x96008400C100 (.vcvtRdn { vf 0 0 with bsel := 3, srcB := 0, srcC := 1 }) &&
    reads (.v (.cluster 0)) 0x97008400C100 (.vcvtRup { vf 0 0 with bsel := 3, srcB := 0, srcC := 1 }) &&
    reads (.v (.cluster 0)) 0x98008400C200 (.vcvtSr { vf 0 0 with bsel := 3, srcB := 0, srcC := 2 }) &&
    reads (.v (.cluster 0)) 0x992084000050 (.vexp2 { vf 1 0 with srcB := 0, srcC := 0, pred := 5 }) &&
    reads (.v (.cluster 0)) 0x9A2084180130 (.vfma { vf 1 0 with pred := 3 }) &&
    reads (.v (.cluster 0)) 0x9B2084180130 (.vfmaS { vf 1 0 with pred := 3 }) &&
    reads (.v (.cluster 0)) 0x9C2084180130 (.vfmaN { vf 1 0 with pred := 3 }) &&
    reads (.v (.cluster 0)) 0x9D8084188100 (.vgath { vf 4 0 with bsel := 2 }) &&
    reads (.v (.cluster 0)) 0x9E8084188100 (.vgathS { vf 4 0 with bsel := 2 }) &&
    reads (.v (.cluster 0)) 0x9FA484180000 (.viadd { vf 5 0 with srcC := 0, nw := 1 }) &&
    reads (.v (.cluster 0)) 0xA0A484180000 (.viaddSat { vf 5 0 with srcC := 0, nw := 1 }) &&
    reads (.v (.cluster 0)) 0xA1A484180000 (.viaddSub { vf 5 0 with srcC := 0, nw := 1 }) &&
    reads (.v (.cluster 0)) 0xA2A484180000 (.viaddSubsat { vf 5 0 with srcC := 0, nw := 1 }) &&
    reads (.v (.cluster 0)) 0xA3E080588000 (.vidx { vf 7 0 with srcA := 1, bsel := 2, srcC := 0 }) &&
    reads (.v (.cluster 0)) 0xA4A484180000 (.vimul { vf 5 0 with srcC := 0, nw := 1 }) &&
    reads (.v (.cluster 0)) 0xA54080188100 (.vld { vf 2 0 with srcA := 0, bsel := 2 }) &&
    reads (.v (.cluster 0)) 0xA64080188100 (.vldSt { vf 2 0 with srcA := 0, bsel := 2 }) &&
    reads (.v (.cluster 0)) 0xA72084000050 (.vlog2 { vf 1 0 with srcB := 0, srcC := 0, pred := 5 })) = true := by
  decide +kernel

/-- 05 R113 to R115, R121: the V slots of cluster 0, each with operands that it takes. -/
theorem test_words_V_3 : (
    reads (.v (.cluster 0)) 0xA8C084180020 (.vmax { vf 6 0 with srcC := 0, pred := 2 }) &&
    reads (.v (.cluster 0)) 0xA9C084180020 (.vmin { vf 6 0 with srcC := 0, pred := 2 }) &&
    reads (.v (.cluster 0)) 0xAA2080180000 (.vmov { vf 1 0 with srcA := 0, srcC := 0 }) &&
    reads (.v (.cluster 0)) 0xAB2884180020 (.vmul { vf 1 1 with srcC := 0, pred := 2 }) &&
    reads (.v (.cluster 0)) 0xAC2084000050 (.vneg { vf 1 0 with srcB := 0, srcC := 0, pred := 5 }) &&
    reads (.v (.cluster 0)) 0xADA484180000 (.vor { vf 5 0 with srcC := 0, nw := 1 }) &&
    reads (.v (.cluster 0)) 0xAEE084188140 (.vpart { vf 7 0 with bsel := 2, pred := 4 }) &&
    reads (.v (.cluster 0)) 0xAF0884000000 (.vpkPp8 { vf 0 1 with srcB := 0, srcC := 0 }) &&
    reads (.v (.cluster 0)) 0xB00884000000 (.vpkMx4 { vf 0 1 with srcB := 0, srcC := 0 }) &&
    reads (.v (.cluster 0)) 0xB12084000050 (.vrcp { vf 1 0 with srcB := 0, srcC := 0, pred := 5 }) &&
    reads (.v (.cluster 0)) 0xB2A034000000 (.vredAdd { vf 5 0 with dst := 3, srcB := 0, srcC := 0 }) &&
    reads (.v (.cluster 0)) 0xB3A034000000 (.vredMax { vf 5 0 with dst := 3, srcB := 0, srcC := 0 }) &&
    reads (.v (.cluster 0)) 0xB4A034000000 (.vredMin { vf 5 0 with dst := 3, srcB := 0, srcC := 0 }) &&
    reads (.v (.cluster 0)) 0xB52084000050 (.vrsq { vf 1 0 with srcB := 0, srcC := 0, pred := 5 }) &&
    reads (.v (.cluster 0)) 0xB6A484180000 (.vsar { vf 5 0 with srcC := 0, nw := 1 }) &&
    reads (.v (.cluster 0)) 0xB7A084000000 (.vscanAdd { vf 5 0 with srcB := 0, srcC := 0 }) &&
    reads (.v (.cluster 0)) 0xB8A084000000 (.vscanMax { vf 5 0 with srcB := 0, srcC := 0 }) &&
    reads (.v (.cluster 0)) 0xB98004188100 (.vscat { vf 4 0 with bsel := 2, dst := 0 }) &&
    reads (.v (.cluster 0)) 0xBA8004188100 (.vscatS { vf 4 0 with bsel := 2, dst := 0 }) &&
    reads (.v (.cluster 0)) 0xBB2084180040 (.vsel { vf 1 0 with srcC := 0, pred := 4 })) = true := by
  decide +kernel

/-- 05 R113 to R115, R121: the V slots of cluster 0, each with operands that it takes. -/
theorem test_words_V_4 : (
    reads (.v (.cluster 0)) 0xBC2084180000 (.vshfPerm { vf 1 0 with srcC := 0 }) &&
    reads (.v (.cluster 0)) 0xBD2084188000 (.vshfRot { vf 1 0 with bsel := 2, srcC := 0 }) &&
    reads (.v (.cluster 0)) 0xBEA484180000 (.vshl { vf 5 0 with srcC := 0, nw := 1 }) &&
    reads (.v (.cluster 0)) 0xBFA484180000 (.vshr { vf 5 0 with srcC := 0, nw := 1 }) &&
    reads (.v (.cluster 0)) 0xC02084000050 (.vsig { vf 1 0 with srcB := 0, srcC := 0, pred := 5 }) &&
    reads (.v (.cluster 0)) 0xC14004188100 (.vst { vf 2 0 with dst := 0, bsel := 2 }) &&
    reads (.v (.cluster 0)) 0xC24004188100 (.vstSt { vf 2 0 with dst := 0, bsel := 2 }) &&
    reads (.v (.cluster 0)) 0xC32884180020 (.vsub { vf 1 1 with srcC := 0, pred := 2 }) &&
    reads (.v (.cluster 0)) 0xC4E080C00000 (.vsum { vf 7 0 with srcA := 3, srcB := 0, srcC := 0 }) &&
    reads (.v (.cluster 0)) 0xC52084000050 (.vtanh { vf 1 0 with srcB := 0, srcC := 0, pred := 5 }) &&
    reads (.v (.cluster 0)) 0xC60884000000 (.vupkPp8 { vf 0 1 with srcB := 0, srcC := 0 }) &&
    reads (.v (.cluster 0)) 0xC70884000000 (.vupkMx4 { vf 0 1 with srcB := 0, srcC := 0 }) &&
    reads (.v (.cluster 0)) 0xC8E08400CA00 (.vxcl { vf 7 0 with bsel := 3, srcB := 0, srcC := 10 }) &&
    reads (.v (.cluster 0)) 0xC9A484180000 (.vxor { vf 5 0 with srcC := 0, nw := 1 })) = true := by
  decide +kernel

/-- 05 R116, R117, R119, R121: the M and the K slots. -/
theorem test_words_M_K : (
    reads .m 0xD000C00000000000 (.mdrain { ringA := 0, ringB := 0, acc := 3, pop := 0, fmt := 0, scb := 0 }) &&
    reads .m 0xD100C00000000000 (.mdrainCt { ringA := 0, ringB := 0, acc := 3, pop := 0, fmt := 0, scb := 0 }) &&
    reads .m 0xD2B0000000000000 (.mring { ringA := 11, ringB := 0, acc := 0, pop := 0, fmt := 0, scb := 0 }) &&
    reads .m 0xD323659000000000 (.mstep { ringA := 2, ringB := 3, acc := 1, pop := 2, fmt := 5, scb := 9 }) &&
    reads .m 0xD423659000000000 (.mstepx { ringA := 2, ringB := 3, acc := 1, pop := 2, fmt := 5, scb := 9 }) &&
    reads .m 0xD500C00000000000 (.mzero { ringA := 0, ringB := 0, acc := 3, pop := 0, fmt := 0, scb := 0 }) &&
    reads .k 0xD65243FF (.ldsA { sc := 5, base := 9, disp := 0x3FF }) &&
    reads .k 0xD75243FF (.ldsB { sc := 5, base := 9, disp := 0x3FF }) &&
    reads .k 0xD8800001 (.limm 0x800001)) = true := by
  decide +kernel

/-- 05 R118, R121: the E slots, with the argument that the entry of each gives. -/
theorem test_words_E_1 : (
    reads .e 0xD910C13400020000
      (.clabt { k := 2, s := 6, ct := 9, qprio := 5, hnd := 0x0, arg := 0x20000 }) &&
    reads .e 0xDA10C13600060000
      (.clag { k := 2, s := 6, ct := 9, qprio := 5, hnd := 0x8001, arg := 0x20000 }) &&
    reads .e 0xDB10C13600060000
      (.clarSum { k := 2, s := 6, ct := 9, qprio := 5, hnd := 0x8001, arg := 0x20000 }) &&
    reads .e 0xDC10C13600060000
      (.clarMax { k := 2, s := 6, ct := 9, qprio := 5, hnd := 0x8001, arg := 0x20000 }) &&
    reads .e 0xDD10C13400020000
      (.clbar { k := 2, s := 6, ct := 9, qprio := 5, hnd := 0x0, arg := 0x20000 }) &&
    reads .e 0xDE10C13600060000
      (.clbc { k := 2, s := 6, ct := 9, qprio := 5, hnd := 0x8001, arg := 0x20000 }) &&
    reads .e 0xDF10C13400020000
      (.clopt { k := 2, s := 6, ct := 9, qprio := 5, hnd := 0x0, arg := 0x20000 }) &&
    reads .e 0xE010C13600060000
      (.clrsSum { k := 2, s := 6, ct := 9, qprio := 5, hnd := 0x8001, arg := 0x20000 }) &&
    reads .e 0xE110C13600060000
      (.clrsMax { k := 2, s := 6, ct := 9, qprio := 5, hnd := 0x8001, arg := 0x20000 }) &&
    reads .e 0xE210C13600060000
      (.clrsh { k := 2, s := 6, ct := 9, qprio := 5, hnd := 0x8001, arg := 0x20000 }) &&
    reads .e 0xE310C1340002BEEF
      (.clst { k := 2, s := 6, ct := 9, qprio := 5, hnd := 0x0, arg := 0x2BEEF }) &&
    reads .e 0xE410C1360006FFFF
      (.cpy { k := 2, s := 6, ct := 9, qprio := 5, hnd := 0x8001, arg := 0x2FFFF }) &&
    reads .e 0xE510C1360006FFFF
      (.cpyfA { k := 2, s := 6, ct := 9, qprio := 5, hnd := 0x8001, arg := 0x2FFFF }) &&
    reads .e 0xE610C1360006FFFF
      (.cpyfB { k := 2, s := 6, ct := 9, qprio := 5, hnd := 0x8001, arg := 0x2FFFF }) &&
    reads .e 0xE710C1360006FFFF
      (.cpyg { k := 2, s := 6, ct := 9, qprio := 5, hnd := 0x8001, arg := 0x2FFFF }) &&
    reads .e 0xE810C1340002FFFF
      (.cpys { k := 2, s := 6, ct := 9, qprio := 5, hnd := 0x0, arg := 0x2FFFF }) &&
    reads .e 0xE910C1360006FFFF
      (.cpyz { k := 2, s := 6, ct := 9, qprio := 5, hnd := 0x8001, arg := 0x2FFFF }) &&
    reads .e 0xEA00C13400020000
      (.cset { k := 0, s := 6, ct := 9, qprio := 5, hnd := 0x0, arg := 0x20000 }) &&
    reads .e 0xEB00C13400020003
      (.mtfet { k := 0, s := 6, ct := 9, qprio := 5, hnd := 0x0, arg := 0x20003 }) &&
    reads .e 0xEC00013400030003
      (.mthalo { k := 0, s := 0, ct := 9, qprio := 5, hnd := 0x0, arg := 0x30003 })) = true := by
  decide +kernel

/-- 05 R118, R121: the E slots, with the argument that the entry of each gives. -/
theorem test_words_E_2 : (
    reads .e 0xED00013400020000
      (.mtinvWb { k := 0, s := 0, ct := 9, qprio := 5, hnd := 0x0, arg := 0x20000 }) &&
    reads .e 0xEE00013400020000
      (.mtinvDrop { k := 0, s := 0, ct := 9, qprio := 5, hnd := 0x0, arg := 0x20000 }) &&
    reads .e 0xEF00C13400000003
      (.mtlook { k := 0, s := 6, ct := 9, qprio := 5, hnd := 0x0, arg := 0x3 }) &&
    reads .e 0xF000C13400020003
      (.mtpin { k := 0, s := 6, ct := 9, qprio := 5, hnd := 0x0, arg := 0x20003 }) &&
    reads .e 0xF110C13400020000
      (.mtreg { k := 2, s := 6, ct := 9, qprio := 5, hnd := 0x0, arg := 0x20000 }) &&
    reads .e 0xF200013400020003
      (.mtrel { k := 0, s := 0, ct := 9, qprio := 5, hnd := 0x0, arg := 0x20003 }) &&
    reads .e 0xF300C13400020000
      (.sigcAdd { k := 0, s := 6, ct := 9, qprio := 5, hnd := 0x0, arg := 0x20000 }) &&
    reads .e 0xF400C13400020000
      (.sigcSet { k := 0, s := 6, ct := 9, qprio := 5, hnd := 0x0, arg := 0x20000 }) &&
    reads .e 0xF500C13400020000
      (.tjclose { k := 0, s := 6, ct := 9, qprio := 5, hnd := 0x0, arg := 0x20000 }) &&
    reads .e 0xF600C1340002003F
      (.tjopen { k := 0, s := 6, ct := 9, qprio := 5, hnd := 0x0, arg := 0x2003F }) &&
    reads .e 0xF710C13600060000
      (.tjrd { k := 2, s := 6, ct := 9, qprio := 5, hnd := 0x8001, arg := 0x20000 }) &&
    reads .e 0xF810C1340002000F
      (.tjrec { k := 2, s := 6, ct := 9, qprio := 5, hnd := 0x0, arg := 0x2000F }) &&
    reads .e 0xF900013400020000
      (.wvadopt { k := 0, s := 0, ct := 9, qprio := 5, hnd := 0x0, arg := 0x20000 }) &&
    reads .e 0xFA10C13400020000
      (.wvdrop { k := 2, s := 6, ct := 9, qprio := 5, hnd := 0x0, arg := 0x20000 }) &&
    reads .e 0xFB10C13400020000
      (.wvhold { k := 2, s := 6, ct := 9, qprio := 5, hnd := 0x0, arg := 0x20000 }) &&
    reads .e 0xFC10C13400020000
      (.wvpub { k := 2, s := 6, ct := 9, qprio := 5, hnd := 0x0, arg := 0x20000 }) &&
    reads .e 0xFD10C13400020000
      (.wvqry { k := 2, s := 6, ct := 9, qprio := 5, hnd := 0x0, arg := 0x20000 })) = true := by
  decide +kernel

/-- 05 R112, 19 R421, R423: SYSC with each subcode, guard !p3, argument register s7. -/
theorem test_words_SYSC_1 : (
    reads .c 0x0C382380 (.syscTsel { pred := 3, sense := 1, arg := 7 }) &&
    reads .c 0x0C384380 (.syscCourse { pred := 3, sense := 1, arg := 7 }) &&
    reads .c 0x0C386380 (.syscSave { pred := 3, sense := 1, arg := 7 }) &&
    reads .c 0x0C388380 (.syscRestore { pred := 3, sense := 1, arg := 7 }) &&
    reads .c 0x0C38A380 (.syscFlr { pred := 3, sense := 1, arg := 7 }) &&
    reads .c 0x0C38C380 (.syscWarm { pred := 3, sense := 1, arg := 7 }) &&
    reads .c 0x0C38E380 (.syscAssign { pred := 3, sense := 1, arg := 7 }) &&
    reads .c 0x0C390380 (.syscVfcfg { pred := 3, sense := 1, arg := 7 }) &&
    reads .c 0x0C392380 (.syscLqcfg { pred := 3, sense := 1, arg := 7 }) &&
    reads .c 0x0C394380 (.syscWcset { pred := 3, sense := 1, arg := 7 }) &&
    reads .c 0x0C396380 (.syscCtxtab { pred := 3, sense := 1, arg := 7 }) &&
    reads .c 0x0C398380 (.syscObjtab { pred := 3, sense := 1, arg := 7 }) &&
    reads .c 0x0C39A380 (.syscObjinv { pred := 3, sense := 1, arg := 7 }) &&
    reads .c 0x0C39C380 (.syscTraparea { pred := 3, sense := 1, arg := 7 }) &&
    reads .c 0x0C39E380 (.syscSupq { pred := 3, sense := 1, arg := 7 }) &&
    reads .c 0x0C3A0380 (.syscWatch { pred := 3, sense := 1, arg := 7 }) &&
    reads .c 0x0C3A2380 (.syscTwm { pred := 3, sense := 1, arg := 7 }) &&
    reads .c 0x0C3A4380 (.syscPnrp { pred := 3, sense := 1, arg := 7 }) &&
    reads .c 0x0C3A6380 (.syscStage { pred := 3, sense := 1, arg := 7 }) &&
    reads .c 0x0C3A8380 (.syscComreg { pred := 3, sense := 1, arg := 7 })) = true := by
  decide +kernel

/-- 05 R112, 19 R421, R423: SYSC with each subcode, guard !p3, argument register s7. -/
theorem test_words_SYSC_2 : (
    reads .c 0x0C3AA380 (.syscVcshare { pred := 3, sense := 1, arg := 7 }) &&
    reads .c 0x0C3AC380 (.syscNode { pred := 3, sense := 1, arg := 7 }) &&
    reads .c 0x0C3AE380 (.syscRoute { pred := 3, sense := 1, arg := 7 }) &&
    reads .c 0x0C3B0380 (.syscCrownset { pred := 3, sense := 1, arg := 7 }) &&
    reads .c 0x0C3B2380 (.syscTjring { pred := 3, sense := 1, arg := 7 }) &&
    reads .c 0x0C3B4380 (.syscSecnt { pred := 3, sense := 1, arg := 7 }) &&
    reads .c 0x0C3B6380 (.syscMonsel { pred := 3, sense := 1, arg := 7 })) = true := by
  decide +kernel

/-! ### Words and bundles from the examples of 04, 05 and 17 to 20 -/

/-- 04 R84: the shadow form of MOV, and what is no form of it. -/
theorem test_words_shadow : (
    reads .s0 (0x46 * 2 ^ 24 + 5 * 2 ^ 8 + 0x80 + 3) (.movShadow { inS1 := false, nw := 0, srcA := 5, sel := 3 }) &&
    reads .s1 (0x46 * 2 ^ 24 + 2 ^ 17 + 5 * 2 ^ 8 + 0x80 + 0x24) (.movShadow { inS1 := true, nw := 1, srcA := 5, sel := 0x24 })) = true := by
  decide +kernel

/-- 05 R122: an unassigned code, a code of another class, and a reserved operand. -/
theorem test_words_refused : (
    refuses .a 0x20000000 2 && refuses .s1 0x5A000000 1 && refuses .c 0x04300000 3 &&
    refuses .c 0 1 && refuses .c 0x13000000 1 && refuses .e (0xFE * 2 ^ 56) 1) = true := by
  decide +kernel

/-- The examples of 05: brc at 0x0100 to 0x00C0, ld, mstep.bf16 and limm, in one bundle of 24 bytes. -/
theorem test_bundle_of_05 :
    decodeBundle [0xA9, 0x00, 0x01, 0x00, 0xE0, 0xFF, 0x37, 0x05, 0x17, 0x03, 0x30, 0x79,
                  0x00, 0x00, 0x00, 0x00, 0x00, 0x40, 0x23, 0xD3, 0x45, 0x23, 0x01, 0xD8] =
      .bundle { hint := 1, mswap := false, eswap := false, length := 24
                slots := [.brc { pred := 3, sense := 0, opnd := 0x7FFE0 },
                          .ld { data := 12, order := 0, scope := 0, k := 3, s := 5, size := 3 },
                          .mstep { ringA := 2, ringB := 3, acc := 1, pop := 0, fmt := 0, scb := 0 }, .limm 0x012345] } := by
  decide +kernel

/-- 05 R122's three cases, as a bundle reports them: reason and position. -/
theorem test_bundle_refused :
    decodeBundle [0x08, 0, 0, 0, 0x00, 0x00, 0x00, 0x20] = .illegal 2 4 ∧
    decodeBundle [0x01, 0, 0, 0, 0x00, 0x00, 0x30, 0x04] = .illegal 3 1 := by
  decide +kernel

/-- 04 R75, R80: a header alone, and the two swap bits. -/
theorem test_bundle_headers :
    decodeBundle [0, 0, 0, 0] = .bundle { hint := 0, mswap := false, eswap := false, slots := [.emptyBundle], length := 4 } ∧
    decodeBundle [0, 0, 0x0C, 0] = .bundle { hint := 0, mswap := true, eswap := true, slots := [.mswap, .eswap], length := 4 } := by
  decide +kernel

/-- Words that the examples of the reference give: waitc ct9, s6; waitv.eq.w [k2 + s3], s6; sar; add.sat; rnds s8; fence.dev. -/
theorem test_words_of_examples : (
    reads .c 0x0E0048C0 (.waitc { pred := 0, sense := 0, opnd := 0x48C0 }) &&
    reads .c 0x0F00831A (.waitvEq { pred := 0, sense := 0, opnd := 0x831A }) &&
    reads .s0 0x4F100506 (.sar sf) &&
    reads .s0 0x211005BF (.addSat { sf with srcB := 0xBF }) &&
    reads .s0 0x4E200000 (.rnds { sf with dst := 8, srcA := 0, srcB := 0 }) &&
    reads .a 0x70008000 (.fence { data := 0, order := 0, scope := 4, k := 0, s := 0, size := 0 }) &&
    reads .m 0xD323400000000000 (.mstep { ringA := 2, ringB := 3, acc := 1, pop := 0, fmt := 0, scb := 0 })) = true := by
  decide +kernel

/-! ### Ill-formed instructions, one for each check: the reason of 04 R81 that each is refused with -/

/-- An instruction is refused with this reason. -/
def badWith (r : Nat) (i : Instr) : Bool := illop i == some r

/-- 05 R111, R112: operand bits that must be 0, a guarded BR, LOOP over nothing, WAITV of a byte. -/
theorem test_ill_formed_C : (
    badWith 3 (.barc { pred := 0, sense := 0, opnd := 1 }) &&
    badWith 3 (.barg { pred := 0, sense := 0, opnd := 1 }) &&
    badWith 3 (.eret { pred := 0, sense := 0, opnd := 1 }) &&
    badWith 3 (.exit { pred := 0, sense := 0, opnd := 1 }) &&
    badWith 3 (.ret { pred := 0, sense := 0, opnd := 1 }) &&
    badWith 3 (.yield { pred := 0, sense := 0, opnd := 1 }) &&
    badWith 3 (.br { pred := 1, sense := 0, opnd := 4 }) &&
    badWith 3 (.br { pred := 0, sense := 1, opnd := 4 }) &&
    badWith 3 (.loop { pred := 0, sense := 0, opnd := 0x8000 }) &&
    badWith 3 (.waitc { pred := 0, sense := 0, opnd := 0x4801 }) &&
    badWith 3 (.waitvEq { pred := 0, sense := 0, opnd := 0x8318 }) &&
    badWith 3 (.waitvNe { pred := 0, sense := 0, opnd := 0x8319 }) &&
    badWith 3 (.waitvGe { pred := 0, sense := 0, opnd := 0x8319 }) &&
    badWith 3 (.bargA { pred := 0, sense := 0, opnd := 0xA001 }) &&
    badWith 3 (.trap { pred := 0, sense := 0, opnd := 0x10000 })) = true := by decide

/-- 05 R105 to R107, 04 R83, R84: reserved source codes, misaligned groups, latches in a group, forms that are not taken. -/
theorem test_ill_formed_S_1 : (
    badWith 3 (.add { sf with srcA := 80 }) &&
    badWith 3 (.add { sf with srcB := 0x50 }) &&
    badWith 5 (.add { sf with width := 1, dst := 5, srcA := 6 }) &&
    badWith 5 (.add { sf with width := 1 }) &&
    badWith 5 (.add { sf with width := 1, srcA := 64, srcB := 2 }) &&
    badWith 5 (.sub { sf with width := 2, srcA := 4, srcB := 6 }) &&
    badWith 3 (.mov { sf with srcB := 1 }) &&
    badWith 3 (.clz { sf with srcB := 0x80 }) &&
    badWith 5 (.popc { sf with width := 1, srcB := 0 }) &&
    badWith 5 (.ffma { sf with width := 1, nw := 1, dst := 5, srcA := 6 }) &&
    badWith 3 (.ffma { sf with srcA := 80 }) &&
    badWith 3 (.cmpEq { sf with dst := 16 }) &&
    badWith 0xa (.cmpEq { sf with width := 1, srcA := 6 }) &&
    badWith 3 (.fcmpLt { sf with srcB := 0x7F }) &&
    badWith 0xa (.div { sf with width := 1, srcA := 6 }) &&
    badWith 0xa (.ext { sf with srcB := 0x80 }) &&
    badWith 0xa (.ins { sf with width := 1, srcA := 6 }) &&
    badWith 3 (.plog { sf with srcA := 16 })) = true := by decide

/-- 05 R105 to R107, 04 R83, R84: reserved source codes, misaligned groups, latches in a group, forms that are not taken. -/
theorem test_ill_formed_S_2 : (
    badWith 3 (.plog { sf with dst := 16 }) &&
    badWith 0xa (.plog { sf with width := 1 }) &&
    badWith 0xa (.sel { sf with srcB := 2 }) &&
    badWith 3 (.sel { sf with srcB := 0x92 }) &&
    badWith 0xa (.sel { sf with srcA := 6, srcB := 0x82, width := 1 }) &&
    badWith 0xb (.crd { sf with srcA := 0, srcB := 0x9D }) &&
    badWith 3 (.crd { sf with srcB := 0x80 }) &&
    badWith 0xa (.crd { sf with srcA := 0, srcB := 2 }) &&
    badWith 0xb (.cwr { sf with dst := 0, srcB := 0xFF }) &&
    badWith 3 (.cwr { sf with srcB := 0x87 }) &&
    badWith 0xa (.cwr { sf with dst := 0, srcB := 7 }) &&
    badWith 3 (.cnt { sf with srcA := 0, srcB := 0x88 }) &&
    badWith 0xa (.cnt { sf with srcA := 0, srcB := 3 }) &&
    badWith 3 (.nrg { sf with srcA := 0, srcB := 0x80 }) &&
    badWith 3 (.rnds { sf with srcA := 1, srcB := 0 }) &&
    badWith 0xa (.rnds { sf with srcA := 0, srcB := 0, width := 1 }) &&
    badWith 3 (.movShadow { inS1 := false, nw := 0, srcA := 80, sel := 0 }) &&
    badWith 3 (.movShadow { inS1 := false, nw := 0, srcA := 5, sel := 0x21 })) = true := by decide

/-- 05 R109, R110, 17 R356, 18 R387 to R392, 19 R411, R418, R419, 12 R258: scopes, orders, sizes, pairs and groups. -/
theorem test_ill_formed_A_1 : (
    badWith 3 (.ld { af 1 3 with order := 1, scope := 7 }) &&
    badWith 3 (.ld { af 1 3 with scope := 4 }) &&
    badWith 5 (.ld { af 1 3 with scope := 1, data := 5 }) &&
    badWith 0xa (.ld { af 1 3 with order := 2 }) &&
    badWith 0xa (.ldN { af 1 2 with scope := 1 }) &&
    badWith 0xa (.ldc { af 1 3 with order := 1 }) &&
    badWith 0xa (.ldc { af 1 3 with scope := 1 }) &&
    badWith 0xa (.st { af 1 3 with order := 1 }) &&
    badWith 5 (.st { af 1 3 with scope := 2 }) &&
    badWith 0xa (.st { af 1 2 with scope := 1 }) &&
    badWith 5 (.stm { af 1 3 with data := 5 }) &&
    badWith 5 (.stm { af 1 3 with scope := 1 }) &&
    badWith 0xa (.stm (af 1 2)) &&
    badWith 0xa (.stm { af 1 3 with order := 3 }) &&
    badWith 3 (.aadd { af 1 3 with scope := 7 }) &&
    badWith 5 (.acas { af 1 3 with data := 5 }) &&
    badWith 5 (.acasW (af 1 3)) &&
    badWith 3 (.acasW { af 1 2 with data := 4 })) = true := by decide

/-- 05 R109, R110, 17 R356, 18 R387 to R392, 19 R411, R418, R419, 12 R258: scopes, orders, sizes, pairs and groups. -/
theorem test_ill_formed_A_2 : (
    badWith 0xa (.acq { af 1 3 with scope := 1 }) &&
    badWith 0xa (.acq { af 1 3 with order := 1 }) &&
    badWith 0xa (.acq { af 1 2 with order := 1, scope := 1 }) &&
    badWith 3 (.rel { af 1 3 with order := 2, scope := 1 }) &&
    badWith 0xa (.rel { af 1 3 with order := 2, data := 0 }) &&
    badWith 0xa (.rel { af 1 3 with data := 0, scope := 1 }) &&
    badWith 3 (.bind { af 1 3 with scope := 1 }) &&
    badWith 3 (.bindU { af 1 3 with data := 32 }) &&
    badWith 0xa (.bind { af 1 3 with order := 1 }) &&
    badWith 0xa (.bind (af 1 2)) &&
    badWith 3 (.fence { af 1 0 with k := 0, s := 0 }) &&
    badWith 3 (.fenceLd { af 1 0 with data := 0, s := 0 }) &&
    badWith 3 (.fenceSt { af 1 0 with data := 0, k := 0 }) &&
    badWith 0xa (.fence { af 1 0 with data := 0, k := 0, s := 0, order := 1 }) &&
    badWith 3 (.kchk { af 1 3 with scope := 1 }) &&
    badWith 0xa (.lea { af 1 3 with order := 1 }) &&
    badWith 5 (.kder { af 1 3 with s := 3 }) &&
    badWith 3 (.kderS { af 1 3 with data := 32 })) = true := by decide

/-- 05 R109, R110, 17 R356, 18 R387 to R392, 19 R411, R418, R419, 12 R258: scopes, orders, sizes, pairs and groups. -/
theorem test_ill_formed_A_3 : (
    badWith 0xa (.kder (af 1 2)) &&
    badWith 3 (.kinfo (af 1 3)) &&
    badWith 3 (.kinfo { af 1 2 with s := 0 }) &&
    badWith 0xa (.kinfo { af 1 0 with s := 0, order := 1 }) &&
    badWith 0xa (.kld { af 1 3 with order := 2 }) &&
    badWith 3 (.kld { af 1 3 with data := 32 }) &&
    badWith 0xa (.kst { af 1 3 with order := 1 }) &&
    badWith 0xa (.kst (af 1 2))) = true := by decide

/-- 05 R113 to R115, 08, 09 R179, 20 R431 to R452: types, forms of srcB, groups, predicates and reserved fields. -/
theorem test_ill_formed_V_1 : (
    badWith 0xa (.vadd { vf 4 0 with srcC := 0 }) &&
    badWith 3 (.vadd (vf 0 0)) &&
    badWith 3 (.vadd { vf 0 0 with bsel := 1, srcC := 0 }) &&
    badWith 5 (.vadd { vf 0 1 with bsel := 1, srcB := 1, srcC := 0 }) &&
    badWith 5 (.vadd { vf 0 2 with dst := 2, srcC := 0 }) &&
    badWith 5 (.vadd { vf 0 1 with srcA := 17, srcC := 0 }) &&
    badWith 5 (.vadd { vf 0 1 with srcB := 25, srcC := 0 }) &&
    badWith 0xa (.vand { vf 0 0 with srcC := 0 }) &&
    badWith 0xa (.vbcast { vf 0 0 with srcC := 0 }) &&
    badWith 3 (.vabs (vf 0 0)) &&
    badWith 0xa (.vabs { vf 7 0 with srcB := 0, srcC := 0 }) &&
    badWith 0xa (.vexp2 { vf 2 0 with srcB := 0, srcC := 0 }) &&
    badWith 0xa (.vfma { vf 0 0 with bsel := 3 }) &&
    badWith 5 (.vfmaS (vf 0 1)) &&
    badWith 0xa (.vfmaN (vf 4 0)) &&
    badWith 3 (.vcmpEq { vf 0 0 with dst := 0, srcC := 0 }) &&
    badWith 3 (.vcmpEq { vf 0 0 with dst := 16, srcC := 0 }) &&
    badWith 0xa (.vcmpUn { vf 4 0 with srcC := 0 })) = true := by decide

/-- 05 R113 to R115, 08, 09 R179, 20 R431 to R452: types, forms of srcB, groups, predicates and reserved fields. -/
theorem test_ill_formed_V_2 : (
    badWith 0xa (.vcmpLt { vf 0 1 with srcC := 0 }) &&
    badWith 0xa (.vsel { vf 0 0 with srcC := 0 }) &&
    badWith 3 (.vsel { vf 0 0 with pred := 1 }) &&
    badWith 3 (.vmov { vf 0 0 with srcC := 0 }) &&
    badWith 3 (.vidx { vf 7 0 with srcA := 2, bsel := 2, srcC := 0 }) &&
    badWith 0xa (.vidx { vf 0 0 with srcA := 0, bsel := 2, srcC := 0 }) &&
    badWith 0xa (.vcvtRne { vf 0 0 with srcB := 0, srcC := 0 }) &&
    badWith 0xa (.vcvtRne { vf 0 0 with bsel := 3, srcB := 0, srcC := 0 }) &&
    badWith 3 (.vcvtRtz { vf 0 0 with bsel := 3, srcB := 1, srcC := 1 }) &&
    badWith 0xa (.vcvtSr { vf 2 2 with dst := 0, bsel := 3, srcB := 0, srcC := 8 }) &&
    badWith 0xa (.vxcl { vf 0 0 with bsel := 3, srcB := 0, srcC := 1 }) &&
    badWith 3 (.vxcl { vf 7 0 with bsel := 3, srcB := 0, srcC := 24 }) &&
    badWith 0xa (.vpart { vf 7 0 with bsel := 2 }) &&
    badWith 3 (.vpart { vf 7 0 with bsel := 2, pred := 1, srcC := 32 }) &&
    badWith 3 (.vredAdd { vf 0 0 with srcB := 0, srcC := 0 }) &&
    badWith 0xa (.vredMax { vf 0 1 with dst := 0, srcB := 0, srcC := 0 }) &&
    badWith 0xa (.vscanAdd { vf 0 1 with srcB := 0, srcC := 0 }) &&
    badWith 3 (.vsum { vf 7 0 with srcB := 0, srcC := 0 })) = true := by decide

/-- 05 R113 to R115, 08, 09 R179, 20 R431 to R452: types, forms of srcB, groups, predicates and reserved fields. -/
theorem test_ill_formed_V_3 : (
    badWith 0xa (.vsum { vf 0 0 with srcA := 0, srcB := 0, srcC := 0 }) &&
    badWith 3 (.vacc { vf 0 0 with bsel := 2, srcC := 0 }) &&
    badWith 3 (.vacc { vf 0 0 with srcA := 0, bsel := 3, srcB := 8, srcC := 0 }) &&
    badWith 0xa (.vpkPp8 { vf 0 0 with srcB := 0, srcC := 0 }) &&
    badWith 0xa (.vupkMx4 { vf 1 1 with srcB := 0, srcC := 0 }) &&
    badWith 0xa (.vgath { vf 1 0 with bsel := 2 }) &&
    badWith 3 (.vgath { vf 0 0 with bsel := 2, srcC := 32 }) &&
    badWith 0xa (.vgathS (vf 0 0)) &&
    badWith 3 (.vscat { vf 0 0 with bsel := 2 }) &&
    badWith 5 (.vscatS { vf 0 0 with dst := 0, bsel := 2, srcA := 17 }) &&
    badWith 3 (.vld { vf 0 0 with bsel := 2 }) &&
    badWith 0xa (.vldSt { vf 0 0 with srcA := 0 }) &&
    badWith 3 (.vst { vf 0 0 with bsel := 2 }) &&
    badWith 3 (.vstSt { vf 0 0 with dst := 0, nw := 1, bsel := 2 }) &&
    badWith 0xa (.skq { vf 7 0 with dst := 0, bsel := 2 }) &&
    badWith 3 (.skh { vf 7 0 with bsel := 2 }) &&
    badWith 0xa (.skd { vf 7 1 with dst := 0, bsel := 2 }) &&
    badWith 0xa (.skqryQ { vf 0 0 with bsel := 2 })) = true := by decide

/-- 05 R113 to R115, 08, 09 R179, 20 R431 to R452: types, forms of srcB, groups, predicates and reserved fields. -/
theorem test_ill_formed_V_4 : (
    badWith 0xa (.skqryE { vf 7 1 with bsel := 2 })) = true := by decide

/-- 05 R116, R117: fields that are not used, reserved formats, a scale base without scales, and scb 15 with MXFP4. -/
theorem test_ill_formed_M : (
    badWith 3 (.mzero { mf with ringA := 1, ringB := 0 }) &&
    badWith 3 (.mzero { mf with  }) &&
    badWith 3 (.mdrain { mf with ringB := 0, pop := 1 }) &&
    badWith 3 (.mdrainCt { mf with ringB := 0, fmt := 1 }) &&
    badWith 3 (.mring { mf with  }) &&
    badWith 3 (.mring { mf with ringB := 0, acc := 1 }) &&
    badWith 3 (.mstep { mf with fmt := 8 }) &&
    badWith 3 (.mstepx { mf with fmt := 1, scb := 1 }) &&
    badWith 0xa (.mstep { mf with fmt := 5, scb := 15 })) = true := by decide

/-- 05 R118, 11 R234, 14 R305, R314, 17 R364, R373, R377, 19 R415, R429, 20 R457: handlers, arguments, TIDs and pairs. -/
theorem test_ill_formed_E_1 : (
    badWith 3 (.clag { ef with arg := 1 }) &&
    badWith 3 (.clbar { ef with hnd := 1 }) &&
    badWith 3 (.clabt { ef with arg := 1 }) &&
    badWith 3 (.clst { ef with arg := 0x10000 }) &&
    badWith 3 (.cpy { ef with arg := 0x10000 }) &&
    badWith 3 (.cpys { ef with hnd := 1 }) &&
    badWith 3 (.cset { ef with  }) &&
    badWith 3 (.cset { ef with k := 0, arg := 1 }) &&
    badWith 5 (.sigcAdd { ef with k := 0, s := 3 }) &&
    badWith 3 (.sigcSet { ef with  }) &&
    badWith 3 (.mtfet { ef with k := 0 }) &&
    badWith 3 (.mtpin { ef with arg := 3 }) &&
    badWith 3 (.mtinvWb { ef with k := 0, arg := 3 }) &&
    badWith 3 (.mtinvDrop { ef with k := 0, s := 0, arg := 0x10000 }) &&
    badWith 3 (.mthalo { ef with k := 0, s := 0 }) &&
    badWith 3 (.mtrel { ef with k := 0, s := 0, arg := 0x10001 }) &&
    badWith 3 (.mtlook { ef with k := 0, arg := 0x20003 }) &&
    badWith 3 (.mtreg { ef with arg := 1 })) = true := by decide

/-- 05 R118, 11 R234, 14 R305, R314, 17 R364, R373, R377, 19 R415, R429, 20 R457: handlers, arguments, TIDs and pairs. -/
theorem test_ill_formed_E_2 : (
    badWith 3 (.tjopen { ef with k := 0, arg := 0x40 }) &&
    badWith 3 (.tjclose { ef with k := 0, arg := 1 }) &&
    badWith 3 (.tjrec { ef with arg := 16 }) &&
    badWith 3 (.tjrd { ef with arg := 1 }) &&
    badWith 3 (.wvpub { ef with hnd := 1 }) &&
    badWith 3 (.wvadopt { ef with k := 0 })) = true := by decide

/-- And the terms that these vary are well-formed. -/
theorem test_well_formed :
    WellFormed (.add sf) ∧ WellFormed (.ld (af 1 3)) ∧ WellFormed (.vfma (vf 0 0)) ∧ WellFormed (.mstep mf) ∧ WellFormed (.clag ef) ∧
      WellFormed (.brc (cOn 4)) := by decide

/-- The words of the examples of 07 to 10 and 17 to 20. -/
theorem test_words_of_reference_1 : (
    reads .c 0x0A014610 (.probe { pred := 0, sense := 0, opnd := 0x14610 }) &&
    reads .c 0x06000680 (.call { pred := 0, sense := 0, opnd := 0x680 }) &&
    reads .c 0x0300A000 (.bargA { pred := 0, sense := 0, opnd := 0xA000 }) &&
    reads .c 0x0C004380 (.syscCourse { pred := 0, sense := 0, arg := 7 }) &&
    reads .s0 0x31100506 (.divR sf) &&
    reads .s1 0x3310054F (.ext { sf with inS1 := true, srcB := 0x4F }) &&
    reads .s0 0x39140600 (.fcvtFs { sf with dst := 5, srcA := 6, srcB := 0 }) &&
    reads .s0 0x270C0405 (.cmpLt { sf with dst := 3, srcA := 4, srcB := 5 }) &&
    reads .a 0x6630870F (.afaddBf16 { data := 12, order := 0, scope := 4, k := 7, s := 3, size := 3 }) &&
    reads .a 0x6228A10B (.acas { data := 10, order := 0, scope := 5, k := 1, s := 2, size := 3 }) &&
    reads .a 0x73C00317 (.kchk { data := 0b110000, order := 0, scope := 0, k := 3, s := 5, size := 3 }) &&
    reads .a 0x7414042B (.kder { data := 5, order := 0, scope := 0, k := 4, s := 10, size := 3 }) &&
    reads .a 0x77198213 (.kld { data := 6, order := 1, scope := 4, k := 2, s := 4, size := 3 }) &&
    reads .a 0x7920421B (.ld { data := 8, order := 0, scope := 2, k := 2, s := 6, size := 3 }) &&
    reads .k 0xD7524003 (.ldsB { sc := 5, base := 9, disp := 3 })) = true := by
  decide +kernel

theorem test_words_of_reference_2 : (
    reads (.v (.cluster 0)) 0xAEE142868530
      (.vpart { vf 7 0 with dst := 20, srcA := 10, srcB := 6, bsel := 2, srcC := 5, pred := 3 }) &&
    reads (.v .broadcast) 0x9A30810C1020
      (.vfma { target := .broadcast, type := 1, width := 2, nw := 0, dst := 8, srcA := 4, srcB := 12, bsel := 0, srcC := 16, pred := 2 }) &&
    reads (.v (.cluster 0)) 0x94114200CA00
      (.vcvtRne { vf 0 2 with dst := 20, srcA := 8, srcB := 0, bsel := 3, srcC := 10 }) &&
    reads (.v (.cluster 0)) 0xBAE000868500 (.vscatS { vf 7 0 with dst := 0, srcA := 2, srcB := 6, bsel := 2, srcC := 5 }) &&
    reads (.v (.cluster 0)) 0x80E002068400 (.skclr { vf 7 0 with dst := 0, srcA := 8, srcB := 6, bsel := 2, srcC := 4 }) &&
    reads (.v (.cluster 0)) 0x860002868400 (.skq { vf 0 0 with dst := 0, srcA := 10, srcB := 6, bsel := 2, srcC := 4 }) &&
    reads (.v (.cluster 0)) 0x87E143468400 (.skqryQ { vf 7 0 with dst := 20, srcA := 13, srcB := 6, bsel := 2, srcC := 4 }) &&
    reads .e 0xEA00A18000000000 (.cset { k := 0, s := 5, ct := 12, qprio := 0, hnd := 0, arg := 0 }) &&
    reads .e 0xF30080E000000000 (.sigcAdd { k := 0, s := 4, ct := 7, qprio := 0, hnd := 0, arg := 0 }) &&
    reads .e 0xF600E0A000000003 (.tjopen { k := 0, s := 7, ct := 5, qprio := 0, hnd := 0, arg := 3 }) &&
    reads .e 0xF820C0A000000003 (.tjrec { k := 4, s := 6, ct := 5, qprio := 0, hnd := 0, arg := 3 }) &&
    reads .e 0xF50120A000000000 (.tjclose { k := 0, s := 9, ct := 5, qprio := 0, hnd := 0, arg := 0 }) &&
    reads .e 0xF71900C000000000 (.tjrd { k := 3, s := 8, ct := 6, qprio := 0, hnd := 0, arg := 0 }) &&
    reads .e 0xF900008000000000 (.wvadopt { k := 0, s := 0, ct := 4, qprio := 0, hnd := 0, arg := 0 }) &&
    reads .e 0xFC19004000000000 (.wvpub { k := 3, s := 8, ct := 2, qprio := 0, hnd := 0, arg := 0 })) = true := by
  decide +kernel

/-! ### Single steps, with the results that the examples of the rules give -/

/-- The context n clk after an instruction, its results landed. -/
def lands (i : Instr) (n : Nat) (s : State) : Ctx :=
  match exec i s with
  | .next u => (({ u with clk := u.clk + n } : State).landDue 0 0).ctxAt 0 0
  | _ => {}

/-- The same for an instruction that stands for a read of the machine. -/
def after (i : Instr) (n : Nat) (s : State) : State :=
  match exec i s with
  | .next u => ({ u with clk := u.clk + n } : State).landDue 0 0
  | _ => State.reset

def two (a b : Word) : State := withCtx (regs [(5, a), (6, b)])

/-- 19 R408's table. -/
theorem test_shifts :
    (lands (.sar sf) 1 (two 0xFFFFFFFFFFFFFF00 4)).readS 4 = 0xFFFFFFFFFFFFFFF0 ∧
    (lands (.shr sf) 1 (two 0xFFFFFFFFFFFFFF00 4)).readS 4 = 0x0FFFFFFFFFFFFFF0 ∧
    (lands (.shl sf) 1 (two 0xFFFFFFFFFFFFFF00 4)).readS 4 = 0xFFFFFFFFFFFFF000 ∧
    (lands (.sar sf) 1 (two 0xFFFFFFFFFFFFFF00 65)).readS 4 = 0xFFFFFFFFFFFFFFFF ∧
    (lands (.shr sf) 1 (two 0xFFFFFFFFFFFFFF00 65)).readS 4 = 0 ∧
    (lands (.shl sf) 1 (two 0xFFFFFFFFFFFFFF00 64)).readS 4 = 0 := by decide +kernel

/-- 17 R359: add.sat s4, s5, 63. -/
theorem test_add_sat :
    let c := lands (.addSat { sf with srcB := 0xBF }) 1 (two 0x7FFFFFFFFFFFFFF0 0)
    c.readS 4 = 0x7FFFFFFFFFFFFFFF ∧ c.readCsr 0x0B &&& 1 = 1 := by decide +kernel

/-- 17 R366: cmp.ltn p3, s4, -1. -/
theorem test_cmp_ltn :
    (lands (.cmpLtn { sf with dst := 3, srcB := 0xFF }) 1 (two 0xFFFFFFFFFFFFFFFE 0)).readP 3 = true ∧
    (lands (.cmpLtn { sf with dst := 3, srcB := 0xFF }) 1 (two 0xFFFFFFFFFFFFFFFF 0)).readP 3 = false := by decide +kernel

/-- 18 R378: -7 and 2, as b6 receives them. -/
theorem test_div :
    let q := fun (i : Instr) => ((lands i 0 (two (BitVec.ofInt 64 (-7)) 2)).port 6).map (fun e => e.value)
    q (.divR sf) = [BitVec.ofNat 512 (2 ^ 64 - 1)] ∧ q (.div sf) = [BitVec.ofNat 512 (2 ^ 64 - 3)] ∧
    q (.divN sf) = [0x7FFFFFFFFFFFFFFC] ∧ q (.divRn sf) = [1] := by decide +kernel

/-- 18 R383: POS 8, LEN 12 and SX. -/
theorem test_ext :
    (lands (.ext sf) 2 (two 0xABCD12 0x8C08)).readS 4 = 0xFFFFFFFFFFFFFBCD ∧
    (lands (.ext sf) 2 (two 0xABCD12 0x0C08)).readS 4 = 0xBCD := by decide +kernel

/-- 18 R386: 2.5 under rne and under rup. -/
theorem test_fcvt_fs :
    (lands (.fcvtFs { sf with srcB := 0 }) 4 (two 0x40200000 0)).readS 4 = 2 ∧
    (fpCvtFs .rup 0x40200000).value = 3 ∧ (fpCvtFs .rtz 0x40200000).value = 2 := by decide +kernel

/-- 18 R405: the products of 2^63 with itself and with -1. -/
theorem test_mul :
    (lands (.mul sf) 4 (two 0x8000000000000000 0x8000000000000000)).readS 4 = 0 ∧
    (lands (.mulhN sf) 4 (two 0x8000000000000000 0x8000000000000000)).readS 4 = 0x4000000000000000 ∧
    (lands (.mulh sf) 4 (two 0x8000000000000000 0x8000000000000000)).readS 4 = 0x4000000000000000 ∧
    (lands (.mulh sf) 4 (two 0x8000000000000000 0xFFFFFFFFFFFFFFFF)).readS 4 = 0 ∧
    (lands (.mulhN sf) 4 (two 0x8000000000000000 0xFFFFFFFFFFFFFFFF)).readS 4 = 0x7FFFFFFFFFFFFFFF := by decide +kernel

/-- 05 R119: limm -70000 in b15. -/
theorem test_limm : (lands (.limm (BitVec.ofInt 24 (-70000))) 1 base).readB 15 = BitVec.ofInt 64 (-70000) := by decide +kernel

/-- 17 R363: call at 0x300 in a bundle of 12 bytes to 0x1000; a branch back. -/
theorem test_call :
    let s := withCtx { pc := 0x300, seqpc := 0x30C }
    (lands (.call (cOn 0x680)) 0 s).callStack = [0x30C] ∧ (lands (.call (cOn 0x680)) 0 s).npc = some 0x1000 ∧
    (lands (.brc (cOn 0x7FFE0)) 0 (withCtx { pc := 0x100, seqpc := 0x118 })).npc = some 0xC0 := by decide +kernel

/-- 17 R354: four BF16 lanes. -/
theorem test_afadd_bf16 :
    let s := (withMem { s := [(6, 0x7F7F8000FF803B80)] }).setTile 0 { (withMem { s := [(6, 0x7F7F8000FF803B80)] }).tile 0 with
      spad := bytesAt 0 (natBytes 8 0x7F7F80007F803F80) }
    let u := after (.afaddBf16 { af 1 3 with scope := 4 }) 20 s
    bytesNat (u.spadBytes 0 0 8) = 0x7F8080007FC03F80 ∧
      ((u.ctxAt 0 0).port 5).map (fun e => e.value) = [0x7F7F80007F803F80] := by decide +kernel

/-- 18 R389, R390: a read-only window of an object. -/
theorem test_kder :
    let k4 := mkCap 1 0 (rR + rW + rD + rE) 0 0 0x10000
    let s := withMem { s := [(10, 0x1000), (11, 0x200000001000)], k := [(4, k4)] }
    let w := (lands (.kder { data := 5, order := 0, scope := 0, k := 4, s := 10, size := 3 }) 2 s).readK 5
    capLow w = 0x1000 ∧ capLen w = 0x1000 ∧ capRights w = rR ∧ w.tag = true := by decide +kernel

/-- 18 R394: a quad load at 0x40, and the same at 0x44. -/
theorem test_ld_quad :
    let i := Instr.ld { data := 8, order := 0, scope := 2, k := 1, s := 6, size := 3 }
    let at' := fun (a : Word) => (withMem { s := [(6, a)] }).setTile 0 { (withMem { s := [(6, a)] }).tile 0 with
      spad := bytesAt 0x40 (natBytes 8 1 ++ natBytes 8 2 ++ natBytes 8 3 ++ natBytes 8 4) }
    (match exec i (at' 0x40) with
     | .next u => ((u.ctxAt 0 0).port 3).map (fun e => (e.value, e.writes.map (fun w => match w with | .sreg r v => (r, v) | _ => (0, 0))))
     | _ => []) = [(1, [(8, 1), (9, 2), (10, 3), (11, 4)])] ∧
    (match exec i (at' 0x44) with
     | .next u => decide ((u.ctxAt 0 0).run = .fatal ∧ (u.ctxAt 0 0).readCsr 0x08 = BitVec.ofNat 64 (causeCode .misalign))
     | _ => false) = true := by decide +kernel

/-! ### Formats, vectors and matrices -/

/-- 06 R131's table: 1.3125, -1.3125 and 1.28125 to E4M3 under rne, rtz, rdn, rup, and sr with a draw below and at its bound. -/
theorem test_rounding_modes :
    let r := fun (m : RMode) (x : Nat) => (fround e4m3 m (fdecode fp32 x)).code
    ([RMode.rne, .rtz, .rdn, .rup, .sr 32767, .sr 32768].map (fun m => r m 0x3FA80000)) = [0x3A, 0x3A, 0x3A, 0x3B, 0x3B, 0x3A] ∧
    ([RMode.rne, .rtz, .rdn, .rup, .sr 32767, .sr 32768].map (fun m => r m 0xBFA80000)) = [0xBA, 0xBA, 0xBB, 0xBA, 0xBB, 0xBA] ∧
    ([RMode.rne, .rtz, .rdn, .rup, .sr 16383, .sr 16384].map (fun m => r m 0x3FA40000)) = [0x3A, 0x3A, 0x3A, 0x3B, 0x3B, 0x3A] := by
  decide +kernel

/-- 06 R133: stochastic overflow: 460 with draws below and at its bound, 500, -1000. -/
theorem test_stochastic_overflow :
    let r := fun (d x : Nat) => fround e4m3 (.sr d) (fdecode fp32 x)
    (r 20000 0x43E60000).code = 0x7F ∧ (r 20000 0x43E60000).flags = fOVF ∧ (r 24576 0x43E60000).code = 0x7E ∧
    (r 24576 0x43E60000).flags = 0 ∧ (r 5 0x43FA0000).code = 0x7F ∧ (r 5 0xC47A0000).code = 0x7F := by decide +kernel

/-- 06 R126, R128: scales 1.0 and 3.0; 0x1B is 0.375, as are 0x23, 0x32 and 0xB1. -/
theorem test_power_pairs :
    fdecode sc24 0x7F0000 = .fin false 65536 (-16) ∧ (fround fp32 .rne (fdecode sc24 0x808000)).code = 0x40400000 ∧
    [0x1B, 0x23, 0x32, 0xB1].map (fun b => (fround fp32 .rne (pp8Dec b)).code) = [0x3EC00000, 0x3EC00000, 0x3EC00000, 0x3EC00000] := by
  decide +kernel

/-- 06 R141: the saturating s8 tree of 100, 100, -100, -100 and zeros ends at -1, with ISAT set. -/
theorem test_s8_tree :
    let v : Vec := 0x9C9C6464
    let s := withCtx { v := [(2, v)] }
    let c := lands (.vredAdd { vf 6 0 with dst := 1, srcA := 2, srcB := 0, srcC := 0 }) 12 s
    (c.readSum 0 1).bits.setWidth 8 = 0xFF ∧ c.readCsr 0x0B &&& 1 = 1 := by decide +kernel

/-- 20 R434: vfma.bf16 of 1.0, 2^-8 and 1.0 under VRM 0. -/
theorem test_vfma_bf16 :
    let s := withCtx { v := [(4, 0x3F80), (12, 0x3B80), (16, 0x3F80), (8, 0xFFFFFFFF00000000)], vp := [(2, 1)] }
    let c := lands (.vfma { vf 1 2 with dst := 8, srcA := 4, srcB := 12, srcC := 16, pred := 2 }) 4 s
    c.readV 0 8 &&& 0xFFFFFFFFFFFFFFFF = 0xFFFFFFFF00003F80 := by decide +kernel

/-- 20 R443, R444: four f32 registers to one of e4m3, without and with .satf. -/
theorem test_vcvt_e4m3 :
    let s := withCtx { v := [(8, 0x7FC0000043FA00003FA80000), (9, 0x8000000000000000)] }
    let i := fun (c : BitVec 6) => Instr.vcvtRne { vf 0 2 with dst := 20, srcA := 8, srcB := 0, bsel := 3, srcC := c }
    (lands (i 2) 4 s).readV 0 20 = BitVec.ofNat 512 (0x8000 * 2 ^ 128 + 0x7F7F3A) ∧ (lands (i 2) 4 s).readCsr 0x0B = 4 ∧
    (lands (i 10) 4 s).readV 0 20 = BitVec.ofNat 512 (0x8000 * 2 ^ 128 + 0x7F7E3A) ∧ (lands (i 10) 4 s).readCsr 0x0B = 8 := by
  decide +kernel

/-- 08 R177: one MXFP4 block of 3.0, -1.5 and 0.7. -/
theorem test_vpk_mx4 :
    let s := withCtx { v := [(8, 0x3F333333BFC0000040400000)] }
    let c := lands (.vpkMx4 { vf 0 1 with dst := 20, srcA := 8, srcB := 0, srcC := 0 }) 8 s
    c.readV 0 20 = 0x3D7 ∧ c.readV 0 21 = 0x7E0000 := by decide +kernel

/-- 20 R447: the scatter with a repeated index. -/
theorem test_vscat_s :
    let s := withMem { s := [(6, 0x300)], v := [(2, 0x000000280000001E000000140000000A),
      (3, (2 ^ 512 - 2 ^ 128) + 0x00000002000000010000000100000000)], k := [(5, spadCap)] }
    let u := after (.vscatS { vf 7 0 with dst := 0, srcA := 2, srcB := 6, bsel := 2, srcC := 5 }) 20 s
    [0x300, 0x304, 0x308, 0x30C].map (fun o => bytesNat (u.spadBytes 0 o 4)) = [10, 30, 40, 0] := by decide +kernel

/-- 08 R168 to R171: sixteen indices of which lanes 0, 2, 5 and 7 are true. -/
theorem test_vpart :
    let idx : Vec := 0x0000000F0000000E0000000D0000000C0000000B0000000A00000009000000080000000700000006000000050000000400000003000000020000000100000000
    let s := withMem { s := [(6, 0x200)], v := [(10, idx)], vp := [(3, 0xA5)], k := [(5, spadCap)] }
    let s := s.setTile 0 { s.tile 0 with spad := bytesAt 0x208 (natBytes 4 16) }
    let u := after (.vpart { vf 7 0 with dst := 20, srcA := 10, srcB := 6, bsel := 2, srcC := 5, pred := 3 }) 40 s
    bytesNat (u.spadBytes 0 0x200 8) = 4 + 12 * 2 ^ 32 := by decide +kernel

/-- 08 R172 to R174: sixteen values of 1.0, then sixteen of 0.5, reduced into sum1. -/
theorem test_vred_add :
    let ones : Vec := BitVec.ofNat 512 (0x3F800000 * ((2 ^ 512 - 1) / (2 ^ 32 - 1)))
    let half : Vec := BitVec.ofNat 512 (0x3F000000 * ((2 ^ 512 - 1) / (2 ^ 32 - 1)))
    let s := withCtx { v := [(2, ones), (3, half)] }
    let i := fun (r : BitVec 6) => Instr.vredAdd { vf 0 0 with dst := 1, srcA := r, srcB := 0, srcC := 0 }
    let u := after (i 2) 6 s
    ((u.ctxAt 0 0).readSum 0 1).bits.setWidth 32 = 0x41800000#32 ∧
      ((lands (i 3) 6 u).readSum 0 1).bits.setWidth 32 = 0x41C00000#32 := by decide +kernel

/-- 07 R157: 1.0 - 1.0 from -0 is +0, +infinity stays, and a NaN is the canonical one. -/
theorem test_array_step :
    let op := fun (b : Nat) => ({ val := fdecode e4m3 b, pp8 := false } : Operand)
    let x := fun k => if k = 0 then op 0x38 else op 0xB8
    exactStep 0x80000000 x (fun _ => op 0x38) 2 = 0 ∧ exactStep 0x7F800000 x (fun _ => op 0x38) 2 = 0x7F800000 ∧
    exactStep 0x80000000 x (fun k => if k = 0 then op 0x38 else op 0x7F) 2 = 0x7FC00000 := by decide +kernel

/-- 13 R283: 2^24, 1.0 and 1.0 in ascending rank give 2^24. -/
theorem test_combine :
    combine 1 false false [natBytes 4 0x4B800000, natBytes 4 0x3F800000, natBytes 4 0x3F800000] = natBytes 4 0x4B800000 := by
  decide +kernel

/-- 13 R288: the steps of the example's reshard: a reduce-scatter over axis 1, then an all-gather. -/
theorem test_reshard_steps :
    let d := natBytes 64 0 ++ natBytes 1 2 ++ natBytes 1 2 ++ natBytes 30 0
    (reshardSteps [2, 2] [256, 64, 1, 1] 4 4096 { lists := [[0], [], [], []], pend := 2 } { lists := [[], [1], [], []], pend := 0 }).map
      (fun st => (st.kind, st.mask)) = [(1, 2), (0, 1)] ∧ d.length = 96 := by decide +kernel

end Sys2Proof.Tests
end

section
/-! SUPPORT. Folds: what every step keeps, what one step establishes and the others keep, and tables that a fold writes key by
key. -/
namespace Sys2Proof.Proofs
open Sys2Proof.Machine Sys2Proof.Laws

/-- What no step of a fold changes. -/
theorem foldl_frame {α β γ : Type} (g : β → γ) (f : β → α → β) (hf : ∀ b a, g (f b a) = g b) (l : List α) (b : β) :
    g (l.foldl f b) = g b :=
  foldl_keeps (P := fun u => g u = g b) f (fun b a h => (hf b a).trans h) l rfl

/-- What each step establishes for its own element, and every step keeps for the others. -/
theorem foldl_establishes {α β : Type} {P : α → β → Prop} (f : β → α → β) (own : ∀ b a, P a (f b a))
    (keep : ∀ b a a', P a b → P a (f b a')) (l : List α) (b : β) {a : α} (ha : a ∈ l) : P a (l.foldl f b) := by
  induction l generalizing b with
  | nil => cases ha
  | cons x t ih =>
    rcases List.mem_cons.mp ha with rfl | ha
    · exact foldl_keeps (P := P a) f (fun b x h => keep b a x h) t (own b a)
    · exact ih (f b x) ha

/-- Each step of a fold replaces one entry of a table, at the key of its element, and no other. -/
structure Updates {σ α κ β : Type} (f : σ → α → σ) (read : σ → κ → β) (key : α → κ) (new : α → β → β) : Prop where
  at_key : ∀ s a, read (f s a) (key a) = new a (read s (key a))
  elsewhere : ∀ s a k, k ≠ key a → read (f s a) k = read s k

section
variable {σ α κ β : Type} {f : σ → α → σ} {read : σ → κ → β} {key : α → κ} {new : α → β → β}

theorem Updates.foldl_elsewhere (h : Updates f read key new) (l : List α) (s : σ) {k : κ} (hk : k ∉ l.map key) :
    read (l.foldl f s) k = read s k := by
  induction l generalizing s with
  | nil => rfl
  | cons a t ih =>
    simp only [List.map_cons, List.mem_cons, not_or] at hk
    rw [List.foldl_cons, ih (f s a) hk.2, h.elsewhere s a k hk.1]

/-- With no key twice, each entry is replaced once. -/
theorem Updates.foldl_at (h : Updates f read key new) (l : List α) (s : σ) (nd : (l.map key).Nodup) {a : α} (ha : a ∈ l) :
    read (l.foldl f s) (key a) = new a (read s (key a)) := by
  induction l generalizing s with
  | nil => cases ha
  | cons x t ih =>
    rw [List.map_cons, List.nodup_cons] at nd
    rw [List.foldl_cons]
    rcases List.mem_cons.mp ha with rfl | ha
    · rw [h.foldl_elsewhere t _ nd.1, h.at_key]
    · have hne : key a ≠ key x := fun e => nd.1 (e ▸ List.mem_map_of_mem ha)
      rw [ih (f s x) nd.2 ha, h.elsewhere s x _ hne]

end

/-- Which element of a list a search for the least of those that qualify has found. -/
def LeastOf (p : Nat → Bool) (rank : Nat → Nat) (l : List Nat) : Option Nat → Prop
  | none => ∀ q ∈ l, p q = false
  | some q => p q = true ∧ ∀ r ∈ l, p r = true → rank q ≤ rank r

/-- The search goes one element further: it passes over what does not qualify, and takes what is below the best so far. -/
theorem LeastOf.step {p : Nat → Bool} {rank : Nat → Nat} {f : Option Nat → Nat → Option Nat}
    (skip : ∀ b q, p q = false → f b q = b) (first : ∀ q, p q = true → f none q = some q)
    (next : ∀ b q, p q = true → f (some b) q = if rank q < rank b then some q else some b) {l : List Nat} {b : Option Nat}
    (h : LeastOf p rank l b) (q : Nat) : LeastOf p rank (l ++ [q]) (f b q) := by
  have split_mem : ∀ r ∈ l ++ [q], r ∈ l ∨ r = q := fun r hr => (List.mem_append.mp hr).imp id List.mem_singleton.mp
  cases hq : p q with
  | false =>
    rw [skip b q hq]
    cases b with
    | none => exact fun r hr => (split_mem r hr).elim (h r) (fun e => e ▸ hq)
    | some b =>
      refine ⟨h.1, fun r hr hpr => (split_mem r hr).elim (fun m => h.2 r m hpr) (fun e => ?_)⟩
      rw [e, hq] at hpr
      cases hpr
  | true =>
    cases b with
    | none =>
      rw [first q hq]
      refine ⟨hq, fun r hr hpr => (split_mem r hr).elim (fun m => ?_) (fun e => Nat.le_of_eq (congrArg rank e.symm))⟩
      rw [h r m] at hpr
      cases hpr
    | some b =>
      rw [next b q hq]
      split
      next lt =>
        exact ⟨hq, fun r hr hpr => (split_mem r hr).elim (fun m => Nat.le_trans (Nat.le_of_lt lt) (h.2 r m hpr))
          (fun e => Nat.le_of_eq (congrArg rank e.symm))⟩
      next ge =>
        exact ⟨h.1, fun r hr hpr => (split_mem r hr).elim (fun m => h.2 r m hpr) (fun e => e ▸ Nat.not_lt.mp ge)⟩

/-- What one element keeps, a search through a list keeps. -/
theorem LeastOf.foldl {p : Nat → Bool} {rank : Nat → Nat} {f : Option Nat → Nat → Option Nat}
    (step : ∀ l b, LeastOf p rank l b → ∀ q, LeastOf p rank (l ++ [q]) (f b q)) (l seen : List Nat) (b : Option Nat)
    (h : LeastOf p rank seen b) : LeastOf p rank (seen ++ l) (l.foldl f b) := by
  induction l generalizing seen b with
  | nil => rwa [List.append_nil]
  | cons q t ih =>
    rw [List.foldl_cons, List.append_cons]
    exact ih (seen ++ [q]) (f b q) (step seen b h q)

/-- Such a search, begun with nothing, finds the least of its list. -/
theorem foldl_leastOf {p : Nat → Bool} {rank : Nat → Nat} {f : Option Nat → Nat → Option Nat}
    (skip : ∀ b q, p q = false → f b q = b) (first : ∀ q, p q = true → f none q = some q)
    (next : ∀ b q, p q = true → f (some b) q = if rank q < rank b then some q else some b) (l : List Nat) :
    LeastOf p rank l (l.foldl f none) :=
  LeastOf.foldl (fun _ _ h => h.step skip first next) l [] none (fun q hq => by cases hq)

theorem nodup_map_range (f : Nat → Nat) (hf : ∀ i j, f i = f j → i = j) (n : Nat) : ((List.range n).map f).Nodup :=
  List.Pairwise.map f (fun i j hne e => hne (hf i j e)) List.nodup_range

/-- An entry of a table that is listed by a partial function of the key. -/
theorem get_filterMap {α : Type} (d : α) (g : Nat → Option (Nat × α)) (hg : ∀ i p, g i = some p → p.1 = i) {l : List Nat}
    {i : Nat} (hi : i ∈ l) {x : α} (hx : g i = some (i, x)) : Sparse.get d (l.filterMap g) i = x := by
  induction l with
  | nil => cases hi
  | cons j t ih =>
    by_cases hj : j = i
    · subst hj; simp [hx, Sparse.get]
    · have ht : i ∈ t := (List.mem_cons.mp hi).resolve_left (Ne.symm hj)
      cases hgj : g j with
      | none => rw [List.filterMap_cons_none hgj]; exact ih ht
      | some p =>
        have hp : p.1 ≠ i := fun e => hj ((hg j p hgj).symm.trans e)
        rw [List.filterMap_cons_some hgj, Sparse.get, if_neg hp]
        exact ih ht

end Sys2Proof.Proofs
end

section
/-! SUPPORT. Memory and records leave the module's units alone: no write at a point of coherence, no page request and no record
that the device posts changes a tile, a virtual function, a gang or a wave. -/
namespace Sys2Proof.Proofs
open Sys2Proof.Machine Sys2Proof.Laws

/-- The virtual functions, gangs and waves of the module. -/
def books (s : State) : Sparse Vf × Sparse (Option Gang) × Sparse (Option Wave) := (s.vfs, s.gangs, s.waves)

/-- Its tiles, with these. -/
def units (s : State) : Sparse Tile × Sparse Vf × Sparse (Option Gang) × Sparse (Option Wave) := (s.tiles, books s)

section
variable {s u : State}

theorem books_of_units (h : units u = units s) : books u = books s := congrArg Prod.snd h
theorem tile_of_units (h : units u = units s) (t : Nat) : u.tile t = s.tile t := by
  rw [State.tile, State.tile, show u.tiles = s.tiles from congrArg Prod.fst h]
theorem ctxAt_of_units (h : units u = units s) (t c : Nat) : u.ctxAt t c = s.ctxAt t c :=
  congrArg (fun x => x.ctx c) (tile_of_units h t)
theorem vf_of_books (h : books u = books s) (v : Nat) : u.vf v = s.vf v := by
  rw [State.vf, State.vf, show u.vfs = s.vfs from congrArg Prod.fst h]
theorem gangs_of_books (h : books u = books s) : u.gangs = s.gangs := congrArg (fun x => x.2.1) h
theorem waves_of_books (h : books u = books s) : u.waves = s.waves := congrArg (fun x => x.2.2) h

end

/-! ### Mortar and the home slices -/

@[simp] theorem units_mortarWriteBack (s : State) (sec : Nat) : units (s.mortarWriteBack sec) = units s := by
  unfold State.mortarWriteBack
  generalize List.range 64 = l
  generalize List.range 4 = l'
  refine Eq.trans (foldl_frame units _ (fun b i => ?_) l' _) (foldl_frame units _ (fun b i => ?_) l s)
  · split <;> rfl
  · split <;> rfl

@[simp] theorem units_mortarDrop (s : State) (sec : Nat) : units (s.mortarDrop sec) = units s := by
  unfold State.mortarDrop
  generalize List.range 64 = l
  generalize List.range 4 = l'
  refine Eq.trans (foldl_frame units _ (fun b i => ?_) l' _) (foldl_frame units _ (fun b i => ?_) l s)
  · rfl
  · rfl

@[simp] theorem units_mortarEvict (s : State) (tag : MTag) : units (s.mortarEvict tag) = units s :=
  foldl_frame units _ (fun b x => by simp) _ s

@[simp] theorem units_mortarTrim (slice n k : Nat) (s : State) : units (s.mortarTrim slice n k) = units s := by
  induction k generalizing s with
  | zero => rfl
  | succ k ih =>
    unfold State.mortarTrim
    dsimp only
    split
    · rfl
    · split
      · rw [ih, units_mortarEvict]; rfl
      · rfl

@[simp] theorem units_mortarRoom (s : State) (tag : MTag) : units (s.mortarRoom tag) = units s := by
  unfold State.mortarRoom
  dsimp only
  split
  · rfl
  · split
    · rfl
    · simp

@[simp] theorem units_mortarTouch (s : State) (sec : Nat) (tag : MTag) (d : Bool) :
    units (s.mortarTouch sec tag d) = units s := by
  unfold State.mortarTouch
  split
  · split
    · rfl
    · have made := units_mortarRoom ((s.mortarWriteBack sec).mortarDrop sec) tag
      rw [units_mortarDrop, units_mortarWriteBack] at made
      generalize ((s.mortarWriteBack sec).mortarDrop sec).mortarRoom tag = u at made ⊢
      exact made
  · exact units_mortarRoom s tag

@[simp] theorem units_keepHist (s : State) (d : Nat) (w : Word) : units (s.keepHist d w) = units s := rfl

@[simp] theorem units_sectorStore (s : State) (w : SectorWrite) : units (s.sectorStore w) = units s := by
  unfold State.sectorStore
  split
  · rfl
  next pa x rest hw =>
    have touched := units_mortarTouch s (pa / 64) w.tag true
    have hist := foldl_frame units (fun (s : State) d => s.keepHist d (s.pocDword d)) (fun b d => units_keepHist b d _)
      ((w.cells.map (fun x => x.1 / 8)).eraseDups) (s.mortarTouch (pa / 64) w.tag true)
    have bytes := fun u => foldl_frame units (fun (s : State) (x : Nat × Byte) => s.pocPut x.1 x.2) (fun _ _ => rfl) w.cells u
    have tags := fun u => foldl_frame units (fun (s : State) (x : Nat × Bool) => s.pocPutTag x.1 x.2) (fun _ _ => rfl) w.units u
    have all := ((tags _).trans (bytes _)).trans (hist.trans touched)
    dsimp only
    split
    · exact all
    · exact all

@[simp] theorem units_sectorWrite (s : State) (w : SectorWrite) : units (s.sectorWrite w) = units s := by
  unfold State.sectorWrite
  split
  · rfl
  · split
    · rfl
    · simp

@[simp] theorem units_pocWrite (s : State) (tag : MTag) (b : Bool) (cells : List (Nat × Byte)) :
    units (s.pocWrite tag b cells) = units s := units_sectorWrite s _

/-! ### Virtual memory, records and the writes of the device -/

@[simp] theorem units_touchPage (s : State) (pasid va : Nat) : units (s.touchPage pasid va) = units s := by
  unfold State.touchPage
  dsimp only
  repeat' split
  all_goals rfl

@[simp] theorem units_touchRange (s : State) (pasid va n : Nat) : units (s.touchRange pasid va n) = units s :=
  foldl_frame units _ (fun b p => units_touchPage b pasid (4096 * p)) _ s

@[simp] theorem units_vaPut (s : State) (vf pasid : Nat) (obj : Option Nat) (b : Bool) (cells : List (Nat × Byte)) :
    units (s.vaPut vf pasid obj b cells) = units s := by
  refine foldl_frame units _ (fun s sec => ?_) _ s
  split
  · simp
  · rfl

theorem units_postTo {s u : State} {q : SupQ} {vf : Nat} {bytes : List Byte} (h : s.postTo q vf bytes = some u) :
    units u = units s := by
  unfold State.postTo at h
  split at h
  · cases h
  · dsimp only at h
    split at h
    · cases h; simp
    · split at h
      · split at h
        · cases h
        · cases h; simp
      · cases h

@[simp] theorem units_postOne (s : State) (vf : Nat) (bytes : List Byte) : units (s.postOne vf bytes) = units s := by
  unfold State.postOne
  split
  · rfl
  · split
    next h => exact units_postTo h
    next => exact (units_touchRange _ _ _ _).trans (units_touchRange _ _ _ _)

@[simp] theorem units_post (s : State) (vf : Nat) (bytes : List Byte) : units (s.post vf bytes) = units s := by
  unfold State.post
  split
  · rfl
  · split
    · simp
    · simp
    · rfl

@[simp] theorem units_postQueueRecord (s : State) (vf part : Nat) (cause : Cause) (info : Nat) :
    units (s.postQueueRecord vf part cause info) = units s := units_post s vf _

@[simp] theorem units_devWrite (s : State) (w : DevWrite) : units (s.devWrite w) = units s := by
  unfold State.devWrite
  dsimp only
  split
  · split
    · simp
    · simp
  · exact units_touchRange s _ _ _

@[simp] theorem units_tjFree (s : State) (vf : Nat) (h : Word) : units (s.tjFree vf h) = units s := by
  unfold State.tjFree
  split
  · rfl
  · dsimp only
    split
    · simp
    · rfl

@[simp] theorem units_releaseAdopt (s : State) (vf : Nat) (a : Word) : units (s.releaseAdopt vf a) = units s := by
  unfold State.releaseAdopt State.dropHold
  split
  · split
    · rfl
    · rfl
  · rfl

@[simp] theorem units_bumpSaved (s : State) (key n k : Nat) : units (s.bumpSaved key n k) = units s := by
  unfold State.bumpSaved
  split
  · rfl
  · dsimp only
    split
    · simp
    · rfl

@[simp] theorem units_onSaved (s : State) (key : Nat) (y : Saved) (new : Tile) : units (s.onSaved key y new) = units s := by
  refine (foldl_frame units _ (fun s n => ?_) _ _).trans rfl
  dsimp only
  split
  · rfl
  · simp

/-! ### A tile's L1 is written back -/

@[simp] theorem books_setTile (s : State) (t : Nat) (x : Tile) : books (s.setTile t x) = books s := rfl

@[simp] theorem books_l1WriteBack (s : State) (t sec : Nat) : books (s.l1WriteBack t sec) = books s := by
  unfold State.l1WriteBack
  split
  · split
    · rfl
    · dsimp only
      rw [books_setTile]
      exact books_of_units (units_sectorWrite s _)
  · rfl

theorem tile_l1WriteBack_other (s : State) {t i : Nat} (sec : Nat) (h : i ≠ t) :
    (s.l1WriteBack t sec).tile i = s.tile i := by
  unfold State.l1WriteBack
  split
  · split
    · rfl
    · exact (setTile_tile_other _ _ _ h).trans (tile_of_units (units_sectorWrite s _) i)
  · rfl

@[simp] theorem books_flushTile (s : State) (t : Nat) : books (s.flushTile t) = books s :=
  foldl_frame books (fun (u : State) (x : Nat × Option L1Sector) => u.l1WriteBack t x.1)
    (fun u x => books_l1WriteBack u t x.1) (s.tile t).l1 s

theorem tile_flushTile_other (s : State) {t i : Nat} (h : i ≠ t) : (s.flushTile t).tile i = s.tile i :=
  foldl_frame (fun u : State => u.tile i) (fun (u : State) (x : Nat × Option L1Sector) => u.l1WriteBack t x.1)
    (fun u x => tile_l1WriteBack_other u x.1 h) (s.tile t).l1 s

end Sys2Proof.Proofs
end

section
/-! SUPPORT. The contexts of a core (02 R33, R49 to R51, R57, 18 R381, R382): the step of each event of a context, and what the
barriers and the records of a retirement leave of a strand. -/
namespace Sys2Proof.Proofs
open Sys2Proof Sys2Proof.Machine Sys2Proof.Laws

variable (s : State) (t c : Nat)

/-! ### The choice of the next context (02 R50) -/

theorem takeable_iff (k : Ctx) : k.takeable = true ↔ k.run = .ready ∧ k.pending = [] := by
  simp [Ctx.takeable]

/-- The core takes the takeable context that comes first behind the last one. -/
theorem nextCtx_of_first {x : Tile} {i : Nat} (h1 : 1 ≤ i) (h4 : i ≤ 4) (hi : (x.ctx ((x.last + i) % 4)).takeable = true)
    (hj : ∀ j, 1 ≤ j → j < i → (x.ctx ((x.last + j) % 4)).takeable = false) : x.nextCtx = some ((x.last + i) % 4) := by
  unfold Tile.nextCtx
  obtain rfl | rfl | rfl | rfl : i = 1 ∨ i = 2 ∨ i = 3 ∨ i = 4 := by omega
  · simp [hi]
  · simp [List.find?, hi, hj 1]
  · simp [List.find?, hi, hj 1, hj 2]
  · rw [Nat.add_mod_right] at hi ⊢
    simp [List.find?, hi, hj 1, hj 2, hj 3]

/-- A free core takes its next context (02 R49, R50). -/
theorem switchCtx_of_next (hr : (s.tile t).running = none) (hn : (s.tile t).nextIssue ≤ s.clk) (hh : (s.tile t).held = false)
    (hc : (s.tile t).nextCtx = some c) :
    s.switchCtx t = s.setTile t { (s.tile t).setCtx c { (s.tile t).ctx c with run := .running } with
      running := some c
      quantum := 0
      expired := false } := by
  have can : s.canSwitch t = true := by simp [State.canSwitch, hr, hn, hh, hc]
  simp [State.switchCtx, can, hc]

/-! ### Waking (02 R57) -/

theorem wake_of_blocked {why : BlockWhy} (h : (s.ctxAt t c).run = .blocked why) :
    s.wake t c = if s.unblocked t c why then s.setCtxAt t c { s.ctxAt t c with run := .ready } else s := by
  simp [State.wake, h]

theorem unblocked_waitc_iff (n : Nat) (v : Word) :
    s.unblocked t c (.waitc n v) = true ↔ v.toNat ≤ ((s.tile t).readCt n).toNat := by
  simp [State.unblocked, BitVec.ult]

/-! ### What a barrier's end and a strand's record leave of a strand -/

/-- What of a strand neither a barrier's end nor a record changes: what it is doing, its return ports, its bindings and its
scalar registers. -/
def standing (k : Ctx) : RunState × Sparse (List PortEntry) × Sparse (Option Binding) × Sparse Word :=
  (k.run, k.ports, k.binds, k.s)

theorem standing_setCtx (x : Tile) (k : Ctx) (d : Nat) (h : standing k = standing (x.ctx c)) :
    standing ((x.setCtx c k).ctx d) = standing (x.ctx d) := by
  by_cases hd : d = c
  · subst hd; rw [tile_setCtx_ctx, h]
  · rw [tile_setCtx_ctx_other _ _ _ hd]

theorem standing_crewEpisode (x : Tile) (d : Nat) : standing (x.crewEpisode.ctx d) = standing (x.ctx d) := by
  unfold Tile.crewEpisode
  dsimp only
  split
  · rfl
  · refine foldl_frame (fun y : Tile => standing (y.ctx d)) _ (fun y c => ?_) _ x
    exact standing_setCtx c y _ d rfl

theorem standing_gangRelease (x : Tile) (d : Nat) : standing (x.gangRelease.ctx d) = standing (x.ctx d) := by
  refine foldl_frame (fun y : Tile => standing (y.ctx d)) _ (fun y c => ?_) x.participants x
  dsimp only
  split
  · exact standing_setCtx c y _ d rfl
  · exact standing_setCtx c y _ d rfl

theorem standing_setTile (x : Tile) (h : ∀ d, standing (x.ctx d) = standing ((s.tile t).ctx d)) (i d : Nat) :
    standing ((s.setTile t x).ctxAt i d) = standing (s.ctxAt i d) := by
  by_cases hi : i = t
  · subst hi; rw [setTile_ctxAt, h]; rfl
  · rw [State.ctxAt, setTile_tile_other _ _ _ hi]; rfl

theorem standing_onCrew (gang crew : Nat) (f : Tile → Tile) (hf : ∀ x d, standing ((f x).ctx d) = standing (x.ctx d))
    (i d : Nat) : standing ((s.onCrew gang crew f).ctxAt i d) = standing (s.ctxAt i d) := by
  unfold State.onCrew
  split
  · exact standing_setTile s _ _ (hf _) i d
  · split
    · rw [ctxAt_of_units (units_onSaved s _ _ _)]
    · rfl

theorem standing_gangEpisode (gang i d : Nat) : standing ((s.gangEpisode gang).ctxAt i d) = standing (s.ctxAt i d) := by
  unfold State.gangEpisode
  split
  · rfl
  · dsimp only
    split
    · rfl
    · exact foldl_frame (fun u : State => standing (u.ctxAt i d)) _
        (fun u j => standing_onCrew u gang j _ standing_gangRelease i d) _ s

theorem standing_episodes (i d : Nat) : standing ((s.episodes t).ctxAt i d) = standing (s.ctxAt i d) := by
  have crew := standing_setTile s t (s.tile t).crewEpisode (standing_crewEpisode _) i d
  unfold State.episodes
  dsimp only
  split
  · rw [standing_gangEpisode, crew]
  · exact crew

theorem standing_setCtxAt (k : Ctx) (h : standing k = standing (s.ctxAt t c)) (i d : Nat) :
    standing ((s.setCtxAt t c k).ctxAt i d) = standing (s.ctxAt i d) :=
  standing_setTile s t _ (fun d => standing_setCtx c _ k d h) i d

theorem standing_postTrap (kind extra : Nat) (cause : Cause) (info : Word) (pc i d : Nat) :
    standing ((s.postTrap t c kind extra cause info pc).ctxAt i d) = standing (s.ctxAt i d) := by
  rw [State.postTrap, ctxAt_of_units (units_post _ _ _)]
  exact standing_setCtxAt s t c _ (by rfl) i d

theorem standing_postRetired (i d : Nat) : standing ((s.postRetired t c).ctxAt i d) = standing (s.ctxAt i d) :=
  (foldl_frame (fun u : State => standing (u.ctxAt i d)) _ (fun u e => standing_postTrap u t c _ _ _ _ _ i d) _ _).trans
    (standing_setCtxAt s t c { s.ctxAt t c with causes := [] } (by rfl) i d)

/-! ### Retirement (18 R381, R382, 02 R33) -/

/-- What EXIT leaves to do waits until everything owed has landed; a handler's context becomes dormant again. -/
theorem retireStrand_of_handler (hr : (s.ctxAt t c).run = .exiting) (hd : (s.tile t).drained c = true)
    (hh : (s.ctxAt t c).handler = true) : s.retireStrand t c = s.setCtxAt t c { s.ctxAt t c with
      run := .dormant
      handler := false
      ports := [] } := by
  simp [State.retireStrand, hr, hd, hh]

/-- The strand of a context that runs no handler retires: its ports and bindings go, its scalar registers stay. -/
theorem standing_retireStrand (hr : (s.ctxAt t c).run = .exiting) (hd : (s.tile t).drained c = true)
    (hh : (s.ctxAt t c).handler = false) :
    standing ((s.retireStrand t c).ctxAt t c) = (.retired, [], [], (s.ctxAt t c).s) := by
  have kept : ((((s.postRetired t c).releaseAdopt ((s.postRetired t c).tileVf t) ((s.ctxAt t c).readCsr 0x07)).tjFree
      ((s.postRetired t c).tileVf t) (s.ctxAt t c).tjHandle).ctxAt t c).s = (s.ctxAt t c).s := by
    rw [ctxAt_of_units ((units_tjFree _ _ _).trans (units_releaseAdopt _ _ _))]
    exact congrArg (fun x => x.2.2.2) (standing_postRetired s t c t c)
  simp only [State.retireStrand, hr, hd, hh]
  simp only [bne_self_eq_false, Bool.not_true, Bool.or_self, Bool.false_eq_true, if_false]
  rw [standing_episodes, setCtxAt_ctxAt]
  exact congrArg (fun x => (RunState.retired, [], [], x)) kept

/-- A crew that is done is counted among the retired ones of its gang. -/
theorem retireCrew_of_done {w : Crew} {g : Gang} (hw : (s.tile t).crew = some w) (hg : s.gang w.gang = some g)
    (hd : s.crewDone t = true) (hn : w.idx ∉ g.retired) : s.retireCrew t =
      { s with gangs := Sparse.set none s.gangs w.gang (some { g with retired := g.retired ++ [w.idx] }) } := by
  simp [State.retireCrew, hw, hg, hd, hn]

/-- Settles O39: each event's step, by the choice of the next context, the condition of WAITC, and what records and barriers
leave of a strand that retires. -/
theorem contextsRotateAndRetire : Obligations.ContextsRotateAndRetire := by
  unfold Obligations.ContextsRotateAndRetire
  intro s t c
  dsimp only
  refine ⟨?_, ?_, ?_, ?_, ?_, ?_⟩
  · intro i free due open_ h1 h4 hc ready landed before
    subst hc
    have next : (s.tile t).nextCtx = some (((s.tile t).last + i) % 4) :=
      nextCtx_of_first h1 h4 ((takeable_iff _).mpr ⟨ready, landed⟩)
        (fun j hj hji => Bool.eq_false_iff.mpr (fun h => before j hj hji ((takeable_iff _).mp h)))
    exact congrArg Host.Outcome.next (switchCtx_of_next s t _ free due open_ next)
  · intro spent
    exact congrArg Host.Outcome.next (if_pos spent)
  · intro n v blocked
    refine congrArg Host.Outcome.next ((wake_of_blocked s t c blocked).trans ?_)
    simp only [unblocked_waitc_iff]
  · intro exiting drained handler
    exact congrArg Host.Outcome.next (retireStrand_of_handler s t c exiting drained handler)
  · intro exiting drained strand
    have left := standing_retireStrand s t c exiting drained strand
    simp only [standing, Prod.mk.injEq] at left
    exact ⟨_, rfl, left⟩
  · intro w g crew gang done fresh
    exact congrArg Host.Outcome.next (retireCrew_of_done s t crew gang done fresh)

end Sys2Proof.Proofs
end

section
/-! SUPPORT. The registers that the host writes and reads, and the Clamp accounts (02 R39, R40, 15 R328, R337, 16 R342, R346): the
register behind each offset, and the table that each write changes, entry by entry. -/
namespace Sys2Proof.Proofs
open Sys2Proof Sys2Proof.Machine Sys2Proof.Laws

variable (s : State)

/-! ### Launch queues: TAIL and LQMARK -/

@[simp] theorem setQueue_vf_queue (v part q : Nat) (x : LaunchQ) : ((s.setQueue v part q x).vf v).queue part q = x := by
  simp [State.setQueue, Vf.setQueue, Vf.queue]

/-- A queue that halts has HALT set and is otherwise as given; a reservation's end and the record leave it so. -/
theorem haltQueue_vf_queue (v part q : Nat) (x : LaunchQ) (off : Nat) :
    ((s.haltQueue v part q x off).vf v).queue part q = { x with halt := true } := by
  unfold State.haltQueue
  dsimp only
  rw [vf_of_books (books_of_units (units_postQueueRecord _ v part .baddesc _)), setVf_vf]
  split <;> simp [Vf.setQueue, Vf.queue]

theorem writeTail_within {v part q : Nat} {tail : BitVec 32}
    (h : (tail - ((s.vf v).queue part q).head).toNat ≤ ((s.vf v).queue part q).size) :
    s.writeTail v part q tail = s.setQueue v part q { (s.vf v).queue part q with
      tail := tail
      since := if ((s.vf v).queue part q).head = ((s.vf v).queue part q).tail then s.clk else ((s.vf v).queue part q).since } :=
  if_neg (Nat.not_lt.mpr h)

theorem writeTail_beyond {v part q : Nat} {tail : BitVec 32}
    (h : ((s.vf v).queue part q).size < (tail - ((s.vf v).queue part q).head).toNat) :
    s.writeTail v part q tail = s.haltQueue v part q ((s.vf v).queue part q) 0xFF := if_pos h

theorem exec_lqtailWrite (hb : s.boot.running = true) {v part q : Nat} (hv : v < 16) (hp : part < 2) (hq : q < 64)
    (tail : BitVec 32) : exec (.lqtailWrite v part q tail) s = .next (s.writeTail v part q tail) :=
  congrArg Host.Outcome.next (if_pos ⟨hv, hp, hq, hb⟩)

/-- LQTAIL of a queue is its pair of registers' first (02 R39). -/
theorem writeReg_lqtail {v part q : Nat} (hv : v < 16) (hp : part < 2) (hq : q < 64) (value : Word) :
    s.writeReg v (0x20000 + 0x400 * part + 16 * q) value = s.writeTail v part q (value.setWidth 32) := by
  have place : v < 16 ∧ 0x20000 ≤ 0x20000 + 0x400 * part + 16 * q ∧ 0x20000 + 0x400 * part + 16 * q < 0x20800 ∧
      (0x20000 + 0x400 * part + 16 * q) % 16 = 0 := by omega
  have hpart : (0x20000 + 0x400 * part + 16 * q - 0x20000) / 0x400 = part := by omega
  have hqueue : (0x20000 + 0x400 * part + 16 * q - 0x20000) / 16 % 64 = q := by omega
  rw [State.writeReg, if_pos place, hpart, hqueue]

theorem exec_registerWrite (hb : s.boot.running = true) (fn off : Nat) (value : Word) :
    exec (.registerWrite fn off value) s = .next (s.writeReg fn off value) :=
  congrArg Host.Outcome.next (if_pos hb)

/-- A read of a register that BAR0 has, in running firmware (16 R342, R343). -/
theorem barRead_of_running (hb : s.boot.running = true) {fn off : Nat} (h8 : off % 8 = 0) (hlt : off < 2 ^ 20) :
    s.barRead fn off = some (
      if 0x10000 ≤ off ∧ off < 0x10020 then s.clampReg fn ((off - 0x10000) / 8)
      else if 0x20000 ≤ off ∧ off < 0x20800 ∧ fn < 16 then
        let x := (s.vf fn).queue ((off - 0x20000) / 0x400) ((off - 0x20000) / 16 % 64)
        if off % 16 = 0 then x.tailReg else x.statReg
      else if 0x30000 ≤ off ∧ off < 0x30080 ∧ fn = 16 then s.errorReg ((off - 0x30000) / 8)
      else if off = 0x30080 ∧ fn = 16 then s.dropRec
      else if 0x40000 ≤ off ∧ off < 0x40200 ∧ fn = 16 then s.markReg ((off - 0x40000) / 32) (off / 16 % 2) (off / 8 % 2)
      else 0) := by
  have answered : (!s.boot.running || off % 8 != 0 || decide (2 ^ 20 ≤ off)) = false := by
    rw [hb, h8, decide_eq_false (Nat.not_le.mpr hlt)]
    rfl
  exact if_neg (fun none => Bool.false_ne_true (answered.symm.trans none))

/-- LQTAIL and LQSTAT of a queue, at i = 0 and i = 1 of its pair (02 R39). -/
theorem barRead_queue (hb : s.boot.running = true) {v part q i : Nat} (hv : v < 16) (hp : part < 2) (hq : q < 64) (hi : i < 2) :
    s.barRead v (0x20000 + 0x400 * part + 16 * q + 8 * i) =
      some (if i = 0 then ((s.vf v).queue part q).tailReg else ((s.vf v).queue part q).statReg) := by
  rw [barRead_of_running s hb (by omega) (by omega), if_neg (by omega), if_pos (by omega)]
  have hpart : (0x20000 + 0x400 * part + 16 * q + 8 * i - 0x20000) / 0x400 = part := by omega
  have hqueue : (0x20000 + 0x400 * part + 16 * q + 8 * i - 0x20000) / 16 % 64 = q := by omega
  have first : (0x20000 + 0x400 * part + 16 * q + 8 * i) % 16 = 0 ↔ i = 0 := by omega
  simp only [hpart, hqueue, first]

/-- The page behind the queues' registers is reserved: it reads as 0 (00 R7). -/
theorem barRead_reserved (hb : s.boot.running = true) {v q : Nat} (hq : q < 64) :
    s.barRead v (0x20800 + 8 * q) = some 0 := by
  rw [barRead_of_running s hb (by omega) (by omega)]
  simp only [show ¬ (0x10000 ≤ 0x20800 + 8 * q ∧ 0x20800 + 8 * q < 0x10020) by omega,
    show ¬ (0x20000 ≤ 0x20800 + 8 * q ∧ 0x20800 + 8 * q < 0x20800 ∧ v < 16) by omega,
    show ¬ (0x30000 ≤ 0x20800 + 8 * q ∧ 0x20800 + 8 * q < 0x30080 ∧ v = 16) by omega,
    show ¬ (0x20800 + 8 * q = 0x30080 ∧ v = 16) by omega,
    show ¬ (0x40000 ≤ 0x20800 + 8 * q ∧ 0x20800 + 8 * q < 0x40200 ∧ v = 16) by omega, if_false]

/-- Field i of LQMARK as a digit in base 4. -/
theorem bits_pair (x i : Nat) : bits x (2 * i + 1) (2 * i) = x / 4 ^ i % 4 := by
  have two : 2 * i + 1 + 1 - 2 * i = 2 := by omega
  have width : 2 ^ (2 * i + 1 + 1 - 2 * i) = 4 := congrArg (fun n => 2 ^ n) two
  have base : 2 ^ (2 * i) = 4 ^ i := Nat.pow_mul 2 2 i
  rw [bits, width, base]

/-- One field of LQMARK written to a queue: the value 3 leaves it as it is (15 R328). -/
def markWritten (value : Word) (i : Nat) (x : LaunchQ) : LaunchQ :=
  if value.toNat / 4 ^ i % 4 = 3 then x else { x with mark := value.toNat / 4 ^ i % 4 }

/-- A write of LQMARK goes through the queues of its half, one field each. -/
theorem writeMarks_updates (v part half : Nat) (value : Word) : Updates (fun (s : State) i =>
      let m := bits value.toNat (2 * i + 1) (2 * i)
      if m = 3 then s else s.setQueue v part (32 * half + i) { (s.vf v).queue part (32 * half + i) with mark := m })
    (fun s k => Sparse.get {} (s.vf v).queues k) (fun i => 64 * part + (32 * half + i)) (markWritten value) where
  at_key s i := by
    dsimp only
    rw [bits_pair, markWritten]
    split
    · rfl
    · exact setQueue_vf_queue s v part _ _
  elsewhere s i k hk := by
    dsimp only
    split
    · rfl
    · simp only [State.setQueue, setVf_vf, Vf.setQueue]
      exact get_set_other _ _ _ hk

/-- LQMARK marks the queues of its half, and no other. -/
theorem writeMarks_queue (v part half : Nat) (value : Word) {p q : Nat} (hh : half < 2) (hq : q < 64) :
    ((s.writeMarks v part half value).vf v).queue p q =
      if p = part ∧ q / 32 = half then markWritten value (q % 32) ((s.vf v).queue p q) else (s.vf v).queue p q := by
  have table := writeMarks_updates v part half value
  split
  next here =>
    obtain ⟨rfl, rfl⟩ := here
    have key : 64 * p + q = 64 * p + (32 * (q / 32) + q % 32) := by omega
    have nd : ((List.range 32).map (fun i => 64 * p + (32 * (q / 32) + i))).Nodup :=
      nodup_map_range _ (fun i j h => by omega) 32
    have := table.foldl_at (List.range 32) s nd (List.mem_range.mpr (Nat.mod_lt q (by decide)))
    rw [Vf.queue, Vf.queue, key]
    exact this
  next away =>
    refine table.foldl_elsewhere (List.range 32) s ?_
    simp only [List.mem_map, List.mem_range, not_exists, not_and]
    intro i hi h
    exact away (by omega)

/-! ### Soft-error counters (15 R337) -/

/-- The counters of class n take a write in every unit: its bits written as 1 are cleared. -/
theorem writeReg_secnt {n : Nat} (hn : n < 16) (value : Word) : s.writeReg 16 (0x30000 + 8 * n) value =
    (List.range 5).foldl (fun (s : State) u =>
      { s with secnt := Sparse.set 0 s.secnt (16 * u + n) (Sparse.get 0 s.secnt (16 * u + n) &&& ~~~(value.setWidth 32)) }) s := by
  have hclass : (0x30000 + 8 * n - 0x30000) / 8 = n := by omega
  rw [State.writeReg, if_neg (by omega), if_neg (by omega), if_pos (by omega)]
  simp only [hclass]

theorem secnt_updates (n : Nat) (value : Word) : Updates (fun (s : State) u =>
      { s with secnt := Sparse.set 0 s.secnt (16 * u + n) (Sparse.get 0 s.secnt (16 * u + n) &&& ~~~(value.setWidth 32)) })
    (fun s k => Sparse.get 0 s.secnt k) (fun u => 16 * u + n) (fun _ x => x &&& ~~~(value.setWidth 32)) where
  at_key _ _ := get_set_same _ _ _ _
  elsewhere _ _ _ hk := get_set_other _ _ _ hk

theorem writeReg_secnt_get {n unit m : Nat} (hn : n < 16) (value : Word) (hu : unit < 5) (hm : m < 16) :
    Sparse.get 0 (s.writeReg 16 (0x30000 + 8 * n) value).secnt (16 * unit + m) =
      if m = n then Sparse.get 0 s.secnt (16 * unit + m) &&& ~~~(value.setWidth 32)
      else Sparse.get 0 s.secnt (16 * unit + m) := by
  rw [writeReg_secnt s hn]
  split
  next h =>
    subst h
    exact (secnt_updates m value).foldl_at (List.range 5) s
      (nodup_map_range _ (fun i j h => by omega) 5) (List.mem_range.mpr hu)
  next h =>
    refine (secnt_updates n value).foldl_elsewhere (List.range 5) s ?_
    simp only [List.mem_map, List.mem_range, not_exists, not_and]
    intro i hi e
    omega

/-! ### The Clamp accounts (16 R346) -/

theorem clampTick_updates (tick : Nat) :
    Updates (fun (s : State) v => s.setVf v ((s.vf v).clampTick (Config.energy v tick))) (fun s v => s.vf v) (fun v => v)
      (fun v x => x.clampTick (Config.energy v tick)) where
  at_key s v := setVf_vf s v _
  elsewhere _ _ _ hk := get_set_other _ _ _ hk

theorem countTile_vf (t src k v : Nat) : (s.countTile t src k).vf v = s.vf v := by
  unfold State.countTile
  dsimp only
  split <;> rfl

/-- A tick of Clamp takes each account one tick on; the charges of gangs and the tiles' counts leave them. -/
theorem clampTick_vf {v : Nat} (hv : v < 16) :
    s.clampTick.vf v = (s.vf v).clampTick (Config.energy v (s.clk / Config.clampInterval)) := by
  have accounts := (clampTick_updates (s.clk / Config.clampInterval)).foldl_at (List.range 16) s
    (nodup_map_range _ (fun _ _ h => h) 16) (List.mem_range.mpr hv)
  unfold State.clampTick
  dsimp only
  generalize List.foldl _ s (List.range 16) = a at accounts ⊢
  refine Eq.trans (foldl_frame (fun u : State => u.vf v) _ (fun u x => ?_) _ _) accounts
  split
  · exact countTile_vf u _ _ _ v
  · rfl

/-- Settles O41: the register behind each offset, and the tables of marks, soft-error counters and accounts after a write or a
tick. -/
theorem registersOfTheHost : Obligations.RegistersOfTheHost := by
  unfold Obligations.RegistersOfTheHost
  intro s running
  refine ⟨?_, ?_, ?_, ?_⟩
  · intro v part q tail hv hp hq
    dsimp only
    have write := fun tail => exec_lqtailWrite s running hv hp hq tail
    refine ⟨?_, ?_, ?_, ?_, ?_, ?_⟩
    · intro within
      rw [write, writeTail_within s within]
    · intro beyond
      refine ⟨_, write tail, ?_⟩
      simp only [writeTail_beyond s beyond, haltQueue_vf_queue, and_self]
    · intro value
      rw [write, exec_registerWrite s running, writeReg_lqtail s hv hp hq]
    · exact barRead_queue s running hv hp hq (i := 0) (by decide)
    · exact barRead_queue s running hv hp hq (i := 1) (by decide)
    · exact barRead_reserved s running hq
  · intro v part half value hv hp hh
    refine ⟨_, congrArg Host.Outcome.next (if_pos ⟨hv, hp, hh, running⟩), ?_⟩
    intro p q _ hq
    rw [writeMarks_queue s v part half value hh hq]
    by_cases here : p = part ∧ q / 32 = half
    · by_cases h3 : value.toNat / 4 ^ (q % 32) % 4 = 3 <;> simp [here, markWritten, h3]
    · rw [if_neg here, if_neg (fun h => here ⟨h.1, h.2.1⟩)]
  · intro n value hn
    exact ⟨_, exec_registerWrite s running _ _ _, fun unit m hu hm => writeReg_secnt_get s hn value hu hm⟩
  · exact ⟨_, rfl, fun v hv => clampTick_vf s hv⟩

end Sys2Proof.Proofs
end

section
/-! SUPPORT. The scheduler (02 R32, R33, R42 to R48, R53): the arbitration's winner, what a tile and its contexts hold once a crew
has been placed, the reservation's search, and what the retirement of a gang leaves. -/
namespace Sys2Proof.Proofs
open Sys2Proof Sys2Proof.Machine Sys2Proof.Laws

/-! ### Arbitration (02 R43, R47) -/

/-- The head record that is admitted next has room. -/
theorem hasRoom_of_admits {s : State} {v part q : Nat} {r : Rec} (h : s.admits v part = some (q, r)) :
    s.hasRoom v r = true := by
  suffices ∀ c : Nat × Rec, s.admits v part = some c → s.hasRoom v c.2 = true from this _ h
  unfold State.admits
  dsimp only
  refine List.foldlRecOn (motive := fun b => ∀ c : Nat × Rec, b = some c → s.hasRoom v c.2 = true) _ _ (fun c h => by cases h) ?_
  intro b hb a ha
  have room : s.hasRoom v a.2 = true := by
    obtain ⟨i, -, hi⟩ := List.mem_filterMap.mp ha
    split at hi
    · split at hi
      next ok => cases hi; exact ok.2.2
      next => cases hi
    · cases hi
  intro c hc
  split at hc
  · cases hc; exact room
  · split at hc
    · cases hc; exact room
    · exact hb c hc

/-- A record that is not co-placed has a tile for each of its crews. -/
theorem length_take_freeTiles {s : State} {v : Nat} {r : Rec} (h : s.hasRoom v r = true) (hc : r.coloc = false) :
    ((s.freeTiles v r.part).take r.crews).length = r.crews := by
  simp only [State.hasRoom, Rec.need, hc, Bool.and_eq_true, decide_eq_true_eq] at h
  exact List.length_take_of_le (by simpa using h.1)

/-! ### A strand as it starts (02 R32) -/

section
variable (c : Ctx)

@[simp] theorem readS_writeS (r i : Nat) (x : Word) (h : r ≠ 0) : (c.writeS r x).readS i = if i = r then x else c.readS i := by
  rw [Ctx.writeS, if_neg h, Ctx.readS, Ctx.readS, get_set]
  by_cases hi : i = r
  · subst hi; simp [h]
  · simp [hi]

/-- The registers that the arguments of a record go to: s56 and up. -/
theorem args_updates : Updates (fun (c : Ctx) (a : Word × Nat) => c.writeS (56 + a.2) a.1) Ctx.readS (fun a => 56 + a.2)
    (fun a _ => a.1) where
  at_key c a := by simp
  elsewhere c a k hk := by simp [hk]

/-- The registers that its capabilities go to: k0 and up. -/
theorem caps_updates : Updates (fun (c : Ctx) (k : TCap × Nat) => c.writeK k.2 k.1) Ctx.readK (fun k => k.2)
    (fun k _ => k.1) where
  at_key _ _ := get_set_same _ _ _ _
  elsewhere _ _ _ hk := get_set_other _ _ _ hk

theorem nodup_zipIdx_snd {α : Type} (l : List α) (f : Nat → Nat) (hf : ∀ i j, f i = f j → i = j) :
    (l.zipIdx.map (fun a => f a.2)).Nodup := by
  have : l.zipIdx.map (fun a => f a.2) = (List.range l.length).map f := by
    rw [List.range_eq_range', ← List.zipIdx_map_snd 0 l, List.map_map]
    rfl
  rw [this]
  exact nodup_map_range f hf l.length

variable (r : Rec) (variant : Nat) (run : RunState) (dormant : Bool)

/-- The context of a starting strand before its registers are written. -/
def blankCtx : Ctx := { run, dormant, pc := (r.vars.getD variant (0, 0)).2 }

/-- The same with VARIANT and the arguments in its scalar registers. -/
def arguedCtx : Ctx :=
  r.args.zipIdx.foldl (fun (c : Ctx) a => c.writeS (56 + a.2) a.1)
    ((blankCtx r variant run dormant).writeS 55 (BitVec.ofNat 64 variant))

theorem startCtx_eq : startCtx r variant run dormant =
    ((r.caps.zipIdx.foldl (fun (c : Ctx) k => c.writeK k.2 k.1) (arguedCtx r variant run dormant)).writeCsr 0x02
      (BitVec.ofNat 64 r.prio)).writeCsr 0x0D r.seed := rfl

theorem startCtx_run_pc : ((startCtx r variant run dormant).run, (startCtx r variant run dormant).pc) =
    (run, (r.vars.getD variant (0, 0)).2) := by
  have caps := foldl_frame (fun c : Ctx => (c.run, c.pc)) (fun (c : Ctx) (k : TCap × Nat) => c.writeK k.2 k.1)
    (fun _ _ => rfl) r.caps.zipIdx (arguedCtx r variant run dormant)
  have args := foldl_frame (fun c : Ctx => (c.run, c.pc)) (fun (c : Ctx) (a : Word × Nat) => c.writeS (56 + a.2) a.1)
    (fun c a => by rw [Ctx.writeS, if_neg (by omega)]) r.args.zipIdx
    ((blankCtx r variant run dormant).writeS 55 (BitVec.ofNat 64 variant))
  exact caps.trans args

theorem startCtx_readS : (startCtx r variant run dormant).readS = (arguedCtx r variant run dormant).readS :=
  foldl_frame Ctx.readS (fun (c : Ctx) (k : TCap × Nat) => c.writeK k.2 k.1) (fun _ _ => rfl) r.caps.zipIdx
    (arguedCtx r variant run dormant)

/-- s55 holds VARIANT. -/
theorem startCtx_variant : (startCtx r variant run dormant).readS 55 = BitVec.ofNat 64 variant := by
  rw [startCtx_readS, arguedCtx, args_updates.foldl_elsewhere, readS_writeS _ _ _ _ (by decide), if_pos rfl]
  simp only [List.mem_map, not_exists, not_and]
  omega

/-- s56 and up hold the arguments. -/
theorem startCtx_arg {i : Nat} {a : Word} (h : r.args[i]? = some a) : (startCtx r variant run dormant).readS (56 + i) = a := by
  rw [startCtx_readS]
  exact args_updates.foldl_at (a := (a, i)) r.args.zipIdx _ (nodup_zipIdx_snd _ _ (fun i j h => by omega))
    (List.mem_zipIdx_iff_getElem?.mpr h)

/-- k0 and up hold the capabilities. -/
theorem startCtx_cap {i : Nat} {a : TCap} (h : r.caps[i]? = some a) : (startCtx r variant run dormant).readK i = a :=
  caps_updates.foldl_at (a := (a, i)) r.caps.zipIdx (arguedCtx r variant run dormant) (nodup_zipIdx_snd _ _ (fun _ _ h => h))
    (List.mem_zipIdx_iff_getElem?.mpr h)

theorem startCtx_seed : (startCtx r variant run dormant).readCsr 0x0D = r.seed := get_set_same _ _ _ _

end

/-! ### Placing a crew (02 R32) -/

/-- What a tile holds on which a crew of a gang has been placed: the crew, and the strands of its record at their start. -/
def Placed (id : Nat) (r : Rec) (variant : Nat) (x : Tile) : Prop :=
  (∃ w, x.crew = some w ∧ w.gang = id ∧ w.strands = r.strands ∧ w.spad = r.spad) ∧
    ∀ c, c < 4 → c < r.strands → x.ctx c = startCtx r variant .ready false

/-- What a context of a tile holds on which a crew is placed, where it holds anything. -/
def placedCtx (w : Crew) (r : Rec) (variant c : Nat) : Option (Nat × Ctx) :=
  if c < w.strands then some (c, startCtx r variant .ready false)
  else if c < w.strands + w.dorm then some (c, startCtx r variant .dormant true) else none

theorem place_ctxs (x : Tile) (w : Crew) (r : Rec) (variant clk : Nat) :
    (x.place w r variant clk).ctxs = (List.range 4).filterMap (placedCtx w r variant) := rfl

theorem placed_place (x : Tile) (w : Crew) (r : Rec) (variant clk : Nat) (hs : w.strands = r.strands) (hp : w.spad = r.spad) :
    Placed w.gang r variant (x.place w r variant clk) := by
  refine ⟨⟨w, rfl, rfl, hs, hp⟩, fun c h4 hc => ?_⟩
  rw [Tile.ctx, place_ctxs]
  refine get_filterMap _ _ (fun i p h => ?_) (List.mem_range.mpr h4) (if_pos (hs ▸ hc))
  unfold placedCtx at h
  split at h
  · cases h; rfl
  · split at h
    · cases h; rfl
    · cases h

/-- A crew of a gang placed on its tile. -/
def placeCrew (id : Nat) (r : Rec) (variant : Nat) (s : State) (x : Nat × Nat) : State :=
  s.setTile x.1 ((s.tile x.1).place
    { gang := id, idx := x.2, strands := r.strands, dorm := r.dorm, spad := r.spad, rings := r.rings, acc := r.acc, code := r.region }
    r variant s.clk)

theorem placeGang_eq (s : State) (g : Gang) (r : Rec) (variant : Nat) (ts : List Nat) : s.placeGang g r variant ts =
    ts.zipIdx.foldl (placeCrew s.nextGang r variant)
      { s with nextGang := s.nextGang + 1, gangs := Sparse.set none s.gangs s.nextGang (some { g with tiles := ts.map some }) } :=
  rfl

/-- A gang that has been placed: its number names it, with its tiles; the virtual functions stay. -/
theorem placeGang_books (s : State) (g : Gang) (r : Rec) (variant : Nat) (ts : List Nat) :
    (s.placeGang g r variant ts).gang s.nextGang = some { g with tiles := ts.map some } ∧
      ∀ v, (s.placeGang g r variant ts).vf v = s.vf v := by
  have kept := foldl_frame books (placeCrew s.nextGang r variant) (fun _ _ => rfl) ts.zipIdx
    { s with nextGang := s.nextGang + 1, gangs := Sparse.set none s.gangs s.nextGang (some { g with tiles := ts.map some }) }
  rw [placeGang_eq]
  constructor
  · rw [State.gang, gangs_of_books kept]
    simp only [get_set_same]
  · exact fun v => vf_of_books kept v

/-- Each tile of a gang that has been placed holds a crew of it. -/
theorem placeGang_placed (s : State) (g : Gang) (r : Rec) (variant : Nat) {ts : List Nat} {t : Nat} (ht : t ∈ ts) :
    Placed s.nextGang r variant ((s.placeGang g r variant ts).tile t) := by
  have own : ∀ (u : State) (x : Nat × Nat), Placed s.nextGang r variant ((placeCrew s.nextGang r variant u x).tile x.1) :=
    fun u x => (setTile_tile u x.1 _).symm ▸ placed_place _ _ r variant _ rfl rfl
  have keep : ∀ (u : State) (x y : Nat × Nat), Placed s.nextGang r variant (u.tile x.1) →
      Placed s.nextGang r variant ((placeCrew s.nextGang r variant u y).tile x.1) := by
    intro u x y h
    by_cases e : x.1 = y.1
    · rw [e]; exact own u y
    · exact (setTile_tile_other u y.1 _ e).symm ▸ h
  obtain ⟨i, hi⟩ := List.getElem?_of_mem ht
  rw [placeGang_eq]
  exact foldl_establishes (P := fun (x : Nat × Nat) (u : State) => Placed s.nextGang r variant (u.tile x.1)) _ own keep
    ts.zipIdx _ (List.mem_zipIdx_iff_getElem?.mpr hi : (t, i) ∈ ts.zipIdx)

/-! ### Admission (02 R43 to R46, 16 R347) -/

theorem takeGbar_nextGang (s : State) (v part : Nat) (want : Bool) : (s.takeGbar v part want).2.nextGang = s.nextGang := by
  unfold State.takeGbar
  split <;> rfl

/-- A gang-barrier identifier taken changes no reservation of energy. -/
theorem takeGbar_rv (s : State) (v part : Nat) (want : Bool) : ((s.takeGbar v part want).2.vf v).rv = (s.vf v).rv := by
  unfold State.takeGbar
  split
  · rw [setVf_vf]
  · rfl

/-- The variant of a queue's wave: that with which its first gang was admitted, or the one that would be now (02 R44). -/
def admittedVariant (s : State) (v part q : Nat) (r : Rec) : Nat :=
  (((s.vf v).queue part q).wave.bind (fun i => Sparse.get none s.waves i)).elim ((s.variantFor v r).getD 0) Wave.variant

/-- An admission enters the wave and the energy in the books, and then places gangs of the record. -/
theorem admitFrom_places (s : State) (v part q : Nat) (r : Rec) :
    ∃ (next : Nat) (waves : Sparse (Option Wave)) (y : Vf) (wave mark gid variant count : Nat),
      y.rv = (s.vf v).rv + r.reserved ∧ mark = ((s.vf v).queue part q).mark ∧ variant = admittedVariant s v part q r ∧
      count = (if r.coloc then r.gangs else 1) ∧
      s.admitFrom v part q r = (({ s with nextWave := next, waves := waves } : State).setVf v y).placeGangs v wave mark r
        variant gid count := by
  refine ⟨_, _, _, _, _, _, _, _, ?_, ?_, ?_, ?_, rfl⟩
  · rfl
  · exact (apply_ite LaunchQ.mark _ _ _).trans (ite_self _)
  · unfold admittedVariant
    cases ((s.vf v).queue part q).wave.bind (fun i => Sparse.get none s.waves i) <;> rfl
  · rfl

/-- A gang of a record as it stands after its placement. -/
def gangOf (v wave mark gid : Nat) (gbar : Option Nat) (r : Rec) (ts : List Nat) : Gang :=
  { vf := v, part := r.part, wave, pasid := r.region.pasid, mark, gangId := gid, gbar, tiles := ts.map some }

/-- An admission that is not co-placed: the next number names a gang of the record on the lowest free tiles, each of which
holds a crew of it, and Clamp has reserved its energy. -/
theorem admitFrom_admits (s : State) (v part q : Nat) (r : Rec) (hc : r.coloc = false) :
    let ts := (s.freeTiles v r.part).take r.crews
    let n := s.admitFrom v part q r
    (n.vf v).rv = (s.vf v).rv + r.energy ∧
      (∃ wave gid gbar, n.gang s.nextGang = some (gangOf v wave ((s.vf v).queue part q).mark gid gbar r ts)) ∧
      ∀ t ∈ ts, Placed s.nextGang r (admittedVariant s v part q r) (n.tile t) := by
  intro ts n
  obtain ⟨next, waves, y, wave, _, gid, _, count, energy, rfl, rfl, one, eq⟩ := admitFrom_places s v part q r
  rw [if_neg (by simp [hc])] at one
  subst one
  generalize ha : ({ s with nextWave := next, waves := waves } : State).setVf v y = a at eq
  have free : (a.freeTiles v r.part).take r.crews = ts := by rw [← ha]; rfl
  have booked : (a.vf v).rv = (s.vf v).rv + r.energy := by
    rw [← ha, setVf_vf, energy, Rec.reserved, if_neg (by simp [hc])]
  have hn : n = (a.takeGbar v r.part r.gbar).2.placeGang
      { vf := v, part := r.part, wave, pasid := r.region.pasid, mark := ((s.vf v).queue part q).mark, gangId := gid
        gbar := (a.takeGbar v r.part r.gbar).1, tiles := [] } r (admittedVariant s v part q r) ts := by
    rw [← free]; exact eq
  have number : (a.takeGbar v r.part r.gbar).2.nextGang = s.nextGang := by
    rw [takeGbar_nextGang, ← ha]; rfl
  rw [hn, ← number]
  refine ⟨?_, ⟨wave, gid, (a.takeGbar v r.part r.gbar).1, (placeGang_books _ _ _ _ _).1⟩,
    fun t ht => placeGang_placed _ _ _ _ ht⟩
  rw [(placeGang_books _ _ _ _ _).2, takeGbar_rv, booked]

theorem gangAdmit_of_admits {s : State} {v part q : Nat} {r : Rec} (hf : (s.vf v).flr = false)
    (h : (s.checkHeads v part).admits v part = some (q, r)) :
    s.gangAdmit v part = (s.checkHeads v part).admitFrom v part q r := by
  simp [State.gangAdmit, hf, h]

/-! ### Reservation (02 R48) -/

/-- Where none stands, a reservation goes to the head that has waited longest of those that may reserve. -/
theorem reserveTiles_leastOf {s : State} {v part : Nat} (hf : (s.vf v).flr = false)
    (hn : Sparse.get none (s.vf v).reserve part = none) :
    LeastOf (s.mayReserve v part) (fun q => ((s.vf v).queue part q).since) (List.range 64)
      (Sparse.get none ((s.reserveTiles v part).vf v).reserve part) := by
  unfold State.reserveTiles
  simp only [hn, hf, Option.isSome_none, Bool.or_self, Bool.false_eq_true, if_false, setVf_vf, get_set_same]
  refine foldl_leastOf ?_ ?_ ?_ (List.range 64)
  · intro b q h; simp [h]
  · intro q h; simp [h]
  · intro b q h; simp [h]

/-! ### Retirement (02 R33, R42, R53) -/

theorem books_freeTile (s : State) (t : Nat) : books (s.freeTile t) = books s := books_flushTile s t

theorem tile_freeTile_other (s : State) {t i : Nat} (h : i ≠ t) : (s.freeTile t).tile i = s.tile i :=
  (setTile_tile_other _ _ _ h).trans (tile_flushTile_other s h)

/-- A tile without a crew, and with nothing in its L1. -/
def Vacant (x : Tile) : Prop := x.crew = none ∧ x.l1 = []

theorem vacant_freeTile (s : State) (t : Nat) : Vacant ((s.freeTile t).tile t) := by
  unfold State.freeTile
  dsimp only
  rw [setTile_tile]
  exact ⟨rfl, rfl⟩

/-- The state after the crews of a gang have left their tiles. -/
def leaveTiles (s : State) (g : Gang) : State := (g.tiles.filterMap (fun t => t)).foldl (fun (s : State) t => s.freeTile t) s

theorem books_leaveTiles (s : State) (g : Gang) : books (leaveTiles s g) = books s := foldl_frame books _ books_freeTile _ s

theorem vacant_leaveTiles (s : State) (g : Gang) {t : Nat} (ht : some t ∈ g.tiles) : Vacant ((leaveTiles s g).tile t) := by
  refine foldl_establishes (P := fun t (u : State) => Vacant (u.tile t)) _ vacant_freeTile ?_ _ s
    (List.mem_filterMap.mpr ⟨some t, ht, rfl⟩)
  intro u t i h
  by_cases e : t = i
  · subst e; exact vacant_freeTile u t
  · exact (tile_freeTile_other u e).symm ▸ h

@[simp] theorem setWc_wc (s : State) (v n : Nat) (x : Word) : Sparse.get 0 ((s.setWc v n x).vf v).wc n = x := by
  simp [State.setWc]

/-- A gang without a FATAL strand, of a wave that signals each gang: its tiles are left, its number names nothing, and its wave
counter takes 1 more than it had. -/
theorem retireGang_counts {s : State} {id : Nat} {g : Gang} {w : Wave} (hg : s.gang id = some g) (hr : g.allRetired = true)
    (hw : Sparse.get none s.waves g.wave = some w) (hs : w.record.sigmode = false) (hf : g.fatal = false)
    (hn : s.gangFatal id g = false) : ∃ m : State, m.tiles = (leaveTiles s g).tiles ∧ m.gang id = none ∧
      (m.vf g.vf).wc = (s.vf g.vf).wc ∧
      s.retireGang id = m.setWc g.vf w.record.wc (Sparse.get 0 (m.vf g.vf).wc w.record.wc + 1) := by
  have left := books_leaveTiles s g
  unfold State.retireGang
  split
  next absent => rw [hg] at absent; cases absent
  next g' found =>
    obtain rfl : g = g' := Option.some.inj (hg.symm.trans found)
    rw [if_neg (by simp [hr])]
    extract_lets fatal a b u y
    have counters : y.wc = (s.vf g.vf).wc := by
      have same : y.wc = u.wc := by dsimp only [y]; split <;> rfl
      exact same.trans (congrArg Vf.wc (vf_of_books left g.vf))
    have wave : Sparse.get none b.waves g.wave = some w := (waves_of_books left).symm ▸ hw
    split
    next absent => rw [wave] at absent; cases absent
    next w' found =>
      obtain rfl : w = w' := Option.some.inj (wave.symm.trans found)
      extract_lets n last back src m
      rw [if_neg (by simp [fatal, hf, hn, hs])]
      exact ⟨m, rfl, get_set_same none a.gangs id none, (congrArg Vf.wc (setVf_vf b g.vf _)).trans counters, rfl⟩

/-! ### The statement -/

/-- A tile on which a crew has been placed, as 02 R32 gives its strands. -/
theorem placed_strands {n : State} {t id variant : Nat} {r : Rec} (h : Placed id r variant (n.tile t)) :
    (∃ w, (n.tile t).crew = some w ∧ w.gang = id ∧ w.strands = r.strands ∧ w.spad = r.spad) ∧
      ∀ c, c < 4 → c < r.strands →
        (n.ctxAt t c).run = .ready ∧ (n.ctxAt t c).pc = (r.vars.getD variant (0, 0)).2 ∧
        (n.ctxAt t c).readS 55 = BitVec.ofNat 64 variant ∧
        (∀ i a, r.args[i]? = some a → (n.ctxAt t c).readS (56 + i) = a) ∧
        (∀ i a, r.caps[i]? = some a → (n.ctxAt t c).readK i = a) ∧ (n.ctxAt t c).readCsr 0x0D = r.seed := by
  obtain ⟨crew, strands⟩ := h
  refine ⟨crew, fun c h4 hc => ?_⟩
  rw [State.ctxAt, strands c h4 hc]
  obtain ⟨run, pc⟩ := Prod.mk.inj (startCtx_run_pc r variant .ready false)
  exact ⟨run, pc, startCtx_variant r variant _ _, fun i a => startCtx_arg r variant _ _,
    fun i a => startCtx_cap r variant _ _, startCtx_seed r variant _ _⟩

/-- Settles O40: the arbitration's winner is placed, the reservation's search finds the longest-waiting head, and a gang that
retires leaves its tiles and counts. -/
theorem gangsComeAndGo : Obligations.GangsComeAndGo := by
  unfold Obligations.GangsComeAndGo
  intro s v part
  refine ⟨?_, ?_, ?_⟩
  · intro q r awake u admits alone x ts variant
    have step : exec (.gangAdmit v part) s = .next (u.admitFrom v part q r) :=
      congrArg Host.Outcome.next (gangAdmit_of_admits awake admits)
    clear_value u
    have same : variant = admittedVariant u v part q r := by
      dsimp only [variant, x, admittedVariant]
      cases ((u.vf v).queue part q).wave.bind (fun i => Sparse.get none u.waves i) <;> rfl
    obtain ⟨energy, ⟨wave, gid, gbar, gang⟩, placed⟩ := admitFrom_admits u v part q r alone
    refine ⟨length_take_freeTiles (hasRoom_of_admits admits) alone, _, step, energy,
      ⟨_, gang, rfl, rfl, rfl, rfl, rfl⟩, fun t ht => ?_⟩
    rw [same]
    exact placed_strands (placed t ht)
  · intro awake free
    refine ⟨_, rfl, ?_⟩
    have found := reserveTiles_leastOf awake free
    dsimp only
    cases best : Sparse.get none ((s.reserveTiles v part).vf v).reserve part with
    | none =>
      rw [best] at found
      exact fun p hp => found p (List.mem_range.mpr hp)
    | some q =>
      rw [best] at found
      exact ⟨found.1, fun p hp => found.2 p (List.mem_range.mpr hp)⟩
  · intro id g w gang retired wave signals sound alive
    obtain ⟨m, tiles, gone, counters, eq⟩ := retireGang_counts gang retired wave signals sound alive
    refine ⟨_, congrArg Host.Outcome.next eq, gone, fun t ht => ?_, ?_⟩
    · have vacant := vacant_leaveTiles s g ht
      rw [State.tile, ← tiles] at vacant
      exact vacant
    · rw [setWc_wc, counters]

end Sys2Proof.Proofs
end

section
/-! SUPPORT. The issue of a bundle (03 R57, 04 R78 to R81, R88): the steps of the module by what comes next, and the issue of a
decoded bundle by what its slots would do. -/
namespace Sys2Proof.Proofs
open Sys2Proof Sys2Proof.Machine Sys2Proof.Laws

variable {s : State} {t c : Nat}

/-! ### What comes next -/

theorem step_of_agenda {i : Instr} {rest : List Instr} (ha : s.agenda = i :: rest) :
    step s = exec i { s with agenda := rest } := by
  unfold step
  rw [ha]

theorem step_of_live (ha : s.agenda = []) (hn : s.nextLive = some t) : step s = .next ((s.turn t).issue t) := by
  unfold step
  rw [ha, hn]

theorem step_of_rest (ha : s.agenda = []) (hn : s.nextLive = none) : step s = .next s.nextClk := by
  unfold step
  rw [ha, hn]

/-! ### From a turn to a decoded bundle -/

theorem issue_of_running (hr : (s.tile t).running = some c) : s.issue t = (s.landDue t c).present t c := by
  unfold State.issue
  rw [hr]

theorem present_of_passed {x : Ctx} (hq : (s.ctxAt t c).causes = []) (hp : s.passOver t (s.ctxAt t c) = .ok x) :
    s.present t c = (s.setCtxAt t c x).issueAt t c x := by
  unfold State.present
  rw [hq, hp]
  rfl

theorem issueAt_of_decoded {x : Ctx} {bs : List Byte} {b : Bundle} (hf : s.fetchBundle t x = .ok bs)
    (hd : decodeBundle bs = .bundle b) : s.issueAt t c x = (s.touchCode t x.pc bs.length).issueBundle t c b := by
  unfold State.issueAt
  rw [hf]
  dsimp only
  rw [hd]

/-- A live tile issues the bundle that its running context fetches and decodes. -/
theorem step_of_decoded {x : Ctx} {bs : List Byte} {b : Bundle} (ha : s.agenda = []) (hn : s.nextLive = some t)
    (hr : (s.tile t).running = some c) (hq : (((s.turn t).landDue t c).ctxAt t c).causes = [])
    (hp : ((s.turn t).landDue t c).passOver t (((s.turn t).landDue t c).ctxAt t c) = .ok x)
    (hf : (((s.turn t).landDue t c).setCtxAt t c x).fetchBundle t x = .ok bs) (hd : decodeBundle bs = .bundle b) :
    step s = .next (((((s.turn t).landDue t c).setCtxAt t c x).touchCode t x.pc bs.length).issueBundle t c b) := by
  have running : ((s.turn t).tile t).running = some c := hr
  rw [step_of_live ha hn, issue_of_running running, present_of_passed hq hp, issueAt_of_decoded hf hd]

/-! ### The slots of a bundle -/

/-- The strand with the offset behind the bundle that it issues. -/
def atBundle (s : State) (t c : Nat) (b : Bundle) : State :=
  s.setCtxAt t c { s.ctxAt t c with seqpc := seqNext (s.tile t).code.va (s.ctxAt t c).pc b.length }

/-- The slots of a bundle that are no swaps. -/
def slotsOf (b : Bundle) : List Instr := b.slots.filter (fun i => !isSwap i)

/-- The strand after the swaps of its bundle. -/
def afterSwaps (s : State) (t c : Nat) (b : Bundle) : State := runSlots t c (atBundle s t c b) (b.slots.filter isSwap)

/-- What each slot would do to its bundle, tried alone after the swaps. -/
def slotStops (s : State) (t c : Nat) (b : Bundle) : List SlotStop :=
  (slotsOf b).map (fun i => slotStop t c (exec i (afterSwaps s t c b)))

theorem issueBundle_eq (b : Bundle) : s.issueBundle t c b =
    match firstBlock (slotStops s t c b), decidingTrap (slotStops s t c b) with
    | some why, _ => (atBundle s t c b).stopBundle t c (.block why)
    | none, some (k, i) => (atBundle s t c b).stopBundle t c (.trap k i)
    | none, none => (runSlots t c (afterSwaps s t c b) (slotsOf b)).finish t c b := rfl

theorem issueBundle_of_block {b : Bundle} {why : BlockWhy} (h : firstBlock (slotStops s t c b) = some why) :
    s.issueBundle t c b = (atBundle s t c b).stopBundle t c (.block why) := by
  rw [issueBundle_eq, h]

theorem issueBundle_of_trap {b : Bundle} {k : Cause} {info : Word} (h : firstBlock (slotStops s t c b) = none)
    (hk : decidingTrap (slotStops s t c b) = some (k, info)) :
    s.issueBundle t c b = (atBundle s t c b).stopBundle t c (.trap k info) := by
  rw [issueBundle_eq, h, hk]

/-- Where every slot goes, none blocks and no trap decides. -/
theorem noStop_of_allGo {l : List SlotStop} (h : ∀ x ∈ l, x = .goes) : firstBlock l = none ∧ decidingTrap l = none := by
  rw [List.eq_replicate_of_mem h]
  induction l.length with
  | zero => exact ⟨rfl, rfl⟩
  | succ n ih => exact ih

theorem issueBundle_of_allGo {b : Bundle}
    (h : ∀ i ∈ slotsOf b, slotStop t c (exec i (afterSwaps s t c b)) = .goes) :
    s.issueBundle t c b = (runSlots t c (afterSwaps s t c b) (slotsOf b)).finish t c b := by
  obtain ⟨blocks, traps⟩ := noStop_of_allGo (l := slotStops s t c b) (List.forall_mem_map.mpr h)
  rw [issueBundle_eq, blocks, traps]

theorem runSlots_singleton {i : Instr} {v : State} (ha : (s.ctxAt t c).acting = true) (hv : exec i s = .next v) :
    runSlots t c s [i] = v := by
  simp only [runSlots, List.foldl_cons, List.foldl_nil, ha, if_true, hv, nextOr]

/-- A bundle of one instruction that goes is exec of that instruction, be it a swap or not. -/
theorem issueBundle_of_one {b : Bundle} {i : Instr} {v : State} (hb : b.slots = [i])
    (ha : ((atBundle s t c b).ctxAt t c).acting = true) (hv : exec i (atBundle s t c b) = .next v)
    (hg : slotStop t c (exec i (atBundle s t c b)) = .goes) : s.issueBundle t c b = v.finish t c b := by
  cases hi : isSwap i with
  | true =>
    have rest : slotsOf b = [] := by simp [slotsOf, hb, hi]
    have swapped : afterSwaps s t c b = v := by
      rw [afterSwaps, hb, List.filter_cons_of_pos hi, List.filter_nil, runSlots_singleton ha hv]
    rw [issueBundle_of_allGo (by simp [rest]), rest, swapped]
    rfl
  | false =>
    have rest : slotsOf b = [i] := by simp [slotsOf, hb, hi]
    have swapped : afterSwaps s t c b = atBundle s t c b := by
      rw [afterSwaps, hb, List.filter_cons_of_neg (by simp [hi]), List.filter_nil]
      rfl
    rw [issueBundle_of_allGo (by simpa [rest, swapped] using hg), rest, swapped, runSlots_singleton ha hv]

/-! ### The statement -/

/-- Settles O58: the step of each thing that can come next, and the issue of a decoded bundle by what its slots would do. -/
theorem stepRunsTheDecodedBundle : Obligations.StepRunsTheDecodedBundle := by
  unfold Obligations.StepRunsTheDecodedBundle
  refine ⟨fun s i rest => step_of_agenda, fun s => step_of_rest, ?_⟩
  intro s t c x bs b idle live running r queued passed u fetched decoded w s0 s1 is
  have issued : step s = .next (w.issueBundle t c b) := step_of_decoded idle live running queued passed fetched decoded
  refine ⟨fun go => ?_, fun i v one acting next goes => ?_, fun why blocks => ?_, fun k info clear traps => ?_⟩
  · exact issued.trans (congrArg Host.Outcome.next (issueBundle_of_allGo go))
  · exact issued.trans (congrArg Host.Outcome.next (issueBundle_of_one one acting next goes))
  · exact issued.trans (congrArg Host.Outcome.next (issueBundle_of_block blocks))
  · exact issued.trans (congrArg Host.Outcome.next (issueBundle_of_trap clear traps))

end Sys2Proof.Proofs
end

section
/-! SUPPORT. Pre-emption (03 R60 to R72): what the Hods' messages leave alone, an L1 that has been written back, the crew that
leaves its tile for its save area, the end of a move, and the tiles on which fetch restarts. -/
namespace Sys2Proof.Proofs
open Sys2Proof Sys2Proof.Machine Sys2Proof.Laws

/-- What each step of a fold establishes for its own element, and a step for another element keeps. -/
theorem foldl_establishes_apart {α β : Type} {P : α → β → Prop} (f : β → α → β) (own : ∀ b a, P a (f b a))
    (keep : ∀ b a i, a ≠ i → P a b → P a (f b i)) (l : List α) (b : β) {a : α} (ha : a ∈ l) : P a (l.foldl f b) := by
  refine foldl_establishes f own (fun b a i h => ?_) l b ha
  by_cases e : a = i
  · rw [e]; exact own b i
  · exact keep b a i e h

/-! ### Messages between the Hods (13 R295, R297 to R299) -/

@[simp] theorem units_setComm (s : State) (k : Nat) (x : Comm) : units (s.setComm k x) = units s := rfl

theorem units_pump (p n : Nat) (s : State) : units (s.pump p n) = units s := by
  induction n generalizing s with
  | zero => rfl
  | succ n ih =>
    unfold State.pump
    dsimp only
    split
    · rfl
    · split
      · rfl
      · split
        · rfl
        · exact ih _

@[simp] theorem units_sendPay (s : State) (dest vc lane : Nat) (pay : FlitPay) :
    units (s.sendPay dest vc lane pay) = units s := by
  unfold State.sendPay State.sendFlit
  dsimp only
  split
  · rfl
  · exact units_pump _ _ _

@[simp] theorem units_sendAll (s : State) (dests : List Nat) (vc lane : Nat) (pay : FlitPay) :
    units (s.sendAll dests vc lane pay) = units s :=
  foldl_frame units _ (fun u d => units_sendPay u d vc lane pay) dests s

@[simp] theorem units_noteBegun (s : State) (k r p : Nat) : units (s.noteBegun k r p) = units s := by
  unfold State.noteBegun
  dsimp only
  repeat' split
  all_goals simp

@[simp] theorem units_answerPause (s : State) (k : Nat) : units (s.answerPause k) = units s := by
  unfold State.answerPause
  split
  · rfl
  · refine foldl_frame units _ (fun u p => ?_) _ _
    split
    · exact units_noteBegun u k p.1 p.2
    · exact units_sendPay u _ 0 0 _

@[simp] theorem units_pauseRequest (s : State) (k r : Nat) : units (s.pauseRequest k r) = units s := by
  unfold State.pauseRequest
  dsimp only
  repeat' split
  all_goals simp

@[simp] theorem units_askPauses (s : State) (gang : Nat) : units (s.askPauses gang) = units s := by
  refine foldl_frame units _ (fun u m => ?_) _ s
  unfold State.askPause
  dsimp only
  repeat' split
  all_goals simp

@[simp] theorem units_resumeComm (s : State) (k : Nat) : units (s.resumeComm k) = units s := by
  unfold State.resumeComm
  split <;> rfl

@[simp] theorem units_noteResumed (s : State) (k r : Nat) : units (s.noteResumed k r) = units s := by
  unfold State.noteResumed
  dsimp only
  repeat' split
  all_goals simp

@[simp] theorem units_tellAll (s : State) (gang : Nat) : units (s.tellAll gang) = units s := by
  refine foldl_frame units _ (fun u m => ?_) _ s
  unfold State.tellResumed
  dsimp only
  repeat' split
  all_goals simp

/-! ### Stop points (03 R60, R61) -/

theorem engineStop_tile {s : State} {t : Nat} {w : Crew} (hw : (s.tile t).crew = some w) (hf : w.frozen = true)
    (hs : w.stopped = false) (he : s.enginesStill t = true) :
    (s.engineStop t).tile t = { s.tile t with crew := some { w with stopped := true } } := by
  simp only [State.engineStop, hw, hf, hs, he, Bool.not_false, Bool.and_self, if_true]
  rw [tile_of_units (units_askPauses _ _), setTile_tile]

theorem engineStop_waits {s : State} {t : Nat} {w : Crew} (hw : (s.tile t).crew = some w)
    (h : w.frozen = false ∨ w.stopped = true ∨ s.enginesStill t = false) : s.engineStop t = s := by
  simp only [State.engineStop, hw]
  rcases h with h | h | h <;> simp [h]

/-! ### An L1 that is written back -/

/-- A sector after its dirty bytes have reached their home slice. -/
def cleaned (d : L1Sector) : L1Sector := if d.dirty.isNone then d else { d with dirty := none, dmask := 0 }

/-- What the save of a crew takes from its tile beside its contexts, with its poison. -/
def stores (x : Tile) : Sparse Byte × Sparse Word × Sparse Word32 × Sparse Bool × Sparse Bool :=
  (x.spad, x.ct, x.acc, x.spadPoison, x.accPoison)

theorem l1Get_l1WriteBack (s : State) (t sec i : Nat) : ((s.l1WriteBack t sec).tile t).l1Get i =
    if i = sec then ((s.tile t).l1Get i).map cleaned else (s.tile t).l1Get i := by
  unfold State.l1WriteBack
  split
  next d found =>
    by_cases clean : d.dirty.isNone
    · rw [if_pos clean]
      split
      next own => rw [own, found, Option.map_some, cleaned, if_pos clean]
      next => rfl
    · rw [if_neg clean, setTile_tile, Tile.l1Get, Tile.l1Set]
      dsimp only
      rw [get_set]
      split
      next own => rw [own, found, Option.map_some, cleaned, if_neg clean]
      next => rfl
  next absent =>
    split
    next own => rw [own, absent]; rfl
    next => rfl

theorem stores_l1WriteBack (s : State) (t sec : Nat) :
    stores ((s.l1WriteBack t sec).tile t) = stores (s.tile t) ∧ ((s.l1WriteBack t sec).tile t).ctxs = (s.tile t).ctxs := by
  unfold State.l1WriteBack
  split
  · split
    · exact ⟨rfl, rfl⟩
    · rw [setTile_tile]
      exact ⟨rfl, rfl⟩
  · exact ⟨rfl, rfl⟩

theorem stores_flushTile (s : State) (t : Nat) : stores ((s.flushTile t).tile t) = stores (s.tile t) :=
  foldl_frame (fun u : State => stores (u.tile t)) (fun (u : State) (x : Nat × Option L1Sector) => u.l1WriteBack t x.1)
    (fun u x => (stores_l1WriteBack u t x.1).1) _ s

theorem ctxs_flushTile (s : State) (t : Nat) : ((s.flushTile t).tile t).ctxs = (s.tile t).ctxs :=
  foldl_frame (fun u : State => (u.tile t).ctxs) (fun (u : State) (x : Nat × Option L1Sector) => u.l1WriteBack t x.1)
    (fun u x => (stores_l1WriteBack u t x.1).2) _ s

/-- A sector of a tile's L1 that is not there, or is clean. -/
def Clean (x : Tile) (sec : Nat) : Prop := ∀ d, x.l1Get sec = some d → d.dirty.isNone = true

theorem clean_cleaned (d : L1Sector) : (cleaned d).dirty.isNone = true := by
  unfold cleaned
  split
  · assumption
  · rfl

theorem clean_l1WriteBack {s : State} {t sec i : Nat} (h : i = sec ∨ Clean (s.tile t) i) :
    Clean ((s.l1WriteBack t sec).tile t) i := by
  intro d hd
  rw [l1Get_l1WriteBack] at hd
  split at hd
  next => obtain ⟨e, -, rfl⟩ := Option.map_eq_some_iff.mp hd; exact clean_cleaned e
  next other => exact h.resolve_left other d hd

theorem l1WriteBack_of_clean {s : State} {t sec : Nat} (h : Clean (s.tile t) sec) : s.l1WriteBack t sec = s := by
  unfold State.l1WriteBack
  split
  next d found => exact if_pos (h d found)
  next => rfl

theorem get_of_not_mem_keys {α : Type} (d : α) {m : Sparse α} {k : Nat} (h : k ∉ Sparse.keys m) : Sparse.get d m k = d := by
  induction m with
  | nil => rfl
  | cons x r ih =>
    obtain ⟨a, v⟩ := x
    simp only [Sparse.keys, List.map_cons, List.mem_cons, not_or] at h
    rw [Sparse.get, if_neg (Ne.symm h.1)]
    exact ih h.2

/-- A tile that has been flushed has no dirty sector left. -/
theorem clean_flushTile (s : State) (t i : Nat) : Clean ((s.flushTile t).tile t) i := by
  by_cases listed : i ∈ Sparse.keys (s.tile t).l1
  · obtain ⟨x, hx, rfl⟩ := List.mem_map.mp listed
    exact foldl_establishes (P := fun (x : Nat × Option L1Sector) (u : State) => Clean (u.tile t) x.1)
      (fun (u : State) (x : Nat × Option L1Sector) => u.l1WriteBack t x.1) (fun _ _ => clean_l1WriteBack (.inl rfl))
      (fun _ _ _ h => clean_l1WriteBack (.inr h)) _ s hx
  · have absent : Clean (s.tile t) i := fun d hd => by
      rw [Tile.l1Get, get_of_not_mem_keys none listed] at hd
      cases hd
    exact foldl_keeps (P := fun u : State => Clean (u.tile t) i)
      (fun (u : State) (x : Nat × Option L1Sector) => u.l1WriteBack t x.1) (fun _ _ h => clean_l1WriteBack (.inr h)) _ absent

/-- A tile without a dirty sector has nothing to flush. -/
theorem flushTile_of_clean {s : State} {t : Nat} (h : ∀ i, Clean (s.tile t) i) : s.flushTile t = s :=
  foldl_keeps (P := fun u : State => u = s) (fun (u : State) (x : Nat × Option L1Sector) => u.l1WriteBack t x.1)
    (fun _ x same => by rw [same]; exact l1WriteBack_of_clean (h x.1)) _ rfl

/-! ### The save of a crew (03 R60, R65, R66) -/

theorem saveArea_waits {s : State} {t : Nat} {w : Crew} (hw : (s.tile t).crew = some w)
    (h : w.stopped = false ∨ w.resuming = true ∨ s.accessesSettled t = false ∨ s.hodSettled w = false) :
    s.saveArea t = s := by
  simp only [State.saveArea, hw]
  split
  · rfl
  · rcases h with h | h | h | h <;> simp [h]

theorem saveArea_of_settled {s : State} {t : Nat} {w : Crew} {g : Gang} {area : Region} {ks : List Ctx} {pa : Nat}
    (hw : (s.tile t).crew = some w) (hg : s.gang w.gang = some g) (hs : w.stopped = true) (hr : w.resuming = false)
    (ha : s.accessesSettled t = true) (hh : s.hodSettled w = true) (hp : (g.entryOf w.idx).bind (s.areaOf g.vf) = some area)
    (hk : (List.range 4).map (s.fetchCapture t) = ks.map some) (hm : s.rangeXlat area.pasid area.va area.len true = .mapped pa) :
    s.saveArea t = (s.touchRange area.pasid area.va area.len).saveCrew t w g area ks := by
  have read : (ks.map some).any (fun k => k.isNone) = false := by simp
  have all : (ks.map some).filterMap id = ks := by simp
  simp only [State.saveArea, hw, hg, hs, hr, ha, hh, hp, hk, hm, read, all, Bool.not_true, Bool.or_self, Bool.false_eq_true,
    if_false]

/-- The contexts of a tile take the states that are saved of them. -/
def putCtxs (s : State) (t : Nat) (ks : List Ctx) : State := ks.zipIdx.foldl (fun (s : State) k => s.setCtxAt t k.2 k.1) s

theorem putCtxs_updates (t : Nat) : Updates (fun (s : State) (k : Ctx × Nat) => s.setCtxAt t k.2 k.1)
    (fun s c => s.ctxAt t c) (fun k => k.2) (fun k _ => k.1) where
  at_key s k := setCtxAt_ctxAt s t k.2 k.1
  elsewhere s k _ hc := setCtxAt_ctxAt_other s t k.2 k.1 hc

theorem putCtxs_ctxAt (s : State) (t : Nat) {ks : List Ctx} {c : Nat} {k : Ctx} (h : ks[c]? = some k) :
    (putCtxs s t ks).ctxAt t c = k :=
  (putCtxs_updates t).foldl_at (a := (k, c)) ks.zipIdx s (nodup_zipIdx_snd _ _ (fun _ _ h => h))
    (List.mem_zipIdx_iff_getElem?.mpr h)

theorem stores_putCtxs (s : State) (t : Nat) (ks : List Ctx) : stores ((putCtxs s t ks).tile t) = stores (s.tile t) :=
  foldl_frame (fun u : State => stores (u.tile t)) _ (fun u k => by rw [State.setCtxAt, setTile_tile]; rfl) _ s

theorem saveBad_of_stores {x y : Tile} (h : stores x = stores y) (w : Crew) : x.saveBad w = y.saveBad w := by
  simp only [stores, Prod.mk.injEq] at h
  obtain ⟨-, -, -, spadPoison, accPoison⟩ := h
  rw [Tile.saveBad, Tile.saveBad, spadPoison, accPoison]

@[simp] theorem units_writeArea (s : State) (vf spad : Nat) (g : Region) (img : List (Nat × Byte)) (units' : List Nat) :
    units (s.writeArea vf spad g img units') = units s :=
  (foldl_frame units _ (fun u _ => units_vaPut u vf _ none true _) units' _).trans (units_vaPut s vf _ none false _)

theorem gang_set (s : State) (id : Nat) (g : Gang) :
    ({ s with gangs := Sparse.set none s.gangs id (some g) } : State).gang id = some g :=
  get_set_same none s.gangs id (some g)

/-- The last save of a gang changes no tile, no save, and no crew's tile of the gang. -/
theorem gangSaved_keeps {s : State} {id : Nat} {g : Gang} (hg : s.gang id = some g) :
    (s.gangSaved id).tiles = s.tiles ∧ (s.gangSaved id).saves = s.saves ∧
      ∃ h, (s.gangSaved id).gang id = some h ∧ h.tiles = g.tiles := by
  unfold State.gangSaved
  rw [hg]
  dsimp only
  split
  · exact ⟨rfl, rfl, g, hg, rfl⟩
  · exact ⟨rfl, rfl, _, gang_set s id _, rfl⟩

/-- The state in which the image of a crew is read: its contexts as they are saved, and its L1 written back. -/
def saveReady (s : State) (t : Nat) (ks : List Ctx) : State := (putCtxs s t ks).flushTile t

theorem saveReady_tile (s : State) (t : Nat) (ks : List Ctx) : stores ((saveReady s t ks).tile t) = stores (s.tile t) ∧
    ∀ c k, ks[c]? = some k → ((saveReady s t ks).tile t).ctx c = k := by
  refine ⟨(stores_flushTile _ t).trans (stores_putCtxs s t ks), fun c k hk => ?_⟩
  rw [Tile.ctx, saveReady, ctxs_flushTile]
  exact putCtxs_ctxAt s t hk

/-- The device keeps a crew that leaves its tile, with the bytes that were written to its area. -/
def keepCrew (s : State) (t : Nat) (w : Crew) (g : Gang) (area : Region) (base : List (Nat × Byte)) : State :=
  { s with
    saves := Sparse.set none s.saves (crewKey w.gang w.idx) (some {
      gang := w.gang, crew := w, tile := { s.tile t with l1 := [], mould := [], running := none }, src := t, area, base })
    gangs := Sparse.set none s.gangs w.gang (some { g with tiles := g.tiles.set w.idx none }) }

theorem keepCrew_gang (s : State) (t : Nat) (w : Crew) (g : Gang) (area : Region) (base : List (Nat × Byte)) :
    (keepCrew s t w g area base).gang w.gang = some { g with tiles := g.tiles.set w.idx none } := gang_set s w.gang _

theorem keepCrew_saves (s : State) (t : Nat) (w : Crew) (g : Gang) (area : Region) (base : List (Nat × Byte)) :
    Sparse.get none (keepCrew s t w g area base).saves (crewKey w.gang w.idx) = some {
      gang := w.gang, crew := w, tile := { s.tile t with l1 := [], mould := [], running := none }, src := t, area, base } := by
  rw [keepCrew]
  exact get_set_same none s.saves (crewKey w.gang w.idx) (some _)

/-- A crew whose state can be read is written to its area and kept, and its tile is free. -/
theorem saveCrew_of_sound {s : State} {t : Nat} {w : Crew} (g : Gang) (area : Region) (ks : List Ctx)
    (hb : (s.tile t).saveBad w = false) : s.saveCrew t w g area ks =
      ((keepCrew ((saveReady s t ks).writeArea g.vf w.spad area ((saveReady s t ks).saveImage t w)
        ((saveReady s t ks).saveTags t w)) t w g area ((saveReady s t ks).saveImage t w)).freeTile t).gangSaved w.gang := by
  have sound : (putCtxs s t ks).saveLoss t w = putCtxs s t ks :=
    if_neg (by rw [saveBad_of_stores (stores_putCtxs s t ks) w, hb]; decide)
  unfold saveReady
  rw [← sound]
  rfl

/-- A tile without a dirty sector is left as it stands. -/
theorem freeTile_of_clean {s : State} {t : Nat} (h : ∀ i, Clean (s.tile t) i) :
    s.freeTile t = s.setTile t { (s.tile t).vacate with l1 := [] } := by
  unfold State.freeTile
  rw [flushTile_of_clean h]

/-- What the device keeps of a crew, once the crew has left its tile. -/
theorem saveCrew_leaves {s : State} {t : Nat} {w : Crew} (g : Gang) (area : Region) (ks : List Ctx)
    (hb : (s.tile t).saveBad w = false) :
    ((s.saveCrew t w g area ks).tile t).crew = none ∧
      (∃ h, (s.saveCrew t w g area ks).gang w.gang = some h ∧ h.tiles = g.tiles.set w.idx none) ∧
      ∃ base, Sparse.get none (s.saveCrew t w g area ks).saves (crewKey w.gang w.idx) = some {
        gang := w.gang, crew := w, src := t, area, base
        tile := { (saveReady s t ks).tile t with l1 := [], mould := [], running := none } } := by
  rw [saveCrew_of_sound g area ks hb]
  generalize hr : saveReady s t ks = r
  generalize hu : r.writeArea g.vf w.spad area (r.saveImage t w) (r.saveTags t w) = u
  have same : u.tile t = r.tile t := tile_of_units (hu ▸ units_writeArea _ _ _ _ _ _) t
  have clean : ∀ i, Clean ((keepCrew u t w g area (r.saveImage t w)).tile t) i := fun i => by
    have flushed : Clean (r.tile t) i := hr ▸ clean_flushTile (putCtxs s t ks) t i
    rwa [← same] at flushed
  have gang : ((keepCrew u t w g area (r.saveImage t w)).freeTile t).gang w.gang =
      some { g with tiles := g.tiles.set w.idx none } := by
    rw [freeTile_of_clean clean, setTile_gang, keepCrew_gang]
  obtain ⟨tiles, saves, left⟩ := gangSaved_keeps gang
  refine ⟨?_, left, r.saveImage t w, ?_⟩
  · rw [State.tile, tiles]
    exact (vacant_freeTile _ t).1
  · rw [saves, freeTile_of_clean clean, setTile_saves, keepCrew_saves, same]

/-! ### The scrub of moving tiles (03 R72) -/

/-- What a read of a tile gives is not changed where a tile with the same is put. -/
theorem setTile_reads {α : Type} (f : Tile → α) (s : State) {i : Nat} {x : Tile} (h : f x = f (s.tile i)) (n : Nat) :
    f ((s.setTile i x).tile n) = f (s.tile n) := by
  by_cases e : n = i
  · subst e; rw [setTile_tile, h]
  · rw [setTile_tile_other _ _ _ e]

/-- A(v, d) takes the value of a complete move. -/
def moveCount (s : State) (m : Move) : State :=
  if 16 ≤ m.vf then s else s.setVf m.vf { s.vf m.vf with actors := Sparse.set 0 (s.vf m.vf).actors m.die m.count }

/-- A tile of a complete move takes its owner. -/
def giveOwner (m : Move) (s : State) (n : Nat) : State :=
  s.setTile n { s.tile n with owner := if m.owner < 16 then some m.owner else none }

/-- A tile of a complete move takes its role. -/
def giveRole (m : Move) (s : State) (n : Nat) : State :=
  s.setTile n { s.tile n with tstate := if m.owner < 16 then s.roleOf m.owner n else .unassigned }

theorem finishMove_eq (s : State) (m : Move) : s.finishMove m = (m.tiles.foldl (giveRole m) (m.tiles.foldl (giveOwner m)
    (moveCount { s with moves := s.moves.filter (fun n => n != m) } m))).measure := rfl

/-- What the scrub clears of a tile that is not the crew's alone. -/
def contents (x : Tile) : Sparse Ctx × Sparse Byte × Sparse Word × Sparse Word32 × Sparse (Option L1Sector) :=
  (x.ctxs, x.spad, x.ct, x.acc, x.l1)

theorem moveCount_tile (s : State) (m : Move) (n : Nat) : (moveCount s m).tile n = s.tile n := by
  unfold moveCount
  split <;> rfl

theorem finishMove_contents (s : State) (m : Move) (n : Nat) : contents ((s.finishMove m).tile n) = contents (s.tile n) := by
  have roles := fun u => foldl_frame (fun u : State => contents (u.tile n)) (giveRole m)
    (fun u _ => setTile_reads contents u (by rfl) n) m.tiles u
  have owners := fun u => foldl_frame (fun u : State => contents (u.tile n)) (giveOwner m)
    (fun u _ => setTile_reads contents u (by rfl) n) m.tiles u
  rw [finishMove_eq]
  exact (roles _).trans ((owners _).trans (congrArg contents (moveCount_tile _ m n)))

/-- Who owns the tiles, and the books. -/
def holdings (s : State) : (Nat → Option Nat) × Sparse Vf := (fun n => (s.tile n).owner, s.vfs)

theorem roleOf_of_holdings {s u : State} (h : holdings u = holdings s) (v n : Nat) : u.roleOf v n = s.roleOf v n := by
  obtain ⟨owners, vfs⟩ := Prod.mk.inj h
  have rows : (fun i => (u.tile (64 * (n / 64) + i)).owner == some v) = fun i => (s.tile (64 * (n / 64) + i)).owner == some v :=
    funext (fun i => by rw [show (u.tile (64 * (n / 64) + i)).owner = _ from congrFun owners _])
  rw [State.roleOf, State.roleOf, rows, State.vf, State.vf, vfs]

theorem holdings_giveRole (m : Move) (s : State) (n : Nat) : holdings (giveRole m s n) = holdings s :=
  Prod.ext (funext (fun i => setTile_reads Tile.owner s (by rfl) i)) rfl

theorem holdings_giveRoles (m : Move) (s : State) (ns : List Nat) : holdings (ns.foldl (giveRole m) s) = holdings s :=
  foldl_frame holdings (giveRole m) (holdings_giveRole m) ns s

/-- The virtual function's own number of actor tiles on the die is that of the move. -/
theorem finishMove_actors (s : State) (m : Move) (h : m.vf < 16) :
    Sparse.get 0 ((s.finishMove m).vf m.vf).actors m.die = m.count := by
  have roles := foldl_frame State.vfs (giveRole m) (fun _ _ => rfl) m.tiles
  have owners := foldl_frame State.vfs (giveOwner m) (fun _ _ => rfl) m.tiles
  have books : (s.finishMove m).vfs = (moveCount { s with moves := s.moves.filter (fun n => n != m) } m).vfs := by
    rw [finishMove_eq]
    exact (roles _).trans (owners _)
  rw [State.vf, books, moveCount, if_neg (Nat.not_le.mpr h), ← State.vf, setVf_vf]
  exact get_set_same _ _ _ _

/-- Each tile of a complete move has its owner, and the role that goes with it. -/
theorem finishMove_takes (s : State) {m : Move} {n : Nat} (hn : n ∈ m.tiles) :
    ((s.finishMove m).tile n).owner = (if m.owner < 16 then some m.owner else none) ∧
      ((s.finishMove m).tile n).tstate = if m.owner < 16 then (s.finishMove m).roleOf m.owner n else .unassigned := by
  generalize hu : m.tiles.foldl (giveOwner m) (moveCount { s with moves := s.moves.filter (fun n => n != m) } m) = u
  have eq : s.finishMove m = (m.tiles.foldl (giveRole m) u).measure := by rw [← hu]; rfl
  constructor
  · have owner : (u.tile n).owner = if m.owner < 16 then some m.owner else none := by
      rw [← hu]
      exact foldl_establishes_apart
        (P := fun n (u : State) => (u.tile n).owner = if m.owner < 16 then some m.owner else none) (giveOwner m)
        (fun u n => by rw [giveOwner, setTile_tile])
        (fun u n i e h => by rw [giveOwner, setTile_tile_other _ _ _ e, h]) m.tiles _ hn
    rw [eq]
    exact (congrFun (congrArg Prod.fst (holdings_giveRoles m u m.tiles)) n).trans owner
  · rw [eq]
    exact foldl_establishes_apart
      (P := fun n (u : State) => (u.tile n).tstate = if m.owner < 16 then u.roleOf m.owner n else .unassigned) (giveRole m)
      (fun u n => by rw [roleOf_of_holdings (holdings_giveRole m u n), giveRole, setTile_tile])
      (fun u n i e h => by rw [roleOf_of_holdings (holdings_giveRole m u i), giveRole, setTile_tile_other _ _ _ e, h])
      m.tiles u hn

/-- The move without a tile whose scrub is complete. -/
def Move.without (m : Move) (t : Nat) : Move := { m with left := m.left.filter (fun i => i != t) }

/-- The state with a tile scrubbed, and noted so in its move. -/
def scrubbed (s : State) (t : Nat) (m : Move) : State :=
  { s.setTile t (s.tile t).scrub with moves := s.moves.map (fun y => if y = m then Move.without m t else y) }

theorem scrubbed_tile (s : State) (t : Nat) (m : Move) : (scrubbed s t m).tile t = (s.tile t).scrub := setTile_tile s t _

theorem tileScrub_of_moving {s : State} {t : Nat} {m : Move} (hm : (s.tile t).tstate = .moving) (hc : (s.tile t).crew = none)
    (hf : s.moves.find? (fun m => m.left.contains t) = some m) : s.tileScrub t =
      if (Move.without m t).left.isEmpty then (scrubbed s t m).finishMove (Move.without m t) else scrubbed s t m := by
  unfold State.tileScrub
  dsimp only
  rw [hf, hm, hc]
  rfl

theorem tileScrub_of_last {s : State} {t : Nat} {m : Move} (hm : (s.tile t).tstate = .moving) (hc : (s.tile t).crew = none)
    (hf : s.moves.find? (fun m => m.left.contains t) = some m) (hl : ∀ n ∈ m.left, n = t) :
    s.tileScrub t = (scrubbed s t m).finishMove (Move.without m t) := by
  rw [tileScrub_of_moving hm hc hf, if_pos]
  simpa [Move.without] using hl

theorem tileScrub_of_more {s : State} {t n : Nat} {m : Move} (hm : (s.tile t).tstate = .moving) (hc : (s.tile t).crew = none)
    (hf : s.moves.find? (fun m => m.left.contains t) = some m) (hn : n ∈ m.left) (ht : n ≠ t) :
    s.tileScrub t = scrubbed s t m := by
  rw [tileScrub_of_moving hm hc hf, if_neg]
  simpa [Move.without] using ⟨n, hn, ht⟩

theorem tileScrub_waits {s : State} {t : Nat} (h : (s.tile t).tstate ≠ .moving ∨ (s.tile t).crew ≠ none) :
    s.tileScrub t = s := by
  refine if_pos ?_
  rcases h with h | h
  · simp [h]
  · simp [Option.isSome_iff_ne_none.mpr h]

/-! ### Resumption (03 R70) -/

/-- A crew that fetches again; its engines wait for its first bundle. -/
def awake (w : Crew) : Crew := { w with frozen := false, stopped := false, resuming := false, waits := true }

/-- Fetch restarts on a tile, after a FENCE.ld. -/
def restart (s : State) (n : Nat) : State :=
  let u := s.dropClean n
  u.setTile n { u.tile n with nextIssue := u.clk + 1, crew := (u.tile n).crew.map awake }

theorem endResume_of_resumed {s : State} {id : Nat} {g : Gang}
    (h : ∀ n, some n ∈ g.tiles → (s.tile n).sideLog = [] ∧ (s.tile n).landings = []) : s.endResume id g =
      ({ (g.tiles.filterMap (fun t => t)).foldl restart s with
        gangs := Sparse.set none ((g.tiles.filterMap (fun t => t)).foldl restart s).gangs id
          (some { g with run := .running, hold := false, restored := false }) } : State).tellAll id := by
  have ready : (g.tiles.filterMap (fun t => t)).all (fun n => (s.tile n).resumed) = true := by
    refine List.all_eq_true.mpr (fun n hn => ?_)
    obtain ⟨_, hn, rfl⟩ := List.mem_filterMap.mp hn
    obtain ⟨log, landings⟩ := h n hn
    rw [Tile.resumed, log, landings]
    rfl
  exact if_neg (by rw [ready]; decide)

theorem endResume_waits {s : State} {id n : Nat} {g : Gang} (hn : some n ∈ g.tiles)
    (h : (s.tile n).sideLog ≠ [] ∨ (s.tile n).landings ≠ []) : s.endResume id g = s := by
  refine if_pos ?_
  rw [Bool.not_eq_true', List.all_eq_false]
  refine ⟨n, List.mem_filterMap.mpr ⟨some n, hn, rfl⟩, ?_⟩
  rcases h with h | h <;> simp [Tile.resumed, h]

theorem gangResume_of_resuming {s : State} {id : Nat} {g : Gang} (hg : s.gang id = some g) (hr : g.run = .resuming) :
    s.gangResume id = s.endResume id g := by
  simp [State.gangResume, hg, hr]

theorem restart_tile (s : State) (n : Nat) : ((restart s n).tile n).nextIssue = s.clk + 1 ∧
    ((restart s n).tile n).crew = (s.tile n).crew.map awake := by
  simp only [restart, State.dropClean, setTile_tile, setTile_clk]
  exact ⟨trivial, trivial⟩

theorem restart_tile_other (s : State) {n i : Nat} (h : n ≠ i) : (restart s i).tile n = s.tile n :=
  (setTile_tile_other _ _ _ h).trans (setTile_tile_other _ _ _ h)

theorem map_awake_awake (o : Option Crew) : (o.map awake).map awake = o.map awake := by cases o <;> rfl

/-- What the restart of some tiles makes of each of them. -/
theorem restarts_tile (s : State) {ns : List Nat} {n : Nat} (hn : n ∈ ns) :
    ((ns.foldl restart s).tile n).nextIssue = s.clk + 1 ∧ ((ns.foldl restart s).tile n).crew = (s.tile n).crew.map awake := by
  have clk : (ns.foldl restart s).clk = s.clk := foldl_frame State.clk restart (fun _ _ => rfl) ns s
  have crew := foldl_frame (fun u : State => (u.tile n).crew.map awake) restart (fun u i => by
    by_cases e : n = i
    · rw [e, (restart_tile u i).2, map_awake_awake]
    · rw [restart_tile_other u e]) ns s
  obtain ⟨issue, woken⟩ := foldl_establishes_apart
    (P := fun n (u : State) => (u.tile n).nextIssue = u.clk + 1 ∧ (u.tile n).crew = (u.tile n).crew.map awake) restart
    (fun u n => by
      obtain ⟨issue, crew⟩ := restart_tile u n
      exact ⟨issue, by rw [crew, map_awake_awake]⟩)
    (fun u n i e h => by rwa [restart_tile_other u e]) ns s hn
  exact ⟨by rw [issue, clk], by rw [woken, crew]⟩

/-- A gang whose tiles are done resumes, and each of its tiles fetches again. -/
theorem endResume_restarts {s : State} {id : Nat} {g : Gang}
    (h : ∀ n, some n ∈ g.tiles → (s.tile n).sideLog = [] ∧ (s.tile n).landings = []) :
    (s.endResume id g).gang id = some { g with run := .running, hold := false, restored := false } ∧
      ∀ n, some n ∈ g.tiles → ((s.endResume id g).tile n).nextIssue = s.clk + 1 ∧
        ((s.endResume id g).tile n).crew = (s.tile n).crew.map awake := by
  rw [endResume_of_resumed h]
  constructor
  · rw [State.gang, gangs_of_books (books_of_units (units_tellAll _ _))]
    exact gang_set _ _ _
  · intro n hn
    rw [tile_of_units (units_tellAll _ _)]
    exact restarts_tile s (List.mem_filterMap.mpr ⟨some n, hn, rfl⟩)

/-! ### The statement -/

/-- Settles O42: the stop of the engines, the save of a crew, the scrub that is not or is the last of its move, and the restart of
fetch, each by what its step makes of the tile. -/
theorem crewsMove : Obligations.CrewsMove := by
  unfold Obligations.CrewsMove
  intro s t x
  refine ⟨?_, ?_, ?_, ?_, ?_, ?_, ?_, ?_, ?_⟩
  · intro w crew frozen going still
    exact ⟨_, rfl, engineStop_tile crew frozen going still⟩
  · intro w crew waits
    exact congrArg Host.Outcome.next (engineStop_waits crew waits)
  · intro w crew waits
    exact congrArg Host.Outcome.next (saveArea_waits crew waits)
  · intro w g area ks crew gang stopped fresh settled hod sound named read ⟨pa, mapped⟩
    have touched : (s.touchRange area.pasid area.va area.len).tile t = s.tile t := tile_of_units (units_touchRange s _ _ _) t
    obtain ⟨left, tiles, base, kept⟩ := saveCrew_leaves (s := s.touchRange area.pasid area.va area.len) g area ks
      ((congrArg (fun y : Tile => y.saveBad w) touched).trans sound)
    obtain ⟨rest, ctxs⟩ := saveReady_tile (s.touchRange area.pasid area.va area.len) t ks
    rw [touched] at rest
    simp only [stores, Prod.mk.injEq] at rest
    obtain ⟨spad, ct, acc, -, -⟩ := rest
    refine ⟨_, congrArg Host.Outcome.next (saveArea_of_settled crew gang stopped fresh settled hod named read mapped),
      left, tiles, _, kept, rfl, rfl, rfl, spad, ct, acc, rfl, ctxs⟩
  · intro m moving empty found last
    have scrub := finishMove_contents (scrubbed s t m) (Move.without m t) t
    rw [scrubbed_tile] at scrub
    simp only [contents, Prod.mk.injEq] at scrub
    obtain ⟨ctxs, spad, ct, acc, l1⟩ := scrub
    exact ⟨_, congrArg Host.Outcome.next (tileScrub_of_last moving empty found last), ctxs, spad, ct, acc, l1,
      finishMove_actors _ (Move.without m t), fun n hn => finishMove_takes _ (m := Move.without m t) hn⟩
  · intro m n moving empty found more other
    refine ⟨_, congrArg Host.Outcome.next (tileScrub_of_more moving empty found more other), ?_⟩
    dsimp only
    rw [scrubbed_tile]
    exact ⟨rfl, rfl, rfl, rfl, rfl, moving, rfl, rfl⟩
  · intro waits
    exact congrArg Host.Outcome.next (tileScrub_waits waits)
  · intro id g n gang resuming placed waits
    exact congrArg Host.Outcome.next ((gangResume_of_resuming gang resuming).trans (endResume_waits placed waits))
  · intro id g gang resuming done
    obtain ⟨running, tiles⟩ := endResume_restarts (id := id) done
    refine ⟨_, congrArg Host.Outcome.next (gangResume_of_resuming gang resuming), ⟨_, running, rfl, rfl, rfl⟩,
      fun n w placed crew => ?_⟩
    obtain ⟨issue, woken⟩ := tiles n placed
    exact ⟨issue, by rw [woken, crew]; rfl⟩

end Sys2Proof.Proofs
end

section
/-! SUPPORT. Reading back (04 R75 to R77, 05 R102 to R122): for each class of slot, the word that the encoder packs decodes to the
instruction that it was packed from. -/
namespace Sys2Proof.Proofs
open Sys2Proof Sys2Proof.Machine Sys2Proof.Laws

/-- The instruction's word fits its slot, and the slot decodes to the instruction. -/
def ReadsBack (i : Instr) : Prop := ∀ p w, encodeSlot i = some (p, w) → w < 256 ^ slotBytes p ∧ decodeSlot p w = .ok i

/-! ### One slot -/

section
variable {i : Instr} {op : Nat}

theorem opClass_lt {cl : SlotClass} (h : opClass op = some cl) : op < 256 := by
  refine Nat.lt_of_not_le fun high => ?_
  have unassigned : opClass op = none := by
    unfold opClass
    iterate 7 rw [if_neg (by omega)]
  rw [unassigned] at h
  cases h

theorem readsBack_of {p : SlotPos} {w : Nat} (encoded : encodeSlot i = some (p, w)) (fits : WordFits.Statement i)
    (clear : reservedBits p w = false) (named : slotInstr p w = some i) (wf : WellFormed i) : ReadsBack i := by
  intro q v h
  obtain ⟨rfl, rfl⟩ : p = q ∧ w = v := by simpa using encoded.symm.trans h
  obtain ⟨lt, cls⟩ := fits p w encoded
  exact ⟨by rwa [Nat.pow_mul] at lt, decodeSlot_of cls clear named wf⟩

theorem readsBack_c {f : CFields} (encoded : encodeSlot i = some (.c, packC op f)) (cls : opClass op = some .c)
    (named : opC op f = some i) (wf : WellFormed i) : ReadsBack i := by
  have notSysc : op ≠ 0x0C := by rintro rfl; cases named
  refine readsBack_of encoded (WordFits.c_word encoded cls (opClass_lt cls)) ?_ ?_ wf
  · simp [-Nat.reducePow, reservedBits, packC_op, notSysc]
  · simp only [slotInstr, packC_op, if_neg notSysc, unpackC_packC, named]

theorem readsBack_sysc {sub : Nat} {f : SyscFields} (encoded : encodeSlot i = some (.c, packSysc sub f)) (lt : sub < 64)
    (named : opSysc sub f = some i) (wf : WellFormed i) : ReadsBack i := by
  obtain ⟨code, subcode, low, -⟩ := packSysc_form lt f
  refine readsBack_of encoded (WordFits.sysc_word encoded lt) ?_ ?_ wf
  · simp [reservedBits, low]
  · simp only [slotInstr, code, subcode, unpackSysc_packSysc lt, named, if_true, Option.some_or]

/-- Code 0x46 is the shadow form of MOV where srcB[7] is set (04 R84). -/
theorem readsBack_packS {f : SFields} (encoded : encodeSlot i = some (if f.inS1 then .s1 else .s0, packS op f))
    (cls : opClass op = some .s) (named : opS op f = some i) (plain : op = 0x46 → f.srcB.toNat < 128)
    (wf : WellFormed i) : ReadsBack i := by
  have noShadow : ¬ (op = 0x46 ∧ 128 ≤ f.srcB.toNat) := fun ⟨code, high⟩ => by have := plain code; omega
  have back := unpackS_packS op f
  refine readsBack_of encoded (WordFits.s_word encoded cls (opClass_lt cls)) ?_ ?_ wf
  · have clear : (op == 0x46 && decide (128 ≤ f.srcB.toNat)) = false := by simpa using noShadow
    cases f.inS1 <;> simp only [reservedBits, packS_op, packS_srcB, clear, Bool.false_and, if_true, Bool.false_eq_true, if_false]
  · cases h : f.inS1 <;> rw [h] at back <;>
      simp only [slotInstr, packS_op, packS_srcB, noShadow, back, named, if_true, if_false, Bool.false_eq_true]

theorem readsBack_s {f : SFields} (encoded : encodeSlot i = some (if f.inS1 then .s1 else .s0, packS op f))
    (cls : opClass op = some .s) (named : opS op f = some i) (other : op ≠ 0x46) (wf : WellFormed i) : ReadsBack i :=
  readsBack_packS encoded cls named (fun code => absurd code other) wf

/-- A slot without a reason has none of the cases (04 R81). -/
theorem lowestReason_eq_none {l : List (Bool × Nat)} (h : lowestReason l = none) : ∀ x ∈ l, x.1 = false := by
  induction l with
  | nil => simp
  | cons x t ih =>
    obtain ⟨b, r⟩ := x
    cases b <;> cases ht : lowestReason t <;> simp_all [lowestReason]

theorem readsBack_mov {f : SFields} (wf : WellFormed (.mov f)) : ReadsBack (.mov f) := by
  have zero : f.srcB = 0 := by simpa using lowestReason_eq_none (l := _) wf (f.srcB != 0, 3) (by simp)
  exact readsBack_packS rfl (by decide) rfl (fun _ => by simp [zero]) wf

theorem readsBack_shadow {f : ShadowFields} (wf : WellFormed (.movShadow f)) : ReadsBack (.movShadow f) := by
  obtain ⟨code, high, dst, width, six, -⟩ := packShadow_form f
  have back := unpackShadow_packShadow f
  refine readsBack_of rfl (WordFits.shadow_word rfl) ?_ ?_ wf
  · cases f.inS1 <;> simp [-Nat.reducePow, reservedBits, dst, width, six]
  · cases h : f.inS1 <;> rw [h] at back <;> simp [-Nat.reducePow, slotInstr, code, high, back]

theorem readsBack_a {f : AFields} (encoded : encodeSlot i = some (.a, packA op f)) (cls : opClass op = some .a)
    (named : opA op f = some i) (wf : WellFormed i) : ReadsBack i :=
  readsBack_of encoded (WordFits.a_word encoded cls (opClass_lt cls)) rfl
    (by simp only [slotInstr, packA_op, unpackA_packA, named]) wf

theorem readsBack_k {f : KFields} (encoded : encodeSlot i = some (.k, packK op f)) (cls : opClass op = some .k)
    (named : opLds op f = some i) (wf : WellFormed i) : ReadsBack i := by
  have notLimm : op ≠ 0xD8 := by rintro rfl; cases named
  exact readsBack_of encoded (WordFits.k_word encoded cls (opClass_lt cls)) rfl
    (by simp only [slotInstr, packK_op, if_neg notLimm, unpackK_packK, named]) wf

theorem readsBack_limm (imm : BitVec 24) : ReadsBack (.limm imm) := by
  have code : (0xD8 * 2 ^ 24 + imm.toNat) / 2 ^ 24 = 0xD8 := by omega
  have back : field 24 0 (0xD8 * 2 ^ 24 + imm.toNat) = imm := field_eq (by omega)
  exact readsBack_of rfl (WordFits.limm imm) rfl (by simp only [slotInstr, code, back, if_true]) rfl

theorem readsBack_v {f : VFields} (encoded : encodeSlot i = some (.v f.target, packV op f)) (cls : opClass op = some .v)
    (named : opV op f = some i) (wf : WellFormed i) : ReadsBack i := by
  obtain ⟨code, low⟩ := packV_form op f
  exact readsBack_of encoded (WordFits.v_word encoded cls (opClass_lt cls)) (by simp [-Nat.reducePow, reservedBits, low])
    (by simp only [slotInstr, code, unpackV_packV, named]) wf

theorem readsBack_m {f : MFields} (encoded : encodeSlot i = some (.m, packM op f)) (cls : opClass op = some .m)
    (named : opM op f = some i) (wf : WellFormed i) : ReadsBack i := by
  obtain ⟨code, low⟩ := packM_form op f
  exact readsBack_of encoded (WordFits.m_word encoded cls (opClass_lt cls)) (by simp [-Nat.reducePow, reservedBits, low])
    (by simp only [slotInstr, code, unpackM_packM, named]) wf

theorem readsBack_e {f : EFields} (encoded : encodeSlot i = some (.e, packE op f)) (cls : opClass op = some .e)
    (named : opE op f = some i) (wf : WellFormed i) : ReadsBack i :=
  readsBack_of encoded (WordFits.e_word encoded cls (opClass_lt cls)) rfl
    (by simp only [slotInstr, packE_op, unpackE_packE, named]) wf

end

/-- Every well-formed instruction, by the class of its slot. -/
theorem readsBack {i : Instr} (wf : WellFormed i) : ReadsBack i := by
  cases i with
  | barc f | barg f | bargA f | br f | brc f | call f | eret f | exit f | loop f | probe f | ret f | trap f | waitc f
  | waitvEq f | waitvNe f | waitvGe f | yield f => exact readsBack_c rfl (by decide) rfl wf
  | syscTsel f | syscCourse f | syscSave f | syscRestore f | syscFlr f | syscWarm f | syscAssign f | syscVfcfg f
  | syscLqcfg f | syscWcset f | syscCtxtab f | syscObjtab f | syscObjinv f | syscTraparea f | syscSupq f | syscWatch f
  | syscTwm f | syscPnrp f | syscStage f | syscComreg f | syscVcshare f | syscNode f | syscRoute f | syscCrownset f
  | syscTjring f | syscSecnt f | syscMonsel f => exact readsBack_sysc rfl (by decide) rfl wf
  | add f | addSat f | and f | andn f | clz f | cmpEq f | cmpNe f | cmpLt f | cmpLe f | cmpLtn f | cmpLen f | cnt f
  | crd f | ctz f | cwr f | div f | divN f | divR f | divRn f | ext f | fadd f | fcmpEq f | fcmpLt f | fcmpLe f
  | fcmpUn f | fcvtFs f | fcvtSf f | fcvtFb f | fcvtBf f | ffma f | fmax f | fmin f | fmul f | ins f | max f | maxN f
  | min f | minN f | mul f | mulh f | mulhN f | nrg f | or f | plog f | popc f | rnds f | sar f | sel f | shl f
  | shr f | sub f | subSat f | xor f => exact readsBack_s rfl (by decide) rfl (by decide) wf
  | mov f => exact readsBack_mov wf
  | movShadow f => exact readsBack_shadow wf
  | aadd f | aand f | acas f | acasW f | acq f | afaddF32 f | afaddBf16 f | amax f | amaxN f | amin f | aminN f
  | aor f | axchg f | axor f | bind f | bindU f | fence f | fenceLd f | fenceSt f | kchk f | kder f | kderS f
  | kinfo f | kld f | kst f | ld f | ldN f | ldc f | lea f | rel f | st f | stm f =>
    exact readsBack_a rfl (by decide) rfl wf
  | ldsA f | ldsB f => exact readsBack_k rfl (by decide) rfl wf
  | limm imm => exact readsBack_limm imm
  | skclr f | skd f | skh f | skmrgQ f | skmrgH f | skmrgD f | skq f | skqryQ f | skqryR f | skqryE f | vabs f
  | vacc f | vadd f | vand f | vbcast f | vcmpEq f | vcmpNe f | vcmpLt f | vcmpLe f | vcmpUn f | vcvtRne f | vcvtRtz f
  | vcvtRdn f | vcvtRup f | vcvtSr f | vexp2 f | vfma f | vfmaS f | vfmaN f | vgath f | vgathS f | viadd f
  | viaddSat f | viaddSub f | viaddSubsat f | vidx f | vimul f | vld f | vldSt f | vlog2 f | vmax f | vmin f | vmov f
  | vmul f | vneg f | vor f | vpart f | vpkPp8 f | vpkMx4 f | vrcp f | vredAdd f | vredMax f | vredMin f | vrsq f
  | vsar f | vscanAdd f | vscanMax f | vscat f | vscatS f | vsel f | vshfPerm f | vshfRot f | vshl f | vshr f | vsig f
  | vst f | vstSt f | vsub f | vsum f | vtanh f | vupkPp8 f | vupkMx4 f | vxcl f | vxor f =>
    exact readsBack_v rfl (by decide) rfl wf
  | mdrain f | mdrainCt f | mring f | mstep f | mstepx f | mzero f => exact readsBack_m rfl (by decide) rfl wf
  | clabt f | clag f | clarSum f | clarMax f | clbar f | clbc f | clopt f | clrsSum f | clrsMax f | clrsh f | clst f
  | cpy f | cpyfA f | cpyfB f | cpyg f | cpys f | cpyz f | cset f | mtfet f | mthalo f | mtinvWb f | mtinvDrop f
  | mtlook f | mtpin f | mtreg f | mtrel f | sigcAdd f | sigcSet f | tjclose f | tjopen f | tjrd f | tjrec f
  | wvadopt f | wvdrop f | wvhold f | wvpub f | wvqry f => exact readsBack_e rfl (by decide) rfl wf
  | _ => exact fun _ _ h => nomatch h

/-! ### The bundle -/

theorem encode_of_slot {i : Instr} {p : SlotPos} {w : Nat} (h : encodeSlot i = some (p, w)) :
    encode i = leBytes 4 (oneSlotHeader p) ++ leBytes (slotBytes p) w := by
  unfold encode
  split
  case h_4 => rw [h]
  all_goals nomatch h

/-- Only the bits of the header encode what has no slot. -/
theorem headerOnly_of_encoded {i : Instr} (h : encodeSlot i = none) (encoded : encode i ≠ []) :
    i = .mswap ∨ i = .eswap ∨ i = .emptyBundle := by
  unfold encode at encoded
  split at encoded
  case h_4 => rw [h] at encoded; exact absurd rfl encoded
  all_goals simp

/-- Settles O56: a slot instruction through its slot's word, a swap bit and the empty bundle through the header. -/
theorem decodingReadsTheEncoding : Obligations.DecodingReadsTheEncoding := by
  unfold Obligations.DecodingReadsTheEncoding
  intro i wf encoded
  cases h : encodeSlot i with
  | none =>
    obtain rfl | rfl | rfl := headerOnly_of_encoded h encoded <;> exact ⟨_, rfl, rfl, rfl, rfl⟩
  | some pw =>
    obtain ⟨p, w⟩ := pw
    obtain ⟨lt, decoded⟩ := readsBack wf p w h
    rw [encode_of_slot h]
    exact ⟨_, decodeBundle_one lt decoded, rfl, by simp, rfl⟩

end Sys2Proof.Proofs
end

section
/-! SUPPORT. Results that land (04 R88): no write of a result changes what is owed, the earliest of the results due is written
first, and once as many have been written as were owed none that is due remains. -/
namespace Sys2Proof.Proofs
open Sys2Proof Sys2Proof.Machine Sys2Proof.Laws

/-! ### Writes leave what is owed -/

theorem writeS_pending (k : Ctx) (r : Nat) (v : Word) : (k.writeS r v).pending = k.pending := by
  unfold Ctx.writeS
  split <;> rfl

theorem writeP_pending (k : Ctx) (n : Nat) (v : Bool) : (k.writeP n v).pending = k.pending := by
  unfold Ctx.writeP
  split <;> rfl

theorem ctx_applyWr_pending (k : Ctx) (w : Wr) : (k.applyWr w).pending = k.pending := by
  cases w with
  | sreg r v => exact writeS_pending k r v
  | preg n v => exact writeP_pending k n v
  | _ => rfl

section
variable (s : State) (t c : Nat)

theorem setProbecfg_ctx (x : Tile) (v : Word) : (x.setProbecfg v).ctx c = x.ctx c := by
  unfold Tile.setProbecfg
  dsimp only
  split <;> rfl

theorem landCsr_pending (n : Nat) (v : Word) : ((s.landCsr t c n v).ctxAt t c).pending = (s.ctxAt t c).pending := by
  have probe : ∀ v, ((s.tile t).setProbecfg v).ctx c = s.ctxAt t c := setProbecfg_ctx c _
  unfold State.landCsr
  dsimp only
  repeat' split
  all_goals simp only [setCtxAt_ctxAt, setTile_ctxAt, probe, Ctx.writeCsr]

theorem applyWr_pending (w : Wr) : ((s.applyWr t c w).ctxAt t c).pending = (s.ctxAt t c).pending := by
  unfold State.applyWr
  split
  · exact landCsr_pending s t c _ _
  · rw [setTile_ctxAt]
    rfl
  · rw [setCtxAt_ctxAt, ctx_applyWr_pending]

theorem writesOf_pending (p : Pending) : ((s.writesOf t c p).ctxAt t c).pending = (s.ctxAt t c).pending :=
  foldl_frame (fun u : State => (u.ctxAt t c).pending) _ (fun u w => applyWr_pending u t c w) p.writes s

end

/-! ### Order of landing (04 R88) -/

theorem earliest_eq_none_iff (clk : Nat) (l : List Pending) : earliest clk l = none ↔ ∀ p ∈ l, clk < p.due := by
  induction l with
  | nil => simp [earliest]
  | cons p t ih =>
    rw [List.forall_mem_cons, ← ih, earliest]
    cases h : earliest clk t with
    | none => simp
    | some q => by_cases le : p.due ≤ q.due <;> simp [le]

theorem earliest_some {clk : Nat} {l : List Pending} {p : Pending} (h : earliest clk l = some p) : p ∈ l ∧ p.due ≤ clk := by
  induction l generalizing p with
  | nil => simp [earliest] at h
  | cons r t ih =>
    rw [earliest] at h
    cases ht : earliest clk t with
    | none =>
      simp only [ht, Option.ite_none_right_eq_some, Option.some.injEq] at h
      obtain ⟨due, rfl⟩ := h
      exact ⟨List.mem_cons_self, due⟩
    | some q =>
      simp only [ht] at h
      obtain ⟨mem, due⟩ := ih ht
      by_cases le : r.due ≤ q.due
      · rw [if_pos le] at h
        cases h
        exact ⟨List.mem_cons_self, Nat.le_trans le due⟩
      · rw [if_neg le] at h
        cases h
        exact ⟨List.mem_cons_of_mem _ mem, due⟩

section
variable {s : State} {t c clk n : Nat}

theorem landBy_of_none (h : ∀ p ∈ (s.ctxAt t c).pending, clk < p.due) : s.landBy t c clk n = s := by
  cases n with
  | zero => rfl
  | succ n => rw [State.landBy, (earliest_eq_none_iff _ _).mpr h]

theorem landBy_of_some {p : Pending} (h : earliest clk (s.ctxAt t c).pending = some p) : s.landBy t c clk (n + 1) =
    ((s.setCtxAt t c { s.ctxAt t c with pending := (s.ctxAt t c).pending.erase p }).writesOf t c p).landBy t c clk n := by
  rw [State.landBy, h]

/-- As many landings as results are owed write all that are due, and no other. -/
theorem landBy_lands (enough : (s.ctxAt t c).pending.length ≤ n) :
    (∀ p ∈ ((s.landBy t c clk n).ctxAt t c).pending, clk < p.due) ∧
      ∀ p ∈ (s.ctxAt t c).pending, clk < p.due → p ∈ ((s.landBy t c clk n).ctxAt t c).pending := by
  induction n generalizing s with
  | zero =>
    rw [State.landBy, List.length_eq_zero_iff.mp (Nat.le_zero.mp enough)]
    simp
  | succ n ih =>
    cases h : earliest clk (s.ctxAt t c).pending with
    | none =>
      have none := (earliest_eq_none_iff _ _).mp h
      rw [landBy_of_none none]
      exact ⟨none, fun p owed _ => owed⟩
    | some q =>
      obtain ⟨owed, due⟩ := earliest_some h
      rw [landBy_of_some h]
      have left := writesOf_pending (s.setCtxAt t c { s.ctxAt t c with pending := (s.ctxAt t c).pending.erase q }) t c q
      rw [setCtxAt_ctxAt] at left
      obtain ⟨later, kept⟩ := ih (by rw [left, List.length_erase_of_mem owed]; omega)
      refine ⟨later, fun p mem late => kept p ?_ late⟩
      rw [left]
      have apart : p ≠ q := by rintro rfl; omega
      exact (List.mem_erase_of_ne apart).mpr mem

theorem exec_mouldReplay : exec (.mouldReplay t c) s = .next (s.landDue t c) := by
  show execMouldReplay t c s = _
  cases h : (s.ctxAt t c).pending <;> simp [execMouldReplay, State.landDue, State.landBy, h]

/-! ### Two results for one register (04 R88) -/

theorem writesOf_sreg {p : Pending} {r : Nat} {a : Word} (h : p.writes = [.sreg r a]) :
    s.writesOf t c p = s.setCtxAt t c ((s.ctxAt t c).writeS r a) := by
  rw [State.writesOf, h]
  rfl

/-- A result that lands and leaves y is overwritten by y, which lands next. -/
theorem landBy_pair {x y : Pending} {r : Nat} {a b : Word} (first : earliest clk (s.ctxAt t c).pending = some x)
    (rest : (s.ctxAt t c).pending.erase x = [y]) (due : y.due ≤ clk) (hx : x.writes = [.sreg r a])
    (hy : y.writes = [.sreg r b]) (hr : r ≠ 0) :
    ((s.landBy t c clk 2).ctxAt t c).readS r = b ∧ ((s.landBy t c clk 2).ctxAt t c).pending = [] := by
  have second : earliest clk [y] = some y := if_pos due
  rw [landBy_of_some first, rest, writesOf_sreg hx, setCtxAt_ctxAt, setCtxAt_setCtxAt,
    landBy_of_some (by rw [setCtxAt_ctxAt, writeS_pending]; exact second), writesOf_sreg hy]
  simp [State.landBy, hr, writeS_pending]

end

/-- Settles O10: landing empties what is due, and of two results for a register the one that lands last is read. -/
theorem resultsLandInOrder : Obligations.ResultsLandInOrder := by
  unfold Obligations.ResultsLandInOrder
  refine ⟨fun s t c => ⟨⟨_, rfl, landBy_lands (Nat.le_refl _)⟩, fun later => ?_⟩,
    fun s t c p q r a b owed hp hq hr dp dq => ?_⟩
  · have none : s.landDue t c = s := landBy_of_none later
    exact ⟨congrArg Host.Outcome.next none, exec_mouldReplay.trans (congrArg Host.Outcome.next none)⟩
  · have lands : ((s.landDue t c).ctxAt t c).readS r = (if p.due ≤ q.due then b else a) ∧
        ((s.landDue t c).ctxAt t c).pending = [] := by
      rw [State.landDue, owed]
      by_cases le : p.due ≤ q.due
      · rw [if_pos le]
        exact landBy_pair (x := p) (y := q) (by simp [owed, earliest, dq, le]) (by simp [owed]) dq hp hq hr
      · have apart : p ≠ q := fun h => le (h ▸ Nat.le_refl _)
        rw [if_neg le]
        exact landBy_pair (x := q) (y := p) (by simp [owed, earliest, dq, le]) (by simp [owed, apart]) dp hq hp hr
    simp only [List.forall_mem_cons, List.not_mem_nil, false_imp_iff, implies_true, and_true]
    exact ⟨⟨_, rfl, lands⟩, ⟨_, exec_mouldReplay, lands⟩⟩

end Sys2Proof.Proofs
end

section
/-! SUPPORT. Header bits, unassigned codes and guards (04 R80, R81, 05 R111): what an exchange of two banks of shape registers
reads, and what an instruction whose guard is false comes to. -/
namespace Sys2Proof.Proofs
open Sys2Proof Sys2Proof.Machine Sys2Proof.Laws

/-! ### The exchange of shape registers (04 R80) -/

section
variable (c : Ctx) (base i j : Nat)

@[simp] theorem readShape_writeShape (v : Word) : (c.writeShape j v).readShape i = if i = j then v else c.readShape i :=
  get_set 0 c.shape j i v

theorem swapShapes_frame : c.swapShapes base = { c with shape := (c.swapShapes base).shape } :=
  foldl_keeps (P := fun d : Ctx => d = { c with shape := d.shape }) _ (fun d i h => by rw [h]; rfl) (List.range 4) rfl

theorem readShape_swapShapes_low (h : i < 4) : (c.swapShapes base).readShape (base + i) = c.readShape (base + 4 + i) := by
  obtain rfl | rfl | rfl | rfl : i = 0 ∨ i = 1 ∨ i = 2 ∨ i = 3 := by omega
  all_goals simp [Ctx.swapShapes, List.range_succ, Nat.add_assoc]

theorem readShape_swapShapes_high (h : i < 4) : (c.swapShapes base).readShape (base + 4 + i) = c.readShape (base + i) := by
  obtain rfl | rfl | rfl | rfl : i = 0 ∨ i = 1 ∨ i = 2 ∨ i = 3 := by omega
  all_goals simp [Ctx.swapShapes, List.range_succ, Nat.add_assoc]

theorem readShape_swapShapes_other (h : j < base ∨ base + 8 ≤ j) : (c.swapShapes base).readShape j = c.readShape j := by
  have here : j ≠ base := by omega
  have apart : ∀ k < 8, j ≠ base + k := fun k hk => by omega
  simp [Ctx.swapShapes, List.range_succ, Nat.add_assoc, here, apart]

end

/-! ### Guards (05 R111) -/

section
variable {s : State}

theorem guardHolds_of_not_guardTrue {pred : BitVec 4} {sense : BitVec 1} (h : ¬ guardTrue s pred sense) :
    guardHolds s.ctx pred sense = false := by
  simpa [guardTrue, guardHolds, Bool.beq_eq_decide_eq] using h

theorem settle_guarded_off {f : CFields} (h : guardHolds s.ctx f.pred f.sense = false) (r : Res State) :
    settle s (s.guarded f r) = .next s := by
  simp [State.guarded, h]

theorem settle_syscGate_off {f : SyscFields} (h : guardHolds s.ctx f.pred f.sense = false) (pf : Bool) (k : Res State) :
    settle s (s.syscGate f pf k) = .next s := by
  simp [State.syscGate, h]

end

/-! ### Words without a meaning (04 R81, 19 R421) -/

section
variable {s : State} {pos : Nat} {word : BitVec 64}

theorem exec_unassignedCode (other : ¬ (pos = 1 ∧ word.toNat / 2 ^ 24 = 0x0C)) :
    exec (.unassignedCode pos word) s = .next (s.takeTrap .illop (illopInfo 1 pos)) :=
  congrArg (settle s) (if_neg other)

theorem exec_unassignedSubcode (sysc : pos = 1 ∧ word.toNat / 2 ^ 24 = 0x0C)
    (guard : guardHolds s.ctx (BitVec.ofNat 4 (word.toNat / 2 ^ 20)) (BitVec.ofNat 1 (word.toNat / 2 ^ 19)) = true)
    (supervisor : s.curMark ≠ 0) : exec (.unassignedCode pos word) s = .next (s.takeTrap .illop (illopInfo 3 1)) := by
  show execUnassignedCode pos word s = _
  simp [-Nat.reducePow, execUnassignedCode, sysc, guard, supervisor]

end

/-- Settles O11: the exchanges, the words without a meaning, and the instructions behind a false guard. -/
theorem headerAndUnassigned : Obligations.HeaderAndUnassigned := by
  unfold Obligations.HeaderAndUnassigned
  refine ⟨fun s => ⟨?_, ?_, rfl⟩,
    fun s pos w => ⟨exec_unassignedCode, fun atC sysc => exec_unassignedSubcode ⟨atC, sysc⟩⟩, fun s => ⟨fun f off => ?_, fun f off => ?_⟩⟩
  · refine ⟨_, rfl, ?_, fun i hi => ?_⟩ <;> rw [setCtx_ctx]
    · rw [← swapShapes_frame]
    · exact ⟨by simpa using readShape_swapShapes_low s.ctx 0 i hi, by simpa using readShape_swapShapes_high s.ctx 0 i hi,
        readShape_swapShapes_other s.ctx 0 _ (by omega), readShape_swapShapes_other s.ctx 0 _ (by omega)⟩
  · refine ⟨_, rfl, ?_, fun i hi => ?_⟩ <;> rw [setCtx_ctx]
    · rw [← swapShapes_frame]
    · exact ⟨readShape_swapShapes_low s.ctx 8 i hi, readShape_swapShapes_high s.ctx 8 i hi,
        readShape_swapShapes_other s.ctx 8 _ (by omega), readShape_swapShapes_other s.ctx 8 _ (by omega)⟩
  · have guard := guardHolds_of_not_guardTrue off
    simp only [List.forall_mem_cons, List.not_mem_nil, false_imp_iff, implies_true, and_true]
    and_intros <;> exact settle_guarded_off guard _
  · have guard := guardHolds_of_not_guardTrue off
    simp only [List.forall_mem_cons, List.not_mem_nil, false_imp_iff, implies_true, and_true]
    and_intros <;> exact settle_syscGate_off guard _ _

end Sys2Proof.Proofs
end

section
/-! SUPPORT. Return ports and queued causes (04 R90, 15 R321): the entry that a port delivers next, what its delivery leaves, and
the strand that takes a cause. -/
namespace Sys2Proof.Proofs
open Sys2Proof Sys2Proof.Machine Sys2Proof.Laws

/-! ### Delivery (04 R90) -/

theorem firstOwed_append {pre post : List PortEntry} {e : PortEntry} (arrived : ∀ y ∈ pre, y.arrived = true)
    (owed : e.arrived = false) : firstOwed (pre ++ e :: post) = some (pre, e, post) := by
  induction pre with
  | nil => simp [firstOwed, owed]
  | cons y pre ih =>
    obtain ⟨here, rest⟩ := List.forall_mem_cons.mp arrived
    simp [firstOwed, here, ih rest]

section
variable {x : Ctx} {n : Nat} {pre post : List PortEntry} {e : PortEntry}

/-- A discarded entry leaves the port, any other one stays as arrived; a failed one writes nothing. -/
theorem deliver_of_firstOwed (next : firstOwed (x.port n) = some (pre, e, post)) (plain : e.kld = none) :
    let left := x.setPort n (if e.lost then pre ++ post else pre ++ { e with arrived := true } :: post)
    x.deliver n = if e.ready then if e.failed.isSome then left else left.writeBack e else x := by
  unfold Ctx.deliver
  rw [next]
  cases ready : e.ready with
  | false => simp [ready]
  | true => cases failed : e.failed <;> cases lost : e.lost <;> simp [ready, failed, lost, plain]

/-- The value of an entry is known. -/
theorem portEntry_ready_iff :
    e.ready = true ↔ (e.held = none ∧ e.cmd = none ∧ e.twin = false) ∨ e.failed.isSome = true := by
  simp [PortEntry.ready, and_assoc]

end

/-! ### Queued causes (15 R321) -/

section
variable {s : State} {t c : Nat} {x y : Ctx}

theorem passOver_keeps (h : s.passOver t x = .ok y) : y.causes = x.causes ∧ y.run = x.run := by
  unfold State.passOver at h
  split at h
  · obtain ⟨_, -, next⟩ := bind_eq_ok.mp h
    cases next
    exact ⟨rfl, rfl⟩
  · cases h
    exact ⟨rfl, rfl⟩

theorem takeCause_of_passed {e : EngineCause} {rest : List EngineCause} (queued : (s.ctxAt t c).causes = e :: rest)
    (passed : s.passOver t (s.ctxAt t c) = .ok y)
    (run : (s.ctxAt t c).run = .ready ∨ (s.ctxAt t c).run = .running ∨ ∃ w, (s.ctxAt t c).run = .blocked w) :
    s.takeCause t c = (s.setCtxAt t c { y with causes := rest }).trapAt t c kindEngine e.cause e.info := by
  obtain ⟨causes, runs⟩ := passOver_keeps passed
  rw [← runs] at run
  rw [queued] at causes
  unfold State.takeCause
  simp only [passed, causes]
  obtain run | run | ⟨w, run⟩ := run <;> rw [run]

theorem exec_engineCauseTake (free : (s.tile t).held = false) :
    exec (.engineCauseTake t c) s = .next (s.takeCause t c) := by
  show execEngineCauseTake t c s = _
  simp [execEngineCauseTake, free]

end

/-- Settles O37: what the oldest owed entry leaves at its port, and the cause that a strand takes. -/
theorem portsAndCausesDeliver : Obligations.PortsAndCausesDeliver := by
  unfold Obligations.PortsAndCausesDeliver
  intro s t c x
  constructor
  · intro n pre post e listed arrived owed plain known port
    have delivers : exec (.returnPortDeliver t c n) s = .next (s.setCtxAt t c (x.deliver n)) := rfl
    rw [delivers, deliver_of_firstOwed (listed ▸ firstOwed_append arrived owed) plain]
    refine ⟨fun isKnown sound kept => ?_, fun isKnown sound lost => ?_, fun failed kept => ?_, fun unknown sound => ?_⟩
    · simp [portEntry_ready_iff.mpr (.inl isKnown), sound, kept, port, Ctx.writeBack]
    · simp [portEntry_ready_iff.mpr (.inl isKnown), sound, lost, port, Ctx.writeBack]
    · simp [portEntry_ready_iff.mpr (.inr failed), failed, kept, port]
    · have unready : e.ready = false := by
        rw [← Bool.not_eq_true, portEntry_ready_iff]
        rintro (isKnown | failed)
        · exact unknown isKnown
        · simp [sound] at failed
      simp [unready]
  · intro e rest y queued passed free run
    rw [exec_engineCauseTake free, takeCause_of_passed queued passed run]
    rfl

end Sys2Proof.Proofs
end

section
/-! SUPPORT. The module at reset (16 R350): every tile and every context is as one that nothing has been written to. -/
namespace Sys2Proof.Proofs
open Sys2Proof Sys2Proof.Machine Sys2Proof.Laws

@[simp] theorem reset_tile (t : Nat) : State.reset.tile t = {} := rfl
@[simp] theorem reset_ctxAt (t c : Nat) : State.reset.ctxAt t c = {} := rfl

theorem blank_readS (n : Nat) : ({} : Ctx).readS n = 0 := ite_self 0

theorem blank_readP (n : Nat) : ({} : Ctx).readP n = true ↔ n = 0 := by simp [Ctx.readP]

theorem reset_wcByte (a : Nat) : State.reset.wcByte a = 0 := by
  show BitVec.ofNat 8 (0 / 256 ^ ((a - Config.wcBank) % 8)) = 0
  rw [Nat.zero_div]
  rfl

/-- A bank of wave counters reads 0 at reset, as all other memory does. -/
theorem reset_pocByte (a : Nat) : State.reset.pocByte a = 0 := by
  unfold State.pocByte
  split
  · exact reset_wcByte a
  · rfl

/-- Settles O54: each register is a read of a tile, context or memory that nothing has been written to. -/
theorem registersAtReset : Obligations.RegistersAtReset := by
  unfold Obligations.RegistersAtReset
  refine ⟨rfl, fun t c => ?_⟩
  rw [reset_ctxAt, reset_tile]
  exact ⟨blank_readS, fun _ => rfl, fun n _ => blank_readP n, fun _ => ⟨rfl, rfl⟩, fun _ => rfl, fun _ => rfl,
    fun _ _ => rfl, fun _ _ => rfl, fun _ _ => rfl, fun _ _ => rfl, rfl, rfl, fun _ _ => rfl, rfl, rfl, fun _ => rfl,
    reset_pocByte, fun _ => rfl⟩

end Sys2Proof.Proofs
end

section
/-! SUPPORT. Encodings (05 R102 to R122): the encoder gives back the word that a slot decodes, class by class. -/
namespace Sys2Proof.Proofs
open Sys2Proof Sys2Proof.Machine Sys2Proof.Laws

/-! ### The opcode map read backwards (05 R121): what a code names is encoded with that code -/

section
variable {i : Instr} {op : Nat}

theorem encodeSlot_of_opS {f : SFields} (named : opS op f = some i) :
    encodeSlot i = some (if f.inS1 then .s1 else .s0, packS op f) := by
  unfold opS at named
  split at named <;> cases named <;> rfl

theorem encodeSlot_of_opA {f : AFields} (named : opA op f = some i) : encodeSlot i = some (.a, packA op f) := by
  unfold opA at named
  split at named <;> cases named <;> rfl

theorem encodeSlot_of_opC {f : CFields} (named : opC op f = some i) : encodeSlot i = some (.c, packC op f) := by
  unfold opC at named
  split at named <;> cases named <;> rfl

theorem encodeSlot_of_opSysc {sub : Nat} {f : SyscFields} (named : opSysc sub f = some i) :
    encodeSlot i = some (.c, packSysc sub f) := by
  unfold opSysc at named
  split at named <;> cases named <;> rfl

theorem encodeSlot_of_opV {f : VFields} (named : opV op f = some i) :
    encodeSlot i = some (.v f.target, packV op f) := by
  unfold opV at named
  split at named <;> cases named <;> rfl

theorem encodeSlot_of_opM {f : MFields} (named : opM op f = some i) : encodeSlot i = some (.m, packM op f) := by
  unfold opM at named
  split at named <;> cases named <;> rfl

theorem encodeSlot_of_opE {f : EFields} (named : opE op f = some i) : encodeSlot i = some (.e, packE op f) := by
  unfold opE at named
  split at named <;> cases named <;> rfl

theorem encodeSlot_of_opLds {f : KFields} (named : opLds op f = some i) : encodeSlot i = some (.k, packK op f) := by
  unfold opLds at named
  split at named <;> cases named <;> rfl

end

/-- The subcodes 0x01 to 0x1B are assigned (19 R426). -/
theorem unassigned_of_opSysc_eq_none {sub : Nat} {f : SyscFields} (unnamed : opSysc sub f = none) : sub = 0 ∨ 0x1B < sub := by
  unfold opSysc at unnamed
  split at unnamed
  case h_28 =>
    simp only [imp_false] at *
    omega
  all_goals cases unnamed

/-! ### One slot: a word without reserved bits is the encoding of what it names -/

section
variable {i : Instr} {w : Nat}

/-- A word of S0 or S1, with the shadow form of MOV beside the codes (04 R84). -/
theorem encodeSlot_of_slotInstr_scalar {b : Bool} (clear : reservedBits (if b then .s1 else .s0) w = false)
    (named : slotInstr (if b then .s1 else .s0) w = some i) : encodeSlot i = some (if b then .s1 else .s0, w) := by
  have forms : slotInstr (if b then .s1 else .s0) w =
      if w / 2 ^ 24 = 0x46 ∧ 128 ≤ w % 256 then some (.movShadow (unpackShadow b w))
      else opS (w / 2 ^ 24) (unpackS b w) := by cases b <;> rfl
  rw [forms] at named
  split at named
  next shadow =>
    obtain ⟨code, high⟩ := shadow
    obtain ⟨⟨dst, width⟩, six⟩ : (w / 2 ^ 18 % 64 = 0 ∧ w / 2 ^ 15 % 4 = 0) ∧ w / 2 ^ 6 % 2 = 0 := by
      cases b <;> simpa [-Nat.reducePow, reservedBits, code, high] using clear
    cases named
    have encoded : encodeSlot (.movShadow (unpackShadow b w)) =
      some (if b then .s1 else .s0, packShadow (unpackShadow b w)) := rfl
    rw [encoded, packShadow_unpackShadow code high dst width six]
  next => rw [encodeSlot_of_opS named, packS_unpackS rfl]; rfl

/-- The word of a SYSC whose subcode no command has. -/
def UnassignedSysc (w : Nat) (i : Instr) : Prop :=
  w / 2 ^ 24 = 0x0C ∧ (w / 2 ^ 13 % 64 = 0 ∨ 0x1B < w / 2 ^ 13 % 64) ∧ i = .unassignedCode 1 (BitVec.ofNat 64 w)

/-- A word of the C slot: SYSC by its subcode (05 R112, 19 R421), the others by their code. -/
theorem encodeSlot_of_slotInstr_control (clear : reservedBits .c w = false) (named : slotInstr .c w = some i) :
    encodeSlot i = some (.c, w) ∨ UnassignedSysc w i := by
  rw [slotInstr] at named
  by_cases code : w / 2 ^ 24 = 0x0C
  · have low : w % 128 = 0 := by simpa [-Nat.reducePow, reservedBits, code] using clear
    rw [if_pos code] at named
    cases command : opSysc (w / 2 ^ 13 % 64) (unpackSysc w) with
    | none =>
      rw [command] at named
      cases named
      exact .inr ⟨code, unassigned_of_opSysc_eq_none command, rfl⟩
    | some j =>
      rw [command] at named
      cases named
      exact .inl (by rw [encodeSlot_of_opSysc command, packSysc_unpackSysc code rfl low])
  · rw [if_neg code] at named
    exact .inl (by rw [encodeSlot_of_opC named, packC_unpackC rfl])

/-- A word of the K slot: LIMM, whose fields are one immediate, and the scale loads (05 R119). -/
theorem encodeSlot_of_slotInstr_scale (named : slotInstr .k w = some i) : encodeSlot i = some (.k, w) := by
  rw [slotInstr] at named
  split at named
  next code =>
    have whole : 0xD8 * 2 ^ 24 + (field 24 0 w).toNat = w := by simp only [field, BitVec.toNat_ofNat]; omega
    cases named
    exact congrArg (fun v => some (SlotPos.k, v)) whole
  next => rw [encodeSlot_of_opLds named, packK_unpackK rfl]

/-- A word of any slot. -/
theorem encodeSlot_of_slotInstr {p : SlotPos} (clear : reservedBits p w = false) (named : slotInstr p w = some i) :
    encodeSlot i = some (p, w) ∨ (p = .c ∧ UnassignedSysc w i) := by
  cases p with
  | c => exact (encodeSlot_of_slotInstr_control clear named).imp_right fun unassigned => ⟨rfl, unassigned⟩
  | s0 => exact .inl (encodeSlot_of_slotInstr_scalar (b := false) clear named)
  | s1 => exact .inl (encodeSlot_of_slotInstr_scalar (b := true) clear named)
  | a => exact .inl (by rw [encodeSlot_of_opA named, packA_unpackA rfl])
  | v target =>
    have low : w % 16 = 0 := by simpa [reservedBits] using clear
    exact .inl (by rw [encodeSlot_of_opV named, packV_unpackV rfl low]; rfl)
  | m =>
    have low : w % 2 ^ 36 = 0 := by simpa [reservedBits] using clear
    exact .inl (by rw [encodeSlot_of_opM named, packM_unpackM rfl low])
  | e => exact .inl (by rw [encodeSlot_of_opE named, packE_unpackE rfl])
  | k => exact .inl (encodeSlot_of_slotInstr_scale named)

end

/-- Settles O57: a word that decodes has no reserved bit set, so the fields that its code names are the whole of it. -/
theorem decodedWordsAreEncodings : Obligations.DecodedWordsAreEncodings := by
  unfold Obligations.DecodedWordsAreEncodings
  intro p w i _ decoded
  obtain ⟨-, clear, named, wf⟩ := decodeSlot_ok decoded
  exact ⟨wf, encodeSlot_of_slotInstr clear named⟩

/-- The word that the encoder gives a well-formed instruction decodes to it. -/
theorem decodeSlot_of_encodeSlot {i : Instr} {p : SlotPos} {w : Nat} (wf : WellFormed i)
    (encoded : encodeSlot i = some (p, w)) : decodeSlot p w = .ok i :=
  (readsBack wf p w encoded).2

/-- Settles O55: each word is the one that the encoder gives its instruction. -/
theorem wordsDecode : Obligations.WordsDecode := by
  unfold Obligations.WordsDecode
  and_intros <;> exact decodeSlot_of_encodeSlot rfl rfl

end Sys2Proof.Proofs
end

section
/-! SUPPORT. Scalar sources (05 R106, 04 R83, R90): what a latch and an immediate give. -/
namespace Sys2Proof.Proofs
open Sys2Proof Sys2Proof.Machine Sys2Proof.Laws

section
variable {c : Ctx} {n g : Nat}

theorem readPort_of_arrived {e : PortEntry} (head : c.portHead n = some e) (sound : e.failed = none) (plain : e.kld = none)
    (arrived : e.arrived = true) : readPort c n = .ok e.value := by
  simp [readPort, head, sound, plain, arrived]

theorem readPort_of_empty (head : c.portHead n = none) : readPort c n = .block (.port n) := by
  simp [readPort, head]

theorem readLatch_of_content (content : isPort n = false) : readLatch c n = .ok (c.readB n, c) := by
  simp [readLatch, content]

theorem readLatch_of_port (port : isPort n = true) :
    readLatch c n = (readPort c n).bind fun v => .ok (v.setWidth 64, c.markPort n) := if_pos port

theorem readCode_of_register {code : Nat} (low : code < 64) :
    readCode c code g = .ok ((List.range g).map (fun i => c.readS (code + i)), c) := if_pos low

theorem readCode_of_latch : readCode c (64 + n) g = (readLatch c n).bind fun r => .ok ([r.1], r.2) := by
  rw [readCode, if_neg (by omega), Nat.add_sub_cancel_left]

end

/-- srcB[6:0] as a signed value: bit 6 weighs -64. -/
theorem srcBImm_eq {b : BitVec 8} (imm : 128 ≤ b.toNat) :
    srcBImm b = BitVec.ofInt 64 (if b.toNat < 192 then (b.toNat : Int) - 128 else (b.toNat : Int) - 256) := by
  rw [srcBImm, BitVec.signExtend, BitVec.toInt_eq_toNat_cond, BitVec.toNat_setWidth]
  congr 1
  omega

theorem readSrcB_of_code (c : Ctx) (g : Nat) {b : BitVec 8} (code : b.toNat < 128) :
    readSrcB c b g = readCode c b.toNat g := if_neg (by simpa [srcBIsImm] using code)

theorem readSrcB_of_immediate (c : Ctx) (g : Nat) {b : BitVec 8} (imm : 128 ≤ b.toNat) : readSrcB c b g =
    .ok (List.replicate g (BitVec.ofInt 64 (if b.toNat < 192 then (b.toNat : Int) - 128 else (b.toNat : Int) - 256)), c) := by
  have isImm : srcBIsImm b = true := decide_eq_true imm
  rw [readSrcB, if_pos isImm, srcBImm_eq imm]

/-- Settles O1: the cases of a source code, a register, a latch, a return port and an immediate. -/
theorem scalarSourceForms : Obligations.ScalarSourceForms := by
  unfold Obligations.ScalarSourceForms
  intro c g
  refine ⟨fun code => readCode_of_register, fun n content => ?_, fun n e port head sound plain arrived => ?_,
    fun n port empty => ?_, fun b => readSrcB_of_code c g, fun b => readSrcB_of_immediate c g⟩
  · rw [readCode_of_latch, readLatch_of_content content, bind_ok]
  · rw [readCode_of_latch, readLatch_of_port port, readPort_of_arrived head sound plain arrived, bind_ok, bind_ok]
  · rw [readCode_of_latch, readLatch_of_port port, readPort_of_empty empty, bind_block, bind_block]

end Sys2Proof.Proofs
end

section
/-! SUPPORT. The matrix queue (07 R151 to R153, R158): the entry that an M-slot word latches once it passes the checks of
R152, and what MRING leaves in its ring. -/
namespace Sys2Proof.Proofs
open Sys2Proof Sys2Proof.Machine Sys2Proof.Laws

/-- Shape registers mh0 to mh3 of the strand that acts. -/
abbrev shapesOf (s : State) : List Word := (List.range 4).map s.ctx.readShape

/-- ACC of the crew on a tile, and 0 where there is none. -/
def crewAcc (t : Tile) : Nat := match t.crew with | some w => w.acc | none => 0

/-! ### The checks of the shape registers (07 R152) -/

section
variable {op fmt : Nat} {mh : List Word}

theorem shapeFault_zero_of_step (step : isStep op = true) (bad : 2 ^ 27 ≤ (mh.getD 0 0).toNat ∨ mKt mh = 0) :
    shapeFault op fmt mh = some 0 := by
  rw [shapeFault, if_pos step, if_pos bad]

theorem shapeFault_zero_of_mring (bad : 2 ^ 38 ≤ (mh.getD 0 0).toNat ∨ bits (mh.getD 0 0).toNat 7 0 ≠ 0) :
    shapeFault 0xD2 fmt mh = some 0 := if_pos bad

theorem shapeFault_none_of_mring (word0 : (mh.getD 0 0).toNat < 2 ^ 38) (low : bits (mh.getD 0 0).toNat 7 0 = 0) :
    shapeFault 0xD2 fmt mh = none := if_neg (not_or.mpr ⟨Nat.not_le.mpr word0, Decidable.not_not.mpr low⟩)

section
variable (word3 : (mh.getD 3 0).toNat < 2 ^ 25) (reserved3 : bits (mh.getD 3 0).toNat 15 8 = 0)
include word3 reserved3

theorem mh3_accepted : ¬ (decide (2 ^ 25 ≤ (mh.getD 3 0).toNat) || bits (mh.getD 3 0).toNat 15 8 != 0) = true := by
  rw [reserved3, decide_eq_false (Nat.not_le.mpr word3)]
  decide

theorem shapeFault_none_of_step (step : isStep op = true) (word0 : (mh.getD 0 0).toNat < 2 ^ 27) (trips : mKt mh ≠ 0)
    (word1 : (mh.getD 1 0).toNat < 2 ^ 24) (valid : mVk mh ≤ mKs fmt) (cols : mCols mh ≤ 128) (rows : mRows mh ≤ 128)
    (window : (mh.getD 2 0).toNat < 2 ^ mL mh) : shapeFault op fmt mh = none := by
  unfold shapeFault
  dsimp only
  rw [if_pos step, if_neg (by omega), if_neg (by omega), if_neg (by omega), if_neg (mh3_accepted word3 reserved3)]

theorem shapeFault_none_of_drain (plain : isStep op = false) (drain : isDrain op = true)
    (word0 : (mh.getD 0 0).toNat < 2 ^ 25) (aligned : mDst mh % 256 = 0) : shapeFault op fmt mh = none := by
  unfold shapeFault
  dsimp only
  rw [if_neg (ne_true_of_eq_false plain), if_pos drain, if_neg (by omega), if_neg (mh3_accepted word3 reserved3)]

theorem shapeFault_none_of_mzero : shapeFault 0xD5 fmt mh = none := if_neg (mh3_accepted word3 reserved3)

end

theorem mDst_mod_256 (low : bits (mh.getD 0 0).toNat 7 0 = 0) : mDst mh % 256 = 0 :=
  (Nat.mod_mod_of_dvd _ (by decide : 256 ∣ 2 ^ 24)).trans low

/-- A drained element is BF16 where OFMT is 1, else FP32. -/
theorem drainBytes_eq : (if mOfmt mh then 2 else 4) = if mhBits mh 0 24 24 = 1 then 2 else 4 :=
  ite_congr (propext beq_iff_eq) (fun _ => rfl) (fun _ => rfl)

/-- Every accumulator that an operation uses lies below a bound that EA plus their number keeps to. -/
theorem lt_of_mem_usedAccs {acc n a : Nat} (fits : acc + mAccoff mh + (if isStep op then mMt mh * mNt mh else 1) ≤ n)
    (used : a ∈ usedAccs op acc mh) : a < n := by
  rw [usedAccs] at used
  split at used <;> rename_i step
  · obtain ⟨x, below, rfl⟩ := List.mem_map.mp used
    rw [if_pos step] at fits
    have := List.mem_range.mp below
    omega
  · rw [if_neg step] at fits
    have := List.mem_singleton.mp used
    omega

end

theorem ringFault_of_fit {t : Tile} {f : MFields} (apart : f.ringA ≠ f.ringB)
    (fit : ∀ r ∈ [f.ringA.toNat, f.ringB.toNat], (t.ring r).slots ≠ 0 ∧
      128 * mVec f.fmt.toNat ≤ (t.ring r).slotsz) : t.ringFault f = none := by
  obtain ⟨slotsA, sizeA⟩ := fit f.ringA.toNat (by simp)
  obtain ⟨slotsB, sizeB⟩ := fit f.ringB.toNat (by simp)
  have numbers : f.ringA.toNat ≠ f.ringB.toNat := fun same => apart (BitVec.eq_of_toNat_eq same)
  rw [Tile.ringFault, if_neg slotsA, if_neg slotsB, if_neg numbers, if_neg (by omega), if_neg (by omega)]

/-! ### The entry that an operation latches (07 R151, R158) -/

section
variable {s : State} {op : Nat} {f : MFields}

/-- The checks that an M-slot word passes at issue: shape registers, accumulators, block scales, rings, drain area. -/
structure PassesChecks (s : State) (op : Nat) (f : MFields) : Prop where
  shape : shapeFault op f.fmt.toNat (shapesOf s) = none
  accs : f.acc.toNat + mAccoff (shapesOf s) + (if isStep op then mMt (shapesOf s) * mNt (shapesOf s) else 1) ≤
    min 4 (crewAcc (s.tile s.cur))
  scales : isStep op = true → 5 ≤ f.fmt.toNat → mMt (shapesOf s) = 1 ∧ mNt (shapesOf s) = 1 ∧
    f.scb.toNat + mScoff (shapesOf s) + mScales f.fmt.toNat * mKt (shapesOf s) ≤ 16
  rings : isStep op = true → (s.tile s.cur).ringFault f = none
  area : isDrain op = true →
    mDst (shapesOf s) + 16384 * (if mOfmt (shapesOf s) then 2 else 4) ≤ (s.tile s.cur).crewSpad

/-- The entry of an M-slot word with all that it latches as it issues. -/
def latchedEntry (s : State) (op : Nat) (f : MFields) : MqEntry :=
  { id := (s.tile s.cur).mqSeq, iss := s.issuer s.cur s.curCtx, op, word := packM op f, mh := shapesOf s
    scales := if isStep op then
      (List.range (mScales f.fmt.toNat * mKt (shapesOf s))).map
        (fun i => s.ctx.readSc (f.scb.toNat + mScoff (shapesOf s) + i))
      else []
    prio := (s.ctx.readCsr 0x1B).toNat % 8, entered := s.clk }

theorem mLatch_of_shapeFault {i : Nat} (bad : shapeFault op f.fmt.toNat (shapesOf s) = some i) :
    s.mLatch op f = .trap .shape (BitVec.ofNat 64 i) := by
  simp only [State.mLatch, bad]

theorem mLatch_of_passes (passes : PassesChecks s op f) : s.mLatch op f = .ok (latchedEntry s op f) := by
  obtain ⟨shape, accs, scales, rings, area⟩ := passes
  have owned : (usedAccs op f.acc.toNat (shapesOf s)).find?
      (fun a => decide (3 < a) || decide (crewAcc (s.tile s.cur) ≤ a)) = none := by
    refine List.find?_eq_none.mpr fun a used => ?_
    have := lt_of_mem_usedAccs accs used
    simp only [Bool.or_eq_true, decide_eq_true_eq]
    omega
  have scaled : ¬ (isStep op = true ∧ 5 ≤ f.fmt.toNat ∧ (mMt (shapesOf s) ≠ 1 ∨ mNt (shapesOf s) ≠ 1 ∨
      16 < f.scb.toNat + mScoff (shapesOf s) + mScales f.fmt.toNat * mKt (shapesOf s))) := by
    rintro ⟨step, wide, bad⟩
    have := scales step wide
    omega
  have prio : bits (s.ctx.readCsr 0x1B).toNat 2 0 = (s.ctx.readCsr 0x1B).toNat % 8 := by simp [bits]
  simp only [State.mLatch, shape, if_neg scaled, prio]
  split
  next a found => cases found.symm.trans owned
  next =>
    by_cases step : isStep op = true
    · simp only [latchedEntry, if_pos step, rings step]
    · rw [latchedEntry, if_neg step, if_neg step, if_neg (fun short => Nat.not_lt.mpr (area short.1) short.2)]

/-- An operation that passes the checks is the last entry of a queue that has room. -/
theorem settle_mIssue_of_passes (room : (s.tile s.cur).mq.length < 8) (passes : PassesChecks s op f) :
    settle s (s.mIssue op f) = .next (s.setTile s.cur { s.tile s.cur with
      mq := (s.tile s.cur).mq ++ [latchedEntry s op f], mqSeq := (s.tile s.cur).mqSeq + 1 }) := by
  rw [State.mIssue, if_neg (by omega), mLatch_of_passes passes]
  rfl

theorem settle_mIssue_of_shapeFault {i : Nat} (room : (s.tile s.cur).mq.length < 8)
    (bad : shapeFault op f.fmt.toNat (shapesOf s) = some i) :
    settle s (s.mIssue op f) = .next (s.takeTrap .shape (BitVec.ofNat 64 i)) := by
  rw [State.mIssue, if_neg (by omega), mLatch_of_shapeFault bad, bind_trap, settle_trap]

theorem settle_mIssue_of_full (full : 8 ≤ (s.tile s.cur).mq.length) :
    settle s (s.mIssue op f) = .next ((s.block s.cur s.curCtx .matrixQueue).episodes s.cur) := by
  rw [State.mIssue, if_pos full, settle_block]

end

/-! ### The configuration of a ring (07 R153) -/

section
variable {s : State} {f : MFields}

theorem exec_mring_of_shapeFault {i : Nat} (bad : shapeFault 0xD2 0 (shapesOf s) = some i) :
    exec (.mring f) s = .next (s.takeTrap .shape (BitVec.ofNat 64 i)) := by
  show execMring f s = _
  simp only [execMring, bad, settle_trap]

/-- Where nothing is queued, an allowed ring in the crew's scratchpad is configured 1 clk after issue. -/
theorem exec_mring_of_idle (shape : shapeFault 0xD2 0 (shapesOf s) = none)
    (allowed : (s.tile s.cur).ringAllowed f.ringA.toNat = true)
    (area : mhBits (shapesOf s) 0 23 0 + (mhBits (shapesOf s) 0 31 24 + 1) * (256 * (mhBits (shapesOf s) 0 37 32 + 1)) ≤
      (s.tile s.cur).crewSpad)
    (queue : (s.tile s.cur).mq = []) (follows : (s.tile s.cur).follows = []) (copies : (s.tile s.cur).cq = []) :
    exec (.mring f) s = .next (s.emit .none 0 0 1 [.ring f.ringA.toNat (mhBits (shapesOf s) 0 23 0)
      (mhBits (shapesOf s) 0 31 24 + 1) (256 * (mhBits (shapesOf s) 0 37 32 + 1))]) := by
  show execMring f s = _
  simp [execMring, shape, allowed, Nat.not_lt.mpr area, queue, follows, copies]

/-- The write of a configuration leaves the ring empty. -/
theorem ring_applyWr_ring (u : State) (t c n base slots slotsz : Nat) :
    ((u.applyWr t c (.ring n base slots slotsz)).tile t).ring n = { base, slots, slotsz } := by
  simp [State.applyWr, Tile.ring, Tile.setRing]

end

/-! ### The statement -/

/-- Settles O34: the checks of each operation, the entry that it latches, and the write that MRING owes. -/
theorem matrixOperationsQueue : Obligations.MatrixOperationsQueue := by
  unfold Obligations.MatrixOperationsQueue
  intro s f t mh w field ea owned fmt ks vec mT nT esb scales legal3 entered loop
  refine ⟨?_, ?_, ?_, ?_, ?_, ?_, ?_⟩
  · rintro ⟨word0, trips, word1, valid, cols, rows, window, word3, reserved3⟩ accs blocks apart fit sc
    have passes (op : Nat) (step : isStep op = true) (plain : isDrain op = false) : PassesChecks s op f :=
      { shape := shapeFault_none_of_step word3 reserved3 step word0 trips word1 valid cols rows window
        accs := by rw [if_pos step]; exact accs
        scales := fun _ => blocks
        rings := fun _ => ringFault_of_fit apart fit
        area := fun drain => absurd drain (ne_true_of_eq_false plain) }
    exact ⟨fun room => settle_mIssue_of_passes room (passes 0xD3 rfl rfl),
      fun room => settle_mIssue_of_passes room (passes 0xD4 rfl rfl)⟩
  · rintro word0 aligned ⟨word3, reserved3⟩ accs area
    have passes (op : Nat) (plain : isStep op = false) (drain : isDrain op = true) : PassesChecks s op f :=
      { shape := shapeFault_none_of_drain word3 reserved3 plain drain word0 (mDst_mod_256 aligned)
        accs := by rw [if_neg (ne_true_of_eq_false plain)]; exact accs
        scales := fun step => absurd step (ne_true_of_eq_false plain)
        rings := fun step => absurd step (ne_true_of_eq_false plain)
        area := fun _ => by rw [drainBytes_eq]; exact area }
    exact ⟨fun room => settle_mIssue_of_passes room (passes 0xD0 rfl rfl),
      fun room => settle_mIssue_of_passes room (passes 0xD1 rfl rfl)⟩
  · rintro ⟨word3, reserved3⟩ accs room
    exact settle_mIssue_of_passes room {
      shape := shapeFault_none_of_mzero word3 reserved3
      accs := accs
      scales := nofun
      rings := nofun
      area := nofun }
  · intro full
    simp only [List.forall_mem_cons, List.not_mem_nil, false_imp_iff, implies_true, and_true]
    and_intros <;> exact settle_mIssue_of_full full
  · intro word0 low allowed slots size area queue follows copies
    refine ⟨⟨_, exec_mring_of_idle (shapeFault_none_of_mring word0 low) allowed area queue follows copies, ?_⟩,
      fun u => ring_applyWr_ring u _ _ _ _ _ _⟩
    exact owed_congr (emit_owed s .none 0 0 1 _) fun x => List.mem_singleton
  · exact fun bad => exec_mring_of_shapeFault (shapeFault_zero_of_mring bad)
  · intro room bad
    have refused (op : Nat) (step : isStep op = true) : shapeFault op fmt (shapesOf s) = some 0 :=
      shapeFault_zero_of_step step bad
    exact ⟨settle_mIssue_of_shapeFault room (refused 0xD3 rfl), settle_mIssue_of_shapeFault room (refused 0xD4 rfl)⟩

end Sys2Proof.Proofs
end

section
/-! SUPPORT. Vector slots of fixed latency (05 R115, 20 R432): what a slot that acts in each of its clusters comes to, and the
writes of a delivery. -/
namespace Sys2Proof.Proofs
open Sys2Proof Sys2Proof.Machine Sys2Proof.Laws

/-! ### The clusters of a slot (04 R76) -/

theorem clustersOf_nodup (t : VTarget) : (clustersOf t).Nodup := by
  cases t with
  | broadcast => exact List.nodup_range
  | cluster c => exact List.nodup_cons.mpr ⟨List.not_mem_nil, List.nodup_nil⟩

theorem clustersOf_ne_nil (t : VTarget) : clustersOf t ≠ [] := by
  cases t with
  | broadcast => exact List.cons_ne_nil _ _
  | cluster c => exact List.cons_ne_nil _ _

theorem foldl_bind_setCtx {s : State} {k : State → Nat → Res State} {g : Ctx → Nat → Ctx}
    (step : ∀ u cl, u.clk = s.clk → k u cl = .ok (u.setCtx (g u.ctx cl))) (cs : List Nat) (c : Ctx) :
    cs.foldl (fun (r : Res State) cl => r.bind fun u => k u cl) (.ok (s.setCtx c)) = .ok (s.setCtx (cs.foldl g c)) := by
  induction cs generalizing c with
  | nil => rfl
  | cons cl rest ih =>
    rw [List.foldl_cons, List.foldl_cons, bind_ok, step (s.setCtx c) cl rfl, setCtx_ctx, setCtx_setCtx, ih]

/-- Where the slot's step in a cluster replaces the context alone, the slot replaces it by what the steps make of it. -/
theorem vEach_of_setCtx {s : State} {k : State → Nat → Res State} {g : Ctx → Nat → Ctx} (f : VFields)
    (step : ∀ u cl, u.clk = s.clk → k u cl = .ok (u.setCtx (g u.ctx cl))) :
    s.vEach f k = .ok (s.setCtx ((clustersOf f.target).foldl g s.ctx)) := by
  rw [State.vEach]
  obtain ⟨cl, rest, reached⟩ := List.exists_cons_of_ne_nil (clustersOf_ne_nil f.target)
  rw [reached, List.foldl_cons, bind_ok, step s cl rfl, foldl_bind_setCtx step, List.foldl_cons]

/-! ### What the clusters owe together (04 R88) -/

/-- The context owes the writes of a vector slot for a cluster, n clk after clk. -/
def vEmit (clk n slot : Nat) (c : Ctx) (cl : Nat) (ws : List Wr) : Ctx :=
  c.emit {
    due := clk + n, issued := clk, cls := if n ≤ 1 then .none else .v, cluster := cl, slot, ipc := c.pc, writes := ws }

theorem emit_eq_vEmit (s : State) (cl slot n : Nat) (ws : List Wr) :
    s.emit .v cl slot n ws = s.setCtx (vEmit s.clk n slot s.ctx cl ws) := rfl

theorem vEmit_frame (clk n slot : Nat) (c : Ctx) (cl : Nat) (ws : List Wr) :
    vEmit clk n slot c cl ws = { c with pending := (vEmit clk n slot c cl ws).pending } := ctx_emit_frame c _

theorem vEmit_owes (clk n slot : Nat) (c : Ctx) (cl : Nat) (ws : List Wr) (d : Nat) (w : Wr) :
    (vEmit clk n slot c cl ws).Owes d w ↔ c.Owes d w ∨ (d = clk + n ∧ w ∈ ws) := ctx_emit_owes c _ d w

/-- Each cluster owes what it would alone, when no other cluster's step changes what its own step reads. -/
theorem foldl_owes {g : Ctx → Nat → Ctx} {Reads : Nat → Ctx → Prop} {W : Nat → Nat → Wr → Prop}
    (own : ∀ c cl, Reads cl c → ∀ d w, (g c cl).Owes d w ↔ c.Owes d w ∨ W cl d w)
    (keep : ∀ c cl x, x ≠ cl → Reads cl c → Reads x c → Reads x (g c cl)) {cs : List Nat} (nodup : cs.Nodup) {c : Ctx}
    (start : ∀ cl ∈ cs, Reads cl c) (d : Nat) (w : Wr) :
    (cs.foldl g c).Owes d w ↔ c.Owes d w ∨ ∃ cl ∈ cs, W cl d w := by
  induction cs generalizing c with
  | nil => simp only [List.foldl_nil, List.not_mem_nil, false_and, exists_false, or_false]
  | cons cl rest ih =>
    obtain ⟨fresh, nodup⟩ := List.nodup_cons.mp nodup
    obtain ⟨first, others⟩ := List.forall_mem_cons.mp start
    have kept : ∀ x ∈ rest, Reads x (g c cl) := fun x hx =>
      keep c cl x (fun same => fresh (same ▸ hx)) first (others x hx)
    rw [List.foldl_cons, ih nodup kept, own c cl first, or_assoc]
    simp only [List.mem_cons, or_and_right, exists_or, exists_eq_left]

section
variable {s : State} {f : VFields} {W V : Nat → Nat → Wr → Prop}

theorem vOwed_congr {hold draws : Nat} {takes : Prop} {t : State} (same : ∀ cl d w, W cl d w ↔ V cl d w)
    (owed : VOwed s f hold draws takes W t) : VOwed s f hold draws takes V t :=
  { owed with owes := fun d w => by simp only [owed.owes, same] }

theorem setCtx_vf0 (c : Ctx) : ((s.setCtx c).tile s.cur).vf0 = (s.tile s.cur).vf0 := by
  rw [State.setCtx, State.setCtxAt, setTile_tile, tile_setCtx_vf0]

/-- A slot of no float unit, draw or return port changes the context by what it owes. -/
theorem vOwed_setCtx {c : Ctx} (frame : c = { s.ctx with pending := c.pending })
    (owes : ∀ d w, c.Owes d w ↔ s.ctx.Owes d w ∨ ∃ cl ∈ clustersOf f.target, W cl d w) :
    VOwed s f 0 0 False W (s.setCtx c) := by
  have popped : c.popped = s.ctx.popped := by rw [frame]
  have draws : c.draws = s.ctx.draws := by rw [frame]
  constructor
  case only =>
    rw [setCtx_vf0, setCtx_ctx, popped, draws]
    refine (congrArg s.setCtx frame).trans ?_
    simp only [State.setCtx, State.setCtxAt, State.curCtx, setTile_cur, setTile_tile, setTile_setTile]
  case owes => intro d w; rw [setCtx_ctx]; exact owes d w
  case held => intro cl; simp only [setCtx_vf0, ne_eq, not_true_eq_false, false_and, and_false, if_false]
  case drawn => intro cl; simp only [Ctx.readDraw, setCtx_ctx, draws, ne_eq, not_true_eq_false, and_false, if_false]
  case ports => intro n; simp only [setCtx_ctx, popped, false_and, or_false]

/-- The same for a slot that also changes the sum latches. -/
theorem vOwed_setCtx_of_sum {c : Ctx} {sum : Sparse SumLatch}
    (frame : c = { s.ctx with sum := sum, pending := c.pending })
    (owes : ∀ d w, c.Owes d w ↔ s.ctx.Owes d w ∨ ∃ cl ∈ clustersOf f.target, W cl d w) :
    VOwed (s.setCtx { s.ctx with sum := sum }) f 0 0 False W (s.setCtx c) := by
  rw [← setCtx_setCtx s { s.ctx with sum := sum } c]
  exact vOwed_setCtx (by rw [setCtx_ctx]; exact frame) (by rw [setCtx_ctx]; exact owes)

/-- A slot whose writes depend on no result that is still owed owes those of each cluster. -/
theorem vEach_emits {k : State → Nat → Res State} {slot n : Nat} {ws : Ctx → Nat → List Wr}
    (blind : ∀ c p cl, ws { c with pending := p } cl = ws c cl)
    (step : ∀ u cl, k u cl = .ok (u.emit .v cl slot n (ws u.ctx cl))) :
    ∃ t, settle s (s.vEach f k) = .next t ∧
      VOwed s f 0 0 False (fun cl d w => d = s.clk + n ∧ w ∈ ws s.ctx cl) t := by
  have issued : s.vEach f k = .ok (s.setCtx ((clustersOf f.target).foldl
      (fun c cl => vEmit s.clk n slot c cl (ws c cl)) s.ctx)) :=
    vEach_of_setCtx f fun u cl clk => by rw [step, emit_eq_vEmit, clk]
  refine ⟨_, by rw [issued, settle_ok], vOwed_setCtx ?frame (foldl_owes (Reads := fun _ (c : Ctx) =>
    c = { s.ctx with pending := c.pending }) ?own ?keep (clustersOf_nodup _) (fun _ _ => rfl))⟩
  case frame =>
    refine foldl_keeps (P := fun c : Ctx => c = { s.ctx with pending := c.pending }) _ (fun c cl same => ?_) _ rfl
    rw [vEmit_frame, same]
  case own =>
    intro c cl same d w
    rw [vEmit_owes, same, blind]
  case keep =>
    intro c cl x _ same _
    rw [vEmit_frame, same]

end

/-! ### The writes of a delivery (05 R115) -/

theorem foldl_or_singleton (x : BitVec 4) : [x].foldl (fun a b => a ||| b) 0 = x := BitVec.zero_or

theorem foldl_or_eq_zero {fl : List (BitVec 4)} (clear : ∀ x ∈ fl, x = 0) : fl.foldl (fun a b => a ||| b) 0 = 0 := by
  induction fl with
  | nil => rfl
  | cons x rest ih =>
    obtain ⟨rfl, others⟩ := List.forall_mem_cons.mp clear
    exact ih others

theorem mem_flagWr (fl : List (BitVec 4)) (w : Wr) :
    w ∈ flagWr fl ↔ fl.foldl (fun a b => a ||| b) 0 ≠ 0 ∧ w = .satf (fl.foldl (fun a b => a ||| b) 0) := by
  rw [flagWr]
  generalize fl.foldl (fun a b => a ||| b) 0 = joined
  by_cases clear : joined = 0
  · rw [if_pos clear]
    simp only [clear, List.not_mem_nil, ne_eq, not_true_eq_false, false_and]
  · rw [if_neg clear, List.mem_singleton]
    exact (and_iff_right clear).symm

/-- The writes of State.vDeliver. -/
def deliverWr (f : VFields) (cl latch : Nat) (mask : Vec) (regs : List Vec) (fl : List (BitVec 4)) : List Wr :=
  (if f.nw = 0 then regs.zipIdx.map (fun x => Wr.vreg cl (f.dst.toNat + x.2) mask x.1) else []) ++
    [.vlatch cl latch (regs.headD 0 &&& mask)] ++ flagWr fl

theorem vDeliver_eq_emit (s : State) (op : Nat) (f : VFields) (cl n latch : Nat) (mask : Vec) (regs : List Vec)
    (fl : List (BitVec 4)) :
    s.vDeliver op f cl n latch mask regs fl = s.emit .v cl (packV op f) n (deliverWr f cl latch mask regs fl) := rfl

theorem vDelivers_iff (s : State) (f : VFields) (pred : BitVec 4) (cl n latch : Nat) (regs : List Vec)
    (fl : List (BitVec 4)) (d : Nat) (w : Wr) :
    VDelivers s f pred cl n latch regs (fl.foldl (fun a b => a ||| b) 0) d w ↔
      d = s.clk + n ∧ w ∈ deliverWr f cl latch (laneMask (activeLanes s.ctx cl pred)) regs fl := by
  have members (mask : Vec) : w ∈ regs.zipIdx.map (fun x => Wr.vreg cl (f.dst.toNat + x.2) mask x.1) ↔
      ∃ i v, regs[i]? = some v ∧ w = .vreg cl (f.dst.toNat + i) mask v := by
    simp only [List.mem_map, Prod.exists, List.mem_zipIdx_iff_getElem?]
    constructor
    · rintro ⟨v, i, member, rfl⟩
      exact ⟨i, v, member, rfl⟩
    · rintro ⟨i, v, member, rfl⟩
      exact ⟨v, i, member, rfl⟩
  rw [VDelivers, deliverWr, List.append_assoc, List.mem_append, List.mem_append, List.mem_singleton, mem_flagWr]
  by_cases written : f.nw = 0
  · rw [if_pos written, members]
    simp only [written, true_and]
  · rw [if_neg written]
    simp only [written, false_and, List.not_mem_nil, false_or]

/-! ### Elements of a group (08 R164) -/

/-- The elements of srcA in a cluster, as a context holds them. -/
def elemsA (c : Ctx) (f : VFields) (cl : Nat) : List Nat := groupElems (vW f) (readVGroup c cl f.srcA.toNat (vG f))

theorem vA_eq_elemsA (s : State) (f : VFields) (cl : Nat) : s.vA f cl = elemsA s.ctx f cl := rfl

theorem length_elemsA (c : Ctx) (f : VFields) (cl : Nat) : (elemsA c f cl).length = vN f := by
  rw [elemsA, groupElems, List.length_flatMap, readVGroup, List.map_map, vN]
  simp only [vecElems, Function.comp_def, List.length_map, List.length_range, List.map_const', List.sum_replicate_nat]

theorem map_zipIdx_eq_map_range {α : Type} {l : List Nat} {n : Nat} (len : l.length = n) (h : Nat → Nat → α) :
    l.zipIdx.map (fun x => h x.1 x.2) = (List.range n).map (fun e => h (l.getD e 0) e) := by
  subst len
  refine List.ext_getElem ?_ fun i zipped _ => ?_
  · rw [List.length_map, List.length_zipIdx, List.length_map, List.length_range]
  · rw [List.length_map, List.length_zipIdx] at zipped
    rw [List.getElem_map, List.getElem_zipIdx, List.getElem_map, List.getElem_range, Nat.zero_add,
      List.getD_eq_getElem?_getD, List.getElem?_eq_getElem zipped, Option.getD_some]

theorem elemsPer_mul_typeBits (t : Nat) : elemsPer (typeBits t) * typeBits t = 512 := by
  unfold elemsPer typeBits
  split
  · rfl
  · split <;> rfl

theorem elemLane_eq (t e : Nat) : elemLane (typeBits t) e = e * typeBits t % 512 / 32 := by
  rw [elemLane, ← Nat.mul_mod_mul_right, elemsPer_mul_typeBits]

theorem packNat_digits (w n x : Nat) :
    packNat w ((List.range n).map (fun i => x / 2 ^ (w * i) % 2 ^ w)) = x % 2 ^ (w * n) := by
  induction n generalizing x with
  | zero => rw [List.range_zero, List.map_nil, packNat, Nat.mul_zero, Nat.pow_zero, Nat.mod_one]
  | succ n ih =>
    have shift (i : Nat) : x / 2 ^ (w * (i + 1)) = x / 2 ^ w / 2 ^ (w * i) := by
      rw [Nat.div_div_eq_div_mul, ← Nat.pow_add, Nat.mul_succ, Nat.add_comm]
    rw [List.range_succ_eq_map, List.map_cons, List.map_map, packNat]
    simp only [Function.comp_def, Nat.succ_eq_add_one, shift, ih]
    rw [Nat.mul_zero, Nat.pow_zero, Nat.div_one, Nat.mod_mod, Nat.mul_succ, Nat.add_comm (w * n), Nat.pow_add, Nat.mod_mul]

theorem toNat_lt_of_width {m n : Nat} (width : m = n) (v : BitVec n) : v.toNat < 2 ^ m := by
  subst width
  exact v.isLt

/-- A register is made of its elements. -/
theorem vecOf_vecElems {w : Nat} (whole : w * elemsPer w = 512) (v : Vec) : vecOf w (vecElems w v) = v := by
  have short : (vecElems w v).length = elemsPer w := by rw [vecElems, List.length_map, List.length_range]
  have digits : packNat w (vecElems w v) = v.toNat :=
    (packNat_digits w (elemsPer w) v.toNat).trans (Nat.mod_eq_of_lt (toNat_lt_of_width whole v))
  rw [vecOf, List.take_of_length_le (Nat.le_of_eq short), digits, BitVec.ofNat_toNat, BitVec.setWidth_eq]

end Sys2Proof.Proofs
end

section
/-! SUPPORT. Reductions and scans (08 R172 to R175): the tree into a sum latch, the drain of a latch, and the inclusive scan. -/
namespace Sys2Proof.Proofs
open Sys2Proof Sys2Proof.Machine Sys2Proof.Laws

/-- Whether the lane of element e of a group is active in a cluster. -/
def liveElem (c : Ctx) (f : VFields) (cl e : Nat) : Bool := (activeLanes c cl f.pred).getLsbD (e * vW f % 512 / 32)

/-- What h makes of the elements of srcA in a cluster and of whether their lanes are active. -/
theorem map_live_vA {α : Type} (s : State) (f : VFields) (cl : Nat) (h : Bool → Nat → α) :
    (s.vA f cl).zipIdx.map (fun x => h ((activeLanes s.ctx cl f.pred).getLsbD (elemLane (vW f) x.2)) x.1) =
      (List.range (vN f)).map (fun e => h (liveElem s.ctx f cl e) ((elemsA s.ctx f cl).getD e 0)) := by
  rw [vA_eq_elemsA, map_zipIdx_eq_map_range (length_elemsA s.ctx f cl)
    (fun x e => h ((activeLanes s.ctx cl f.pred).getLsbD (elemLane (vW f) e)) x)]
  simp only [vW, elemLane_eq, liveElem]

/-! ### VRED (08 R173) -/

/-- The tree of a cluster: a leaf for each element, the identity where its lane is not active. -/
def redTree (c : Ctx) (f : VFields) (op cl : Nat) : IRes :=
  (treeReduce op f.type.toNat (Nat.log2 (vN f)) ((List.range (vN f)).map (fun e =>
    ({ value := if liveElem c f cl e then nodeOf f.type.toNat ((elemsA c f cl).getD e 0)
        else nodeIdentity op f.type.toNat } : IRes)))).headD { value := 0 }

/-- The tree's value to the latch of dst, and its flags. -/
def redWrites (f : VFields) (op : Nat) (c : Ctx) (cl : Nat) : List Wr :=
  [.sum cl (f.dst.toNat % 4) (redOp op) f.type.toNat (redTree c f op cl).value] ++ flagWr [(redTree c f op cl).flags]

theorem mem_redWrites (f : VFields) (op : Nat) (c : Ctx) (cl : Nat) (w : Wr) : w ∈ redWrites f op c cl ↔
    w = .sum cl (f.dst.toNat % 4) (redOp op) f.type.toNat (redTree c f op cl).value ∨
      ((redTree c f op cl).flags ≠ 0 ∧ w = .satf (redTree c f op cl).flags) := by
  rw [redWrites, List.mem_append, List.mem_singleton, mem_flagWr, foldl_or_singleton]

theorem vReduce_eq_vEach (s : State) (code : Nat) (f : VFields) (op : Nat) :
    s.vReduce code f op = s.vEach f fun u cl => .ok (u.emit .v cl (packV code f) 6 (redWrites f op u.ctx cl)) := by
  have leaves (u : State) (cl : Nat) := map_live_vA u f cl fun live x =>
    ({ value := if live then nodeOf f.type.toNat x else nodeIdentity op f.type.toNat } : IRes)
  simp only [State.vReduce, redWrites, redTree, leaves]

theorem vReduce_owes (s : State) (code : Nat) (f : VFields) (op : Nat) :
    ∃ t, settle s (s.vReduce code f op) = .next t ∧ VOwed s f 0 0 False (fun cl d w => d = s.clk + 6 ∧
      (w = .sum cl (f.dst.toNat % 4) (redOp op) f.type.toNat (redTree s.ctx f op cl).value ∨
        ((redTree s.ctx f op cl).flags ≠ 0 ∧ w = .satf (redTree s.ctx f op cl).flags))) t := by
  rw [vReduce_eq_vEach]
  obtain ⟨t, settled, owed⟩ := vEach_emits (s := s) (f := f) (ws := redWrites f op) (fun _ _ _ => rfl) (fun _ _ => rfl)
  exact ⟨t, settled, vOwed_congr (fun cl d w => and_congr_right fun _ => mem_redWrites f op s.ctx cl w) owed⟩

/-! ### VSCAN (08 R175) -/

/-- The inclusive results of a cluster and their flags: each element, the identity where its lane is not active. -/
def scanned (c : Ctx) (f : VFields) (op cl : Nat) : List Nat × BitVec 4 :=
  scanStages f op (Nat.log2 (vN f)) 1 ((List.range (vN f)).map (fun e =>
    if liveElem c f cl e then (elemsA c f cl).getD e 0 else scanIdentity f op)) 0

/-- The writes that deliver them. -/
def scanWrites (f : VFields) (op : Nat) (c : Ctx) (cl : Nat) : List Wr :=
  deliverWr f cl 6 (laneMask (activeLanes c cl f.pred)) (groupOf (vW f) 1 (scanned c f op cl).1) [(scanned c f op cl).2]

theorem vScan_eq_vEach (s : State) (code : Nat) (f : VFields) (op : Nat) :
    s.vScan code f op = s.vEach f fun u cl => .ok (u.emit .v cl (packV code f) 6 (scanWrites f op u.ctx cl)) := by
  have inputs (u : State) (cl : Nat) := map_live_vA u f cl fun live x => if live then x else scanIdentity f op
  simp only [State.vScan, scanWrites, scanned, State.vWrite, inputs, vDeliver_eq_emit, List.map_map, Function.comp_def,
    List.map_id']

theorem vScan_owes (s : State) (code : Nat) (f : VFields) (op : Nat) :
    ∃ t, settle s (s.vScan code f op) = .next t ∧ VOwed s f 0 0 False (fun cl =>
      VDelivers s f f.pred cl 6 6 (groupOf (vW f) 1 (scanned s.ctx f op cl).1) (scanned s.ctx f op cl).2) t := by
  rw [vScan_eq_vEach]
  obtain ⟨t, settled, owed⟩ := vEach_emits (s := s) (f := f) (ws := scanWrites f op) (fun _ _ _ => rfl) (fun _ _ => rfl)
  refine ⟨t, settled, vOwed_congr (fun cl d w => ?_) owed⟩
  have delivered := vDelivers_iff s f f.pred cl 6 6 (groupOf (vW f) 1 (scanned s.ctx f op cl).1)
    [(scanned s.ctx f op cl).2] d w
  rw [foldl_or_singleton] at delivered
  exact delivered.symm

/-! ### VSUM (08 R174) -/

/-- The 64 bits of a latch in lanes 0 and 1, zero while it is EMPTY. -/
def latchLanes (l : SumLatch) : Vec := if l.full then l.bits.setWidth 512 else 0

/-- The step of VSUM in a cluster: latch k is left EMPTY, and its lanes are owed. -/
def drain (clk : Nat) (f : VFields) (k : Nat) (c : Ctx) (cl : Nat) : Ctx :=
  vEmit clk 3 (packV 0xC4 f) (c.writeSum cl k {}) cl
    (deliverWr f cl 6 (laneMask (activeLanes c cl f.pred)) [latchLanes (c.readSum cl k)] [])

theorem flagWr_liveFlags_asElems (w : Nat) (act : VPred) (vs : List Vec) : flagWr (liveFlags w act (asElems vs)) = [] := by
  have clear : ∀ x ∈ liveFlags w act (asElems vs), x = 0 := by
    simp only [liveFlags, asElems, List.zipIdx_map, List.map_map, List.mem_map]
    rintro _ ⟨x, -, rfl⟩
    exact ite_self 0
  rw [flagWr, foldl_or_eq_zero clear, if_pos rfl]

/-- A register delivered bit for bit. -/
theorem vResult_asElems (s : State) (op : Nat) (f : VFields) (cl n latch : Nat) (v : Vec) :
    s.vResult op f cl n latch 32 1 (asElems [v]) =
      s.emit .v cl (packV op f) n (deliverWr f cl latch (laneMask (activeLanes s.ctx cl f.pred)) [v] []) := by
  have regs : groupOf 32 1 ((asElems [v]).map (fun x => x.code)) = [v] := by
    simp only [asElems, groupElems, List.flatMap_cons, List.flatMap_nil, List.append_nil, List.map_map, Function.comp_def,
      List.map_id_fun', id_eq, groupOf, vecOf_vecElems (w := 32) rfl]
  rw [State.vResult, State.vWrite, regs, vDeliver_eq_emit, deliverWr, flagWr_liveFlags_asElems]
  rfl

theorem setWidth_of_zero (m n : Nat) : (0 : BitVec m).setWidth n = 0 := BitVec.setWidth_zero n m

theorem vsumStep_eq_drain (u : State) (f : VFields) (cl k : Nat) :
    (u.setCtx (u.ctx.writeSum cl k {})).vResult 0xC4 f cl 3 6 32 1
      (asElems [(if (u.ctx.readSum cl k).full then (u.ctx.readSum cl k).bits else 0).setWidth 512]) =
      u.setCtx (drain u.clk f k u.ctx cl) := by
  have lanes (l : SumLatch) : (if l.full then l.bits else 0).setWidth 512 = latchLanes l := by
    rw [latchLanes, apply_ite (BitVec.setWidth 512), setWidth_of_zero]
  rw [lanes, vResult_asElems, emit_eq_vEmit, setCtx_setCtx, setCtx_ctx]
  rfl

theorem execVsum_eq_drain (s : State) (f : VFields) : execVsum f s =
    .next (s.setCtx ((clustersOf f.target).foldl (drain s.clk f (f.srcA.toNat % 4)) s.ctx)) := by
  rw [execVsum, vEach_of_setCtx (g := drain s.clk f (f.srcA.toNat % 4)) f, settle_ok]
  intro u cl clk
  rw [← clk]
  exact congrArg Res.ok (vsumStep_eq_drain u f cl _)

theorem nodup_map_latch {cs : List Nat} (nodup : cs.Nodup) {k : Nat} : (cs.map (fun cl => 4 * cl + k)).Nodup :=
  List.pairwise_map.mpr (nodup.imp fun different => by omega)

section
variable {clk k : Nat} {f : VFields}

theorem drain_frame (c : Ctx) (cl : Nat) : drain clk f k c cl =
    { c with sum := Sparse.set {} c.sum (4 * cl + k) {}, pending := (drain clk f k c cl).pending } := vEmit_frame ..

theorem drain_sum (c : Ctx) (cl : Nat) : (drain clk f k c cl).sum = Sparse.set {} c.sum (4 * cl + k) {} := by
  rw [drain_frame]

/-- Each step empties the latch of its own cluster, and no other latch. -/
theorem drain_updates : Updates (drain clk f k) (fun c i => Sparse.get {} c.sum i) (fun cl => 4 * cl + k)
    (fun _ _ => ({} : SumLatch)) where
  at_key c cl := by rw [drain_sum, get_set_same]
  elsewhere c cl i other := by rw [drain_sum, get_set_other _ _ _ other]

theorem foldl_drain_frame (cs : List Nat) (c : Ctx) : cs.foldl (drain clk f k) c =
    { c with sum := (cs.foldl (drain clk f k) c).sum, pending := (cs.foldl (drain clk f k) c).pending } := by
  refine foldl_keeps (P := fun d : Ctx => d = { c with sum := d.sum, pending := d.pending }) _ (fun d cl same => ?_) cs rfl
  rw [drain_frame, same]

theorem foldl_drain_readSum {cs : List Nat} (nodup : cs.Nodup) (c : Ctx) (cl : Nat) {m : Nat} (hk : k < 4) (hm : m < 4) :
    (cs.foldl (drain clk f k) c).readSum cl m = if cl ∈ cs ∧ m = k then {} else c.readSum cl m := by
  split
  case isTrue drained =>
    obtain ⟨reached, rfl⟩ := drained
    exact drain_updates.foldl_at cs c (nodup_map_latch nodup) reached
  case isFalse kept =>
    refine drain_updates.foldl_elsewhere cs c fun reached => kept ?_
    obtain ⟨x, hx, same⟩ := List.mem_map.mp reached
    obtain ⟨rfl, rfl⟩ : x = cl ∧ m = k := by omega
    exact ⟨hx, rfl⟩

end

/-- Latch k is read in each cluster before any step has emptied it. -/
theorem foldl_drain_owes (s : State) (f : VFields) (k : Nat) (d : Nat) (w : Wr) :
    ((clustersOf f.target).foldl (drain s.clk f k) s.ctx).Owes d w ↔ s.ctx.Owes d w ∨ ∃ cl ∈ clustersOf f.target,
      VDelivers s f f.pred cl 3 6 [latchLanes (s.ctx.readSum cl k)] 0 d w := by
  refine foldl_owes (Reads := fun cl (c : Ctx) => c.vp = s.ctx.vp ∧ c.readSum cl k = s.ctx.readSum cl k) ?own ?keep
    (clustersOf_nodup _) (fun _ _ => ⟨rfl, rfl⟩) d w
  case own =>
    rintro c cl ⟨lanes, latch⟩ d w
    have active : activeLanes c cl f.pred = activeLanes s.ctx cl f.pred := by simp only [activeLanes, Ctx.readVp, lanes]
    rw [drain, vEmit_owes, active, latch]
    exact or_congr_right (vDelivers_iff s f f.pred cl 3 6 _ [] d w).symm
  case keep =>
    rintro c cl x other - ⟨lanes, latch⟩
    refine ⟨by rw [drain_frame]; exact lanes, ?_⟩
    exact (drain_updates.elsewhere c cl (4 * x + k) (by omega)).trans latch

theorem vsum_owes (s : State) (f : VFields) :
    Completes (.vsum f) s (fun u =>
      (∃ sum, VOwed (s.setCtx { s.ctx with sum := sum }) f 0 0 False (fun cl =>
        VDelivers s f f.pred cl 3 6 [latchLanes (s.ctx.readSum cl (f.srcA.toNat % 4))] 0) u) ∧
      ∀ cl m, m < 4 → u.ctx.readSum cl m =
        if cl ∈ clustersOf f.target ∧ m = f.srcA.toNat % 4 then {} else s.ctx.readSum cl m) := by
  refine ⟨_, execVsum_eq_drain s f,
    ⟨_, vOwed_setCtx_of_sum (foldl_drain_frame _ s.ctx) (foldl_drain_owes s f _)⟩, fun cl m hm => ?_⟩
  rw [setCtx_ctx]
  exact foldl_drain_readSum (clustersOf_nodup _) s.ctx cl (Nat.mod_lt _ (by decide)) hm

/-! ### The statement -/

/-- Settles O30: the tree of each cluster into its latch, the drained latch in two lanes, and the scan. -/
theorem vectorReductions : Obligations.VectorReductions := by
  unfold Obligations.VectorReductions
  intro s f
  exact ⟨⟨vReduce_owes s 0xB2 f 0, vReduce_owes s 0xB3 f 1, vReduce_owes s 0xB4 f 2⟩, vsum_owes s f,
    vScan_owes s 0xB7 f 0, vScan_owes s 0xB8 f 1⟩

end Sys2Proof.Proofs
end

section
/-! SUPPORT. Issue of the summary instructions (09 R179 to R181): the operations that a slot enters into its tile's reduction
unit, cluster by cluster. -/
namespace Sys2Proof.Proofs
open Sys2Proof Sys2Proof.Machine Sys2Proof.Laws

/-! ### A strand that has entered operations -/

/-- A tile whose context c is k, with operations behind those of its queue. -/
def entered (x : Tile) (c : Nat) (k : Ctx) (es : List SumOp) : Tile := { x.setCtx c k with sumq := x.sumq ++ es }

/-- The current tile and the number of the next operation replaced. -/
def withTile (s : State) (x : Tile) (n : Nat) : State := { s.setTile s.cur x with nextOp := n }

/-- k operations entered behind those of the tile by the strand that acts, its return ports then ps. -/
def enqueued (s : State) (k : Nat) (es : List SumOp) (ps : Sparse (List PortEntry)) : State :=
  withTile s (entered (s.tile s.cur) s.curCtx { s.ctx with num := s.ctx.num + k, ports := ps } es) (s.nextOp + k)

theorem entered_entered (x : Tile) (c : Nat) (k l : Ctx) (es ds : List SumOp) :
    entered (entered x c k es) c l ds = entered x c l (es ++ ds) := by
  simp only [entered, Tile.setCtx, set_set, List.append_assoc]

theorem withTile_setTile (s : State) (x y : Tile) (n : Nat) : withTile (s.setTile s.cur x) y n = withTile s y n := by
  simp only [withTile, State.setTile, set_set]

theorem withTile_withTile (s : State) (x y : Tile) (n m : Nat) : withTile (withTile s x n) y m = withTile s y m := by
  simp only [withTile, State.setTile, set_set]

section
variable (s : State) (k : Nat) (es : List SumOp) (ps : Sparse (List PortEntry))

@[simp] theorem enqueued_cur : (enqueued s k es ps).cur = s.cur := rfl
@[simp] theorem enqueued_nextOp : (enqueued s k es ps).nextOp = s.nextOp + k := rfl

theorem enqueued_tile : (enqueued s k es ps).tile s.cur =
    entered (s.tile s.cur) s.curCtx { s.ctx with num := s.ctx.num + k, ports := ps } es := setTile_tile s s.cur _

@[simp] theorem enqueued_curCtx : (enqueued s k es ps).curCtx = s.curCtx := by
  show ((((enqueued s k es ps).tile s.cur).running).getD 0) = _
  rw [enqueued_tile]
  rfl

@[simp] theorem enqueued_ctx : (enqueued s k es ps).ctx = { s.ctx with num := s.ctx.num + k, ports := ps } := by
  show ((enqueued s k es ps).tile s.cur).ctx (enqueued s k es ps).curCtx = _
  rw [enqueued_tile, enqueued_curCtx]
  exact tile_setCtx_ctx ..

theorem enqueued_issuer (crew : (s.tile s.cur).crew.isSome = true) :
    (enqueued s k es ps).issuer (enqueued s k es ps).cur (enqueued s k es ps).curCtx =
      { s.issuer s.cur s.curCtx with num := s.ctx.num + k } := by
  obtain ⟨w, crew⟩ := Option.isSome_iff_exists.mp crew
  have num : ((enqueued s k es ps).ctxAt s.cur s.curCtx).num = s.ctx.num + k := by
    rw [← enqueued_curCtx s k es ps]
    exact congrArg Ctx.num (enqueued_ctx s k es ps)
  have own : ((enqueued s k es ps).tile s.cur).crew = some w := by rw [enqueued_tile]; exact crew
  have vf : (enqueued s k es ps).tileVf s.cur = s.tileVf s.cur := by rw [State.tileVf, enqueued_tile]; rfl
  have seq : ((enqueued s k es ps).tile s.cur).logSeq = (s.tile s.cur).logSeq := by rw [enqueued_tile]; rfl
  rw [enqueued_curCtx]
  show (enqueued s k es ps).issuer s.cur s.curCtx = _
  simp only [State.issuer, own, crew, num, vf, seq]
  rfl

theorem enqueued_sameMemory : SameMemory s (enqueued s k es ps) := by
  have stored (x : Nat) : ((enqueued s k es ps).tile x).spad = (s.tile x).spad ∧
      ((enqueued s k es ps).tile x).spadTag = (s.tile x).spadTag := by
    by_cases own : x = s.cur
    · subst own
      rw [enqueued_tile]
      exact ⟨rfl, rfl⟩
    · have same : (enqueued s k es ps).tile x = s.tile x := setTile_tile_other s s.cur _ own
      rw [same]
      exact ⟨rfl, rfl⟩
  refine ⟨fun _ => rfl, fun _ => rfl, fun x off => ?_, fun x u => ?_⟩
  · rw [State.spadByte, State.spadByte, (stored x).1]
  · rw [(stored x).2]

/-- A slot that has entered operations enters more. -/
theorem enqueued_enqueued (j : Nat) (ds : List SumOp) (qs : Sparse (List PortEntry)) :
    enqueued (enqueued s k es ps) j ds qs = enqueued s (k + j) (es ++ ds) qs := by
  rw [enqueued, enqueued_curCtx, enqueued_ctx, enqueued_cur, enqueued_tile, entered_entered, enqueued_nextOp,
    Nat.add_assoc, Nat.add_assoc]
  exact withTile_withTile s _ _ _ _

end

/-! ### One cluster of a slot (09 R179) -/

/-- The operation that a slot enters for cluster cl, with k entered before it. -/
def slotOp (s : State) (op cl k : Nat) (cap : TCap) (off size : Nat) (place : Place) (bf : Bool) (elems : List Nat)
    (act : VPred) : SumOp :=
  { id := s.nextOp + k, num := s.ctx.num + k, iss := { s.issuer s.cur s.curCtx with num := s.ctx.num + k }, op, cl, cap, off
    place, bf, elems, act, coin := (s.ctx.readCsr 0x1A).toNat % 4, size }

section
variable {s : State} (crew : (s.tile s.cur).crew.isSome = true) (op cl : Nat) (cap : TCap) (off size : Nat) (place : Place)
  (bf : Bool) (elems : List Nat) (act : VPred)
include crew

theorem sumIssue_first : s.sumIssue op cl cap off size place bf elems act =
    enqueued s 1 [slotOp s op cl 0 cap off size place bf elems act] s.ctx.ports := by
  have issuer : { s.issuer s.cur s.curCtx with num := s.ctx.num } = s.issuer s.cur s.curCtx := by
    obtain ⟨w, crew⟩ := Option.isSome_iff_exists.mp crew
    simp only [State.issuer, crew]
    rfl
  have own : (numbered s).tile s.cur = (s.tile s.cur).setCtx s.curCtx { s.ctx with num := s.ctx.num + 1 } :=
    setTile_tile s s.cur _
  have unfolded : s.sumIssue op cl cap off size place bf elems act = withTile (numbered s)
      { (numbered s).tile s.cur with
        sumq := ((numbered s).tile s.cur).sumq ++ [{ slotOp s op cl 0 cap off size place bf elems act with
          iss := s.issuer s.cur s.curCtx }] } (s.nextOp + 1) := rfl
  rw [unfolded, own, ← issuer]
  exact withTile_setTile s _ _ _

theorem sumIssue_enqueued (k : Nat) (es : List SumOp) (ps : Sparse (List PortEntry)) :
    (enqueued s k es ps).sumIssue op cl cap off size place bf elems act =
      enqueued s (k + 1) (es ++ [slotOp s op cl k cap off size place bf elems act]) ps := by
  have own : ((enqueued s k es ps).tile (enqueued s k es ps).cur).crew.isSome = true := by
    show ((enqueued s k es ps).tile s.cur).crew.isSome = true
    rw [enqueued_tile]
    exact crew
  rw [sumIssue_first own, enqueued_enqueued, slotOp, enqueued_issuer s k es ps crew, enqueued_ctx]
  rfl

end

theorem setCtx_pushPort_enqueued (s : State) (k : Nat) (es : List SumOp) (ps : Sparse (List PortEntry)) (n : Nat)
    (e : PortEntry) : (enqueued s k es ps).setCtx ((enqueued s k es ps).ctx.pushPort n e) =
      enqueued s k es (Sparse.set [] ps n (Sparse.get [] ps n ++ [e])) := by
  have put (x y : Tile) (m : Nat) : (withTile s x m).setTile s.cur y = withTile s y m := by
    simp only [withTile, State.setTile, set_set]
  have again (x : Tile) (c : Nat) (q r : Ctx) : (entered x c q es).setCtx c r = entered x c r es := by
    simp only [entered, Tile.setCtx, set_set]
  rw [State.setCtx, State.setCtxAt, enqueued_curCtx, enqueued_ctx, enqueued_cur, enqueued_tile, again]
  exact put _ _ _

/-! ### The clusters of a slot, in ascending order (09 R181) -/

section
variable {s : State} {step : State → Nat → State} {mk : Nat → Nat → SumOp}
  {push : Sparse (List PortEntry) → Nat × Nat → Sparse (List PortEntry)}
  (later : ∀ k es ps c, step (enqueued s k es ps) c = enqueued s (k + 1) (es ++ [mk c k]) (push ps (c, k)))
include later

theorem foldl_enqueued (cs : List Nat) (k : Nat) (es : List SumOp) (ps : Sparse (List PortEntry)) :
    cs.foldl step (enqueued s k es ps) = enqueued s (k + cs.length)
      (es ++ (cs.zipIdx k).map (fun x => mk x.1 x.2)) ((cs.zipIdx k).foldl push ps) := by
  induction cs generalizing k es ps with
  | nil => rw [List.zipIdx_nil, List.map_nil, List.append_nil]; rfl
  | cons c rest ih =>
    rw [List.foldl_cons, later, ih, List.zipIdx_cons, List.map_cons, List.foldl_cons, List.append_assoc, List.length_cons,
      Nat.add_assoc, Nat.add_comm 1]
    rfl

theorem foldl_enters (first : ∀ c, step s c = enqueued s 1 [mk c 0] (push s.ctx.ports (c, 0))) {cs : List Nat}
    (reached : cs ≠ []) : cs.foldl step s =
      enqueued s cs.length (cs.zipIdx.map (fun x => mk x.1 x.2)) (cs.zipIdx.foldl push s.ctx.ports) := by
  obtain ⟨c, rest, rfl⟩ := List.exists_cons_of_ne_nil reached
  rw [List.foldl_cons, first, foldl_enqueued later, List.zipIdx_cons, List.map_cons, List.foldl_cons, List.length_cons,
    Nat.add_comm 1]
  rfl

end

section
variable {s : State} (crew : (s.tile s.cur).crew.isSome = true) (f : VFields) (op : Nat) (cap : TCap) (off : Nat)
  (place : Place) (bf : Bool)
include crew

theorem foldl_sumIssue (size : Nat → Nat) (pick : Nat → List Nat) :
    (clustersOf f.target).foldl (fun u c => u.sumIssue op c cap off (size c) place bf (pick c) 0) s =
      enqueued s (clustersOf f.target).length ((clustersOf f.target).zipIdx.map
        (fun x => slotOp s op x.1 x.2 cap off (size x.1) place bf (pick x.1) 0)) s.ctx.ports := by
  have ports : (clustersOf f.target).zipIdx.foldl (fun ps _ => ps) s.ctx.ports = s.ctx.ports :=
    foldl_frame id _ (fun _ _ => rfl) _ _
  rw [foldl_enters (push := fun ps _ => ps) (mk := fun c k => slotOp s op c k cap off (size c) place bf (pick c) 0)
    (fun k es ps c => sumIssue_enqueued crew op c cap off (size c) place bf (pick c) 0 k es ps)
    (fun c => sumIssue_first crew op c cap off (size c) place bf (pick c) 0) (clustersOf_ne_nil f.target), ports]

end

/-- The entry of vb4 that a query takes at issue in cluster cl, with k operations entered before its own (09 R190). -/
def askedEntry (s : State) (f : VFields) (cl k : Nat) : PortEntry :=
  { cmd := some (s.nextOp + k)
    writes := if f.nw = 0 then [.vreg cl f.dst.toNat (laneMask (activeLanes s.ctx cl f.pred)) 0] else [] }

/-- The return ports with the entry of a query behind those of vb4. -/
def askedPort (s : State) (f : VFields) (ps : Sparse (List PortEntry)) (x : Nat × Nat) : Sparse (List PortEntry) :=
  Sparse.set [] ps (16 + x.1) (Sparse.get [] ps (16 + x.1) ++ [askedEntry s f x.1 x.2])

theorem get_foldl_askedPort (s : State) (f : VFields) (l : List (Nat × Nat)) (ps : Sparse (List PortEntry)) (n : Nat) :
    Sparse.get [] (l.foldl (askedPort s f) ps) n =
      Sparse.get [] ps n ++ (l.filter (fun x => 16 + x.1 == n)).map (fun x => askedEntry s f x.1 x.2) := by
  induction l generalizing ps with
  | nil => rw [List.filter_nil, List.map_nil, List.append_nil]; rfl
  | cons x rest ih =>
    rw [List.foldl_cons, ih, askedPort, get_set]
    by_cases own : n = 16 + x.1
    · rw [if_pos own, List.append_assoc, List.filter_cons, if_pos (beq_iff_eq.mpr own.symm), own]
      rfl
    · rw [if_neg own, List.filter_cons, if_neg (fun same => own (beq_iff_eq.mp same).symm)]

theorem sumQuery_ok {s : State} (crew : (s.tile s.cur).crew.isSome = true) {f : VFields} {cap : TCap} {p : Place} (op : Nat)
    (held : readCapReg s.ctx (f.srcC.toNat % 32) = .ok cap) (passes : s.check cap (vOff s f) 32 rR 64 .engine = .ok p) :
    s.sumQuery op f = .ok (enqueued s (clustersOf f.target).length ((clustersOf f.target).zipIdx.map (fun x =>
      slotOp s op x.1 x.2 cap (vOff s f) 0 p false ((vLaneWords s f x.1).take 1) (activeLanes s.ctx x.1 f.pred)))
        ((clustersOf f.target).zipIdx.foldl (askedPort s f) s.ctx.ports)) := by
  rw [State.sumQuery, vCap, held, bind_ok, passes, bind_ok]
  refine congrArg Res.ok (foldl_enters (push := askedPort s f) (mk := fun c k =>
    slotOp s op c k cap (vOff s f) 0 p false ((vLaneWords s f c).take 1) (activeLanes s.ctx c f.pred))
    (fun k es ps c => ?_) (fun c => ?_) (clustersOf_ne_nil f.target))
  · dsimp only
    rw [sumIssue_enqueued crew, setCtx_pushPort_enqueued]
    rfl
  · dsimp only
    rw [sumIssue_first crew, setCtx_pushPort_enqueued]
    rfl

theorem sumWrite_ok {s : State} (crew : (s.tile s.cur).crew.isSome = true) {f : VFields} {cap : TCap} {p : Place} (op : Nat)
    (pick : Nat → List Nat) (held : readCapReg s.ctx (f.srcC.toNat % 32) = .ok cap)
    (passes : s.check cap (vOff s f) 32 (rR + rW) 64 .store = .ok p) :
    s.sumWrite op f pick = .ok (enqueued s (clustersOf f.target).length ((clustersOf f.target).zipIdx.map
      (fun x => slotOp s op x.1 x.2 cap (vOff s f) 0 p (f.type == 1) (pick x.1) 0)) s.ctx.ports) := by
  rw [State.sumWrite, vCap, held, bind_ok, passes, bind_ok,
    foldl_sumIssue crew f op cap (vOff s f) p (f.type == 1) (fun _ => 0)]

/-! ### SKCLR (09 R180) -/

theorem all_of_forall_ok {α β : Type} {g : α → Res β} {b : β} {l : List α} (h : ∀ a ∈ l, g a = .ok b) :
    Res.all g l = .ok (l.map fun _ => b) := by
  induction l with
  | nil => rfl
  | cons a rest ih =>
    obtain ⟨first, others⟩ := List.forall_mem_cons.mp h
    rw [Res.all, first, bind_ok, ih others, bind_ok, List.map_cons]

section
variable {s : State} {f : VFields} {cap : TCap} (held : readCapReg s.ctx (f.srcC.toNat % 32) = .ok cap)
include held

theorem exec_skclr_of_bad (bad : ∃ cl ∈ clustersOf f.target, clearSize (vLaneWords s f cl) = none) :
    exec (.skclr f) s = .next (s.takeTrap .baddesc 2) := by
  have refused : (clustersOf f.target).all (fun c => (clearSize (vLaneWords s f c)).isSome) = false := by
    obtain ⟨cl, reached, none⟩ := bad
    exact List.all_eq_false.mpr ⟨cl, reached, by rw [none]; decide⟩
  show execSkclr f s = _
  simp only [execSkclr, vCap, held, bind_ok, refused, need_false, bind_trap, settle_trap]

theorem exec_skclr_of_area (crew : (s.tile s.cur).crew.isSome = true) {area : Nat → Nat} {p : Place}
    (passes : ∀ cl ∈ clustersOf f.target, clearSize (vLaneWords s f cl) = some (area cl) ∧
      s.check cap (vOff s f) (area cl) (rR + rW) 64 .store = .ok p) :
    exec (.skclr f) s = .next (enqueued s (clustersOf f.target).length ((clustersOf f.target).zipIdx.map (fun x =>
      slotOp s 0x80 x.1 x.2 cap (vOff s f) (area x.1) p false ((vLaneWords s f x.1).take 4) 0)) s.ctx.ports) := by
  have sized : (clustersOf f.target).all (fun c => (clearSize (vLaneWords s f c)).isSome) = true :=
    List.all_eq_true.mpr fun cl reached => by rw [(passes cl reached).1]; rfl
  have places : Res.all (fun c => s.check cap (vOff s f) ((clearSize (vLaneWords s f c)).getD 0) (rR + rW) 64 .store)
      (clustersOf f.target) = .ok ((clustersOf f.target).map fun _ => p) :=
    all_of_forall_ok fun cl reached => by
      obtain ⟨size, passed⟩ := passes cl reached
      rw [size]
      exact passed
  show execSkclr f s = _
  simp only [execSkclr, vCap, held, bind_ok, sized, need_true, places, settle_ok]
  rw [← List.map_prod_left_eq_zip, List.foldl_map, foldl_sumIssue crew f 0x80 cap (vOff s f) p false
    (fun c => (clearSize (vLaneWords s f c)).getD 0) (fun c => (vLaneWords s f c).take 4)]
  refine congrArg (fun es => Host.Outcome.next (enqueued s _ es _)) (List.map_congr_left fun x member => ?_)
  rw [(passes x.1 (List.fst_mem_of_mem_zipIdx member)).1, Option.getD_some]

end

/-! ### What the slot leaves -/

theorem completes_of_enqueued {s : State} {i : Instr} {n : Nat} {es : List SumOp} {ps : Sparse (List PortEntry)}
    {pushed : Nat → List PortEntry} (run : exec i s = .next (enqueued s n es ps))
    (ports : ∀ m, Sparse.get [] ps m = s.ctx.port m ++ pushed m) : Completes i s (fun t =>
      (t.tile s.cur).sumq = (s.tile s.cur).sumq ++ es ∧ t.nextOp = s.nextOp + n ∧
      (∀ m, t.ctx.port m = s.ctx.port m ++ pushed m) ∧
      t.ctx = { s.ctx with num := s.ctx.num + n, ports := t.ctx.ports } ∧ SameMemory s t) := by
  refine ⟨_, run, ?_, rfl, fun m => ?_, ?_, enqueued_sameMemory s n es ps⟩
  · rw [enqueued_tile]; rfl
  · rw [enqueued_ctx]; exact ports m
  · rw [enqueued_ctx]

/-- The elements of active lanes, by their number in the register (08 R164, R166). -/
theorem vActive_eq (s : State) (f : VFields) (cl : Nat) : vActive s f cl =
    ((List.range (elemsPer (vW f))).filter (fun e => (activeLanes s.ctx cl f.pred).getLsbD (e * vW f / 32))).map
      (fun e => elemOf (vW f) (s.ctx.readV cl f.srcA.toNat) e) := by
  have numbered (v : Vec) : (vecElems (vW f) v).zipIdx =
      (List.range (elemsPer (vW f))).map (fun e => (elemOf (vW f) v e, e)) := by
    rw [vecElems, List.zipIdx_eq_zip_range', List.length_map, List.length_range, ← List.range_eq_range',
      List.map_prod_right_eq_zip]
  simp only [vActive, numbered, List.filter_map, List.map_map, Function.comp_def]
  refine congrArg (List.map _) (List.filter_congr fun e inside => ?_)
  rw [elemLane, Nat.mod_eq_of_lt (List.mem_range.mp inside)]

end Sys2Proof.Proofs
end

section
/-! SUPPORT. The reduction unit (09 R181, R182, R189): what the oldest operation of a tile comes to on the structure that it
reads. -/
namespace Sys2Proof.Proofs
open Sys2Proof Sys2Proof.Machine Sys2Proof.Laws

section
variable {s : State} {t : Nat} {o : SumOp}

/-! ### The oldest operation leaves the queue -/

section
variable {rest : List SumOp} (queue : (s.tile t).sumq = o :: rest) (ready : s.sumReady t o = true)
include queue ready

theorem exec_summaryUnit_of_ok {u : State} (applied : s.sumApply t o = .ok u) :
    exec (.summaryUnitOperation t) s = .next ((u.sumPop t).retryReads) := by
  show Host.Outcome.next (s.summaryUnit t) = _
  simp only [State.summaryUnit, queue, ready, applied, Bool.not_true, Bool.false_eq_true, if_false]

/-- An operation that is no query and fails raises its cause for its strand. -/
theorem exec_summaryUnit_of_trap {c : Cause} {i : Word} (plain : ¬ 0x87 ≤ o.op) (failed : s.sumApply t o = .trap c i) :
    exec (.summaryUnitOperation t) s = .next (((s.sumPop t).raise o.iss c i).retryReads) := by
  show Host.Outcome.next (s.summaryUnit t) = _
  simp only [State.summaryUnit, queue, ready, failed, plain, Bool.not_true, Bool.false_eq_true, if_false, false_and]

end

/-! ### What an operation does to its structure -/

theorem isMerge_iff (op : Nat) : isMerge op = true ↔ op ∈ [0x83, 0x84, 0x85] := by
  simp only [isMerge, Bool.or_eq_true, beq_iff_eq, List.mem_cons, List.not_mem_nil, or_false, or_assoc]

theorem not_query_of_insertion {op : Nat} (insertion : op ∈ [0x81, 0x82, 0x86]) : ¬ 0x87 ≤ op := by
  simp only [List.mem_cons, List.not_mem_nil, or_false] at insertion
  omega

theorem partOverlap_of_disjoint {a b n m : Nat} (apart : a + n ≤ b ∨ b + m ≤ a) : partOverlap a b n m = false := by
  simp only [partOverlap, Bool.and_eq_false_iff, decide_eq_false_iff_not]
  omega

theorem sumApply_of_clear {p : Place} (op : o.op = 0x80) (spot : s.sumSpot t o o.off o.size (rR + rW) true = .ok p) :
    s.sumApply t o = .ok (s.sumClear t o) := by
  rw [State.sumApply, if_pos op, spot, bind_ok]

section
variable {img : List Byte} {u : State}

theorem sumApply_of_query (op : o.op ∈ [0x87, 0x88, 0x89]) (read : s.sumImage t o o.off rR false = .ok (img, u)) :
    s.sumApply t o = .ok (u.sumReply o (sumAnswer o.op (o.elems.getD 0 0) img)) := by
  simp only [List.mem_cons, List.not_mem_nil, or_false] at op
  rw [State.sumApply, if_neg (by omega), if_pos (by omega), read, bind_ok]

variable (read : s.sumImage t o o.off (rR + rW) true = .ok (img, u))
include read

/-- An insertion reads its structure, then serves the structures of its TYPE that are well formed. -/
theorem sumApply_of_insertion (op : o.op ∈ [0x81, 0x82, 0x86]) : s.sumApply t o =
    if imgNat img 0 1 ≠ sumType o.op then .trap .baddesc (BitVec.ofNat 64 (1 + 256 * o.off))
    else if imageBad img then .trap .baddesc (BitVec.ofNat 64 (2 + 256 * o.off))
    else .ok ((u.sumStore t o img (sumInsert o img (u.sumDraw t o)).1).sumDrawn t o (sumInsert o img (u.sumDraw t o)).2) := by
  simp only [List.mem_cons, List.not_mem_nil, or_false] at op
  have noMerge : ¬ isMerge o.op = true := by
    rw [isMerge_iff, List.mem_cons, List.mem_cons, List.mem_singleton]
    omega
  rw [State.sumApply, if_neg (by omega), if_neg (by omega), read, bind_ok, if_neg noMerge]

theorem sumApply_of_merge (op : o.op ∈ [0x83, 0x84, 0x85]) {src : List Byte} {v : State}
    (source : u.sumImage t o o.source rR false = .ok (src, v)) (sound : mergeBad (sumType o.op) img src = none)
    (apart : o.off + img.length ≤ o.source ∨ o.source + src.length ≤ o.off) : s.sumApply t o =
    .ok ((v.sumStore t o img (mergeImages img src (v.sumDraw t o)).1).sumDrawn t o
      (mergeImages img src (v.sumDraw t o)).2) := by
  have merges : isMerge o.op = true := (isMerge_iff o.op).mpr op
  simp only [List.mem_cons, List.not_mem_nil, or_false] at op
  rw [State.sumApply, if_neg (by omega), if_neg (by omega), read, bind_ok, if_pos merges, source, bind_ok]
  simp only [sound, partOverlap_of_disjoint apart]

end

end

end Sys2Proof.Proofs
end

section
/-! SUPPORT. The three summaries as data (09 R184 to R196): what the insertion of one element does to a heavy-hitter list, a
distinct count and a sketch. -/
namespace Sys2Proof.Proofs
open Sys2Proof Sys2Proof.Machine Sys2Proof.Laws

/-! ### Sorting -/

section
variable {α : Type} (le : α → α → Bool)

theorem mem_insertBy {l : List α} {x z : α} : z ∈ insertBy le x l ↔ z = x ∨ z ∈ l := by
  induction l with
  | nil => rw [insertBy, List.mem_cons]
  | cons y rest ih =>
    rw [insertBy]
    split
    case isTrue => rw [List.mem_cons]
    case isFalse => rw [List.mem_cons, ih, List.mem_cons, or_left_comm]

theorem mem_sortBy {l : List α} {x : α} : x ∈ sortBy le l ↔ x ∈ l := by
  induction l with
  | nil => rw [sortBy]
  | cons y rest ih => rw [sortBy, mem_insertBy, ih, List.mem_cons]

variable {le} (total : ∀ a b, le a b = true ∨ le b a = true)
  (trans : ∀ a b c, le a b = true → le b c = true → le a c = true)
include total trans

theorem pairwise_insertBy {l : List α} (x : α) (sorted : l.Pairwise (fun a b => le a b = true)) :
    (insertBy le x l).Pairwise (fun a b => le a b = true) := by
  induction l with
  | nil => exact List.pairwise_singleton _ x
  | cons y rest ih =>
    obtain ⟨least, others⟩ := List.pairwise_cons.mp sorted
    rw [insertBy]
    split
    case isTrue before =>
      refine List.pairwise_cons.mpr ⟨fun z member => ?_, sorted⟩
      rcases List.mem_cons.mp member with rfl | member
      · exact before
      · exact trans x y z before (least z member)
    case isFalse behind =>
      refine List.pairwise_cons.mpr ⟨fun z member => ?_, ih others⟩
      rcases (mem_insertBy le).mp member with rfl | member
      · exact (total y z).resolve_right behind
      · exact least z member

theorem pairwise_sortBy (l : List α) : (sortBy le l).Pairwise (fun a b => le a b = true) := by
  induction l with
  | nil => exact List.Pairwise.nil
  | cons x rest ih => exact pairwise_insertBy total trans x ih

end

theorem hitterLe_iff (a b : Hitter) : hitterLe a b = true ↔ b.count < a.count ∨ a.count = b.count ∧ a.key ≤ b.key := by
  simp only [hitterLe, Bool.or_eq_true, Bool.and_eq_true, decide_eq_true_eq, beq_iff_eq]

theorem pairwise_sortBy_hitterLe (l : List Hitter) :
    (sortBy hitterLe l).Pairwise (fun a b => b.count < a.count ∨ a.count = b.count ∧ a.key ≤ b.key) := by
  have total (a b : Hitter) : hitterLe a b = true ∨ hitterLe b a = true := by
    rw [hitterLe_iff, hitterLe_iff]
    omega
  have trans (a b c : Hitter) : hitterLe a b = true → hitterLe b c = true → hitterLe a c = true := by
    rw [hitterLe_iff, hitterLe_iff, hitterLe_iff]
    omega
  exact (pairwise_sortBy total trans l).imp fun {a b} => (hitterLe_iff a b).mp

/-! ### Heavy-hitter lists (09 R192) -/

section
variable {h : Hitters} {x : Nat}

theorem any_key_iff : h.es.any (fun e => e.key == x) = true ↔ ∃ e ∈ h.es, e.key = x := by
  simp only [List.any_eq_true, beq_iff_eq]

theorem hitters_insert_of_stored (stored : ∃ e ∈ h.es, e.key = x) : h.insert x = { h with
    n := (h.n + 1) % 2 ^ 64
    es := sortBy hitterLe (h.es.map (fun e => if e.key = x then { e with count := sat32 (e.count + 1) } else e)) } :=
  if_pos (any_key_iff.mpr stored)

theorem hitters_insert_of_room (absent : ∀ e ∈ h.es, e.key ≠ x) (room : h.es.length < h.m) : h.insert x = { h with
    n := (h.n + 1) % 2 ^ 64
    es := sortBy hitterLe (h.es ++ [{ key := x, count := 1, err := sat32 h.d }]) } :=
  (if_neg fun found => by obtain ⟨e, he, same⟩ := any_key_iff.mp found; exact absent e he same).trans (if_pos room)

theorem hitters_insert_of_full (absent : ∀ e ∈ h.es, e.key ≠ x) (full : h.m ≤ h.es.length) : h.insert x = { h with
    n := (h.n + 1) % 2 ^ 64
    d := (h.d + 1) % 2 ^ 64
    es := sortBy hitterLe ((h.es.map (fun e => { e with count := e.count - 1 })).filter (fun e => e.count != 0)) } :=
  (if_neg fun found => by obtain ⟨e, he, same⟩ := any_key_iff.mp found; exact absent e he same).trans
    (if_neg (Nat.not_lt.mpr full))

/-- The three cases of an insertion. -/
theorem hitters_insert_cases (h : Hitters) (x : Nat) : (∃ e ∈ h.es, e.key = x) ∨
    (∀ e ∈ h.es, e.key ≠ x) ∧ h.es.length < h.m ∨ (∀ e ∈ h.es, e.key ≠ x) ∧ h.m ≤ h.es.length := by
  by_cases stored : ∃ e ∈ h.es, e.key = x
  · exact .inl stored
  · have absent : ∀ e ∈ h.es, e.key ≠ x := fun e he same => stored ⟨e, he, same⟩
    exact .inr ((Nat.lt_or_ge h.es.length h.m).imp (.intro absent) (.intro absent))

theorem hitters_insert_counts (h : Hitters) (x : Nat) : (h.insert x).n = (h.n + 1) % 2 ^ 64 ∧ (h.insert x).m = h.m := by
  obtain stored | ⟨absent, room⟩ | ⟨absent, full⟩ := hitters_insert_cases h x
  · rw [hitters_insert_of_stored stored]; exact ⟨rfl, rfl⟩
  · rw [hitters_insert_of_room absent room]; exact ⟨rfl, rfl⟩
  · rw [hitters_insert_of_full absent full]; exact ⟨rfl, rfl⟩

theorem hitters_insert_sorted (h : Hitters) (x : Nat) :
    (h.insert x).es.Pairwise (fun a b => b.count < a.count ∨ a.count = b.count ∧ a.key ≤ b.key) := by
  obtain stored | ⟨absent, room⟩ | ⟨absent, full⟩ := hitters_insert_cases h x
  · rw [hitters_insert_of_stored stored]; exact pairwise_sortBy_hitterLe _
  · rw [hitters_insert_of_room absent room]; exact pairwise_sortBy_hitterLe _
  · rw [hitters_insert_of_full absent full]; exact pairwise_sortBy_hitterLe _

theorem mem_insert_of_stored (stored : ∃ e ∈ h.es, e.key = x) (e : Hitter) : e ∈ (h.insert x).es ↔
    ∃ y ∈ h.es, e = if y.key = x then { y with count := min (y.count + 1) (2 ^ 32 - 1) } else y := by
  rw [hitters_insert_of_stored stored, mem_sortBy, List.mem_map]
  exact exists_congr fun y => and_congr_right fun _ => eq_comm

theorem mem_insert_of_room (absent : ∀ e ∈ h.es, e.key ≠ x) (room : h.es.length < h.m) (e : Hitter) :
    e ∈ (h.insert x).es ↔ e ∈ h.es ∨ e = { key := x, count := 1, err := min h.d (2 ^ 32 - 1) } := by
  rw [hitters_insert_of_room absent room, mem_sortBy, List.mem_append, List.mem_singleton, sat32]

theorem mem_insert_of_full (absent : ∀ e ∈ h.es, e.key ≠ x) (full : h.m ≤ h.es.length) (e : Hitter) :
    e ∈ (h.insert x).es ↔ ∃ y ∈ h.es, 1 < y.count ∧ e = { y with count := y.count - 1 } := by
  rw [hitters_insert_of_full absent full, mem_sortBy, List.mem_filter, List.mem_map]
  constructor
  · rintro ⟨⟨y, hy, rfl⟩, left⟩
    exact ⟨y, hy, Nat.lt_of_sub_ne_zero (bne_iff_ne.mp left), rfl⟩
  · rintro ⟨y, hy, left, rfl⟩
    exact ⟨⟨y, hy, rfl⟩, bne_iff_ne.mpr (Nat.sub_ne_zero_of_lt left)⟩

end

/-! ### Bytes of an image -/

@[simp] theorem length_natBytes (n x : Nat) : (natBytes n x).length = n := by
  induction n generalizing x with
  | zero => rfl
  | succ n ih => rw [natBytes, List.length_cons, ih]

theorem bytesNat_natBytes (n x : Nat) : bytesNat (natBytes n x) = x % 256 ^ n := by
  induction n generalizing x with
  | zero => rw [natBytes, bytesNat, Nat.pow_zero, Nat.mod_one]
  | succ n ih =>
    rw [natBytes, bytesNat, ih, BitVec.toNat_ofNat, show 256 ^ (n + 1) = 256 * 256 ^ n from Nat.pow_succ']
    exact Nat.mod_mul.symm

theorem imgNat_one (img : List Byte) (o : Nat) : imgNat img o 1 = (img.getD o 0).toNat := by
  rw [imgNat, List.getD_eq_getElem?_getD, ← List.head?_drop]
  cases img.drop o with
  | nil => rfl
  | cons b rest => rfl

section
variable {img : List Byte} {o n : Nat} (fits : o + n ≤ img.length) (x : Nat)
include fits

theorem length_imgPut : (imgPut img o n x).length = img.length := by
  simp only [imgPut, List.length_append, List.length_take, length_natBytes, List.length_drop]
  omega

theorem imgNat_imgPut_same : imgNat (imgPut img o n x) o n = x % 256 ^ n := by
  have before : (img.take o).length = o := List.length_take_of_le (by omega)
  rw [imgNat, imgPut, List.append_assoc, List.drop_left' before, List.take_left' (length_natBytes n x), bytesNat_natBytes]

theorem getD_imgPut_other {j : Nat} (other : j < o ∨ o + n ≤ j) : (imgPut img o n x).getD j 0 = img.getD j 0 := by
  have before : (img.take o).length = o := List.length_take_of_le (by omega)
  simp only [imgPut, List.getD_eq_getElem?_getD]
  rcases other with below | above
  · rw [List.append_assoc, List.getElem?_append_left (by omega), List.getElem?_take_of_lt below]
  · rw [List.getElem?_append_right (by rw [List.length_append, before, length_natBytes]; exact above), List.length_append,
      before, length_natBytes, List.getElem?_drop, Nat.add_sub_cancel' above]

end

theorem getD_imgPut_byte {img : List Byte} {o : Nat} (inside : o < img.length) (x : Nat) :
    (imgPut img o 1 x).getD o 0 = BitVec.ofNat 8 x := by
  have before : (img.take o).length = o := List.length_take_of_le (by omega)
  rw [imgPut, List.append_assoc, List.getD_eq_getElem?_getD, List.getElem?_append_right (Nat.le_of_eq before), before,
    Nat.sub_self]
  rfl

/-! ### Distinct counts (09 R196) -/

theorem distinctOf_index_lt (p x : Nat) (hp : p ≤ 64) : (distinctOf p x).1 < 2 ^ p := by
  refine Nat.div_lt_of_lt_mul ?_
  rw [← Nat.pow_add, Nat.sub_add_cancel hp]
  exact (mix64 (BitVec.ofNat 64 x)).isLt

/-- The value of a key is the position of the first 1 bit of the 64 - P bits behind the index, 65 - P where there is none. -/
theorem distinctOf_rank {p : Nat} (x : Nat) (hp : p < 64) :
    let w := (mix64 (BitVec.ofNat 64 x)).toNat % 2 ^ (64 - p)
    let r := (distinctOf p x).2
    1 ≤ r ∧ r ≤ 65 - p ∧ w < 2 ^ (65 - p - r) ∧ (r ≤ 64 - p → 2 ^ (64 - p - r) ≤ w) := by
  intro w r
  have short : w < 2 ^ (64 - p) := Nat.mod_lt _ (Nat.two_pow_pos _)
  by_cases zero : w = 0
  · have last : r = 65 - p := if_pos zero
    rw [last, zero, Nat.sub_self]
    exact ⟨by omega, Nat.le_refl _, Nat.one_pos, fun _ => by omega⟩
  · have first : r = 64 - p - Nat.log2 w := if_neg zero
    have bound : Nat.log2 w < 64 - p := (Nat.log2_lt zero).mpr short
    have above : 65 - p - r = Nat.log2 w + 1 := by omega
    have below : 64 - p - r = Nat.log2 w := by omega
    rw [above, below]
    exact ⟨by omega, by omega, Nat.lt_log2_self, fun _ => Nat.log2_self_le zero⟩

section
variable {img : List Byte} (x : Nat)

theorem header_inside (whole : img.length = 32 + 2 ^ imgNat img 1 1) : 8 + 8 ≤ img.length :=
  whole ▸ Nat.le_add_right_of_le (by decide)

/-- The register that a key raises, in an image of its size. -/
theorem distinct_register_inside (hp : imgNat img 1 1 ≤ 64) (whole : img.length = 32 + 2 ^ imgNat img 1 1) :
    32 + (distinctOf (imgNat img 1 1) x).1 + 1 ≤ img.length := by
  have := distinctOf_index_lt (imgNat img 1 1) x hp
  omega

variable (hp : imgNat img 1 1 ≤ 64) (whole : img.length = 32 + 2 ^ imgNat img 1 1)
include hp whole

theorem length_distinctInsert : (distinctInsert img x).length = img.length := by
  have register := length_imgPut (distinct_register_inside x hp whole)
  rw [distinctInsert, length_imgPut (by rw [register]; exact header_inside whole), register]

theorem count_distinctInsert : imgNat (distinctInsert img x) 8 8 = (imgNat img 8 8 + 1) % 2 ^ 64 := by
  have register := length_imgPut (distinct_register_inside x hp whole)
  rw [distinctInsert, imgNat_imgPut_same (by rw [register]; exact header_inside whole)]
  exact Nat.mod_mod _ _

theorem getD_distinctInsert {j : Nat} (outside : j < 8 ∨ 16 ≤ j) : (distinctInsert img x).getD j 0 =
    if j = 32 + (distinctOf (imgNat img 1 1) x).1 then
      BitVec.ofNat 8 (max (img.getD j 0).toNat (distinctOf (imgNat img 1 1) x).2) else img.getD j 0 := by
  have inside := distinct_register_inside x hp whole
  have register := length_imgPut inside
  rw [distinctInsert, getD_imgPut_other (by rw [register]; exact header_inside whole) _ outside]
  split
  case isTrue raised => rw [raised, getD_imgPut_byte inside, imgNat_one]
  case isFalse other => exact getD_imgPut_other inside _ (by omega)

end

/-! ### Sketches (09 R186) -/

/-- What an append leaves of a sketch's header. -/
def tally (q : Sketch) : Nat × Nat × Nat × Nat := (q.n, q.min, q.max, q.nans)

theorem tally_openTo (q : Sketch) (l : Nat) : tally (q.openTo l) = tally q := by
  unfold Sketch.openTo
  split <;> rfl

theorem tally_flip (q : Sketch) (l : Nat) : tally (q.flip l).2 = tally q := by
  unfold Sketch.flip
  dsimp only
  split <;> rfl

theorem tally_append (n : Nat) (q : Sketch) (x l : Nat) : tally (Sketch.append n q x l) = tally q := by
  induction n generalizing q x l with
  | zero => rfl
  | succ n ih =>
    rw [Sketch.append]
    split
    · exact tally_openTo q l
    · dsimp only
      split
      · exact (tally_flip _ l).trans (tally_openTo q l)
      · exact (foldl_frame tally _ (fun q y => ih q y (l + 1)) _ _).trans ((tally_flip _ l).trans (tally_openTo q l))

/-- An append that does not fill its level, open already, is the value put behind the others. -/
theorem append_of_room {q : Sketch} {l : Nat} (n x : Nat) (opened : l < q.levels) (room : (q.level l).fill + 1 < q.k) :
    Sketch.append (n + 1) q x l = q.setLevel l { q.level l with
      vals := (q.level l).vals.set (q.level l).fill x, fill := (q.level l).fill + 1 } := by
  have same : q.openTo l = q := if_pos opened
  rw [Sketch.append, same]
  exact if_pos (bne_iff_ne.mpr (Nat.ne_of_lt room))

theorem level_setLevel {q : Sketch} {l : Nat} (v : Level) (inside : l < q.lv.length) : (q.setLevel l v).level l = v := by
  rw [Sketch.level, Sketch.setLevel, List.getD_eq_getElem?_getD, List.getElem?_set_self inside, Option.getD_some]

section
variable (q : Sketch) {x : Nat}

theorem sketch_insert_of_nan (nan : (fdecode fp32 x).isNan = true) : q.insert x = { q with nans := sat32 (q.nans + 1) } :=
  if_pos nan

/-- A sketch that has counted a value, not yet appended. -/
def counted (q : Sketch) (y : Nat) : Sketch :=
  { q with n := (q.n + 1) % 2 ^ 64
           min := if f32Key y < f32Key q.min then y else q.min
           max := if f32Key q.max < f32Key y then y else q.max }

theorem sketch_insert_of_number (number : (fdecode fp32 x).isNan = false) :
    q.insert x = Sketch.append 33 (counted q (if x = 0x80000000 then 0 else x)) (if x = 0x80000000 then 0 else x) 0 :=
  if_neg (ne_true_of_eq_false number)

theorem sketch_insert_tally (number : (fdecode fp32 x).isNan = false) :
    tally (q.insert x) = tally (counted q (if x = 0x80000000 then 0 else x)) := by
  rw [sketch_insert_of_number q number, tally_append]

/-- Where level 0 is in use and does not fill, the value joins it. -/
theorem sketch_insert_level (number : (fdecode fp32 x).isNan = false) (opened : 0 < q.levels) (inside : 0 < q.lv.length)
    (room : (q.level 0).fill + 1 < q.k) : (q.insert x).level 0 = { q.level 0 with
      vals := (q.level 0).vals.set (q.level 0).fill (if x = 0x80000000 then 0 else x), fill := (q.level 0).fill + 1 } := by
  rw [sketch_insert_of_number q number, append_of_room (q := counted q _) 32 _ opened room]
  exact level_setLevel (q := counted q _) _ inside

theorem f32Key_counted_min (y : Nat) : f32Key (counted q y).min = min (f32Key y) (f32Key q.min) := by
  rw [counted, apply_ite f32Key]
  split <;> omega

theorem f32Key_counted_max (y : Nat) : f32Key (counted q y).max = max (f32Key q.max) (f32Key y) := by
  rw [counted, apply_ite f32Key]
  split <;> omega

end

end Sys2Proof.Proofs
end

section
/-! SUPPORT. The summary instructions (09 R179 to R196): what they enter at issue, what the unit performs, and what an
insertion does. -/
namespace Sys2Proof.Proofs
open Sys2Proof Sys2Proof.Machine Sys2Proof.Laws

/-- Settles O33: the operations that a slot enters, what each comes to in the reduction unit, and the three insertions. -/
theorem summaryOperationsQueue : Obligations.SummaryOperationsQueue := by
  unfold Obligations.SummaryOperationsQueue
  refine ⟨fun s f cap p crew => ?issue, fun s t o rest queue ready => ?unit, fun h x => ?hitters,
    fun img x low high whole => ?distinct, fun q x => ⟨sketch_insert_of_nan q, fun number => ?sketch⟩⟩
  case issue =>
    intro o cs lanes b live entry queued nothing each held
    refine ⟨fun passes => ?write, fun passes => ?query, fun area passes => ?clear, exec_skclr_of_bad held⟩
    case write =>
      have enters (i : Instr) (op : Nat) (pick : Nat → List Nat) (run : exec i s = settle s (s.sumWrite op f pick)) :
          queued i (each (fun cl k => entry op 0 (f.type == 1) p (pick cl) 0 cl k)) nothing :=
        completes_of_enqueued (by rw [run, sumWrite_ok crew op pick held passes, settle_ok]; rfl)
          fun m => (List.append_nil _).symm
      have active : vActive s f = live := funext (vActive_eq s f)
      have inserts (i : Instr) (op : Nat) (run : exec i s = settle s (s.sumWrite op f (vActive s f))) :
          queued i (each (fun cl k => entry op 0 (f.type == 1) p (live cl) 0 cl k)) nothing :=
        enters i op live (active ▸ run)
      exact ⟨inserts (.skq f) 0x86 rfl, inserts (.skh f) 0x82 rfl, inserts (.skd f) 0x81 rfl,
        enters (.skmrgQ f) 0x83 lanes rfl, enters (.skmrgH f) 0x84 lanes rfl, enters (.skmrgD f) 0x85 lanes rfl⟩
    case query =>
      have asks (i : Instr) (op : Nat) (run : exec i s = settle s (s.sumQuery op f)) :
          queued i (each (fun cl k => entry op 0 false p ((lanes cl).take 1) (activeLanes s.ctx cl f.pred) cl k))
            (fun n => (cs.zipIdx.filter (fun x => 16 + x.1 == n)).map (fun x => askedEntry s f x.1 x.2)) :=
        completes_of_enqueued (by rw [run, sumQuery_ok crew op held passes, settle_ok]; rfl)
          (get_foldl_askedPort s f _ _)
      exact ⟨asks (.skqryQ f) 0x87 rfl, asks (.skqryR f) 0x88 rfl, asks (.skqryE f) 0x89 rfl⟩
    case clear =>
      exact completes_of_enqueued (exec_skclr_of_area held crew passes) fun m => (List.append_nil _).symm
  case unit =>
    refine ⟨fun img u read op => ⟨fun kind sound => ?_, fun foreign => ?_⟩, fun img src u v read op source sound apart => ?_,
      fun img u read op => ?_, fun p op spot => ?_⟩
    · refine exec_summaryUnit_of_ok queue ready ?_
      rw [sumApply_of_insertion read op, if_neg (not_not_intro kind), if_neg (ne_true_of_eq_false sound)]
    · refine exec_summaryUnit_of_trap queue ready (not_query_of_insertion op) ?_
      rw [sumApply_of_insertion read op, if_pos foreign]
    · exact exec_summaryUnit_of_ok queue ready (sumApply_of_merge read op source sound apart)
    · exact exec_summaryUnit_of_ok queue ready (sumApply_of_query op read)
    · exact exec_summaryUnit_of_ok queue ready (sumApply_of_clear op spot)
  case hitters =>
    obtain ⟨n, m⟩ := hitters_insert_counts h x
    exact ⟨n, m,
      fun stored => ⟨by rw [hitters_insert_of_stored stored], mem_insert_of_stored stored⟩,
      fun absent room => ⟨by rw [hitters_insert_of_room absent room], mem_insert_of_room absent room⟩,
      fun absent full => ⟨by rw [hitters_insert_of_full absent full], mem_insert_of_full absent full⟩,
      fun _ => hitters_insert_sorted h x⟩
  case distinct =>
    obtain ⟨least, most, above, below⟩ := distinctOf_rank x (show imgNat img 1 1 < 64 by omega)
    have hp : imgNat img 1 1 ≤ 64 := by omega
    exact ⟨_, least, most, above, below, length_distinctInsert x hp whole, count_distinctInsert x hp whole,
      fun j => getD_distinctInsert x hp whole⟩
  case sketch =>
    have kept := sketch_insert_tally q number
    simp only [tally, Prod.mk.injEq] at kept
    obtain ⟨n, least, most, nans⟩ := kept
    exact ⟨n, (congrArg f32Key least).trans (f32Key_counted_min q _),
      (congrArg f32Key most).trans (f32Key_counted_max q _), nans, sketch_insert_level q number⟩

end Sys2Proof.Proofs
end

section
/-! SUPPORT. Crews and engines: what an engine's end leaves of its strand's counter and port (02 R53, 04 R90), and what the flush
of a tile and a write to its scratchpad leave of the tile. -/
namespace Sys2Proof.Proofs
open Sys2Proof Sys2Proof.Machine Sys2Proof.Laws

/-! ### A crew on its tile -/

@[simp] theorem crewTile_setTile (s : State) (t : Nat) (x : Tile) (gang crew : Nat) :
    (s.setTile t x).crewTile gang crew = s.crewTile gang crew := rfl

theorem crewTile_of_books {s u : State} (h : books u = books s) (gang crew : Nat) :
    u.crewTile gang crew = s.crewTile gang crew := by
  simp only [State.crewTile, State.gang, gangs_of_books h]

section
variable {s : State} {t : Nat} {i : Issuer} (resident : s.crewTile i.gang i.crew = some t)
include resident

theorem onCrew_of_resident (f : Tile → Tile) : s.onCrew i.gang i.crew f = s.setTile t (f (s.tile t)) := by
  simp only [State.onCrew, resident]

theorem fork_of_resident : s.fork i = s.flushTile t := by
  simp only [State.fork, resident]

end

@[simp] theorem readCt_bumpCt (x : Tile) (n k : Nat) : (x.bumpCt n k).readCt n = x.readCt n + BitVec.ofNat 64 k := by
  simp [Tile.bumpCt, Tile.setCt, Tile.readCt]

/-- An engine's end raises the counter, and fills the status entry unless NR is set. -/
theorem ended_finishOp (s : State) (i : Issuer) (ct k : Nat) (nr : Bool) (port id v : Nat) :
    Ended s (s.finishOp i ct k nr port id v) i ct k nr port id v := by
  have ends (t : Nat) (resident : s.crewTile i.gang i.crew = some t) : s.finishOp i ct k nr port id v = s.setTile t
      (if nr then (s.tile t).bumpCt ct k else ((s.tile t).bumpCt ct k).setCtx i.ctx
        (((s.tile t).ctx i.ctx).answer port id (BitVec.ofNat 512 v) [])) := by
    rw [State.finishOp, State.bump, onCrew_of_resident resident, State.status]
    split
    · rfl
    · rw [State.onStrand, onCrew_of_resident (s := s.setTile t _) resident, setTile_tile, setTile_setTile]
      rfl
  refine ⟨fun t resident => ?counter, fun t resident => ?status⟩
  case counter =>
    rw [ends t resident, setTile_tile]
    split <;> exact readCt_bumpCt _ ct k
  case status =>
    rw [ends t resident, setTile_ctxAt]
    cases nr
    case true => simp [State.ctxAt, Tile.ctx, Tile.bumpCt, Tile.setCt]
    case false => simp [Ctx.answer, Ctx.port, Ctx.setPort, State.ctxAt]

/-! ### A tile that is flushed, and one whose scratchpad is written -/

theorem l1WriteBack_tile_frame (s : State) (t sec : Nat) :
    (s.l1WriteBack t sec).tile t = { s.tile t with l1 := ((s.l1WriteBack t sec).tile t).l1 } := by
  unfold State.l1WriteBack
  split
  · split
    · rfl
    · rw [setTile_tile]; rfl
  · rfl

/-- A flush changes nothing of its tile but the L1. -/
theorem flushTile_tile_frame (s : State) (t : Nat) :
    (s.flushTile t).tile t = { s.tile t with l1 := ((s.flushTile t).tile t).l1 } :=
  foldl_keeps (P := fun u : State => u.tile t = { s.tile t with l1 := (u.tile t).l1 })
    (fun (u : State) (x : Nat × Option L1Sector) => u.l1WriteBack t x.1)
    (fun u x kept => by rw [l1WriteBack_tile_frame, kept]) _ rfl

/-- A write to the scratchpad changes its bytes, its tags and its poison, and nothing else of the tile. -/
theorem spadCells_frame (x : Tile) (cells : List (Nat × Byte)) : x.spadCells cells = { x with
    spad := (x.spadCells cells).spad, spadTag := (x.spadCells cells).spadTag
    spadPoison := (x.spadCells cells).spadPoison } := by
  have put := foldl_keeps
    (P := fun y : Tile => y = { x with spad := y.spad, spadTag := y.spadTag, spadPoison := y.spadPoison })
    (fun (y : Tile) (c : Nat × Byte) => y.spadPut c.1 c.2) (fun y c kept => by rw [kept]; rfl) cells (b := x) rfl
  unfold Tile.spadCells
  rw [put]

theorem spadPut_updates : Updates (fun (x : Tile) (c : Nat × Byte) => x.spadPut c.1 c.2) (fun x o => Sparse.get 0 x.spad o)
    (fun c => c.1) (fun c _ => c.2) where
  at_key x c := by rw [spadPut_get, if_pos rfl]
  elsewhere x c o other := by rw [spadPut_get, if_neg other]

/-- Of the bytes written to one place of a scratchpad, the last is read there. -/
theorem spadCells_get (x : Tile) (cells : List (Nat × Byte)) (o : Nat) : Sparse.get 0 (x.spadCells cells).spad o =
    cells.foldl (fun b c => if c.1 = o then c.2 else b) (Sparse.get 0 x.spad o) := by
  show Sparse.get 0 (cells.foldl (fun x c => x.spadPut c.1 c.2) x).spad o = _
  induction cells generalizing x with
  | nil => rfl
  | cons c rest ih =>
    rw [List.foldl_cons, ih, spadPut_get, List.foldl_cons]
    by_cases here : o = c.1
    · rw [if_pos here, if_pos here.symm]
    · rw [if_neg here, if_neg (Ne.symm here)]

theorem nodup_cellsFrom (a : Nat) (bs : List Byte) : ((cellsFrom a bs).map (fun c => c.1)).Nodup := by
  rw [cellsFrom, List.map_map]
  exact nodup_zipIdx_snd bs (fun j => a + j) (fun _ _ h => Nat.add_left_cancel h)

/-- Bytes written in a row to a scratchpad are read in that row. -/
theorem spadCells_cellsFrom_get (x : Tile) (a : Nat) {bs : List Byte} {i : Nat} (inside : i < bs.length) :
    Sparse.get 0 (x.spadCells (cellsFrom a bs)).spad (a + i) = bs.getD i 0 := by
  have listed : (a + i, bs.getD i 0) ∈ cellsFrom a bs :=
    List.mem_map.mpr ⟨(bs.getD i 0, i), by simp [List.mem_zipIdx_iff_getElem?, inside], rfl⟩
  exact spadPut_updates.foldl_at _ x (nodup_cellsFrom a bs) listed

end Sys2Proof.Proofs
end

section
/-! SUPPORT. Sectors that leave Mortar (11 R224, R241): a sector is written back without a change at its point of coherence, and of
the lines whose sectors are purged none is left. -/
namespace Sys2Proof.Proofs
open Sys2Proof Sys2Proof.Machine Sys2Proof.Laws

theorem mem_of_get_eq {α : Type} {d v : α} {m : Sparse α} {k : Nat} (found : Sparse.get d m k = v) (listed : v ≠ d) :
    (k, v) ∈ m := by
  induction m with
  | nil => exact absurd found.symm listed
  | cons x rest ih =>
    obtain ⟨a, w⟩ := x
    rw [Sparse.get] at found
    split at found
    next here => rw [← here, ← found]; exact List.mem_cons_self
    next => exact List.mem_cons_of_mem _ (ih found)

/-! ### One sector -/

section
variable (s : State) (sec : Nat)

theorem mortar_mortarWriteBack : (s.mortarWriteBack sec).mortar =
    Sparse.set none s.mortar sec ((Sparse.get none s.mortar sec).map (fun m => { m with dirty := false })) := by
  unfold State.mortarWriteBack
  generalize List.range 64 = l
  generalize List.range 4 = l'
  dsimp only
  rw [foldl_frame (fun u : State => u.mortar) _ (fun u i => by split <;> rfl) l',
    foldl_frame (fun u : State => u.mortar) _ (fun u i => by split <;> rfl) l]

/-- The write-back of a sector leaves nothing of it dirty. -/
theorem mdata_mortarWriteBack {i : Nat} (inside : i < 64) :
    Sparse.get none (s.mortarWriteBack sec).mdata (64 * sec + i) = none := by
  unfold State.mortarWriteBack
  generalize List.range 4 = l'
  dsimp only
  rw [foldl_frame (fun u : State => u.mdata) _ (fun u i => by split <;> rfl) l']
  refine foldl_establishes (P := fun i (u : State) => Sparse.get none u.mdata (64 * sec + i) = none) _
    (fun u i => ?own) (fun u i j clean => ?keep) _ s (List.mem_range.mpr inside)
  case own =>
    split
    next => simp
    next absent => exact absent
  case keep =>
    split
    next => rw [get_set, clean, ite_self]
    next => exact clean

theorem pocByte_mortarWriteBack (a : Nat) : (s.mortarWriteBack sec).pocByte a = s.pocByte a := by
  unfold State.mortarWriteBack
  generalize List.range 64 = l
  generalize List.range 4 = l'
  refine Eq.trans (foldl_frame (fun u : State => u.pocByte a) _ (fun u i => ?tags) l' _)
    (foldl_frame (fun u : State => u.pocByte a) _ (fun u i => ?bytes) l s)
  case tags => split <;> rfl
  case bytes =>
    split
    next b dirty =>
      by_cases here : a = 64 * sec + i
      · simp [State.pocByte, State.wcByte, State.vf, here, dirty]
      · simp [State.pocByte, State.wcByte, State.vf, get_set_other _ _ _ here]
    next => rfl

/-- A drop changes nothing but what Mortar holds. -/
theorem mortarDrop_frame : s.mortarDrop sec = { s with
    mortar := Sparse.set none s.mortar sec none, mdata := (s.mortarDrop sec).mdata, mtags := (s.mortarDrop sec).mtags } := by
  unfold State.mortarDrop
  generalize List.range 64 = l
  generalize List.range 4 = l'
  have dropped := foldl_keeps (P := fun u : State => u = { s with mdata := u.mdata, mtags := u.mtags })
    (fun (u : State) i => { u with mtags := Sparse.set none u.mtags (4 * sec + i) none })
    (fun _ _ kept => by rw [kept]) l'
    (foldl_keeps (P := fun u : State => u = { s with mdata := u.mdata, mtags := u.mtags })
      (fun (u : State) i => { u with mdata := Sparse.set none u.mdata (64 * sec + i) none })
      (fun _ _ kept => by rw [kept]) l (b := s) rfl)
  dsimp only
  rw [dropped]

theorem mdata_mortarDrop : (s.mortarDrop sec).mdata =
    (List.range 64).foldl (fun m i => Sparse.set none m (64 * sec + i) none) s.mdata := by
  unfold State.mortarDrop
  generalize List.range 4 = l'
  dsimp only
  rw [foldl_frame (fun u : State => u.mdata) _ (fun _ _ => by rfl) l']
  exact (List.foldl_hom State.mdata (fun _ _ => rfl)).symm

theorem clear_updates : Updates (fun (m : Sparse (Option Byte)) i => Sparse.set none m (64 * sec + i) none) (Sparse.get none)
    (fun i => 64 * sec + i) (fun _ _ => none) where
  at_key m _ := get_set_same none m _ _
  elsewhere m _ _ other := get_set_other none m _ other

end

/-- A sector of which nothing is dirty is dropped without a loss. -/
theorem pocByte_mortarDrop {s : State} {sec : Nat} (clean : ∀ i < 64, Sparse.get none s.mdata (64 * sec + i) = none) (a : Nat) :
    (s.mortarDrop sec).pocByte a = s.pocByte a := by
  have same : Sparse.get none (s.mortarDrop sec).mdata a = Sparse.get none s.mdata a := by
    rw [mdata_mortarDrop]
    by_cases inside : a ∈ (List.range 64).map (fun i => 64 * sec + i)
    · obtain ⟨i, hi, rfl⟩ := List.mem_map.mp inside
      rw [(clear_updates sec).foldl_at _ _ (nodup_map_range _ (fun _ _ h => Nat.add_left_cancel h) 64) hi,
        clean i (List.mem_range.mp hi)]
    · exact (clear_updates sec).foldl_elsewhere _ _ inside
  rw [mortarDrop_frame, State.pocByte, same]
  rfl

/-! ### The sectors of some lines (R241) -/

section
variable (s : State) (keep : Bool) (xs : List (Nat × MTag × Bool))

/-- A sector that is listed leaves Mortar; another stays as it was. -/
theorem get_mortar_mortarPurge (sec : Nat) : Sparse.get none (s.mortarPurge keep xs).mortar sec =
    if sec ∈ xs.map (fun x => x.1) then none else Sparse.get none s.mortar sec := by
  have step (u : State) (k j : Nat) : Sparse.get none ((if keep then u.mortarWriteBack k else u).mortarDrop k).mortar j =
      if j = k then none else Sparse.get none u.mortar j := by
    rw [mortarDrop_frame, get_set]
    split
    · rfl
    next other =>
      split
      · rw [mortar_mortarWriteBack, get_set_other _ _ _ other]
      · rfl
  induction xs generalizing s with
  | nil => rfl
  | cons x rest ih =>
    have purge : s.mortarPurge keep (x :: rest) =
      ((if keep then s.mortarWriteBack x.1 else s).mortarDrop x.1).mortarPurge keep rest := rfl
    rw [purge, ih, step]
    by_cases head : sec = x.1
    · simp [head]
    · simp only [List.map_cons, List.mem_cons, head, false_or, if_false]

theorem units_mortarPurge : units (s.mortarPurge keep xs) = units s :=
  foldl_frame units _ (fun u x => by split <;> simp) xs s

/-- What is written back before it leaves reads as before. -/
theorem pocByte_mortarPurge (a : Nat) : (s.mortarPurge true xs).pocByte a = s.pocByte a :=
  foldl_frame (fun u : State => u.pocByte a) (fun (u : State) (x : Nat × MTag × Bool) => (u.mortarWriteBack x.1).mortarDrop x.1)
    (fun u x => (pocByte_mortarDrop (fun _ inside => mdata_mortarWriteBack u x.1 inside) a).trans
      (pocByte_mortarWriteBack u x.1 a)) xs s

end

/-- The sectors of the lines of a tensor. -/
def tensorSecs (s : State) (vf tid : Nat) : List (Nat × MTag × Bool) := s.mortarSecs vf (fun g => g.tid == tid)

/-- Mortar holds no sector of a tensor's lines. -/
def LacksTensor (u : State) (vf tid : Nat) : Prop :=
  ∀ sec m, Sparse.get none u.mortar sec = some m → ¬ (m.tag.vf = vf ∧ m.tag.tid = tid)

theorem mem_mortarSecs {s : State} {sec : Nat} {m : MortarSector} {p : MTag → Bool} (held : Sparse.get none s.mortar sec = some m)
    (passes : p m.tag = true) : (sec, m.tag, m.dirty) ∈ s.mortarSecs m.tag.vf p :=
  List.mem_filterMap.mpr ⟨(sec, some m), mem_of_get_eq held (Option.some_ne_none m), by simp [passes]⟩

theorem lacksTensor_mortarPurge (s : State) (keep : Bool) (vf tid : Nat) :
    LacksTensor (s.mortarPurge keep (tensorSecs s vf tid)) vf tid := by
  rintro sec m left ⟨rfl, rfl⟩
  rw [get_mortar_mortarPurge] at left
  split at left
  next => cases left
  next other => exact other (List.mem_map.mpr ⟨_, mem_mortarSecs left (beq_self_eq_true m.tag.tid), rfl⟩)

end Sys2Proof.Proofs
end

section
/-! SUPPORT. The commands of Mortar (11 R230, R235 to R243): what a command on a registered tensor comes to, and the end of the
first command that nothing holds back. -/
namespace Sys2Proof.Proofs
open Sys2Proof Sys2Proof.Machine Sys2Proof.Laws

theorem exec_mortarComplete_of_done {s u : State} {v st tid res : Nat} {c : EngCmd} {rest : List EngCmd}
    (head : mortarHeads v [] s.mortarQ = c :: rest) (ready : s.forkReady c.iss = true)
    (written : (s.fork c.iss).vfPending c.iss.vf = false) (ran : (s.fork c.iss).mortarRun c = .done u st tid res) :
    exec (.mortarComplete v) s = .next (u.mortarFinish c st tid res) := by
  show Host.Outcome.next (s.mortarServe (mortarHeads v [] s.mortarQ)) = _
  rw [head, State.mortarServe, ready, written, ran]
  rfl

theorem mortarFinish_ends (u : State) (c : EngCmd) (st tid res : Nat) :
    Ended u (u.mortarFinish c st tid res) c.iss c.ct 1 c.nr 9 c.id
        (res % 2 ^ 32 * 2 ^ 32 + tid * 2 ^ 16 + c.op * 2 ^ 8 + st) ∧
      ∀ o ∈ (u.mortarFinish c st tid res).mortarQ, o.id ≠ c.id :=
  ⟨ended_finishOp u c.iss c.ct 1 c.nr 9 c.id _, fun o waits => by simpa using (List.mem_filter.mp waits).2⟩

section
variable {s : State} {c : EngCmd} (plain : c.place = none) (named : c.arg % 2 ^ 16 ≠ 0)
include plain named

theorem mortarRun_of_unregistered (unknown : Sparse.get none (s.vf c.iss.vf).tensors (c.arg % 2 ^ 16) = none) :
    s.mortarRun c = .done s 5 (c.arg % 2 ^ 16) 0 := by
  simp only [State.mortarRun, plain, named, unknown, if_false]

theorem mortarRun_of_registered {x : Tensor} (known : Sparse.get none (s.vf c.iss.vf).tensors (c.arg % 2 ^ 16) = some x) :
    s.mortarRun c = s.mtTensor c (c.arg % 2 ^ 16) x := by
  simp only [State.mortarRun, plain, named, known, if_false]

end

section
variable (s : State) {c : EngCmd} (tid : Nat) (x : Tensor)

theorem mtTensor_halo (op : c.op = 0xEC) : s.mtTensor c tid x =
    .done (s.setTensor c.iss.vf tid (some { x with haloOn := c.arg / 2 ^ 16 % 2 == 1 })) 0 tid 0 := by
  simp [State.mtTensor, op]

theorem mtTensor_writeBack (op : c.op = 0xED) : s.mtTensor c tid x =
    .done (s.mortarPurge true (tensorSecs s c.iss.vf tid)) 0 tid (sat32 (lineCount (tensorSecs s c.iss.vf tid))) := by
  simp [State.mtTensor, op, tensorSecs]

theorem mtTensor_drop (op : c.op = 0xEE) : s.mtTensor c tid x =
    .done (s.mortarPurge false (tensorSecs s c.iss.vf tid)) 0 tid (sat32 (lineCount (tensorSecs s c.iss.vf tid))) := by
  simp [State.mtTensor, op, tensorSecs]

theorem mtTensor_release (op : c.op = 0xF2) : s.mtTensor c tid x = .done
    (((s.mortarPurge true (tensorSecs s c.iss.vf tid)).setTid c.iss.vf x.obj 0).setTensor c.iss.vf tid none) 0 tid 0 := by
  simp [State.mtTensor, op, tensorSecs]

end

/-- Without an object table in memory, an entry's TID changes nothing of Mortar. -/
theorem mortar_setTid {s : State} {vf : Nat} (untabled : (s.vf vf).objBase = none) (obj tid : Nat) :
    (s.setTid vf obj tid).mortar = s.mortar := by
  simp only [State.setTid, untabled, setVf_mortar]

theorem tensors_setTensor (s : State) (vf tid : Nat) (x : Option Tensor) :
    Sparse.get none ((s.setTensor vf tid x).vf vf).tensors tid = x := by
  rw [State.setTensor, setVf_vf, get_set_same]

end Sys2Proof.Proofs
end

section
/-! SUPPORT. Probe fills and held deliveries (10 R218, 03 R61): the tile that each leaves. -/
namespace Sys2Proof.Proofs
open Sys2Proof Sys2Proof.Machine Sys2Proof.Laws

/-! ### Probe fills -/

/-- A tile whose fill j has ended. -/
def filled (x : Tile) (j : Nat) (f : ProbeFill) (ok : Bool) : Tile :=
  ({ x.setProbeSlot j { x.probeSlot j with pending := false, valid := ok && f.live } with
    fills := Sparse.set none x.fills j none } : Tile).bumpCt f.ct 1

section
variable (x : Tile) (j : Nat) (f : ProbeFill) (ok : Bool)

theorem probeSlot_filled : (filled x j f ok).probeSlot j = { x.probeSlot j with pending := false, valid := ok && f.live } :=
  get_set_same ..

theorem fills_filled : Sparse.get none (filled x j f ok).fills j = none := get_set_same none x.fills j none

theorem readCt_filled : (filled x j f ok).readCt f.ct = x.readCt f.ct + 1 := readCt_bumpCt _ f.ct 1

end

section
variable {s : State} {t j : Nat} {f : ProbeFill}

theorem endFill_of_resident (resident : s.crewTile f.iss.gang f.iss.crew = some t) (ok : Bool) :
    s.endFill t j f ok = s.setTile t (filled (s.tile t) j f ok) := by
  rw [State.endFill, State.bump, onCrew_of_resident (s := s.setTile t _) resident, setTile_tile, setTile_setTile]
  rfl

theorem probeFill_of_read {w : Crew} {pa : Nat} {bs : List Byte} (asked : Sparse.get none (s.tile t).fills j = some f)
    (ready : s.forkReady f.iss = true) (crew : (s.tile t).crew = some w) (runs : w.stopped = false)
    (current : (s.fork f.iss).capCurrent f.iss.vf f.cap = true)
    (mapped : (s.fork f.iss).lookupVa f.pasid (4096 * f.blk) false = .mapped pa)
    (sound : (s.fork f.iss).engPoison f.iss f.place 4096 = none)
    (read : ((s.fork f.iss).touchPage f.pasid (4096 * f.blk)).engRead f.iss f.place 4096 = some bs) :
    s.probeFill t j = ((s.fork f.iss).engWrite f.iss (.spad f.dst) bs).endFill t j f true := by
  unfold State.probeFill
  rw [asked]
  dsimp only
  rw [if_neg (by simp [ready, crew, runs]), if_neg (by simp [current])]
  -- the innermost answers first: the kernel would otherwise evaluate a check of 4096 bytes
  simp only [sound, read]
  rw [mapped]

/-- The tile of a crew whose fill has its block. -/
theorem tile_fill (resident : s.crewTile f.iss.gang f.iss.crew = some t) (bs : List Byte) :
    (((s.fork f.iss).engWrite f.iss (.spad f.dst) bs).endFill t j f true).tile t =
      filled (((s.flushTile t).tile t).spadCells (cellsFrom f.dst bs)) j f true := by
  have flushed : (s.flushTile t).crewTile f.iss.gang f.iss.crew = some t :=
    (crewTile_of_books (books_flushTile s t) _ _).trans resident
  rw [fork_of_resident resident, State.engWrite, onCrew_of_resident flushed,
    endFill_of_resident (s := (s.flushTile t).setTile t _) flushed, setTile_tile, setTile_tile]

end

/-! ### Held deliveries -/

/-- A tile on which a delivery without a handler has landed. -/
def landed (x : Tile) (idx : Nat) (l : Landing) : Tile :=
  ({ x.spadCells l.cells with landings := x.landings.eraseIdx idx } : Tile).bumpCt l.ct l.inc

theorem handlerCtx_zero (x : Tile) : x.handlerCtx 0 = none := by
  unfold Tile.handlerCtx
  split <;> rfl

theorem landOn_of_noHandler (s : State) (t : Nat) {l : Landing} (silent : l.hnd = 0) :
    s.landOn t l = s.setTile t ((s.tile t).bumpCt l.ct l.inc) := by
  rw [State.landOn, silent]
  simp only [handlerCtx_zero]

theorem landHeld_of_awake {s : State} {t idx : Nat} {l : Landing} {w : Crew} (queued : (s.tile t).landings[idx]? = some l)
    (crew : (s.tile t).crew = some w) (awake : w.frozen = false) (plain : l.coll = none) (silent : l.hnd = 0) :
    s.landHeld t idx = s.setTile t (landed (s.tile t) idx l) := by
  simp only [State.landHeld, queued, crew, awake, plain, Bool.false_and, Bool.false_eq_true, if_false]
  rw [landOn_of_noHandler _ t silent, setTile_tile, setTile_setTile]
  rfl

/-! ### The statement -/

/-- Settles O50: a command of Mortar is run and ended, case by case of its opcode; a fill and a delivery, by the tile that they
leave. -/
theorem mortarAndFillsComplete : Obligations.MortarAndFillsComplete := by
  unfold Obligations.MortarAndFillsComplete
  refine fun s => ⟨?command, fun c plain named => ⟨mortarRun_of_unregistered plain named, fun x known => ?tensor⟩, ?fill, ?land⟩
  case command =>
    intro v c rest u st tid res head ready written ran
    exact ⟨_, exec_mortarComplete_of_done head ready written ran, mortarFinish_ends u c st tid res⟩
  case tensor =>
    rw [mortarRun_of_registered plain named known]
    refine ⟨mtTensor_halo s _ x, fun op => ?writeBack, fun op => ?drop, fun op => ?release⟩
    case writeBack =>
      exact ⟨_, _, mtTensor_writeBack s _ x op, lacksTensor_mortarPurge s true _ _, pocByte_mortarPurge s _⟩
    case drop => exact ⟨_, _, mtTensor_drop s _ x op, lacksTensor_mortarPurge s false _ _⟩
    case release =>
      refine ⟨_, mtTensor_release s _ x op, tensors_setTensor _ _ _ _, fun untabled => ?_⟩
      have purged := lacksTensor_mortarPurge s true c.iss.vf (c.arg % 2 ^ 16)
      have same := vf_of_books (books_of_units (units_mortarPurge s true (tensorSecs s c.iss.vf (c.arg % 2 ^ 16)))) c.iss.vf
      rw [LacksTensor, ← mortar_setTid (by rw [same]; exact untabled) x.obj 0] at purged
      exact purged
  case fill =>
    intro t j f w pa bs asked resident ready crew runs u current mapped sound read
    have ended := probeFill_of_read asked ready crew runs current mapped sound read
    refine ⟨_, congrArg Host.Outcome.next ended, ?_⟩
    have flushed := flushTile_tile_frame s t
    have written := spadCells_frame ((s.flushTile t).tile t) (cellsFrom f.dst bs)
    simp only [State.spadByte, tile_fill resident]
    refine ⟨?slot, fills_filled .., ?counter, fun i inside => spadCells_cellsFrom_get _ f.dst inside⟩
    case slot =>
      rw [probeSlot_filled, Bool.true_and, written, flushed]
      rfl
    case counter =>
      rw [readCt_filled, written, flushed]
      rfl
  case land =>
    intro t idx l w queued crew awake plain silent
    refine ⟨_, congrArg Host.Outcome.next (landHeld_of_awake queued crew awake plain silent), ?_⟩
    simp only [State.spadByte, setTile_tile]
    refine ⟨?counter, rfl, fun o => spadCells_get (s.tile t) l.cells o⟩
    rw [landed, readCt_bumpCt, spadCells_frame]
    rfl

end Sys2Proof.Proofs
end

section
/-! SUPPORT. What leaves a tile's L1 (10 R200, R219, 12 R256): a write at a home slice changes memory alone, a write-back or a
drop changes nothing of a tile but its L1, and which sectors stay there. -/
namespace Sys2Proof.Proofs
open Sys2Proof Sys2Proof.Machine Sys2Proof.Laws

/-! ### Writes at the home slices -/

/-- The module without its memory: its bytes, tags and poison, what Mortar holds, what waits at a home slice, and the counter of
free choices. -/
def sansMemory (s : State) : State :=
  { s with mem := [], tags := [], poison := [], mortar := [], mdata := [], mtags := [], hist := [], biQ := [], free := 0 }

section
variable (s : State)

theorem sansMemory_mortarWriteBack (sec : Nat) : sansMemory (s.mortarWriteBack sec) = sansMemory s := by
  unfold State.mortarWriteBack
  generalize List.range 64 = l
  generalize List.range 4 = l'
  refine Eq.trans (foldl_frame sansMemory _ (fun u i => ?tags) l' _) (foldl_frame sansMemory _ (fun u i => ?bytes) l s)
  case tags => split <;> rfl
  case bytes => split <;> rfl

theorem sansMemory_mortarDrop (sec : Nat) : sansMemory (s.mortarDrop sec) = sansMemory s := by
  rw [mortarDrop_frame]
  rfl

theorem sansMemory_mortarTrim (slice n k : Nat) : sansMemory (s.mortarTrim slice n k) = sansMemory s := by
  have evicts (u : State) (tag : MTag) : sansMemory (u.mortarEvict tag) = sansMemory u :=
    foldl_frame sansMemory (fun (v : State) (x : Nat × Option MortarSector) => (v.mortarWriteBack x.1).mortarDrop x.1)
      (fun v x => (sansMemory_mortarDrop _ x.1).trans (sansMemory_mortarWriteBack v x.1)) _ u
  induction k generalizing s with
  | zero => rfl
  | succ k ih =>
    unfold State.mortarTrim
    dsimp only
    split
    · rfl
    · split
      · exact (ih _).trans (evicts _ _)
      · rfl

theorem sansMemory_mortarRoom (tag : MTag) : sansMemory (s.mortarRoom tag) = sansMemory s := by
  unfold State.mortarRoom
  dsimp only
  split
  · rfl
  · split
    · rfl
    · exact sansMemory_mortarTrim s _ _ _

theorem sansMemory_mortarTouch (sec : Nat) (tag : MTag) (dirty : Bool) :
    sansMemory (s.mortarTouch sec tag dirty) = sansMemory s := by
  unfold State.mortarTouch
  split
  · split
    · rfl
    · have made := (sansMemory_mortarRoom _ tag).trans ((sansMemory_mortarDrop _ sec).trans (sansMemory_mortarWriteBack s sec))
      generalize ((s.mortarWriteBack sec).mortarDrop sec).mortarRoom tag = u at made ⊢
      exact made
  · exact sansMemory_mortarRoom s tag

theorem sansMemory_sectorStore (w : SectorWrite) : sansMemory (s.sectorStore w) = sansMemory s := by
  unfold State.sectorStore
  split
  · rfl
  next pa b rest hw =>
    have kept := foldl_frame sansMemory (fun (u : State) d => u.keepHist d (u.pocDword d)) (fun _ _ => rfl)
      ((w.cells.map (fun x => x.1 / 8)).eraseDups) (s.mortarTouch (pa / 64) w.tag true)
    have bytes := foldl_frame sansMemory (fun (u : State) (x : Nat × Byte) => u.pocPut x.1 x.2) (fun _ _ => rfl) w.cells
    have tags := foldl_frame sansMemory (fun (u : State) (x : Nat × Bool) => u.pocPutTag x.1 x.2) (fun _ _ => rfl) w.units
    have all := (tags _).trans ((bytes _).trans (kept.trans (sansMemory_mortarTouch s _ _ _)))
    dsimp only
    split
    · exact all
    · exact all

/-- A write of a sector at its home slice changes memory alone. -/
theorem sansMemory_sectorWrite (w : SectorWrite) : sansMemory (s.sectorWrite w) = sansMemory s := by
  unfold State.sectorWrite
  split
  · rfl
  · split
    · rfl
    · exact sansMemory_sectorStore s w

end

/-! ### The tiles without their L1 -/

/-- A tile beside its L1. -/
def sansL1 (x : Tile) : Tile := { x with l1 := [] }

/-- The tile whose turn it is, and what each tile holds beside its L1. -/
def besideL1 (s : State) : Nat × (Nat → Tile) := (s.cur, fun i => sansL1 (s.tile i))

theorem ctx_of_tile {s u : State} (cur : u.cur = s.cur) (running : (u.tile s.cur).running = (s.tile s.cur).running)
    (ctxs : (u.tile s.cur).ctxs = (s.tile s.cur).ctxs) : u.ctx = s.ctx := by
  rw [State.ctx, State.ctx, State.ctxAt, State.ctxAt, State.curCtx, State.curCtx, cur, running, Tile.ctx, Tile.ctx, ctxs]

section
variable {s u : State} (same : besideL1 u = besideL1 s)
include same

theorem sansL1_of_besideL1 (i : Nat) : sansL1 (u.tile i) = sansL1 (s.tile i) :=
  congrFun (congrArg Prod.snd same) i

theorem ctx_of_besideL1 : u.ctx = s.ctx :=
  have tile := sansL1_of_besideL1 same s.cur
  ctx_of_tile (congrArg Prod.fst same) (congrArg Tile.running tile :) (congrArg Tile.ctxs tile :)

theorem spadByte_of_besideL1 (i o : Nat) : u.spadByte i o = s.spadByte i o :=
  (congrArg (fun x : Tile => Sparse.get 0 x.spad o) (sansL1_of_besideL1 same i) :)

theorem spadBytes_of_besideL1 (i o n : Nat) : u.spadBytes i o n = s.spadBytes i o n :=
  List.map_congr_left (fun _ _ => spadByte_of_besideL1 same i _)

end

theorem besideL1_setTile (s : State) (t : Nat) (m : Sparse (Option L1Sector)) :
    besideL1 (s.setTile t { s.tile t with l1 := m }) = besideL1 s :=
  Prod.ext rfl (funext (fun i => setTile_reads sansL1 s (by rfl) i))

theorem besideL1_dropClean (s : State) (t : Nat) : besideL1 (s.dropClean t) = besideL1 s := besideL1_setTile s t _

theorem besideL1_l1WriteBack (s : State) (t sec : Nat) : besideL1 (s.l1WriteBack t sec) = besideL1 s := by
  refine Prod.ext ?cur (funext (fun i => ?tile))
  case cur =>
    unfold State.l1WriteBack
    split
    · split
      · rfl
      · exact (congrArg State.cur (sansMemory_sectorWrite s _) :)
    · rfl
  case tile =>
    show sansL1 _ = sansL1 _
    rcases eq_or_ne i t with rfl | other
    · rw [l1WriteBack_tile_frame]
      rfl
    · rw [tile_l1WriteBack_other s sec other]

theorem besideL1_flushTile (s : State) (t : Nat) : besideL1 (s.flushTile t) = besideL1 s :=
  foldl_frame besideL1 (fun (u : State) (x : Nat × Option L1Sector) => u.l1WriteBack t x.1)
    (fun u x => besideL1_l1WriteBack u t x.1) _ s

theorem besideL1_releaseRegions (s : State) (t : Nat) (rs : List Region) : besideL1 (s.releaseRegions t rs) = besideL1 s :=
  foldl_frame besideL1 (fun (u : State) (x : Nat × Option L1Sector) => u.l1WriteBack t x.1)
    (fun u x => besideL1_l1WriteBack u t x.1) _ s

theorem sameMemory_trans {s u v : State} (first : SameMemory s u) (second : SameMemory u v) : SameMemory s v := by
  obtain ⟨bytes, tags, spad, spadTag⟩ := first
  obtain ⟨bytes', tags', spad', spadTag'⟩ := second
  exact ⟨fun a => (bytes' a).trans (bytes a), fun a => (tags' a).trans (tags a), fun i o => (spad' i o).trans (spad i o),
    fun i o => (spadTag' i o).trans (spadTag i o)⟩

/-- A tile changed beside its scratchpad leaves every byte and tag of memory. -/
theorem sameMemory_setTile (s : State) {t : Nat} {x : Tile} (spad : x.spad = (s.tile t).spad)
    (tags : x.spadTag = (s.tile t).spadTag) : SameMemory s (s.setTile t x) :=
  ⟨fun _ => rfl, fun _ => rfl, fun i o => setTile_reads (fun y => Sparse.get 0 y.spad o) s (by rw [spad]) i,
    fun i o => setTile_reads (fun y => Sparse.get false y.spadTag o) s (by rw [tags]) i⟩

theorem sameMemory_dropClean (s : State) (t : Nat) : SameMemory s (s.dropClean t) := sameMemory_setTile s rfl rfl

/-! ### Rising keys -/

section
variable {α : Type} {m : Sparse α} {lo : Nat}

theorem le_of_mem_risingFrom (rising : Sparse.risingFrom lo m = true) {p : Nat × α} (listed : p ∈ m) : lo ≤ p.1 := by
  induction m generalizing lo with
  | nil => cases listed
  | cons x rest ih =>
    obtain ⟨a, v⟩ := x
    simp only [Sparse.risingFrom, Bool.and_eq_true, decide_eq_true_eq] at rising
    rcases List.mem_cons.mp listed with rfl | later
    · exact rising.1
    · exact Nat.le_trans (Nat.le_succ_of_le rising.1) (ih rising.2 later)

/-- Under rising keys, what is listed at a key is what is read there. -/
theorem get_of_mem_risingFrom (rising : Sparse.risingFrom lo m = true) (d : α) {k : Nat} {v : α} (listed : (k, v) ∈ m) :
    Sparse.get d m k = v := by
  induction m generalizing lo with
  | nil => cases listed
  | cons x rest ih =>
    obtain ⟨a, w⟩ := x
    simp only [Sparse.risingFrom, Bool.and_eq_true, decide_eq_true_eq] at rising
    rcases List.mem_cons.mp listed with here | later
    · obtain ⟨rfl, rfl⟩ := Prod.mk.inj here
      exact if_pos rfl
    · rw [Sparse.get, if_neg (Nat.ne_of_lt (le_of_mem_risingFrom rising.2 later)), ih rising.2 later]

theorem risingFrom_set [DecidableEq α] (d : α) (k : Nat) (v : α) (rising : Sparse.risingFrom 0 m = true) :
    Sparse.risingFrom 0 (Sparse.set d m k v) = true := by
  unfold Sparse.set
  split
  · exact risingFrom_drop k rising
  · exact risingFrom_put v (Nat.zero_le k) (risingFrom_drop k rising) (not_mem_drop m k)

/-- What is read at a key is read there still, as a filter that keeps the keys makes it. -/
theorem get_filterMap_of_get {β : Type} {d v : α} {e w : β} {g : Nat × α → Option (Nat × β)}
    (keys : ∀ x y, g x = some y → y.1 = x.1) {k : Nat} (found : Sparse.get d m k = v) (listed : v ≠ d)
    (kept : g (k, v) = some (k, w)) : Sparse.get e (m.filterMap g) k = w := by
  induction m with
  | nil => exact absurd found.symm listed
  | cons x rest ih =>
    obtain ⟨a, z⟩ := x
    by_cases here : a = k
    · rw [Sparse.get, if_pos here] at found
      rw [here, found, List.filterMap_cons_some kept, Sparse.get, if_pos rfl]
    · rw [Sparse.get, if_neg here] at found
      cases hg : g (a, z) with
      | none => rw [List.filterMap_cons_none hg, ih found]
      | some y =>
        have other : y.1 ≠ k := fun e => here ((keys _ _ hg).symm.trans e)
        rw [List.filterMap_cons_some hg, Sparse.get, if_neg other, ih found]

end

/-! ### The sectors that stay -/

section
variable {s : State} {t sec : Nat}

theorem risingFrom_l1WriteBack (rising : Sparse.risingFrom 0 (s.tile t).l1 = true) :
    Sparse.risingFrom 0 ((s.l1WriteBack t sec).tile t).l1 = true := by
  unfold State.l1WriteBack
  split
  · split
    · exact rising
    · rw [setTile_tile]
      exact (risingFrom_set none sec (some _) rising :)
  · exact rising

theorem risingFrom_flushTile (rising : Sparse.risingFrom 0 (s.tile t).l1 = true) :
    Sparse.risingFrom 0 ((s.flushTile t).tile t).l1 = true :=
  foldl_keeps (P := fun u : State => Sparse.risingFrom 0 (u.tile t).l1 = true)
    (fun (u : State) (x : Nat × Option L1Sector) => u.l1WriteBack t x.1) (fun _ _ kept => risingFrom_l1WriteBack kept) _ rising

/-- A sector left after clean ones have been dropped was dirty, and still is. -/
theorem dirty_of_dropClean {x : L1Sector} (left : ((s.dropClean t).tile t).l1Get sec = some x) :
    x.dirty.isSome = true ∧ ∃ d, (sec, some d) ∈ (s.tile t).l1 ∧ d.dirty.isSome = true := by
  rw [State.dropClean, setTile_tile] at left
  obtain ⟨⟨k, o⟩, listed, kept⟩ := List.mem_filterMap.mp (mem_of_get_eq left (Option.some_ne_none x))
  cases o with
  | none => cases kept
  | some d =>
    dsimp only at kept
    split at kept
    next dirty =>
      cases kept
      exact ⟨dirty, d, listed, dirty⟩
    next => cases kept

theorem dropClean_of_dirty {d : L1Sector} (found : (s.tile t).l1Get sec = some d) (dirty : d.dirty.isSome = true) :
    ((s.dropClean t).tile t).l1Get sec = some (s.refreshed sec d) := by
  rw [State.dropClean, setTile_tile]
  refine get_filterMap_of_get (fun x y kept => ?keys) found (Option.some_ne_none d) (if_pos dirty)
  case keys =>
    split at kept
    · split at kept
      · cases kept; rfl
      · cases kept
    · cases kept

/-- A tile without a dirty sector drops them all. -/
theorem dropClean_of_clean (rising : Sparse.risingFrom 0 (s.tile t).l1 = true) (clean : ∀ i, Clean (s.tile t) i) :
    ((s.dropClean t).tile t).l1Get sec = none := by
  refine Option.eq_none_iff_forall_ne_some.mpr (fun x left => ?_)
  obtain ⟨-, d, listed, dirty⟩ := dirty_of_dropClean left
  have isClean := clean sec d (get_of_mem_risingFrom rising none listed)
  rw [Option.isNone_iff_eq_none.mp isClean] at dirty
  cases dirty

end

end Sys2Proof.Proofs
end

section
/-! SUPPORT. A strand that owes its request path nothing (12 R247, R251, R256): nothing holds back its fence, its store to the
scratchpad or its poll; and what the bytes of its scratchpad are after an addition there (10 R201). -/
namespace Sys2Proof.Proofs
open Sys2Proof Sys2Proof.Machine Sys2Proof.Laws

/-! ### Nothing is held back -/

theorem owesBefore_eq_false {c : Ctx} {n : Nat} : c.owesBefore n = false ↔
    ∀ p ∈ c.ports, ∀ e ∈ p.2, ∀ h, e.failed = none → e.held = some h → n ≤ h.num := by
  simp only [Ctx.owesBefore, List.any_eq_false, Bool.not_eq_true, Bool.and_eq_false_iff]
  refine forall₄_congr (fun p _ e _ => ⟨fun free h sound held => ?_, fun free => ?_⟩)
  · rw [sound, held] at free
    simpa using free
  · cases sound : e.failed with
    | some _ => exact .inl rfl
    | none =>
      cases held : e.held with
      | none => exact .inr rfl
      | some h => exact .inr (decide_eq_false (Nat.not_lt.mpr (free h sound held)))

theorem owesBefore_of_le {c : Ctx} {n m : Nat} (le : n ≤ m) (free : c.owesBefore m = false) : c.owesBefore n = false :=
  owesBefore_eq_false.mpr (fun p hp e he h sound held =>
    Nat.le_trans le (owesBefore_eq_false.mp free p hp e he h sound held))

theorem spadBad_of_sound {s : State} {t : Nat} (sound : (s.tile t).spadPoison = []) (o n : Nat) :
    s.spadBad t o n = false := by
  simp [State.spadBad, sound, Sparse.get]

section
variable {s : State} (quiet : Quiet s)
include quiet

theorem fences_of_quiet : s.ctx.fences = [] := by
  obtain ⟨fences, -⟩ := quiet
  exact fences

theorem owesRead_of_quiet : s.ctx.owesRead = false := by
  obtain ⟨-, reads, -⟩ := quiet
  exact reads

theorem storeQ_of_quiet : s.ctx.storeQ = [] := by
  obtain ⟨-, -, stores, -⟩ := quiet
  exact stores

theorem owesSummary_of_quiet : (s.tile s.cur).owesSummary s.curCtx s.ctx.num = false := by
  obtain ⟨-, -, -, -, summary, -⟩ := quiet
  exact summary

theorem owesBefore_of_quiet : s.ctx.owesBefore s.ctx.num = false :=
  owesBefore_of_le (Nat.le_succ _) (owesRead_of_quiet quiet)

/-- No read that the strand owes comes before its next access. -/
theorem num_le_of_quiet {p : Nat × List PortEntry} (hp : p ∈ s.ctx.ports) {e : PortEntry} (he : e ∈ p.2) {h : Held}
    (sound : e.failed = none) (held : e.held = some h) : ¬ h.num < s.ctx.num :=
  Nat.not_lt.mpr (owesBefore_eq_false.mp (owesBefore_of_quiet quiet) p hp e he h sound held)

theorem ctx_of_log_of_quiet {e : LogEntry} (he : e ∈ (s.tile s.cur).sideLog) : ¬ (e.ctx == s.curCtx) = true := by
  obtain ⟨-, -, -, logged, -, -⟩ := quiet
  exact List.any_eq_false.mp logged e he

theorem behindSummary_of_quiet (p : Place) (n : Nat) : s.behindSummary s.cur s.curCtx s.ctx.num p n = false := by
  refine List.any_eq_false.mpr (fun o ho behind => List.any_eq_false.mp (owesSummary_of_quiet quiet) o ho ?_)
  exact (Bool.and_eq_true_iff.mp behind).1

theorem behindRead_of_quiet (p : Place) (n : Nat) : s.behindRead s.cur s.curCtx s.ctx.num p n = false := by
  refine List.any_eq_false.mpr (fun q hq behind => ?_)
  obtain ⟨e, he, behind⟩ := List.any_eq_true.mp behind
  obtain ⟨sound, behind⟩ := Bool.and_eq_true_iff.mp behind
  cases held : e.held with
  | none => rw [held] at behind; cases behind
  | some h =>
    rw [held] at behind
    exact num_le_of_quiet quiet hq he (Option.isNone_iff_eq_none.mp sound) held
      (of_decide_eq_true (Bool.and_eq_true_iff.mp behind).1)

theorem owesAcquire_of_quiet (seq : Nat) : (s.tile s.cur).owesAcquire s.curCtx s.ctx.num seq = false := by
  refine Bool.or_eq_false_iff.mpr ⟨Bool.or_eq_false_iff.mpr ⟨?reads, ?stores⟩, ?log⟩
  case reads =>
    refine List.any_eq_false.mpr (fun q hq owed => ?_)
    obtain ⟨e, he, owed⟩ := List.any_eq_true.mp owed
    obtain ⟨sound, owed⟩ := Bool.and_eq_true_iff.mp owed
    cases held : e.held with
    | none => rw [held] at owed; cases owed
    | some h =>
      rw [held] at owed
      exact num_le_of_quiet quiet hq he (Option.isNone_iff_eq_none.mp sound) held
        (of_decide_eq_true (Bool.and_eq_true_iff.mp owed).2)
  case stores =>
    show s.ctx.storeQ.any _ = false
    rw [storeQ_of_quiet quiet]
    rfl
  case log =>
    refine List.any_eq_false.mpr (fun e he owed => ctx_of_log_of_quiet quiet he ?_)
    simp only [Bool.and_eq_true] at owed
    exact owed.1.1.1

theorem mayRead_of_quiet (place : Place) (n seq : Nat) (via : Via) : (s.tile s.cur).mayRead s.curCtx
    { place, kind := .load n false [] via false, seq, num := s.ctx.num } = true := by
  have fences : ((s.tile s.cur).ctx s.curCtx).fences = [] := fences_of_quiet quiet
  simp [Tile.mayRead, owesAcquire_of_quiet quiet seq, fences]

theorem readBlocked_spad_of_quiet (seq o n : Nat) :
    s.readBlocked s.cur s.curCtx s.ctx.num seq (.spad o) n = false := by
  have stores : (s.ctxAt s.cur s.curCtx).storeQ = [] := storeQ_of_quiet quiet
  simp [State.readBlocked, Ctx.storesTo, stores, behindSummary_of_quiet quiet, behindRead_of_quiet quiet]

/-- A strand that owes nothing reads the scratchpad at once. -/
theorem pollDword_spad_of_quiet (sound : (s.tile s.cur).spadPoison = []) (o n : Nat) :
    s.pollDword s.cur s.curCtx (.spad o) n = some (bytesNat (s.spadBytes s.cur o n), s) := by
  have goes : ¬ (!(s.tile s.cur).mayRead s.curCtx
        { place := .spad o, kind := .load n false [] .home false, seq := (s.tile s.cur).logSeq, num := s.ctx.num } ||
      s.readBlocked s.cur s.curCtx s.ctx.num (s.tile s.cur).logSeq (.spad o) n) = true := by
    rw [mayRead_of_quiet quiet, readBlocked_spad_of_quiet quiet]
    decide
  refine (if_neg goes).trans ?_
  rw [State.readPlace, spadBad_of_sound sound]
  rfl

/-- A store to the scratchpad that no release holds back is performed as it issues. -/
theorem aStore_spad_of_quiet {q : QueuedStore} {o : Nat} (spot : q.place = .spad o)
    (free : ∀ w, q.sync = some w → s.relWaits s.cur s.curCtx w.1 w.2 = false) :
    s.aStore q = .ok (s.spadStore s.cur s.curCtx o { q with num := s.ctx.num }) := by
  have summary := behindSummary_of_quiet quiet (.spad o) q.data.length
  have log : (s.tile s.cur).sideLog.any (fun e => e.ctx == s.curCtx && acquires e.order && e.aop.isSome) = false :=
    List.any_eq_false.mpr (fun e he held => ctx_of_log_of_quiet quiet he
      (Bool.and_eq_true_iff.mp (Bool.and_eq_true_iff.mp held).1).1)
  have goes : s.storeWaits s.cur s.curCtx { q with num := s.ctx.num } = false := by
    cases synced : q.sync with
    | none => simp [State.storeWaits, summary, owesSummary_of_quiet quiet, spot, log]
    | some w => simp [State.storeWaits, summary, owesSummary_of_quiet quiet, spot, log, free w synced]
  have clear : (s.ctxAt s.cur s.curCtx).heldBack = false := by
    show s.ctx.heldBack = false
    simp [Ctx.heldBack, fences_of_quiet quiet, owesRead_of_quiet quiet, storeQ_of_quiet quiet]
  have performed : s.doStore s.cur s.curCtx { q with num := s.ctx.num } =
      .ok (s.spadStore s.cur s.curCtx o { q with num := s.ctx.num }) := by
    rw [State.doStore, if_neg (ne_true_of_eq_false goes)]
    simp only [spot]
  rw [State.aStore, State.issueStore]
  simp only [clear, performed, Bool.false_eq_true, if_false]

end

/-! ### An addition in the scratchpad -/

/-- Bytes in a row, written to a tile's scratchpad, are read there, and every other byte as before. -/
theorem spadByte_spadWrite (s : State) (t o : Nat) (bs : List Byte) (i q : Nat) :
    (s.spadWrite t (cellsFrom o bs)).spadByte i q =
      if i = t ∧ o ≤ q ∧ q < o + bs.length then bs.getD (q - o) 0 else s.spadByte i q := by
  rcases eq_or_ne i t with rfl | other
  case inr => rw [if_neg (fun h => other h.1), State.spadWrite, State.spadByte, setTile_tile_other _ _ _ other, State.spadByte]
  rw [State.spadWrite, State.spadByte, setTile_tile]
  split
  next inside =>
    obtain ⟨-, low, high⟩ := inside
    obtain ⟨j, rfl⟩ := Nat.exists_eq_add_of_le low
    rw [Nat.add_sub_cancel_left]
    exact spadCells_cellsFrom_get _ o (by omega)
  next outside =>
    have untouched : q ∉ (cellsFrom o bs).map (fun c => c.1) := by
      intro listed
      obtain ⟨c, hc, rfl⟩ := List.mem_map.mp listed
      obtain ⟨⟨b, j⟩, hj, rfl⟩ := List.mem_map.mp hc
      obtain ⟨inside, -⟩ := List.getElem?_eq_some_iff.mp (List.mem_zipIdx_iff_getElem?.mp hj)
      exact outside ⟨rfl, Nat.le_add_right _ _, Nat.add_lt_add_left inside o⟩
    exact spadPut_updates.foldl_elsewhere (cellsFrom o bs) _ untouched

theorem getD_natBytes (n x : Nat) {i : Nat} (inside : i < n) :
    (natBytes n x).getD i 0 = BitVec.ofNat 8 (x / 2 ^ (8 * i)) := by
  induction n generalizing x i with
  | zero => exact absurd inside (Nat.not_lt_zero i)
  | succ n ih =>
    cases i with
    | zero => rw [Nat.mul_zero, Nat.pow_zero, Nat.div_one]; rfl
    | succ i =>
      rw [natBytes, List.getD_cons_succ, ih _ (Nat.lt_of_succ_lt_succ inside), Nat.div_div_eq_div_mul, Nat.mul_succ,
        Nat.pow_add, Nat.mul_comm 256]

/-- The bytes of a number are those of its residue. -/
theorem natBytes_mod (n x : Nat) : natBytes n (x % 2 ^ (8 * n)) = natBytes n x := by
  induction n generalizing x with
  | zero => rfl
  | succ n ih =>
    have split : 2 ^ (8 * (n + 1)) = 256 * 2 ^ (8 * n) := by rw [Nat.mul_succ, Nat.pow_add, Nat.mul_comm]
    have low : BitVec.ofNat 8 (x % (256 * 2 ^ (8 * n))) = BitVec.ofNat 8 x :=
      BitVec.eq_of_toNat_eq (Nat.mod_mul_right_mod x 256 _)
    rw [split, natBytes, natBytes, low, Nat.mod_mul_right_div_self, ih]

/-- A sum at a word of n bytes of the scratchpad: its bytes, and every other byte as before. -/
theorem spadByte_atomicSpad_add (s : State) (t o n k i q : Nat) (small : k < 2 ^ (8 * n)) :
    (s.atomicSpad t o n .add k).2.spadByte i q =
      if i = t ∧ o ≤ q ∧ q < o + n then BitVec.ofNat 8 ((bytesNat (s.spadBytes t o n) + k) / 2 ^ (8 * (q - o)))
      else s.spadByte i q := by
  have sum : (s.atomicSpad t o n .add k).2 = s.spadWrite t (cellsFrom o (natBytes n (bytesNat (s.spadBytes t o n) + k))) := by
    rw [← natBytes_mod, State.atomicSpad, Nat.mod_eq_of_lt small]
    rfl
  rw [sum, spadByte_spadWrite, length_natBytes]
  split
  next inside => exact getD_natBytes n _ (by omega)
  next => rfl

theorem ctx_spadWrite (s : State) (t : Nat) (cells : List (Nat × Byte)) : (s.spadWrite t cells).ctx = s.ctx := by
  have frame := spadCells_frame (s.tile t) cells
  exact ctx_of_tile rfl (setTile_reads Tile.running s (by rw [frame]) _) (setTile_reads Tile.ctxs s (by rw [frame]) _)

theorem ctx_atomicSpad (s : State) (t o n : Nat) (op : AtomOp) (k : Nat) : (s.atomicSpad t o n op k).2.ctx = s.ctx := by
  unfold State.atomicSpad
  dsimp only
  split
  · exact ctx_spadWrite s t _
  · rfl

end Sys2Proof.Proofs
end

section
/-! SUPPORT. Fences and entry consistency (12 R256 to R260): what a fence, BIND, BIND.u, REL and ACQ come to. -/
namespace Sys2Proof.Proofs
open Sys2Proof Sys2Proof.Machine Sys2Proof.Laws

/-! ### Fences (R256) -/

section
variable (s : State) (t : Nat) (f : Fence)

theorem fenceEffect_of_crew (crew : f.scope ≤ 1) : s.fenceEffect t f = s := if_pos crew

theorem fenceEffect_full (wide : ¬ f.scope ≤ 1) (kind : f.kind = 0) : s.fenceEffect t f = (s.flushTile t).dropClean t := by
  simp [State.fenceEffect, wide, kind]

theorem fenceEffect_loads (wide : ¬ f.scope ≤ 1) (kind : f.kind = 1) : s.fenceEffect t f = s.dropClean t := by
  simp [State.fenceEffect, wide, kind]

theorem fenceEffect_stores (wide : ¬ f.scope ≤ 1) (kind : f.kind = 2) : s.fenceEffect t f = s.flushTile t := by
  simp [State.fenceEffect, wide, kind]

/-- A fence changes nothing of a tile but its L1. -/
theorem besideL1_fenceEffect : besideL1 (s.fenceEffect t f) = besideL1 s := by
  have flushed (u : State) : besideL1 (if f.kind = 1 then u else u.flushTile t) = besideL1 u := by
    split
    · rfl
    · exact besideL1_flushTile u t
  unfold State.fenceEffect
  dsimp only
  split
  · rfl
  · split
    · exact flushed s
    · exact (besideL1_dropClean _ t).trans (flushed s)

end

/-- The fence that a slot enters as the strand's next access. -/
def fenceOf (s : State) (f : AFields) (kind : Nat) : Fence := { kind, scope := f.scope.toNat, num := s.ctx.num }

/-- A strand's request queue with one fence in it, and nothing else. -/
def withFence (s : State) (f : Fence) : State := s.setCtx { s.ctx with num := s.ctx.num + 1, fences := [f] }

theorem withFence_tile (s : State) (f : Fence) : (withFence s f).tile s.cur =
    (s.tile s.cur).setCtx s.curCtx { s.ctx with num := s.ctx.num + 1, fences := [f] } := setTile_tile s s.cur _

theorem withFence_ctxAt (s : State) (f : Fence) : (withFence s f).ctxAt s.cur s.curCtx =
    { s.ctx with num := s.ctx.num + 1, fences := [f] } := setCtxAt_ctxAt s s.cur s.curCtx _

theorem hostOwes_withFence (s : State) (f : Fence) : (withFence s f).hostOwes s.cur = s.hostOwes s.cur := by
  rw [State.hostOwes, withFence_tile]
  rfl

theorem sameMemory_numbered (s : State) : SameMemory s (numbered s) := sameMemory_setTile s rfl rfl

theorem runFences_withFence {s : State} {f : Fence} (empty : s.ctx.fences = [])
    (ready : ((withFence s f).tile s.cur).fenceReady s.curCtx f = true) (host : (withFence s f).hostReady s.cur f = true) :
    (withFence s f).runFences s.cur s.curCtx = (numbered s).fenceEffect s.cur f := by
  have out : (withFence s f).setCtxAt s.cur s.curCtx { s.ctx with num := s.ctx.num + 1, fences := [] } = numbered s := by
    rw [← empty]
    exact setCtxAt_setCtxAt s s.cur s.curCtx _ _
  rw [State.runFences, withFence_ctxAt, List.length_singleton, State.drainFences, withFence_ctxAt]
  dsimp only
  rw [ready, host, out]
  rfl

section
variable {s : State} (quiet : Quiet s) (f : AFields) (kind : Nat)
include quiet

theorem fenceReady_of_quiet :
    ((withFence s (fenceOf s f kind)).tile s.cur).fenceReady s.curCtx (fenceOf s f kind) = true := by
  have reads := owesBefore_of_quiet quiet
  have log : (s.tile s.cur).loggedBefore s.curCtx s.ctx.num = false :=
    List.any_eq_false.mpr (fun e he before => ctx_of_log_of_quiet quiet he (Bool.and_eq_true_iff.mp before).1)
  have stores : s.ctx.storeBefore s.ctx.num = false := by rw [Ctx.storeBefore, storeQ_of_quiet quiet]; rfl
  rw [withFence_tile, Tile.fenceReady, tile_setCtx_ctx]
  show ((kind == 2 || !s.ctx.owesBefore s.ctx.num) && (kind == 1 || (!(s.tile s.cur).loggedBefore s.curCtx s.ctx.num &&
    !(s.tile s.cur).owesSummary s.curCtx s.ctx.num && !s.ctx.storeBefore s.ctx.num))) = true
  simp [reads, log, stores, owesSummary_of_quiet quiet]

/-- A fence of a strand that owes nothing takes its effect as it issues, at system scope where no write waits for the host. -/
theorem fence_of_quiet (host : 5 ≤ f.scope.toNat → s.hostOwes s.cur = false) :
    s.fence f kind = (numbered s).fenceEffect s.cur (fenceOf s f kind) := by
  have entered : s.fence f kind = (withFence s (fenceOf s f kind)).runFences s.cur s.curCtx := by
    simp [State.fence, State.takeNum, withFence, fenceOf, fences_of_quiet quiet, aScope]
  have held : (withFence s (fenceOf s f kind)).hostReady s.cur (fenceOf s f kind) = true := by
    rw [State.hostReady, hostOwes_withFence, fenceOf]
    by_cases system : 5 ≤ f.scope.toNat
    · simp [host system]
    · simp [Nat.lt_of_not_le system]
  rw [entered, runFences_withFence (fences_of_quiet quiet) (fenceReady_of_quiet quiet f kind) held]

end

/-! ### Bound regions (R257, R258) -/

/-- An entry that binds a region to a word of a sync object. -/
def bindsWord (rg : TCap) (obj off : Nat) (x : Nat × Option Binding) : Bool :=
  match x.2 with
  | some b => b.same rg obj off
  | none => false

/-- The first of the eight entries that is free. -/
def freeEntry (m : Sparse (Option Binding)) : Option Nat := (List.range 8).find? (fun i => (Sparse.get none m i).isNone)

theorem freeEntry_of_full {m : Sparse (Option Binding)} (full : ∀ i < 8, Sparse.get none m i ≠ none) : freeEntry m = none :=
  List.find?_eq_none.mpr (fun i hi free => full i (List.mem_range.mp hi) (Option.isNone_iff_eq_none.mp free))

theorem freeEntry_of_first {m : Sparse (Option Binding)} {i : Nat} (small : i < 8) (free : Sparse.get none m i = none)
    (first : ∀ j < i, Sparse.get none m j ≠ none) : freeEntry m = some i :=
  List.find?_range_eq_some.mpr ⟨Option.isNone_iff_eq_none.mpr free, List.mem_range.mpr small, fun j hj => by
    rw [Option.isNone_eq_false_iff.mpr (Option.isSome_iff_ne_none.mpr (first j hj))]
    rfl⟩

/-- The entry that BIND makes. -/
def newBinding (cap rg : TCap) (off : Nat) : Binding :=
  { region := { rg with tag := false }, syncObj := capObj cap, syncGen := capGen cap, syncOff := off }

/-- The strand with other entries. -/
def rebound (s : State) (m : Sparse (Option Binding)) : State := s.setCtx { s.ctx with binds := m }

theorem binds_rebound (s : State) (m : Sparse (Option Binding)) : (rebound s m).ctx.binds = m := by
  rw [rebound, setCtx_ctx]

/-- Nothing else is changed. -/
theorem rebound_frame (s : State) (m : Sparse (Option Binding)) :
    rebound s m = s.setCtx { s.ctx with binds := (rebound s m).ctx.binds } := by
  rw [binds_rebound]
  rfl

section
variable {s : State} {f : AFields} {cap rg : TCap} (checked : s.bindCheck f = .ok (cap, rg))
include checked

theorem exec_bind_of_checked : exec (.bind f) s = settle s (
    if s.ctx.binds.any (bindsWord rg (capObj cap) (s.aOff f)) then .ok s
    else (freeEntry s.ctx.binds).elim (.trap .baddesc 8) (fun i =>
      .ok (rebound s (Sparse.set none s.ctx.binds i (some (newBinding cap rg (s.aOff f))))))) := by
  show settle s ((s.bindCheck f).bind _) = _
  rw [checked, bind_ok, freeEntry]
  dsimp only
  cases (List.range 8).find? (fun i => (Sparse.get none s.ctx.binds i).isNone) <;> rfl

/-- BIND.u leaves the entries that bind something else. -/
theorem exec_bindU_of_checked : exec (.bindU f) s =
    .next (rebound s (s.ctx.binds.filter (fun x => x.2.isSome && !bindsWord rg (capObj cap) (s.aOff f) x))) := by
  show settle s ((s.bindCheck f).bind _) = _
  rw [checked, bind_ok, settle_ok]
  refine congrArg (fun m => Host.Outcome.next (rebound s m)) (List.filter_congr (fun x _ => ?_))
  obtain ⟨i, _ | b⟩ := x
  · rfl
  · rfl

end

/-! ### Release and acquire (R258 to R260) -/

/-- The addition that REL makes to the word w of a sync object, at o in the scratchpad. -/
def releaseAdd (o scope : Nat) (w : Nat × Nat) (num : Nat) : QueuedStore :=
  { num, place := .spad o, data := natBytes 8 1, aop := some .add, order := 2, scope, sync := some w, rel := true }

theorem spadStore_releaseAdd {s : State} {t : Nat} (sound : (s.tile t).spadPoison = []) (c o scope num : Nat) (w : Nat × Nat) :
    s.spadStore t c o (releaseAdd o scope w num) =
      ((s.releaseRegions t (s.regionsOf t c w.1 w.2)).atomicSpad t o 8 .add 1).2 := by
  show (if s.spadBad t o 8 then _ else _) = _
  rw [spadBad_of_sound sound, if_neg Bool.false_ne_true]
  simp [releaseAdd, State.syncBefore, State.syncAfter, releases, acquires, bytesNat_natBytes]

section
variable {s : State} {f : AFields} {cap : TCap} {o : Nat} (quiet : Quiet s) (named : readCapReg s.ctx f.k.toNat = .ok cap)
  (sound : (s.tile s.cur).spadPoison = [])
include quiet named sound

/-- REL of a dword of the scratchpad releases its regions and adds 1. -/
theorem exec_rel_of_spad (checked : s.check cap (s.aOff f) 8 rB 8 .sync = .ok (.spad o))
    (free : s.relWaits s.cur s.curCtx (capObj cap) (s.aOff f) = false) : exec (.rel f) s =
      .next ((s.releaseRegions s.cur (s.regionsOf s.cur s.curCtx (capObj cap) (s.aOff f))).atomicSpad s.cur o 8 .add 1).2 := by
  have run : exec (.rel f) s = settle s (
      if s.relWaits s.cur s.curCtx (capObj cap) (s.aOff f) then .block (.rel (capObj cap) (s.aOff f))
      else s.aStore (releaseAdd o (aScope f) (capObj cap, s.aOff f) 0)) := by
    show settle s ((readCapReg s.ctx f.k.toNat).bind _) = _
    rw [named, bind_ok]
    show settle s ((s.check cap (s.aOff f) 8 rB 8 .sync).bind _) = _
    rw [checked]
    rfl
  have issued := aStore_spad_of_quiet quiet (q := releaseAdd o (aScope f) (capObj cap, s.aOff f) 0) rfl
    (fun w sync => by cases sync; exact free)
  rw [run, free, if_neg Bool.false_ne_true, issued, settle_ok]
  exact congrArg Host.Outcome.next (spadStore_releaseAdd sound _ _ _ _ _)

/-- ACQ of a dword of the scratchpad acquires its regions, or blocks while the dword is below what it waits for. -/
theorem exec_acq_of_spad (checked : s.check cap (s.aOff f) 8 (rB + rR) 8 .sync = .ok (.spad o)) : exec (.acq f) s = settle s (
    if bytesNat (s.spadBytes s.cur o 8) < (s.ctx.readS f.data.toNat).toNat then
      .block (.acq f.k.toNat (s.aOff f) (s.ctx.readS f.data.toNat))
    else .ok (s.acquireRegions s.cur (s.regionsOf s.cur s.curCtx (capObj cap) (s.aOff f)))) := by
  show settle s ((readCapReg s.ctx f.k.toNat).bind _) = _
  rw [named, bind_ok]
  show settle s ((s.check cap (s.aOff f) 8 (rB + rR) 8 .sync).bind _) = _
  rw [checked, bind_ok]
  show settle s ((s.poll (.spad o) 8 _).bind _) = _
  unfold State.poll
  rw [pollDword_spad_of_quiet quiet sound]
  rfl

end

/-! ### The statement -/

/-- Settles O23: a fence by what it leaves in the tile's L1, BIND and BIND.u by the entries that they leave, and REL and ACQ by
the dword of the sync object. -/
theorem fencesAndEntryConsistency : Obligations.FencesAndEntryConsistency := by
  unfold Obligations.FencesAndEntryConsistency
  refine ⟨fun s f quiet rising host => ?fences, fun s f cap rg checked => ?bindings, fun s f cap o => ?words⟩
  case fences =>
    intro dirty clean ends
    have fenced (i : Instr) (kind : Nat) (run : exec i s = settle s (.ok (s.fence f kind))) (P : State → Prop)
        (wide : ¬ f.scope.toNat ≤ 1 → P ((numbered s).fenceEffect s.cur (fenceOf s f kind))) : ends i P := by
      have beside := besideL1_fenceEffect (numbered s) s.cur (fenceOf s f kind)
      refine ⟨_, by rw [run, settle_ok, fence_of_quiet quiet f kind host], ?_, fun x q => ?_,
        fun crew => fenceEffect_of_crew _ _ _ crew, fun scope => wide (Nat.not_le.mpr scope)⟩
      · rw [ctx_of_besideL1 beside, numbered, setCtx_ctx]
      · rw [spadByte_of_besideL1 beside, numbered, setCtx_spadByte]
    have l1 : ((numbered s).tile s.cur).l1 = (s.tile s.cur).l1 := setTile_reads Tile.l1 s (by rfl) s.cur
    refine ⟨fenced (.fence f) 0 rfl _ (fun wide => ?full), fenced (.fenceLd f) 1 rfl _ (fun wide => ?loads),
      fenced (.fenceSt f) 2 rfl _ (fun wide => ?stores)⟩
    case full =>
      intro sec
      rw [fenceEffect_full _ _ _ wide rfl]
      exact dropClean_of_clean (risingFrom_flushTile (l1 ▸ rising)) (clean_flushTile _ _)
    case loads =>
      rw [fenceEffect_loads _ _ _ wide rfl]
      refine ⟨fun sec left => ?_, fun sec held => ?_, ?_⟩
      · obtain ⟨x, found, isClean⟩ := left
        obtain ⟨isDirty, -⟩ := dirty_of_dropClean found
        rw [isClean] at isDirty
        cases isDirty
      · obtain ⟨x, found, isDirty⟩ := held
        exact ⟨_, dropClean_of_dirty (by rw [Tile.l1Get, l1]; exact found) isDirty, isDirty⟩
      · exact sameMemory_trans (sameMemory_numbered s) (sameMemory_dropClean _ _)
    case stores =>
      rintro sec ⟨x, found, isDirty⟩
      rw [fenceEffect_stores _ _ _ wide rfl] at found
      have isClean := clean_flushTile (numbered s) s.cur sec x found
      rw [Option.isNone_iff_eq_none.mp isClean] at isDirty
      cases isDirty
  case bindings =>
    intro off entry bound
    refine ⟨fun isBound => ?_, fun unbound full => ?_, fun i unbound small free first => ?_, ?_⟩
    · rw [exec_bind_of_checked checked]
      exact congrArg (settle s) (if_pos isBound)
    · rw [exec_bind_of_checked checked, freeEntry_of_full full]
      exact congrArg (settle s) (if_neg (ne_true_of_eq_false unbound))
    · rw [Completes, exec_bind_of_checked checked, freeEntry_of_first small free first]
      refine ⟨_, congrArg (settle s) (if_neg (ne_true_of_eq_false unbound)), rebound_frame _ _, ?_⟩
      rw [binds_rebound]
      exact ⟨⟨_, get_set_same _ _ _ _, rfl, rfl, rfl⟩, fun j other => get_set_other _ _ _ other⟩
    · refine ⟨_, exec_bindU_of_checked checked, rebound_frame _ _, fun x => ?_⟩
      rw [binds_rebound, List.mem_filter]
      refine and_congr_right (fun _ => ?_)
      obtain ⟨i, _ | b⟩ := x
      · simp
      · simp [bindsWord, off, State.aOff, offset48]
  case words =>
    intro off count quiet named sound
    refine ⟨fun checked free => ?release, fun checked => ?acquire⟩
    case release =>
      have beside := besideL1_releaseRegions s s.cur (s.regionsOf s.cur s.curCtx (capObj cap) (s.aOff f))
      refine ⟨_, exec_rel_of_spad quiet named sound checked free, (ctx_atomicSpad ..).trans (ctx_of_besideL1 beside),
        fun x q => ?_⟩
      rw [spadByte_atomicSpad_add _ _ _ _ _ _ _ (Nat.one_lt_two_pow (by decide)), spadBytes_of_besideL1 beside,
        spadByte_of_besideL1 beside]
    case acquire =>
      have run := exec_acq_of_spad quiet named sound checked
      refine ⟨fun reached => ?_, fun below => ?_⟩
      · rw [if_neg (Nat.not_lt.mpr reached), settle_ok] at run
        refine ⟨_, run, ctx_of_besideL1 (besideL1_setTile s s.cur _), sameMemory_setTile s rfl rfl, ?_⟩
        rw [State.acquireRegions, setTile_tile]
      · rw [run, if_pos below]
        rfl

end Sys2Proof.Proofs
end

section
/-! SUPPORT. The ports of the Dravy Link (13 R297 to R300): what sending, acks, naks, replays and the loss of a port leave of a
port, and the bytes of a flit. -/
namespace Sys2Proof.Proofs
open Sys2Proof Sys2Proof.Machine Sys2Proof.Laws

/-! ### A port after a write of one -/

@[simp] theorem setLink_link (s : State) (p : Nat) (x : LinkPort) : (s.setLink p x).link p = x := get_set_same ..

theorem setLink_link_other (s : State) {p q : Nat} (x : LinkPort) (other : q ≠ p) : (s.setLink p x).link q = s.link q :=
  get_set_other _ _ _ other

theorem link_of_links {s u : State} (same : u.links = s.links) (p : Nat) : u.link p = s.link p := by
  rw [State.link, same, State.link]

theorem credit_setCredit_same (x : LinkPort) (vc n : Nat) : (x.setCredit vc n).credit vc = n := by
  rw [LinkPort.credit, LinkPort.setCredit]
  exact congrArg (fun o : Option Nat => o.getD (vcDefault vc)) (get_set_same none x.credits vc (some n))

theorem credit_setCredit_other (x : LinkPort) {vc q : Nat} (n : Nat) (other : q ≠ vc) :
    (x.setCredit vc n).credit q = x.credit q :=
  congrArg (fun o : Option Nat => o.getD (vcDefault q)) (get_set_other none x.credits (some n) other)

/-! ### Sending (R298, R299) -/

/-- What a port receives by: the number that it expects, whether it is down, and the clk since which it retrains. -/
def receiving (x : LinkPort) : Nat × Bool × Option Nat := (x.rxSeq, x.down, x.retrain)

section
variable {x y : LinkPort} (same : receiving x = receiving y)
include same

theorem rxSeq_of_receiving : x.rxSeq = y.rxSeq := congrArg Prod.fst same

theorem up_of_receiving : x.up = y.up := by
  rw [LinkPort.up, LinkPort.up, show x.down = y.down from congrArg (fun z => z.2.1) same,
    show x.retrain = y.retrain from congrArg (fun z => z.2.2) same]

end

/-- Whatever holds while one flit after another leaves a port, each changing its registers for sending alone. -/
theorem pump_keeps {P : State → Prop} {p : Nat}
    (leaves : ∀ (u : State) (x : LinkPort) (g : Flit), receiving x = receiving (u.link p) → P u →
      P { u.setLink p x with sent := u.sent ++ [(p, g)] }) (n : Nat) {s : State} (start : P s) : P (s.pump p n) := by
  induction n generalizing s with
  | zero => exact start
  | succ n ih =>
    unfold State.pump
    dsimp only
    split
    · exact start
    · split
      · exact start
      · split
        · exact start
        · exact ih (leaves s _ _ rfl start)

theorem receiving_pump (s : State) (p n : Nat) : receiving ((s.pump p n).link p) = receiving (s.link p) :=
  pump_keeps (P := fun u => receiving (u.link p) = receiving (s.link p))
    (fun u x _ same kept => ((congrArg receiving (setLink_link u p x)).trans same).trans kept) n rfl

theorem link_pump_other (s : State) {p q : Nat} (n : Nat) (other : q ≠ p) : (s.pump p n).link q = s.link q :=
  pump_keeps (P := fun u => u.link q = s.link q) (fun u x _ _ kept => (setLink_link_other u x other).trans kept) n rfl

theorem pumpAll_of_idle {s : State} {p : Nat} (idle : (s.link p).waiting = []) : s.pumpAll p = s := by
  rw [State.pumpAll, idle]
  rfl

/-- A flit that is sent goes to a port that is not down. -/
theorem link_sendFlit_of_down (s : State) (f : Flit) {p : Nat} (down : (s.link p).down = true) :
    (s.sendFlit f).link p = s.link p := by
  unfold State.sendFlit
  split
  next => rfl
  next q found =>
    have alive := List.find?_some found
    have other : p ≠ q := fun e => by simp [← e, down] at alive
    rw [State.pumpAll, link_pump_other _ _ other, setLink_link_other _ _ other]

/-- What a port tells its peer beside the numbered flits. -/
def controlFlit (x : LinkPort) (vc : Nat) (pay : FlitPay) : Flit :=
  { dest := 0, seq := x.txSeq, ackseq := (x.rxSeq + 4095) % 4096, vc, lane := 0, pay }

theorem sendControl_of_up {s : State} {p : Nat} (up : (s.link p).up = true) (vc : Nat) (pay : FlitPay) :
    s.sendControl p vc pay = { s with sent := s.sent ++ [(p, controlFlit (s.link p) vc pay)] } :=
  if_neg (by simp [up])

/-- The peer of a port has been told the last number received in order. -/
def Acked (u : State) (p : Nat) : Prop :=
  ∃ g, (p, g) ∈ u.sent ∧ g.pay = .ack ∧ g.ackseq = ((u.link p).rxSeq + 4095) % 4096

/-! ### Naks and replays (R298) -/

/-- A nak changes nothing but what the port has asked for, and names the last number received in order. -/
theorem nakPort_leaves {s : State} {p : Nat} (up : (s.link p).up = true) (d : Nat) :
    (s.nakPort p d).comms = s.comms ∧ ((s.nakPort p d).link p).rxSeq = (s.link p).rxSeq ∧
      ∃ g, (s.nakPort p d).sent = s.sent ++ [(p, g)] ∧ g.pay = .nak ∧ g.ackseq = ((s.link p).rxSeq + 4095) % 4096 := by
  have link : (s.setLink p { s.link p with nakked := some d }).link p = { s.link p with nakked := some d } := setLink_link ..
  rw [State.nakPort, sendControl_of_up (by rw [link]; exact up), link]
  exact ⟨rfl, (congrArg LinkPort.rxSeq link :), _, rfl, rfl, rfl⟩

/-- The module without what counts its errors and events. -/
def sansCounts (s : State) : State := { s with secnt := [], monitors := [] }

theorem sansCounts_monitor (s : State) (unit source vf k : Nat) : sansCounts (s.monitor unit source vf k) = sansCounts s := by
  refine foldl_frame sansCounts _ (fun u n => ?_) _ s
  dsimp only
  split
  · rfl
  · rfl

/-- A replay sends the unacknowledged flits again, and is counted. -/
theorem sansCounts_replayPort (s : State) (p : Nat) : sansCounts (s.replayPort p) =
    sansCounts { s with sent := s.sent ++ (s.link p).replay.map (fun f => (p, f)) } :=
  foldl_frame sansCounts _ (fun u _ => (foldl_frame sansCounts _ (fun v d => sansCounts_monitor v d (monReplays p) 16 1)
    (List.range 4) (u.softError (linkUnit p) 12)).trans rfl) (s.link p).replay _

@[simp] theorem link_replayPort (s : State) (p q : Nat) : (s.replayPort p).link q = s.link q :=
  link_of_links (congrArg State.links (sansCounts_replayPort s p) :) q

@[simp] theorem sent_replayPort (s : State) (p : Nat) :
    (s.replayPort p).sent = s.sent ++ (s.link p).replay.map (fun f => (p, f)) :=
  (congrArg State.sent (sansCounts_replayPort s p) :)

/-! ### Acks (R298) -/

@[simp] theorem receiving_acked (x : LinkPort) (seq : Nat) : receiving (x.acked seq) = receiving x := by
  unfold LinkPort.acked
  split <;> rfl

theorem acked_of_unknown {x : LinkPort} {n : Nat} (unknown : ∀ g ∈ x.replay, g.seq ≠ n) : x.acked n = x :=
  if_neg (by simpa using unknown)

/-- Of the flits kept for replay, an ack drops those up to its number. -/
theorem acked_of_split {x : LinkPort} {a b : List Flit} {f : Flit} (split : x.replay = a ++ f :: b)
    (fresh : ∀ g ∈ a, g.seq ≠ f.seq) : x.acked f.seq = { x with replay := b, fails := 0 } := by
  have found : x.replay.any (fun g => g.seq == f.seq) = true := by simp [split]
  have before : a.dropWhile (fun g => g.seq != f.seq) = [] := by simpa using fresh
  rw [LinkPort.acked, if_pos found, split, List.dropWhile_append, before]
  simp

/-! ### Behind a gap, loss (R298, R300) -/

section
variable {s : State} {p seq : Nat}

theorem gapAt_of_first (first : (s.link p).nakked = none) :
    s.gapAt p seq = s.nakPort p ((seq % 4096 + 4096 - (s.link p).rxSeq) % 4096) := by
  simp only [State.gapAt, first]

variable {r : Nat} (asked : (s.link p).nakked = some r)
include asked

theorem gapAt_of_later (later : r < (seq % 4096 + 4096 - (s.link p).rxSeq) % 4096) :
    s.gapAt p seq = s.setLink p { s.link p with nakked := some ((seq % 4096 + 4096 - (s.link p).rxSeq) % 4096) } := by
  simp only [State.gapAt, asked, later, if_true]

theorem gapAt_of_replayed (replayed : (seq % 4096 + 4096 - (s.link p).rxSeq) % 4096 ≤ r) :
    s.gapAt p seq = s.nakPort p ((seq % 4096 + 4096 - (s.link p).rxSeq) % 4096) := by
  simp only [State.gapAt, asked, Nat.not_lt.mpr replayed, if_false]

end

/-- Flits that are sent leave a port alone that is down. -/
theorem link_sendFlits_of_down (fs : List Flit) {s : State} {p : Nat} (down : (s.link p).down = true) :
    (fs.foldl State.sendFlit s).link p = s.link p :=
  foldl_keeps (P := fun u : State => u.link p = s.link p) State.sendFlit
    (fun u f kept => (link_sendFlit_of_down u f (kept ▸ down)).trans kept) fs rfl

/-! ### The bytes of a flit (R297) -/

theorem flitType_le (pay : FlitPay) : flitType pay ≤ 5 := by
  unfold flitType
  split <;> decide

section
variable (f : Flit)

theorem flitHeader_lt : flitHeader f < 2 ^ 38 := by
  have type := flitType_le f.pay
  unfold flitHeader
  omega

theorem length_flitBody : (flitBody f).length = 252 := by simp [flitBody]

theorem imgNat_flitImage_header : imgNat (flitImage f) 0 8 = flitHeader f := by
  have header : (flitImage f).take 8 = natBytes 8 (flitHeader f) := by
    rw [flitImage, flitBody, List.append_assoc, List.append_assoc]
    exact List.take_left' (length_natBytes 8 _)
  rw [imgNat, List.drop_zero, header, bytesNat_natBytes]
  exact Nat.mod_eq_of_lt ((flitHeader_lt f).trans (by decide))

theorem imgNat_flitImage_type : imgNat (flitImage f) 0 1 = flitType f.pay := by
  have type := flitType_le f.pay
  rw [imgNat_one]
  show (flitHeader f) % 256 = _
  unfold flitHeader
  omega

theorem imgNat_flitImage_reserved : imgNat (flitImage f) 248 4 = 0 := by
  have before : (natBytes 8 (flitHeader f) ++ (List.range 240).map (Config.payload f.src f.dest f.num)).length = 248 := by simp
  rw [imgNat, flitImage, flitBody, List.append_assoc, List.drop_left' before, List.take_left' (length_natBytes 4 0)]
  rfl

theorem crcGood_flitImage : crcGood (flitImage f) = true := by
  rw [crcGood, imgNat, flitImage, List.drop_left' (length_flitBody f), List.take_left' (length_flitBody f),
    List.take_of_length_le (Nat.le_of_eq (length_natBytes 4 _)), bytesNat_natBytes,
    show (crc32 (flitBody f)).toNat % 256 ^ 4 = _ from Nat.mod_eq_of_lt (crc32 (flitBody f)).isLt, beq_self_eq_true]

/-- What R297 has the first eight bytes of a flit say, and its reserved bytes and its CRC. -/
theorem flitImage_fields {f : Flit} (vc : f.vc < 8) (lane : f.lane < 8) (seq : f.seq < 4096) (ackseq : f.ackseq < 4096) :
    let b := flitImage f
    b.length = 256 ∧ imgNat b 0 1 = flitType f.pay ∧ imgNat b 0 8 / 2 ^ 8 % 8 = f.vc ∧ imgNat b 0 8 / 2 ^ 11 % 8 = f.lane ∧
      imgNat b 0 8 / 2 ^ 14 % 2 ^ 12 = f.seq ∧ imgNat b 0 8 / 2 ^ 26 % 2 ^ 12 = f.ackseq ∧ imgNat b 0 8 / 2 ^ 38 = 0 ∧
      imgNat b 248 4 = 0 ∧ crcGood b = true := by
  have type := flitType_le f.pay
  refine ⟨by simp [flitImage, length_flitBody], imgNat_flitImage_type f, ?_, ?_, ?_, ?_, ?_, imgNat_flitImage_reserved f,
    crcGood_flitImage f⟩ <;> rw [imgNat_flitImage_header, flitHeader] <;> omega

end

end Sys2Proof.Proofs
end

section
/-! SUPPORT. Flits that arrive (13 R297 to R300, 12 R270): what a flit comes to that is the next of its line, and the statement
about the links. -/
namespace Sys2Proof.Proofs
open Sys2Proof Sys2Proof.Machine Sys2Proof.Laws

/-! ### A flit in order (R298, R299, 12 R270) -/

/-- The port has taken a flit from the line: it expects the next, and what the flit acknowledges goes. -/
def flitCounted (s : State) (p : Nat) (f : Flit) : State :=
  let x := s.link p
  (s.setLink p { x.setGrant f.vc (x.grant f.vc - 1) with rxSeq := (x.rxSeq + 1) % 4096, nakked := none }).ackPort p f.ackseq

/-- The credit of a flit goes back, or is held. -/
def creditReturned (s : State) (p : Nat) (f : Flit) : State :=
  match (if f.vc = 2 then s.holdCredit p f.pay else none) with
  | some s' => s'
  | none => s.grantTo p f.vc

theorem ackPort_changes (s : State) (p seq : Nat) : ∃ l o, s.ackPort p seq = { s with links := l, sent := o } :=
  pump_changes (s.setLink p _) p _

theorem flitCounted_keeps (s : State) (p : Nat) (f : Flit) : (flitCounted s p f).comms = s.comms ∧
    (flitCounted s p f).nodeId = s.nodeId ∧ (flitCounted s p f).linkSeen = s.linkSeen := by
  obtain ⟨l, o, changes⟩ := ackPort_changes (s.setLink p { (s.link p).setGrant f.vc ((s.link p).grant f.vc - 1) with
    rxSeq := ((s.link p).rxSeq + 1) % 4096, nakked := none }) p f.ackseq
  rw [flitCounted, changes]
  exact ⟨rfl, rfl, rfl⟩

theorem receiving_flitCounted (s : State) (p : Nat) (f : Flit) :
    receiving ((flitCounted s p f).link p) = (((s.link p).rxSeq + 1) % 4096, (s.link p).down, (s.link p).retrain) := by
  rw [flitCounted, State.ackPort, State.pumpAll, receiving_pump, setLink_link, receiving_acked, setLink_link]
  rfl

theorem grantTo_changes (s : State) (p vc : Nat) : ∃ l o, s.grantTo p vc = { s with links := l, sent := s.sent ++ o } ∧
    ((s.grantTo p vc).link p).rxSeq = (s.link p).rxSeq := by
  have granted : ∀ n o, (({ s.setLink p ((s.link p).setGrant vc n) with sent := o } : State).link p).rxSeq =
      (s.link p).rxSeq := fun n _ => (congrArg LinkPort.rxSeq (setLink_link s p ((s.link p).setGrant vc n)) :)
  unfold State.grantTo State.sendControl
  dsimp only
  split
  · exact ⟨s.links, [], by rw [List.append_nil], rfl⟩
  · split
    · exact ⟨_, [], by rw [List.append_nil]; rfl, granted _ s.sent⟩
    · exact ⟨_, _, rfl, granted _ _⟩

theorem holdCredit_changes {s u : State} {p : Nat} {pay : FlitPay} (held : s.holdCredit p pay = some u) :
    ∃ b, u = { s with broadcasts := b } := by
  unfold State.holdCredit at held
  split at held
  · cases held
  · split at held
    · exact ⟨_, (Option.some.inj held).symm⟩
    · cases held

/-- A credit that goes back, or is held, takes nothing back. -/
theorem creditReturned_leaves {s : State} {p : Nat} (f : Flit) (acked : Acked s p) :
    (creditReturned s p f).comms = s.comms ∧ (creditReturned s p f).linkSeen = s.linkSeen ∧
      ((creditReturned s p f).link p).rxSeq = (s.link p).rxSeq ∧ Acked (creditReturned s p f) p := by
  obtain ⟨g, told, ack, last⟩ := acked
  have held {u : State} (held : s.holdCredit p f.pay = some u) :
      u.comms = s.comms ∧ u.linkSeen = s.linkSeen ∧ (u.link p).rxSeq = (s.link p).rxSeq ∧ Acked u p := by
    obtain ⟨b, rfl⟩ := holdCredit_changes held
    exact ⟨rfl, rfl, rfl, g, told, ack, last⟩
  have grants : (s.grantTo p f.vc).comms = s.comms ∧ (s.grantTo p f.vc).linkSeen = s.linkSeen ∧
      ((s.grantTo p f.vc).link p).rxSeq = (s.link p).rxSeq ∧ Acked (s.grantTo p f.vc) p := by
    obtain ⟨l, o, grants, seq⟩ := grantTo_changes s p f.vc
    refine ⟨by rw [grants], by rw [grants], seq, g, ?_, ack, by rw [seq]; exact last⟩
    rw [grants]
    exact List.mem_append_left o told
  unfold creditReturned
  split
  next u some =>
    split at some
    · exact held some
    · cases some
  next => exact grants

section
variable {s : State} {p : Nat} {f : Flit} (up : (s.link p).up = true)
include up

theorem acked_sendControl : Acked (s.sendControl p 0 .ack) p := by
  rw [sendControl_of_up up]
  exact ⟨controlFlit (s.link p) 0 .ack, by simp, rfl, rfl⟩

theorem receive_inOrder (next : (s.link p).arrival f.seq = .inOrder) :
    s.receive p f = creditReturned (((flitCounted s p f).deliverFlit f).sendControl p 0 .ack) p f := by
  unfold State.receive
  simp only [up, next, Bool.not_true, Bool.false_eq_true, if_false]
  rfl

theorem receive_duplicate (again : (s.link p).arrival f.seq = .duplicate) :
    s.receive p f = { s with sent := s.sent ++ [(p, controlFlit (s.link p) 0 .ack)] } := by
  simp only [State.receive, up, again, Bool.not_true, Bool.false_eq_true, if_false]
  exact sendControl_of_up up 0 .ack

theorem receive_gap (behind : (s.link p).arrival f.seq = .gap) : s.receive p f = s.gapAt p f.seq := by
  simp only [State.receive, up, behind, Bool.not_true, Bool.false_eq_true, if_false]

/-- A flit in order is acknowledged, and what it brings stands, where it leaves the ports alone. -/
theorem receive_takes (next : (s.link p).arrival f.seq = .inOrder)
    (brings : ((flitCounted s p f).deliverFlit f).links = (flitCounted s p f).links) :
    (s.receive p f).comms = ((flitCounted s p f).deliverFlit f).comms ∧
      (s.receive p f).linkSeen = ((flitCounted s p f).deliverFlit f).linkSeen ∧
      ((s.receive p f).link p).rxSeq = ((s.link p).rxSeq + 1) % 4096 ∧ Acked (s.receive p f) p := by
  have same : receiving (((flitCounted s p f).deliverFlit f).link p) =
      receiving { s.link p with rxSeq := ((s.link p).rxSeq + 1) % 4096 } :=
    (congrArg receiving (link_of_links brings p)).trans (receiving_flitCounted s p f)
  have alive := (up_of_receiving same).trans up
  obtain ⟨comms, seen, seq, acked⟩ := creditReturned_leaves f (acked_sendControl alive)
  rw [receive_inOrder up next]
  rw [sendControl_of_up alive] at comms seen seq acked ⊢
  exact ⟨comms, seen, seq.trans (rxSeq_of_receiving same), acked⟩

end

/-! ### What a flit brings (12 R270) -/

/-- What has been taken is not taken again. -/
theorem has_take (x : Seen) (n : Nat) : (x.take n).has n = true := by
  by_cases low : n < (x.take n).low
  · simp [Seen.has, low]
  · have listed : n ∈ (x.take n).more := List.mem_filter.mpr ⟨List.mem_cons_self, decide_eq_true (Nat.not_lt.mp low)⟩
    simp [Seen.has, listed]

/-- The state in which a message has been taken. -/
def noted (s : State) (f : Flit) : State :=
  { s with linkSeen := Sparse.set {} s.linkSeen f.src ((Sparse.get {} s.linkSeen f.src).take f.num) }

theorem taken_noted (s : State) (f : Flit) : (noted s f).taken f = true := by
  rw [State.taken, noted, get_set_same]
  exact has_take _ f.num

section
variable {s : State} {f : Flit} (here : f.dest = s.nodeId.toNat)
include here

theorem deliverFlit_of_new (new : s.taken f = false) : s.deliverFlit f = (noted s f).takePay f.pay := by
  rw [State.deliverFlit, if_neg (not_not_intro here), if_neg (by simp [new]), noted]

theorem deliverFlit_of_taken (taken : s.taken f = true) : s.deliverFlit f = s := by
  rw [State.deliverFlit, if_neg (not_not_intro here), if_pos taken]

end

@[simp] theorem setComm_comm (s : State) (k : Nat) (x : Comm) : (s.setComm k x).comm k = some x :=
  get_set_same none s.comms k (some x)

theorem comm_of_comms {s u : State} (same : u.comms = s.comms) (k : Nat) : u.comm k = s.comm k := by
  rw [State.comm, same, State.comm]

theorem taken_of_linkSeen {s u : State} (same : u.linkSeen = s.linkSeen) (f : Flit) : u.taken f = s.taken f := by
  rw [State.taken, same, State.taken]

theorem noted_comm (s : State) (f : Flit) (k : Nat) : (noted s f).comm k = s.comm k := rfl

theorem noted_setComm (s : State) (f : Flit) (k : Nat) (y : Comm) : ((noted s f).setComm k y).links = s.links ∧
    ((noted s f).setComm k y).taken f = true ∧ ((noted s f).setComm k y).comm k = some y :=
  ⟨rfl, taken_noted s f, setComm_comm _ k y⟩

theorem takePay_piece {s : State} {k : Nat} {y : Comm} (known : s.comm k = some y) (n r q off : Nat) (bs : List Byte) :
    s.takePay (.piece k n r q off bs) = s.setComm k (y.arrive n r q off bs).trim := by
  simp only [State.takePay, known]

theorem takePay_stop {s : State} {k : Nat} {y : Comm} (known : s.comm k = some y) (n : Nat) :
    s.takePay (.stop k n) = s.setComm k (y.stopAt n) := by
  simp only [State.takePay, State.stopChunk, known]

section
variable {s : State} {p : Nat} {f : Flit} (up : (s.link p).up = true) (next : (s.link p).arrival f.seq = .inOrder)
  (here : f.dest = s.nodeId.toNat)
include up next here

/-- A message that changes a communicator does so once its flit is the next of its line. -/
theorem receive_of_new (new : s.taken f = false) {k : Nat} {y : Comm}
    (brings : ∀ u : State, u.comm k = s.comm k → u.takePay f.pay = u.setComm k y) :
    (s.receive p f).taken f = true ∧ (s.receive p f).comm k = some y ∧
      ((s.receive p f).link p).rxSeq = ((s.link p).rxSeq + 1) % 4096 ∧ Acked (s.receive p f) p := by
  obtain ⟨comms, node, seen⟩ := flitCounted_keeps s p f
  have delivers : (flitCounted s p f).deliverFlit f = (noted (flitCounted s p f) f).setComm k y := by
    rw [deliverFlit_of_new (by rw [node]; exact here) ((taken_of_linkSeen seen f).trans new)]
    exact brings _ ((noted_comm _ f k).trans (comm_of_comms comms k))
  obtain ⟨links, taken, comm⟩ := noted_setComm (flitCounted s p f) f k y
  rw [← delivers] at links taken comm
  obtain ⟨comms, seen, seq, acked⟩ := receive_takes up next links
  exact ⟨(taken_of_linkSeen seen f).trans taken, (comm_of_comms comms k).trans comm, seq, acked⟩

theorem receive_of_taken (taken : s.taken f = true) : (s.receive p f).comms = s.comms ∧ Acked (s.receive p f) p := by
  obtain ⟨comms, node, seen⟩ := flitCounted_keeps s p f
  have nothing : (flitCounted s p f).deliverFlit f = flitCounted s p f :=
    deliverFlit_of_taken (by rw [node]; exact here) ((taken_of_linkSeen seen f).trans taken)
  obtain ⟨same, _, _, acked⟩ := receive_takes up next (by rw [nothing])
  rw [nothing, comms] at same
  exact ⟨same, acked⟩

end

/-! ### The statement -/

section
variable {s : State} {p : Nat} (up : (s.link p).up = true)
include up

theorem exec_ackFlit (seq : Nat) : exec (.ackFlit p seq) s = .next (s.ackPort p seq) := congrArg Host.Outcome.next (if_pos up)

theorem exec_creditFlit (vc n : Nat) : exec (.creditFlit p vc n) s =
    .next ((s.setLink p ((s.link p).setCredit vc ((s.link p).credit vc + n))).pumpAll p) :=
  congrArg Host.Outcome.next (if_pos up)

theorem exec_nakFlit (n : Nat) : exec (.nakFlit p n) s =
    .next (let x := (s.link p).acked n
      let u := s.setLink p { x with fails := x.fails + 1 }
      if x.fails < 16 then u.replayPort p else u) :=
  congrArg Host.Outcome.next (if_neg (by simp [up]))

theorem exec_badCrcFlit : exec (.badCrcFlit p) s = .next (s.nakPort p (((s.link p).nakked).getD 0)) :=
  congrArg Host.Outcome.next (if_pos up)

theorem exec_badTypeFlit : exec (.badTypeFlit p) s = .next (s.softError (linkUnit p) 14) :=
  congrArg Host.Outcome.next (if_pos up)

theorem exec_portRetrain (failed : 16 < (s.link p).fails) : exec (.portRetrain p) s =
    .next ((s.setLink p { s.link p with retrain := some s.clk }).softError (linkUnit p) 13) :=
  congrArg Host.Outcome.next (if_pos ⟨up, failed⟩)

end

section
variable {s : State} {p n : Nat} (alive : (s.link p).down = false) (since : (s.link p).retrain = some n)
include alive since

theorem exec_retrainComplete : exec (.retrainComplete p) s =
    .next (((s.setLink p { s.link p with retrain := none, fails := 0, nakked := none }).replayPort p).pumpAll p) :=
  congrArg Host.Outcome.next (if_neg (by simp [alive, since]))

theorem exec_portDown (late : n + retrainClk ≤ s.clk) : exec (.portDown p) s =
    .next (((s.link p).replay ++ (s.link p).waiting).foldl State.sendFlit
      ((s.setLink p { s.link p with down := true, replay := [], waiting := [] }).softError (linkUnit p) 13)) :=
  congrArg Host.Outcome.next (if_neg (by simp [State.portFails, alive, since, late]))

end

/-- Settles O52, event by event: what `receive` comes to for each arrival, then the port's own events. -/
theorem linksDeliver : Obligations.LinksDeliver := by
  intro s p x up acks
  refine ⟨fun f alive next here new => ⟨fun k n r q off bs y pay known => ?piece, fun k n y pay known => ?stop⟩,
    fun f alive again => ?duplicate, fun f alive next here taken => ?twice, fun f alive behind first => ?gap,
    fun f r alive behind asked => ⟨fun later => ?later, fun replayed => ?replayed⟩, fun alive => ?badCrc,
    fun f vc lane seq ackseq => ?image, fun alive idle vc n => ?credit, fun a f b alive idle split fresh => ?ack,
    fun n alive unknown => ?nak, fun alive => ?badType, fun alive failed => ?retrain,
    fun n alive since idle => ?retrained, fun n alive since late => ?down⟩
  case piece =>
    exact ⟨_, rfl, receive_of_new alive next here new (fun u same => by rw [pay, takePay_piece (same.trans known)])⟩
  case stop =>
    obtain ⟨_, comm, seq, acked⟩ := receive_of_new (f := { f with vc := 0 }) alive next here new
      (fun u same => (congrArg u.takePay pay).trans (takePay_stop (same.trans known) n))
    exact ⟨_, rfl, comm, seq, acked⟩
  case duplicate =>
    refine ⟨_, congrArg Host.Outcome.next (receive_duplicate alive again), rfl, controlFlit (s.link p) 0 .ack, ?_, rfl, rfl⟩
    exact List.mem_append_right _ (List.mem_singleton_self _)
  case twice => exact ⟨_, rfl, receive_of_taken alive next here taken⟩
  case gap =>
    exact ⟨_, congrArg Host.Outcome.next ((receive_gap alive behind).trans (gapAt_of_first first)), nakPort_leaves alive _⟩
  case later =>
    refine ⟨_, congrArg Host.Outcome.next ((receive_gap alive behind).trans (gapAt_of_later asked later)), rfl, ?_⟩
    rw [setLink_link]
  case replayed =>
    obtain ⟨_, _, g, sent, nak, _⟩ := nakPort_leaves alive ((f.seq % 4096 + 4096 - (s.link p).rxSeq) % 4096)
    exact ⟨_, congrArg Host.Outcome.next ((receive_gap alive behind).trans (gapAt_of_replayed asked replayed)), g, sent, nak⟩
  case badCrc => exact ⟨_, exec_badCrcFlit alive, (nakPort_leaves alive _).2⟩
  case image => exact flitImage_fields vc lane seq ackseq
  case credit =>
    refine ⟨_, exec_creditFlit alive vc n, ?_⟩
    rw [pumpAll_of_idle (by rw [setLink_link]; exact idle)]
    beta_reduce
    rw [setLink_link]
    exact ⟨credit_setCredit_same .., fun q other => credit_setCredit_other _ _ other⟩
  case ack =>
    refine ⟨_, exec_ackFlit alive f.seq, ?_⟩
    rw [State.ackPort, acked_of_split split fresh, pumpAll_of_idle (by rw [setLink_link]; exact idle)]
    beta_reduce
    rw [setLink_link]
    exact ⟨rfl, rfl⟩
  case nak =>
    refine ⟨_, exec_nakFlit alive n, ?_⟩
    rw [acked_of_unknown unknown]
    beta_reduce
    dsimp only
    split
    · rw [link_replayPort, sent_replayPort, setLink_link]
      exact ⟨rfl, rfl⟩
    · rw [setLink_link]
      exact ⟨rfl, (List.append_nil _).symm⟩
  case badType => exact exec_badTypeFlit alive
  case retrain => exact ⟨_, exec_portRetrain alive failed, setLink_link s p _⟩
  case retrained =>
    refine ⟨_, exec_retrainComplete alive since, ?_⟩
    rw [pumpAll_of_idle (by rw [link_replayPort, setLink_link]; exact idle)]
    beta_reduce
    rw [link_replayPort, sent_replayPort, setLink_link]
    exact ⟨by simpa [LinkPort.up] using alive, rfl, rfl⟩
  case down =>
    refine ⟨_, exec_portDown alive since late, ?_⟩
    beta_reduce
    have gone : ((s.setLink p { s.link p with down := true, replay := [], waiting := [] }).softError (linkUnit p) 13).link p =
        { s.link p with down := true, replay := [], waiting := [] } := setLink_link s p _
    rw [link_sendFlits_of_down _ (congrArg LinkPort.down gone), gone]
    exact ⟨rfl, rfl, rfl⟩

end Sys2Proof.Proofs
end

section
/-! SUPPORT. Communicators (13 R274, R280, R281): what leaves them alone, their members and commands after a change, and how a
member's command ends. -/
namespace Sys2Proof.Proofs
open Sys2Proof Sys2Proof.Machine Sys2Proof.Laws

/-! ### What leaves the communicators alone -/

/-- The communicators of the module, and its number among the modules. -/
def hods (s : State) : Sparse (Option Comm) × BitVec 12 := (s.comms, s.nodeId)

theorem comm_of_hods {s u : State} (same : hods u = hods s) (k : Nat) : u.comm k = s.comm k :=
  comm_of_comms (congrArg Prod.fst same) k

theorem nodeId_of_hods {s u : State} (same : hods u = hods s) : u.nodeId = s.nodeId := congrArg Prod.snd same

theorem hods_touchRange (s : State) (pasid va n : Nat) : hods (s.touchRange pasid va n) = hods s := by
  refine foldl_frame hods _ (fun u p => ?_) _ s
  unfold State.touchPage
  dsimp only
  repeat' split
  all_goals rfl

theorem hods_placeTouch (s : State) (p : Place) (n : Nat) : hods (s.placeTouch p n) = hods s := by
  cases p with
  | spad off => rfl
  | virt pasid va obj => exact hods_touchRange s pasid va n

theorem hods_vaPut (s : State) (vf pasid : Nat) (obj : Option Nat) (tag : Bool) (cells : List (Nat × Byte)) :
    hods (s.vaPut vf pasid obj tag cells) = hods s := by
  refine foldl_frame hods _ (fun u sec => ?_) _ s
  split
  · exact (congrArg hods (sansMemory_sectorWrite u _) :)
  · rfl

theorem hods_devWrite {w : DevWrite} (plain : w.record = none) (s : State) : hods (s.devWrite w) = hods s := by
  have written : hods ((s.touchRange w.pasid w.va w.bytes.length).vaPut w.vf w.pasid w.obj false (cellsFrom w.va w.bytes)) =
      hods s := (hods_vaPut ..).trans (hods_touchRange ..)
  unfold State.devWrite
  simp only [plain]
  split
  · exact written
  · exact hods_touchRange s _ _ _

theorem hods_bumpSaved (s : State) (key n k : Nat) : hods (s.bumpSaved key n k) = hods s := by
  unfold State.bumpSaved
  split
  · rfl
  · dsimp only
    split
    · exact hods_devWrite rfl s
    · rfl

theorem hods_onCrew (s : State) (gang crew : Nat) (f : Tile → Tile) : hods (s.onCrew gang crew f) = hods s := by
  unfold State.onCrew
  split
  · rfl
  · split
    · refine (foldl_frame hods _ (fun u n => ?_) _ _).trans rfl
      dsimp only
      split
      · rfl
      · exact hods_bumpSaved u _ n _
    · rfl

theorem hods_onStrand (s : State) (i : Issuer) (f : Ctx → Ctx) : hods (s.onStrand i f) = hods s := hods_onCrew ..

theorem hods_finishOp (s : State) (i : Issuer) (ct k : Nat) (nr : Bool) (port id v : Nat) :
    hods (s.finishOp i ct k nr port id v) = hods s := by
  unfold State.finishOp State.status
  split
  · exact hods_onCrew ..
  · exact (hods_onCrew ..).trans (hods_onCrew ..)

theorem hods_monitor (s : State) (unit source vf k : Nat) : hods (s.monitor unit source vf k) = hods s := by
  have counts (u : State) : hods (sansCounts u) = hods u := rfl
  rw [← counts, sansCounts_monitor, counts]

theorem hods_sendPay (s : State) (d vc lane : Nat) (pay : FlitPay) : hods (s.sendPay d vc lane pay) = hods s := by
  obtain ⟨l, o, n, sends⟩ := sendPay_changes s d vc lane pay
  rw [sends]
  rfl

theorem hods_sendAll (s : State) (ds : List Nat) (vc lane : Nat) (pay : FlitPay) :
    hods (s.sendAll ds vc lane pay) = hods s := by
  obtain ⟨l, o, n, sends⟩ := sendAll_changes s ds vc lane pay
  rw [sends]
  rfl

/-! ### Members -/

@[simp] theorem setMember_member (x : Comm) (r : Nat) (m : Member) : (x.setMember r m).member r = m := by
  simp only [Comm.member, Comm.setMember, get_set_same, Option.getD_some]

theorem member_of_members {x y : Comm} (same : y.members = x.members) (r : Nat) : y.member r = x.member r := by
  rw [Comm.member, same, Comm.member]

theorem trim_members (x : Comm) : x.trim.members = x.members := by
  unfold Comm.trim
  dsimp only
  split <;> rfl

/-- A change of every member here. -/
theorem get_map_members (f : Member → Member) (ms : Sparse (Option Member)) (r : Nat) :
    Sparse.get none (ms.map (fun (y : Nat × Option Member) => (y.1, y.2.map f))) r = (Sparse.get none ms r).map f := by
  induction ms with
  | nil => rfl
  | cons y rest ih =>
    rw [List.map_cons, Sparse.get, Sparse.get, ih]
    split <;> rfl

theorem onCmd_of_known {s : State} {k : Nat} {x : Comm} (known : s.comm k = some x) (r id : Nat) (f : CollCmd → CollCmd) :
    s.onCmd k r id f = s.setComm k (x.onCmd r id f) := by
  simp only [State.onCmd, known]

theorem members_tellRoot {s : State} {k : Nat} {x : Comm} (known : s.comm k = some x) (r : Nat) (c : CollCmd) :
    ∃ y, (s.tellRoot k r c).comm k = some y ∧ y.members = x.members := by
  unfold State.tellRoot
  simp only [known]
  split
  · exact ⟨x, known, rfl⟩
  · split
    · exact ⟨_, setComm_comm s k _, rfl⟩
    · obtain ⟨l, o, n, sends⟩ := sendPay_changes s (x.node (c.rootOf x r)) x.channel 0 (.landed k c.n r)
      rw [sends]
      exact ⟨x, known, rfl⟩

/-! ### The end of a command (R279) -/

/-- What an engine's operation ends in, said of its strand's tile. -/
theorem ended_of_units {s u v : State} (same : units u = units s) {i : Issuer} {ct k port id w : Nat} {nr : Bool}
    (ended : Ended u v i ct k nr port id w) : Ended s v i ct k nr port id w := by
  obtain ⟨counter, status⟩ := ended
  unfold Answered at status
  simp only [crewTile_of_books (books_of_units same), tile_of_units same, ctxAt_of_units same] at counter status
  exact ⟨counter, status⟩

theorem units_onCrew_congr {s u : State} (same : units u = units s) (gang crew : Nat) (f : Tile → Tile) :
    units (u.onCrew gang crew f) = units (s.onCrew gang crew f) := by
  have absent (w : State) (none : w.crewTile gang crew = none) : units (w.onCrew gang crew f) = units w := by
    unfold State.onCrew
    rw [none]
    dsimp only
    split
    · exact units_onSaved ..
    · rfl
  have tile := crewTile_of_books (books_of_units same) gang crew
  cases at_tile : s.crewTile gang crew with
  | none => rw [absent s at_tile, absent u (tile.trans at_tile), same]
  | some t =>
    simp only [State.onCrew, tile, at_tile, tile_of_units same]
    show (Sparse.set _ u.tiles t _, books u) = (Sparse.set _ s.tiles t _, books s)
    rw [books_of_units same, show u.tiles = s.tiles from congrArg Prod.fst same]

/-- A counter without a handler. -/
theorem landAt_of_no_handler (s : State) (i : Issuer) (ct k len off : Nat) :
    s.landAt i { cells := [], ct, inc := k, hnd := 0, len, off } = s.bump i ct k := by
  have dormant (x : Tile) : x.handlerCtx 0 = none := by
    unfold Tile.handlerCtx
    split <;> rfl
  unfold State.landAt
  split
  next t at_tile => simp only [State.landOn, dormant, State.bump, State.onCrew, at_tile]
  next => rfl

/-- A command that no Crown issued, and that starts no handler, leaves its strand's sixteen and ends as an engine's operation
does. -/
theorem endCmd_of_strand {c : CollCmd} (strand : c.crown = none) (quiet : c.hnd = 0 ∨ c.pcn ≠ 0) (s : State)
    (cseq st res len off : Nat) : s.endCmd c cseq st res len off =
      (s.onStrand c.iss (fun x => { x with nColl := x.nColl - 1 })).finishOp c.iss c.ct 1 c.nr 10 c.id
        (res % 2 ^ 32 * 2 ^ 32 + cseq % 2 ^ 16 * 2 ^ 16 + c.op * 2 ^ 8 + st) := by
  have hnd : (if c.pcn = 0 ∧ st ≠ 4 then c.hnd else 0) = 0 := by
    rcases quiet with none | given
    · rw [none, ite_self]
    · exact if_neg (fun both => given both.1)
  simp only [State.endCmd, strand, hnd, landAt_of_no_handler]
  rfl

/-- The communicator without a member's command, whose outcome is kept. -/
def cmdEnded (x : Comm) (r : Nat) (c : CollCmd) (st res : Nat) : Comm :=
  let m := x.member r
  (x.setMember r { m with
    cmds := m.cmds.filter (fun d => d.id != c.id)
    history := (m.history ++ [c.outcome st (if st = 3 then some res else none)]).drop ((m.history.length + 1) - 16)
    fed := if c.opt.isSome then Sparse.set none m.fed (strandKey c.iss) (some { c with ended := some (st, res) })
      else m.fed }).trim

theorem cmds_cmdEnded (x : Comm) (r : Nat) (c : CollCmd) (st res : Nat) :
    ∀ d ∈ ((cmdEnded x r c st res).member r).cmds, d.id ≠ c.id := by
  intro d listed
  rw [cmdEnded, member_of_members (trim_members _), setMember_member] at listed
  simpa using (List.mem_filter.mp listed).2

/-- A member's command ends, other than for a lost member. -/
theorem endMember_ends {s : State} {k r st res : Nat} {c : CollCmd} {x : Comm} (known : s.comm k = some x) (kept : st ≠ 3)
    (strand : c.crown = none) (quiet : c.hnd = 0 ∨ c.pcn ≠ 0) :
    Ended (s.onStrand c.iss (fun y => { y with nColl := y.nColl - 1 })) (s.endMember k r c st res) c.iss c.ct 1 c.nr 10 c.id
        (res % 2 ^ 32 * 2 ^ 32 + c.n % 2 ^ 16 * 2 ^ 16 + c.op * 2 ^ 8 + st) ∧
      ∃ y, (s.endMember k r c st res).comm k = some y ∧ ∀ d ∈ (y.member r).cmds, d.id ≠ c.id := by
  let w := (s.missed k x).setComm k (cmdEnded x r c st res)
  have parts : s.endMember k r c st res =
      (if st = 0 then w else w.tellRoot k r c).endCmd c c.n st res (c.bytesLanded x r) c.firstOff := by
    simp only [State.endMember, known, kept, decide_false, Bool.false_and, Bool.false_eq_true, if_false, w, cmdEnded]
  have ended : units w = units s := by
    show units (s.missed k x) = units s
    unfold State.missed
    split <;> rfl
  have told : units (if st = 0 then w else w.tellRoot k r c) = units s := by
    split
    · exact ended
    · obtain ⟨y, l, o, n, tells⟩ := tellRoot_changes w k r c
      rw [tells]
      exact ended
  have comm : ∃ y, (if st = 0 then w else w.tellRoot k r c).comm k = some y ∧ y.members = (cmdEnded x r c st res).members := by
    split
    · exact ⟨_, setComm_comm _ k _, rfl⟩
    · exact members_tellRoot (setComm_comm _ k _) r c
  rw [parts, endCmd_of_strand strand quiet]
  obtain ⟨y, known, members⟩ := comm
  refine ⟨ended_of_units (units_onCrew_congr told _ _ _) (ended_finishOp ..), y, ?_, ?_⟩
  · rw [comm_of_hods (hods_finishOp ..), comm_of_hods (hods_onStrand ..), known]
  · rw [member_of_members members]
    exact cmds_cmdEnded x r c st res

end Sys2Proof.Proofs
end

section
/-! SUPPORT. The chunks of a collective at a die (13 R281, R283, R285): the first candidate begins, what it contributes is
staged, and what a chunk that has every contribution comes to at its rank. -/
namespace Sys2Proof.Proofs
open Sys2Proof Sys2Proof.Machine Sys2Proof.Laws

/-! ### A chunk begins (R281, R285) -/

section
variable {s u : State} {die k j r : Nat} {rest : List (Nat × Nat)} {x : Comm} {c : CollCmd}

theorem beginFirst_of_done (known : s.comm k = some x) (best : s.beginner x die = some (r, c))
    (begins : s.beginChunk k r x c = .done u) :
    Sparse.get 0 (s.beginFirst die ((k, j) :: rest)).hodPtr die = (j + 1) % 64 ∧
      ∀ y, u.comm k = some y →
        (s.beginFirst die ((k, j) :: rest)).comm k = some { y with since := Sparse.set 0 y.since die (u.clk + 1) } := by
  have same (m : Sparse Nat) : ({ u with hodPtr := m } : State).comm k = u.comm k := rfl
  have past : Sparse.get 0 (Sparse.set 0 u.hodPtr die ((j + 1) % 64)) die = (j + 1) % 64 := get_set_same ..
  cases here : u.comm k with
  | none =>
    simp only [State.beginFirst, known, best, begins, same, here]
    exact ⟨past, fun y some => by cases some⟩
  | some y =>
    simp only [State.beginFirst, known, best, begins, same, here]
    exact ⟨past, fun z some => by cases some; exact setComm_comm _ k _⟩

/-- A Hod that has no command to take up begins the chunk of its first candidate. -/
theorem chunkBegin_of_order (idle : s.hodQ = [])
    (order : ((s.settleRaws die).serveAsks.markCandidates die).hodOrder die = (k, j) :: rest) :
    s.chunkBegin die = ((s.settleRaws die).serveAsks.markCandidates die).beginFirst die ((k, j) :: rest) := by
  have none_taken : s.openEach (hodHeads die [] s.hodQ) = s := by rw [idle]; rfl
  simp only [State.chunkBegin, none_taken, order]

end

section
variable {s : State} {k r : Nat} {x : Comm} {c : CollCmd}

/-- A contribution that only its own Hod needs is staged there. -/
theorem contribute_of_near (near : ∀ g ∈ c.takers x r c.begun,
      x.node g = s.nodeId.toNat ∧ (x.table.getD g (0, 0)).2 / 64 = (x.member r).die) (addr o : Nat) (bs : List Byte) :
    s.contribute k r x c c.begun addr o bs = s.setComm k (x.stage c.n r (c.unit x r c.begun).1 o bs [(x.member r).die]) := by
  have others (y : Comm) : (s.setComm k y).others x (c.takers x r c.begun) = [] := by
    rw [State.others, List.filter_eq_nil_iff]
    intro n listed
    obtain ⟨g, taker, rfl⟩ := List.mem_map.mp (List.mem_eraseDups.mp listed)
    simpa [State.setComm] using (near g taker).1
  have dies : (x.diesOf s.nodeId.toNat (c.takers x r c.begun)).filter (fun d => d != (x.member r).die) = [] := by
    rw [Comm.diesOf, List.filter_eq_nil_iff]
    intro d listed
    obtain ⟨g, taker, rfl⟩ := List.mem_map.mp (List.mem_eraseDups.mp listed)
    rw [(near g (List.mem_filter.mp taker).1).2, bne_self_eq_false]
    exact Bool.false_ne_true
  simp only [State.contribute, others, dies, ite_self, List.foldl_nil, List.isEmpty_nil, Bool.not_true, Bool.and_false,
    Bool.false_and, Bool.false_eq_true, if_false]

/-- A chunk whose source is mapped, current and not poisoned begins. -/
theorem beginChunk_of_mapped {p q : Place} {cap : TCap} {n o pa : Nat} {bs : List Byte} (plain : cdChain c.desc = false)
    (chunked : c.isReshard = false) (source : c.src = some (cap, p))
    (gives : c.gives x r c.begun (some p) = some (some q, n, o)) (current : s.capCurrent c.iss.vf cap = true)
    (near : ∀ g ∈ c.takers x r c.begun, x.node g = s.nodeId.toNat ∧ (x.table.getD g (0, 0)).2 / 64 = (x.member r).die)
    (mapped : s.placeXlat q n false = .mapped pa) (clean : s.engPoison c.iss q n = none)
    (read : (s.placeTouch q n).engRead c.iss q n = some bs) :
    ∃ u, s.beginChunk k r x c = .done u ∧
      u.comm k = some ((x.stage c.n r (c.unit x r c.begun).1 o bs [(x.member r).die]).onCmd r c.id
        (fun d => { d with begun := c.begun + 1 })) := by
  have src : s.srcOf x c = some (cap, p) := by simp [State.srcOf, plain, source]
  have near' : ∀ g ∈ c.takers x r c.begun,
      x.node g = (s.placeTouch q n).nodeId.toNat ∧ (x.table.getD g (0, 0)).2 / 64 = (x.member r).die := by
    rwa [nodeId_of_hods (hods_placeTouch s q n)]
  let v := (s.placeTouch q n).setComm k (x.stage c.n r (c.unit x r c.begun).1 o bs [(x.member r).die])
  refine ⟨(v.onCmd k r c.id (fun d => { d with begun := c.begun + 1 })).monitor (x.member r).die monChunks x.vf 1, ?_, ?_⟩
  · simp only [State.beginChunk, src, Option.map_some, gives, chunked, Bool.false_and, Bool.false_eq_true, if_false, current,
      Bool.not_true, mapped, clean, read, contribute_of_near near', v]
  · rw [comm_of_hods (hods_monitor ..), onCmd_of_known (setComm_comm _ k _), setComm_comm]

end

/-! ### A chunk lands (R281, R283) -/

section
variable {s : State} {die k r q : Nat} {x : Comm} {c : CollCmd} {ins : List (Nat × List Byte)}

theorem pointPast_leaves (s : State) (die : Nat) (x : Comm) : (s.pointPast die x).mem = s.mem ∧
    (∀ t, (s.pointPast die x).tile t = s.tile t) ∧ (s.pointPast die x).comms = s.comms := by
  unfold State.pointPast
  split
  · exact ⟨rfl, fun _ => rfl, rfl⟩
  · exact ⟨rfl, fun _ => rfl, rfl⟩

theorem exec_chunkLand_of_done {u : State} {rest : List (Nat × Nat × CollCmd × Nat × List (Nat × List Byte))}
    (first : s.landings die = (k, r, c, q, ins) :: rest) (known : s.comm k = some x)
    (lands : s.landChunk k r x c q ins = .done u) :
    exec (.chunkLand die) s = .next (u.pointPast die x) := by
  refine congrArg Host.Outcome.next ?_
  simp only [first, State.landFirst, known, lands]

theorem landWrites_of_mapped {p : Place} {bs : List Byte} {pa : Nat} (mapped : s.placeXlat p bs.length true = .mapped pa)
    (qs : List Nat) :
    s.landWrites k r x c qs [(p, bs)] = .done ((s.engWrite c.iss p bs).markLanded k r x c qs) := by
  simp [State.landWrites, mapped]

variable (plain : c.opt = none) {a : Nat} {bs : List Byte} (result : c.result x r q ins = some (a, bs))
include plain result

theorem landChunk_of_spad {cap : TCap} {off : Nat} (dst : c.dst = some (cap, .spad off)) (free : s.crewHeld c.iss = false) :
    s.landChunk k r x c q ins = .done ((s.engWrite c.iss (.spad (off + a)) bs).markLanded k r x c (c.together q)) := by
  simp only [State.landChunk, result, dst, plain, Place.add, free, Bool.false_eq_true, if_false]
  exact landWrites_of_mapped rfl _

theorem landChunk_of_page {cap : TCap} {p va pa : Nat} {obj : Option Nat} (dst : c.dst = some (cap, .virt p va obj))
    (current : s.capCurrent c.iss.vf cap = true) (mapped : s.placeXlat (.virt p (va + a) obj) bs.length true = .mapped pa) :
    s.landChunk k r x c q ins = .done ((s.engWrite c.iss (.virt p (va + a) obj) bs).markLanded k r x c (c.together q)) := by
  simp only [State.landChunk, result, dst, plain, Place.add, current, if_true]
  exact landWrites_of_mapped mapped _

omit plain in
theorem landChunk_of_no_dst (dst : c.dst = none) :
    s.landChunk k r x c q ins = .done (s.markLanded k r x c (c.together q)) := by
  simp only [State.landChunk, result, dst]

/-- For a crew that is being saved the chunk is held. -/
theorem landChunk_of_held {cap : TCap} {off : Nat} (dst : c.dst = some (cap, .spad off)) (held : s.crewHeld c.iss = true) :
    ∃ l : Landing, s.landChunk k r x c q ins =
      .done ((s.onCmd k r c.id (fun d => { d with held := d.held ++ c.together q })).onCrew c.iss.gang c.iss.crew
        (fun t => { t with landings := t.landings ++ [l] })) := by
  simp only [State.landChunk, result, dst, plain, Place.add, held, if_true]
  exact ⟨_, rfl⟩

end

/-- A saved crew whose counters stay is written nowhere but in the device. -/
theorem onSaved_of_counters {y : Saved} {new : Tile} (same : new.ct = y.tile.ct) (s : State) (key : Nat) :
    s.onSaved key y new = { s with saves := Sparse.set none s.saves key (some { y with tile := new }) } := by
  refine foldl_keeps (P := fun u : State => u = { s with saves := Sparse.set none s.saves key (some { y with tile := new }) }) _
    (fun u n kept => ?_) _ rfl
  have still : (new.readCt n - y.tile.readCt n).toNat = 0 := by
    rw [Tile.readCt, Tile.readCt, same, BitVec.sub_self]
    rfl
  simp only [still, if_true, kept]

/-- A delivery that is held for a crew changes no memory, scratchpad or communicator. -/
theorem onCrew_landings (s : State) (gang crew : Nat) (l : Landing) :
    let u := s.onCrew gang crew (fun t => { t with landings := t.landings ++ [l] })
    u.mem = s.mem ∧ (∀ t, (u.tile t).spad = (s.tile t).spad) ∧ u.comms = s.comms := by
  intro u
  refine ⟨?mem, fun t => ?spad, congrArg Prod.fst (hods_onCrew s gang crew _)⟩ <;> simp only [u] <;> unfold State.onCrew
  case mem =>
    split
    · rfl
    · split
      · rw [onSaved_of_counters]
        rfl
      · rfl
  case spad =>
    split
    next n _ =>
      by_cases here : t = n
      · rw [here, setTile_tile]
      · rw [setTile_tile_other _ _ _ here]
    next =>
      split
      · rw [onSaved_of_counters]
        · rfl
        · rfl
      · rfl

end Sys2Proof.Proofs
end

section
/-! SUPPORT. What the Hods of a communicator tell each other (13 R293 to R295), and the statement about collectives. -/
namespace Sys2Proof.Proofs
open Sys2Proof Sys2Proof.Machine Sys2Proof.Laws

/-! ### Abort, loss and pause -/

section
variable {s : State} {k : Nat} {x : Comm} (known : s.comm k = some x)
include known

theorem exec_abortMessage : exec (.abortMessage k) s = .next (if x.aborted then s else s.setComm k x.abort) := by
  show Host.Outcome.next (s.abortComm k) = _
  simp only [State.abortComm, known]

theorem exec_memberLost_of_first {r : Nat} (rank : r < x.nrank) (first : x.lost = none) : exec (.memberLost k r) s =
    .next ((s.setComm k { x with lost := some r }).sendAll (s.others x (List.range x.nrank)) 0 0 (.lost k r)) := by
  show Host.Outcome.next (s.declareLost k r) = _
  simp [State.declareLost, State.loseMember, known, first, Nat.not_le.mpr rank]

theorem exec_memberLost_of_later (r : Nat) (later : x.lost ≠ none) : exec (.memberLost k r) s = .next s := by
  have lost : x.lost.isSome = true := Option.isSome_iff_ne_none.mpr later
  show Host.Outcome.next (s.declareLost k r) = _
  simp only [State.declareLost, known, lost, Bool.true_or, if_true]

theorem exec_stopChunk (p : Nat) : exec (.stopChunk k p) s = .next (s.setComm k (x.stopAt p)) := by
  show Host.Outcome.next (s.stopChunk k p) = _
  simp only [State.stopChunk, known]

theorem exec_resumeBroadcast : exec (.resumeBroadcast k) s = .next (s.setComm k x.goOn) := by
  show Host.Outcome.next (s.resumeComm k) = _
  simp only [State.resumeComm, known]

/-- The state in which the first request for a pause has gone out. -/
def pauseAsked (s : State) (k r : Nat) (x : Comm) : State :=
  let y : Comm := { x with pausers := [r] }
  (s.setComm k y).sendAll ((s.setComm k y).others y (List.range y.nrank)) 0 0 (.pause k r)

omit known in
theorem hods_pauseAsked (r : Nat) : hods (pauseAsked s k r x) = hods (s.setComm k { x with pausers := [r] }) := hods_sendAll ..

theorem exec_pauseRequest_of_first {r : Nat} (first : x.pausers = []) :
    exec (.pauseRequest k r) s = .next ((pauseAsked s k r x).answerPause k) := by
  show Host.Outcome.next (s.pauseRequest k r) = _
  simp [State.pauseRequest, known, first, pauseAsked]

theorem exec_pauseRequest_of_later {r : Nat} (later : x.pausers ≠ []) (new : r ∉ x.pausers) : exec (.pauseRequest k r) s =
    .next (s.setComm k { x with pausers := x.pausers ++ [r] }) := by
  show Host.Outcome.next (s.pauseRequest k r) = _
  simp [State.pauseRequest, known, later, new]

/-- At a module that has not rank 0, the members that are asked to pause stand still. -/
theorem comm_answerPause (away : x.node 0 ≠ s.nodeId.toNat) : (s.answerPause k).comm k = some x.hold := by
  have kept : hods (s.answerPause k) = hods (s.setComm k x.hold) := by
    simp only [State.answerPause, known]
    refine foldl_keeps (P := fun u : State => hods u = hods (s.setComm k x.hold)) _ (fun u p kept => ?_) _ rfl
    have node : u.nodeId = s.nodeId := (nodeId_of_hods kept :)
    rw [if_neg (by rw [node]; exact away)]
    exact (hods_sendPay u _ 0 0 _).trans kept
  rw [comm_of_hods kept, setComm_comm]

end

/-! ### The statement -/

/-- Settles O51, event by event: a chunk's begin and landing at a die, the end of a command, and the messages between Hods. -/
theorem collectivesRun : Obligations.CollectivesRun := by
  refine ⟨fun s die k r c => ⟨fun j rest x u idle order known best begins => ?begin,
      fun x p q n o pa bs cap plain chunked source gives current near mapped clean read => ?staged,
      fun q ins rest x first known plain => ⟨fun a bs result dst => ?counted, fun a bs cap off result dst free => ?spad,
        fun a bs cap p va obj pa result dst current mapped => ?page, fun a bs cap off result dst held => ?held⟩,
      fun st res rest x first known bad apart => ?complete, fun st res x known kept strand quiet => ?ended⟩,
    fun s k x known => ⟨fun live => ?abort, fun aborted => ?aborted, fun r rank first => ?lost, fun r later => ?lostLater,
      fun r first away => ?pause, fun r later new => ?pauseLater, fun p => ?stop, ?resume⟩⟩
  case begin =>
    refine ⟨_, rfl, ?_⟩
    rw [chunkBegin_of_order idle order]
    exact beginFirst_of_done known best begins
  case staged => exact beginChunk_of_mapped plain chunked source gives current near mapped clean read
  case counted => exact exec_chunkLand_of_done first known (landChunk_of_no_dst result dst)
  case spad => exact exec_chunkLand_of_done first known (landChunk_of_spad plain result dst free)
  case page => exact exec_chunkLand_of_done first known (landChunk_of_page plain result dst current mapped)
  case held =>
    obtain ⟨l, lands⟩ := landChunk_of_held (s := s) (k := k) plain result dst held
    rw [onCmd_of_known known] at lands
    obtain ⟨mem, spad, comms⟩ := onCrew_landings
      (s.setComm k (x.onCmd r c.id (fun d => { d with held := d.held ++ c.together q }))) c.iss.gang c.iss.crew l
    obtain ⟨mem', tile', comms'⟩ := pointPast_leaves _ die x
    refine ⟨_, exec_chunkLand_of_done first known lands, mem'.trans mem, fun t => ?_, _, ?_, rfl⟩
    · rw [tile', spad]
      rfl
    · rw [comm_of_comms comms', comm_of_comms comms, setComm_comm]
  case complete =>
    refine ⟨_, rfl, ?_⟩
    simp only [first, State.reportFirst, known, bad, apart, ne_eq, not_false_eq_true, if_true, if_false, false_and]
  case ended => exact endMember_ends known kept strand quiet
  case abort =>
    refine ⟨_, exec_abortMessage known, x.abort, by rw [live]; rfl, rfl, fun r m member => ?_⟩
    exact ⟨_, (get_map_members _ x.members r).trans (congrArg _ member), rfl, rfl⟩
  case aborted => rw [exec_abortMessage known, aborted, if_pos rfl]
  case lost =>
    exact ⟨_, exec_memberLost_of_first known rank first, (comm_of_hods (hods_sendAll ..) k).trans (setComm_comm s k _)⟩
  case lostLater => exact exec_memberLost_of_later known r later
  case pause =>
    have here : (pauseAsked s k r x).comm k = some { x with pausers := [r] } :=
      (comm_of_hods (hods_pauseAsked r) k).trans (setComm_comm s k _)
    have node : (pauseAsked s k r x).nodeId = s.nodeId := (nodeId_of_hods (hods_pauseAsked r) :)
    exact ⟨_, exec_pauseRequest_of_first known first, _, comm_answerPause here (by rw [node]; exact away), rfl,
      fun q m member => (get_map_members _ x.members q).trans (congrArg _ member)⟩
  case pauseLater => exact exec_pauseRequest_of_later known later new
  case stop =>
    exact ⟨_, exec_stopChunk known p, x.stopAt p, rfl, rfl, rfl, fun q m member =>
      (get_map_members _ x.members q).trans (congrArg _ member)⟩
  case resume =>
    exact ⟨_, exec_resumeBroadcast known, x.goOn, rfl, rfl, rfl, rfl, fun q m member =>
      (get_map_members _ x.members q).trans (congrArg _ member)⟩

end Sys2Proof.Proofs
end

section
/-! SUPPORT. Scalar integer slots (17 R359, 18 R401, R405, 19 R407, R408): the value that each operation of the ALU and of the
multiplier gives, in arithmetic on numbers, and the forms of a slot's result. -/
namespace Sys2Proof.Proofs
open Sys2Proof Sys2Proof.Machine Sys2Proof.Laws

/-! ### A slot whose operation has a value, and perhaps flags -/

/-- The flags of several results together. -/
def anyFlags (rs : List IRes) : BitVec 4 := rs.foldl (fun a r => a ||| r.flags) 0

section
variable {i : Instr} {s r : State} {f : SFields} {A B : List Word} {op n latch : Nat}

theorem completes_sBinary {fn : Word → Word → IRes} {value : Word → Word → Word} {flags : BitVec 4}
    (sources : s.sSources f readSrcB = .ok (A, B, r)) (runs : exec i s = settle s (s.sBinary op f n latch fn))
    (valued : ∀ a b, (fn a b).value = value a b) (flagged : anyFlags (List.zipWith fn A B) = flags) :
    Completes i s (ScalarResult r f n latch (List.zipWith value A B) flags) := by
  obtain ⟨t, done, result⟩ := sBinary_ok op n latch fn sources
  have values : (List.zipWith fn A B).map (fun r => r.value) = List.zipWith value A B := by
    simp only [List.map_zipWith, valued]
  rw [values] at result
  exact ⟨t, by rw [runs, done, settle_ok], flagged ▸ result⟩

theorem anyFlags_of_plain {rs : List IRes} (plain : ∀ x ∈ rs, x.flags = 0) : anyFlags rs = 0 := flags_zero plain

theorem mem_zipWith {α β γ : Type} {fn : α → β → γ} {l : List α} {m : List β} {x : γ} (hx : x ∈ List.zipWith fn l m) :
    ∃ a b, x = fn a b := by
  rw [← List.map_uncurry_zip_eq_zipWith, List.mem_map] at hx
  obtain ⟨p, -, rfl⟩ := hx
  exact ⟨p.1, p.2, rfl⟩

/-- An operation that raises no flag. -/
theorem completes_sBinary_plain {fn : Word → Word → IRes} {value : Word → Word → Word}
    (sources : s.sSources f readSrcB = .ok (A, B, r)) (runs : exec i s = settle s (s.sBinary op f n latch fn))
    (gives : ∀ a b, fn a b = { value := value a b }) :
    Completes i s (ScalarResult r f n latch (List.zipWith value A B) 0) := by
  refine completes_sBinary sources runs (fun a b => by rw [gives]) (anyFlags_of_plain fun x hx => ?_)
  obtain ⟨a, b, rfl⟩ := mem_zipWith hx
  rw [gives]

end

/-! ### Saturation (06 R129) -/

theorem clampInt_fst {lo hi : Int} (ordered : lo ≤ hi) (i : Int) : (clampInt lo hi i).1 = max lo (min hi i) := by
  unfold clampInt
  split
  · simp only; omega
  · split <;> simp only <;> omega

theorem clampInt_snd {lo hi : Int} (i : Int) : (clampInt lo hi i).2 = if i < lo ∨ hi < i then 1 else 0 := by
  unfold clampInt fISAT
  by_cases low : i < lo
  · simp [low]
  · by_cases high : hi < i <;> simp [low, high]

theorem sat64_value (i : Int) : (sat64 i).value = BitVec.ofInt 64 (max (-2 ^ 63) (min (2 ^ 63 - 1) i)) := by
  unfold sat64
  simp only [clampInt_fst (lo := -(2 ^ 63)) (hi := 2 ^ 63 - 1) (by decide)]

theorem sat64_flags (i : Int) : (sat64 i).flags = if i < -2 ^ 63 ∨ 2 ^ 63 ≤ i then 1 else 0 := by
  unfold sat64
  simp only [clampInt_snd, Int.sub_one_lt_iff]

/-- Results that raise one flag at most: it is raised where one of them raises it. -/
theorem anyFlags_of_decide (rs : List IRes) (q : IRes → Bool) (flag : ∀ x ∈ rs, x.flags = if q x then 1 else 0) :
    anyFlags rs = if rs.any q then 1 else 0 := by
  have from_start : ∀ x : BitVec 4, x = 0 ∨ x = 1 →
      rs.foldl (fun a r => a ||| r.flags) x = if x = 1 ∨ rs.any q then 1 else 0 := by
    induction rs with
    | nil => rintro x (rfl | rfl) <;> simp
    | cons y t ih =>
      intro x hx
      rw [List.foldl_cons, flag y (by simp), ih (fun z hz => flag z (by simp [hz]))]
      · rcases hx with rfl | rfl <;> cases own : q y <;> simp [own]
      · rcases hx with rfl | rfl <;> cases q y <;> simp
  simpa [anyFlags] using from_start 0 (.inl rfl)

theorem anyFlags_sat64 (A B : List Word) (fn : Word → Word → Int) :
    anyFlags (List.zipWith (fun a b => sat64 (fn a b)) A B) =
      if (List.zipWith (fun a b => decide (fn a b < -2 ^ 63 ∨ 2 ^ 63 ≤ fn a b)) A B).any id then 1 else 0 := by
  rw [anyFlags_of_decide _ (fun x => x.flags == 1)]
  · congr 2
    simp only [← List.map_uncurry_zip_eq_zipWith, List.any_map]
    congr 1
    funext p
    simp only [Function.comp, Function.uncurry, sat64_flags, id]
    by_cases out : fn p.1 p.2 < -2 ^ 63 ∨ 2 ^ 63 ≤ fn p.1 p.2 <;> simp only [out, if_true, if_false] <;> rfl
  · intro x hx
    obtain ⟨a, b, rfl⟩ := mem_zipWith hx
    rw [sat64_flags]
    split <;> rfl

/-! ### The operations as arithmetic -/

theorem aluAdd_eq (a b : Word) : aluAdd a b = { value := BitVec.ofNat 64 (a.toNat + b.toNat) } :=
  congrArg (fun v => ({ value := v } : IRes)) (by bv_omega)
theorem aluSub_eq (a b : Word) : aluSub a b = { value := BitVec.ofInt 64 ((a.toNat : Int) - b.toNat) } := by
  refine congrArg (fun v => ({ value := v } : IRes)) (BitVec.eq_of_toNat_eq ?_)
  rw [BitVec.toNat_sub, BitVec.toNat_ofInt]
  omega
theorem aluMul_eq (a b : Word) : aluMul a b = { value := BitVec.ofNat 64 (a.toNat * b.toNat) } :=
  congrArg (fun v => ({ value := v } : IRes)) (BitVec.eq_of_toNat_eq (by simp [BitVec.toNat_mul]))

/-! ### Shifts (19 R408) -/

theorem shiftLeft_large (a : Word) {n : Nat} (large : 64 ≤ n) : BitVec.ofNat 64 (a.toNat * 2 ^ n) = 0 := by
  refine BitVec.eq_of_toNat_eq ?_
  have whole : 2 ^ 64 ∣ a.toNat * 2 ^ n := (Nat.pow_dvd_pow 2 large).mul_left _
  simpa using Nat.mod_eq_zero_of_dvd whole

theorem shiftRight_large (a : Word) {n : Nat} (large : 64 ≤ n) : BitVec.ofNat 64 (a.toNat / 2 ^ n) = 0 := by
  rw [Nat.div_eq_of_lt (lt_of_lt_of_le a.isLt (Nat.pow_le_pow_right (by decide) large))]
  rfl

theorem toInt_shiftRight_large (a : Word) {n : Nat} (large : 63 ≤ n) : a.toInt / 2 ^ n = if a.getLsbD 63 then -1 else 0 := by
  have bound : (2 : Int) ^ 63 ≤ 2 ^ n := by exact_mod_cast Nat.pow_le_pow_right (by decide : 0 < 2) large
  have low := BitVec.le_toInt a
  have high := BitVec.toInt_lt (x := a)
  have sign : a.getLsbD 63 = decide (a.toInt < 0) := by
    rw [← BitVec.msb_eq_toInt, BitVec.msb_eq_getLsbD_last]
  simp only [Nat.add_one_sub_one] at low high
  rw [sign]
  by_cases neg : a.toInt < 0
  · simp only [neg, decide_true, if_true]
    exact Int.ediv_eq_neg_one_of_neg_of_le neg (by omega)
  · simp only [neg, decide_false, Bool.false_eq_true, if_false]
    exact Int.ediv_eq_zero_of_lt (by omega) (by omega)

theorem aluShl_eq (a b : Word) : aluShl a b = { value := BitVec.ofNat 64 (a.toNat * 2 ^ b.toNat) } := by
  unfold aluShl
  split
  next large => rw [shiftLeft_large a large]
  next => exact congrArg (fun v => ({ value := v } : IRes)) (BitVec.eq_of_toNat_eq (by simp [Nat.shiftLeft_eq]))

theorem aluShr_eq (a b : Word) : aluShr a b = { value := BitVec.ofNat 64 (a.toNat / 2 ^ b.toNat) } := by
  unfold aluShr
  split
  next large => rw [shiftRight_large a large]
  next => rw [← Nat.shiftRight_eq_div_pow, ← BitVec.toNat_ushiftRight, BitVec.ofNat_toNat, BitVec.setWidth_eq]

theorem aluSar_eq (a b : Word) : aluSar a b = { value := BitVec.ofInt 64 (a.toInt / 2 ^ b.toNat) } := by
  have clipped : a.toInt / 2 ^ min b.toNat 63 = a.toInt / 2 ^ b.toNat := by
    rcases Nat.le_total 63 b.toNat with large | small
    · rw [Nat.min_eq_right large, toInt_shiftRight_large a le_rfl, toInt_shiftRight_large a large]
    · rw [Nat.min_eq_left small]
  unfold aluSar BitVec.sshiftRight
  rw [Int.shiftRight_eq_div_pow, ← clipped]
  rfl

/-! ### Maximum and minimum (18 R401) -/

theorem aluMax_eq (a b : Word) : aluMax a b = { value := BitVec.ofInt 64 (max a.toInt b.toInt) } := by
  unfold aluMax
  simp only [BitVec.slt_eq_decide, Int.max_def]
  by_cases less : a.toInt < b.toInt
  · simp [less, less.le]
  · rcases lt_or_eq_of_le (not_lt.mp less) with more | same
    · simp [less, not_le.mpr more]
    · simp [BitVec.eq_of_toInt_eq same]

theorem aluMin_eq (a b : Word) : aluMin a b = { value := BitVec.ofInt 64 (min a.toInt b.toInt) } := by
  unfold aluMin
  simp only [BitVec.slt_eq_decide, Int.min_def]
  by_cases less : b.toInt < a.toInt
  · simp [less, not_le.mpr less]
  · simp [less, not_lt.mp less]

theorem aluMaxN_eq (a b : Word) : aluMaxN a b = { value := BitVec.ofNat 64 (max a.toNat b.toNat) } := by
  unfold aluMaxN
  simp only [BitVec.ult_eq_decide, Nat.max_def]
  by_cases less : a.toNat < b.toNat
  · simp [less, less.le]
  · rcases lt_or_eq_of_le (not_lt.mp less) with more | same
    · simp [less, not_le.mpr more]
    · simp [BitVec.eq_of_toNat_eq same]

theorem aluMinN_eq (a b : Word) : aluMinN a b = { value := BitVec.ofNat 64 (min a.toNat b.toNat) } := by
  unfold aluMinN
  simp only [BitVec.ult_eq_decide, Nat.min_def]
  by_cases less : b.toNat < a.toNat
  · simp [less, not_le.mpr less]
  · simp [less, not_lt.mp less]

/-! ### The statements -/

/-- Settles O2: each operation is its arithmetic, and only the saturating forms raise a flag. -/
theorem scalarIntegerResults : Obligations.ScalarIntegerResults :=
  ⟨fun _ _ _ _ _ sources =>
    ⟨completes_sBinary_plain sources rfl aluAdd_eq, completes_sBinary_plain sources rfl aluSub_eq,
      completes_sBinary_plain sources rfl (fun _ _ => rfl), completes_sBinary_plain sources rfl (fun _ _ => rfl),
      completes_sBinary_plain sources rfl (fun _ _ => rfl), completes_sBinary_plain sources rfl (fun _ _ => rfl)⟩,
   fun _ _ _ _ _ sources =>
    ⟨completes_sBinary_plain sources rfl aluMul_eq, completes_sBinary_plain sources rfl (fun _ _ => rfl),
      completes_sBinary_plain sources rfl (fun _ _ => rfl)⟩,
   fun _ _ _ A B sources =>
    ⟨completes_sBinary sources rfl (fun _ _ => sat64_value _) (anyFlags_sat64 A B _),
      completes_sBinary sources rfl (fun _ _ => sat64_value _) (anyFlags_sat64 A B _)⟩⟩

/-- Settles O3: the counts from 64 on leave no bit of `a` but its sign. -/
theorem scalarShifts : Obligations.ScalarShifts :=
  fun _ _ _ _ _ sources =>
    ⟨fun a b large => ⟨shiftLeft_large a large, shiftRight_large a large, by
        rw [toInt_shiftRight_large a (Nat.le_of_succ_le large)]
        split <;> rfl⟩,
      completes_sBinary_plain sources rfl aluShl_eq, completes_sBinary_plain sources rfl aluShr_eq,
      completes_sBinary_plain sources rfl aluSar_eq, fun c g _ imm => readSrcB_of_immediate c g imm⟩

/-- Settles O4: the order of the integers that the words stand for. -/
theorem scalarMaxMin : Obligations.ScalarMaxMin :=
  fun _ _ _ _ _ sources =>
    ⟨completes_sBinary_plain sources rfl aluMax_eq, completes_sBinary_plain sources rfl aluMin_eq,
      completes_sBinary_plain sources rfl aluMaxN_eq, completes_sBinary_plain sources rfl aluMinN_eq,
      fun c g _ imm => readSrcB_of_immediate c g imm⟩

end Sys2Proof.Proofs
end

section
/-! SUPPORT. Scalar slots of one source, bit fields, divides, compares and floating point (17 R359, R366, 18 R378, R383 to R386,
19 R407, R409, R414). -/
namespace Sys2Proof.Proofs
open Sys2Proof Sys2Proof.Machine Sys2Proof.Laws

/-! ### A slot of one source -/

section
variable {i : Instr} {s : State} {c : Ctx} {f : SFields} {A : List Word} {op n latch : Nat}

theorem completes_sUnary {fn : Word → IRes} {value : Word → Word} {flags : BitVec 4}
    (source : readCode s.ctx f.srcA.toNat (groupSize f.width) = .ok (A, c))
    (runs : exec i s = settle s (s.sUnary op f n latch fn))
    (valued : ∀ a, (fn a).value = value a) (flagged : anyFlags (A.map fn) = flags) :
    Completes i s (ScalarResult (s.setCtx c) f n latch (A.map value) flags) := by
  obtain ⟨t, done, result⟩ := sUnary_ok op n latch fn source
  have values : (A.map fn).map (fun r => r.value) = A.map value := by
    rw [List.map_map]
    exact List.map_congr_left fun a _ => valued a
  rw [values] at result
  exact ⟨t, by rw [runs, done, settle_ok], flagged ▸ result⟩

theorem completes_sUnary_plain {fn : Word → IRes} {value : Word → Word}
    (source : readCode s.ctx f.srcA.toNat (groupSize f.width) = .ok (A, c))
    (runs : exec i s = settle s (s.sUnary op f n latch fn)) (gives : ∀ a, fn a = { value := value a }) :
    Completes i s (ScalarResult (s.setCtx c) f n latch (A.map value) 0) := by
  refine completes_sUnary source runs (fun a => by rw [gives]) (anyFlags_of_plain fun x hx => ?_)
  obtain ⟨a, -, rfl⟩ := List.mem_map.mp hx
  rw [gives]

end

/-! ### Counts (17 R359, 19 R407) -/

/-- Leading zero bits. -/
def leadingZeros (a : Word) : Nat := if a.toNat = 0 then 64 else 63 - Nat.log2 a.toNat

theorem aluClz_eq (a : Word) : aluClz a = { value := BitVec.ofNat 64 (leadingZeros a) } := by
  unfold aluClz leadingZeros
  split <;> rfl

theorem leadingZeros_bounds (a : Word) :
    leadingZeros a ≤ 64 ∧ a.toNat < 2 ^ (64 - leadingZeros a) ∧ (leadingZeros a < 64 → 2 ^ (63 - leadingZeros a) ≤ a.toNat) := by
  unfold leadingZeros
  by_cases zero : a.toNat = 0
  · simp [zero]
  · have top : Nat.log2 a.toNat < 64 := (Nat.log2_lt zero).mpr a.isLt
    rw [if_neg zero]
    refine ⟨by omega, ?_, fun _ => ?_⟩
    · rw [show 64 - (63 - Nat.log2 a.toNat) = Nat.log2 a.toNat + 1 by omega]
      exact (Nat.log2_lt zero).mp (Nat.lt_succ_self _)
    · rw [show 63 - (63 - Nat.log2 a.toNat) = Nat.log2 a.toNat by omega]
      exact Nat.log2_self_le zero

theorem ctzNat_spec : ∀ n a : Nat, ctzNat n a ≤ n ∧ (a < 2 ^ n → 2 ^ ctzNat n a ∣ a) ∧
    (ctzNat n a < n → ¬ 2 ^ (ctzNat n a + 1) ∣ a) := by
  intro n
  induction n with
  | zero => intro a; simp [ctzNat]
  | succ n ih =>
    intro a
    obtain ⟨bound, divides, most⟩ := ih (a / 2)
    unfold ctzNat
    split
    next odd =>
      refine ⟨by omega, fun _ => one_dvd _, fun _ h => ?_⟩
      simp only [zero_add, pow_one] at h
      omega
    next even =>
      have whole : a = 2 * (a / 2) := by omega
      refine ⟨by omega, fun small => ?_, fun more => ?_⟩
      · rw [whole, pow_succ']
        exact Nat.mul_dvd_mul_left 2 (by rw [← whole]; exact divides (by omega))
      · rw [whole, pow_succ', Nat.mul_dvd_mul_iff_left (by decide), ← whole]
        exact most (by omega)

theorem aluCtz_bounds (a : Word) :
    ctzNat 64 a.toNat ≤ 64 ∧ 2 ^ ctzNat 64 a.toNat ∣ a.toNat ∧ (ctzNat 64 a.toNat < 64 → ¬ 2 ^ (ctzNat 64 a.toNat + 1) ∣ a.toNat) :=
  let ⟨bound, divides, most⟩ := ctzNat_spec 64 a.toNat
  ⟨bound, divides a.isLt, most⟩

theorem popNat_eq_countP : ∀ n a : Nat, popNat n a = (List.range n).countP (fun i => a.testBit i) := by
  intro n
  induction n with
  | zero => intro a; rfl
  | succ n ih =>
    intro a
    rw [popNat, ih, List.range_succ_eq_map, List.countP_cons, List.countP_map, Nat.add_comm]
    congr 1
    · refine List.countP_congr fun i _ => ?_
      simp [Nat.testBit_succ]
    · rcases Nat.mod_two_eq_zero_or_one a with h | h <;> simp [Nat.testBit_zero, h]

/-! ### Bit fields (18 R383) -/

theorem div_two_pow_mod_two_eq_one_iff {x k : Nat} (bound : x < 2 ^ (k + 1)) : x / 2 ^ k % 2 = 1 ↔ 2 ^ k ≤ x := by
  have : x / 2 ^ k < 2 := by rw [Nat.div_lt_iff_lt_mul (by positivity)]; rw [pow_succ'] at bound; exact bound
  rw [Nat.mod_eq_of_lt this, ← Nat.one_le_div_iff (by positivity)]
  omega

theorem bits_bit_eq (x k : Nat) : (bits x k k == 1) = x.testBit k := by
  unfold bits
  rw [Nat.add_sub_cancel_left, pow_one, Nat.testBit_eq_decide_div_mod_eq]
  exact Bool.beq_eq_decide_eq _ _

theorem bits_low_eq (x hi : Nat) : bits x hi 0 = x % 2 ^ (hi + 1) := by
  unfold bits
  rw [pow_zero, Nat.div_one, Nat.sub_zero]

theorem bfSx_eq (c : Word) : bfSx c = c.getLsbD 15 := by
  unfold bfSx
  rw [BitVec.getLsbD, Nat.testBit_eq_decide_div_mod_eq]
  exact Bool.beq_eq_decide_eq _ _

theorem aluExt_eq (a c : Word) : aluExt a c =
    (let x := a.toNat / 2 ^ bfPos c % 2 ^ bfLen c
     if c.getLsbD 15 ∧ 0 < bfLen c ∧ 2 ^ (bfLen c - 1) ≤ x then BitVec.ofInt 64 ((x : Int) - 2 ^ bfLen c)
     else BitVec.ofNat 64 x) := by
  unfold aluExt
  rw [bfSx_eq]
  have sign : 0 < bfLen c → (a.toNat / 2 ^ bfPos c % 2 ^ bfLen c / 2 ^ (bfLen c - 1) % 2 = 1 ↔
      2 ^ (bfLen c - 1) ≤ a.toNat / 2 ^ bfPos c % 2 ^ bfLen c) := fun some =>
    div_two_pow_mod_two_eq_one_iff (by rw [Nat.sub_add_cancel some]; exact Nat.mod_lt _ (by positivity))
  simp only [and_congr_right_iff.mpr sign]

theorem getLsbD_fieldMask {n p i : Nat} (h : i < 64) :
    (BitVec.ofNat 64 ((2 ^ n - 1) * 2 ^ p)).getLsbD i = decide (p ≤ i ∧ i < p + n) := by
  simp only [BitVec.getLsbD_ofNat, h, decide_true, Bool.true_and, Nat.testBit_mul_two_pow, Nat.testBit_two_pow_sub_one]
  by_cases low : p ≤ i
  · simp only [low, decide_true, Bool.true_and, true_and]
    congr 1
    exact propext (by omega)
  · simp [low]

theorem getLsbD_aluIns (d a c : Word) {i : Nat} (h : i < 64) : (aluIns d a c).getLsbD i =
    if bfPos c ≤ i ∧ i < bfPos c + bfLen c then a.getLsbD (i - bfPos c) else d.getLsbD i := by
  unfold aluIns
  simp only [BitVec.getLsbD_or, BitVec.getLsbD_and, BitVec.getLsbD_not, BitVec.getLsbD_shiftLeft, getLsbD_fieldMask h, h]
  by_cases inside : bfPos c ≤ i ∧ i < bfPos c + bfLen c
  · simp [inside]
  · simp only [inside, if_false, decide_false, Bool.not_false, Bool.and_true, Bool.and_false, Bool.or_false, decide_true]

/-! ### Divides (18 R378, R379) -/

section
variable {i : Instr} {s r : State} {f : SFields} {a b : Word} {fn : Word → Word → Word}

theorem completes_sDivide (sources : s.sSources f readSrcB = .ok ([a], [b], r)) (divisor : b ≠ 0)
    (runs : exec i s = settle s (s.sDivide f fn)) :
    Completes i s (fun t => t = r.setCtx (r.ctx.setPort 6 (r.ctx.port 6 ++
      [{ value := (fn a b).setWidth 512, writes := if f.nw = 0 then [Wr.sreg f.dst.toNat (fn a b)] else [] }]))) := by
  refine ⟨_, ?_, rfl⟩
  rw [runs]
  unfold State.sDivide
  rw [sources, bind_ok]
  dsimp only [List.headD_cons]
  rw [if_neg divisor]
  rfl

theorem exec_sDivide_by_zero (sources : s.sSources f readSrcB = .ok ([a], [0], r))
    (runs : exec i s = settle s (s.sDivide f fn)) : exec i s = .next (s.takeTrap .divz 0) := by
  rw [runs]
  unfold State.sDivide
  rw [sources, bind_ok]
  rfl

end

/-! ### The statement about bit fields and divides -/

/-- Settles O5: the counts by their bounds, the fields bit by bit, and a divide by its divisor. -/
theorem scalarDivisionAndBits : Obligations.ScalarDivisionAndBits := by
  refine ⟨⟨leadingZeros, fun a => ctzNat 64 a.toNat, fun a => popNat 64 a.toNat, leadingZeros_bounds, aluCtz_bounds,
      fun a => popNat_eq_countP 64 a.toNat, fun s f A c source => ?unary⟩, fun s f => ⟨fun r a c sources => ⟨?ext, ?ins⟩,
      fun a c source => ?sel⟩, fun s r f a b sources divisor => ?divide, fun s r f a sources i divides => ?divz⟩
  case unary =>
    exact ⟨completes_sUnary_plain source rfl aluClz_eq, completes_sUnary_plain source rfl (fun _ => rfl),
      completes_sUnary_plain source rfl (fun _ => rfl), completes_sUnary_plain source rfl (fun _ => rfl)⟩
  case ext =>
    have gives := completes_sBinary_plain (i := .ext f) (value := aluExt) sources rfl (fun _ _ => rfl)
    rw [List.zipWith_cons_cons, List.zipWith_nil_left, aluExt_eq] at gives
    exact gives
  case ins =>
    exact ⟨aluIns (s.ctx.readS f.dst.toNat) a c, fun i h => getLsbD_aluIns _ a c h,
      completes_sBinary_plain (i := .ins f) (value := aluIns (s.ctx.readS f.dst.toNat)) sources rfl (fun _ _ => rfl)⟩
  case sel =>
    have condition : (s.ctx.readP (bits f.srcB.toNat 3 0) != (bits f.srcB.toNat 6 6 == 1)) =
        xor (s.ctx.readP (f.srcB.toNat % 16)) (f.srcB.getLsbD 6) := by
      rw [bits_bit_eq, bits_low_eq]
      rfl
    refine completes_sUnary_plain (i := .sel f) (value := fun a =>
      if xor (s.ctx.readP (f.srcB.toNat % 16)) (f.srcB.getLsbD 6) then a else s.ctx.readS f.dst.toNat) source rfl ?_
    intro a
    rw [condition]
  case divide =>
    exact ⟨completes_sDivide (fn := aluDiv) sources divisor rfl, completes_sDivide (fn := aluDivR) sources divisor rfl,
      completes_sDivide (fn := aluDivN) sources divisor rfl, completes_sDivide (fn := aluDivRn) sources divisor rfl⟩
  case divz =>
    simp only [List.mem_cons, List.not_mem_nil, or_false] at divides
    obtain rfl | rfl | rfl | rfl := divides <;> exact exec_sDivide_by_zero sources rfl

/-! ### Compares (17 R366, 18 R385, 19 R409) -/

theorem completes_sCompare {i : Instr} {s r : State} {f : SFields} {A B : List Word} {op n latch : Nat}
    {readB : Ctx → BitVec 8 → Nat → Res (List Word × Ctx)} {fn : Word → Word → Bool} {b : Bool}
    (sources : s.sSources f readB = .ok (A, B, r)) (runs : exec i s = settle s (s.sCompare op f n latch readB fn))
    (gives : fn (A.headD 0) (B.headD 0) = b) : Completes i s (PredicateResult r f n latch b) := by
  obtain ⟨t, done, result⟩ := sCompare_ok op n latch fn sources
  exact ⟨t, by rw [runs, done, settle_ok], gives ▸ result⟩

theorem ordered_and (a b : FVal) (x : Bool) : (!a.isNan && !b.isNan && x) = (!(a.isNan || b.isNan) && x) := by
  rw [Bool.not_or]

theorem plogBit_eq (b : BitVec 8) (x y : Bool) :
    plogBit (BitVec.ofNat 4 (bits b.toNat 7 4)) x y = b.getLsbD (4 + 2 * x.toNat + y.toNat) := by
  have small : 2 * x.toNat + y.toNat < 4 := by have := x.toNat_lt; have := y.toNat_lt; omega
  unfold plogBit bits
  rw [BitVec.getLsbD_ofNat, decide_eq_true small, Bool.true_and, Nat.testBit_mod_two_pow, decide_eq_true small, Bool.true_and,
    Nat.testBit_div_two_pow, BitVec.getLsbD]
  congr 1
  omega

/-- Settles O6: each compare by its relation, and PLOG by the bit of its table. -/
theorem scalarConditions : Obligations.ScalarConditions := by
  refine fun s f => ⟨fun r A B sources => ?integer, fun r A B sources => ?float, ?plog⟩
  case integer =>
    have compared {i : Instr} {fn : Word → Word → Bool} {op : Nat} {p : Prop}
        (runs : exec i s = settle s (s.sCompare op f 1 (aluLatch f.inS1) readSrcB fn))
        (relation : fn (A.headD 0) (B.headD 0) = true ↔ p) :
        ∃ x : Bool, (x = true ↔ p) ∧ Completes i s (PredicateResult r f 1 (if f.inS1 then 1 else 0) x) :=
      ⟨_, relation, completes_sCompare sources runs rfl⟩
    exact ⟨compared rfl beq_iff_eq, compared rfl bne_iff_ne, compared rfl BitVec.slt_iff_toInt_lt,
      compared rfl BitVec.sle_iff_toInt_le, compared rfl BitVec.ult_iff_toNat_lt, compared rfl BitVec.ule_iff_toNat_le⟩
  case float =>
    exact ⟨completes_sCompare sources rfl rfl, completes_sCompare sources rfl (ordered_and _ _ _),
      completes_sCompare sources rfl (ordered_and _ _ _), completes_sCompare sources rfl (ordered_and _ _ _)⟩
  case plog =>
    have looked : plogBit (BitVec.ofNat 4 (bits f.srcB.toNat 7 4)) (s.ctx.readP (bits f.srcA.toNat 3 0))
        (s.ctx.readP (bits f.srcB.toNat 3 0)) = f.srcB.getLsbD
          (4 + 2 * (s.ctx.readP (f.srcA.toNat % 16)).toNat + (s.ctx.readP (f.srcB.toNat % 16)).toNat) := by
      rw [bits_low_eq, bits_low_eq, plogBit_eq]
      rfl
    exact ⟨_, rfl, looked ▸ sEmit_pred s 0x4C f 1 (aluLatch f.inS1) _⟩

/-! ### Floating point (18 R384, R386) -/

section
variable {i : Instr} {s r : State} {f : SFields} {A B : List Word} {op : Nat}

/-- The results of the scalar FP unit: their codes, and their flags together. -/
def FloatResults (s : State) (f : SFields) (rs : List FRes) : State → Prop :=
  ScalarResult s f 4 4 (rs.map (fun r => BitVec.ofNat 64 r.code)) (rs.foldl (fun x r => x ||| r.flags) (0 : BitVec 4))

theorem sEmit_floats (s : State) (op : Nat) (f : SFields) (rs : List FRes) :
    FloatResults s f rs (s.sEmit op f 4 (groupWr f.nw f.dst.toNat 4 (rs.map fresWord))) := by
  have result := sEmit_group s op f 4 4 (rs.map fresWord)
  rw [List.map_map, List.foldl_map] at result
  exact result

theorem completes_sBinaryFp {fn : Word → Word → IRes} {value : FVal → FVal → FRes}
    (sources : s.sSources f readSrcBFp = .ok (A, B, r)) (runs : exec i s = settle s (s.sBinaryFp op f fn))
    (gives : ∀ a b, fn a b = fresWord (value (f32Of a) (f32Of b))) :
    Completes i s (FloatResults r f (List.zipWith (fun a b => value (f32Of a) (f32Of b)) A B)) := by
  have same : List.zipWith fn A B = (List.zipWith (fun a b => value (f32Of a) (f32Of b)) A B).map fresWord := by
    rw [List.map_zipWith]
    exact congrArg (fun g => List.zipWith g A B) (funext fun a => funext fun b => gives a b)
  refine ⟨_, ?_, sEmit_floats r op f _⟩
  rw [runs, State.sBinaryFp, sources, bind_ok, same, settle_ok]

theorem completes_ffma (sources : s.sSources f readSrcBFp = .ok (A, B, r)) :
    Completes (.ffma f) s (FloatResults r f (List.zipWith
      (fun ab c => Machine.ffma fp32 s.ctx.srm (f32Of ab.1) (f32Of ab.2) (f32Of c)) (A.zip B)
      ((List.range (groupSize f.width)).map (fun i => s.ctx.readS (f.dst.toNat + i))))) := by
  refine ⟨_, ?_, sEmit_floats r 0x3D f _⟩
  show settle s ((s.sSources f readSrcBFp).bind _) = _
  rw [sources, bind_ok, settle_ok, List.map_zipWith]
  rfl

end

/-- Settles O7: each operation is rounded once, and its code fills the low half of the result. -/
theorem scalarFloating : Obligations.ScalarFloating := by
  refine fun s f => ⟨fun r A B sources => ?binary, fun A c source => ?convert⟩
  case binary =>
    exact ⟨completes_sBinaryFp sources rfl (fun _ _ => rfl), completes_sBinaryFp sources rfl (fun _ _ => rfl),
      completes_sBinaryFp (value := fun a b => fround fp32 .rne (Machine.fmax a b)) sources rfl (fun _ _ => rfl),
      completes_sBinaryFp (value := fun a b => fround fp32 .rne (Machine.fmin a b)) sources rfl (fun _ _ => rfl),
      completes_ffma sources⟩
  case convert =>
    have converts {i : Instr} {op : Nat} {fn : Word → IRes} (runs : exec i s = settle s (s.sUnary op f 3 4 fn)) :
        Completes i s (ScalarResult (s.setCtx c) f 3 4 (A.map (fun a => (fn a).value))
          (A.foldl (fun x a => x ||| (fn a).flags) 0)) :=
      completes_sUnary source runs (fun _ => rfl) (by simp only [anyFlags, List.foldl_map])
    exact ⟨converts (fn := fpCvtFs s.ctx.srm) rfl, converts (fn := fpCvtSf s.ctx.srm) rfl,
      converts (fn := fpCvtFb s.ctx.srm) rfl, converts (fn := fpCvtBf) rfl⟩

end Sys2Proof.Proofs
end

section
/-! SUPPORT. The CSR unit, the shadow form of MOV, and the scale slot (04 R84, 16 R347, 17 R367 to R369, 18 R396, R398, 19 R413). -/
namespace Sys2Proof.Proofs
open Sys2Proof Sys2Proof.Machine Sys2Proof.Laws

/-- A slot that owes one write. -/
theorem completes_emit_one {i : Instr} {s u : State} {cls : MouldClass} {cl slot n : Nat} {w : Wr}
    (runs : exec i s = .next (u.emit cls cl slot n [w])) : Completes i s (Owed u (u.clk + n) (fun x => x = w)) :=
  ⟨_, runs, owed_congr (emit_owed u cls cl slot n [w]) fun _ => List.mem_singleton⟩

/-! ### CWR and the shadow form of MOV -/

section
variable {s : State} {A : List Word} {c : Ctx}

theorem completes_cwr {f : SFields} (source : readCode s.ctx f.srcA.toNat 1 = .ok (A, c))
    (accepted : cwrRefuses (f.srcB.toNat % 128) (s.tile s.cur).crewSpad (A.headD 0) = false) :
    Completes (.cwr f) s (Owed (s.setCtx c) (s.clk + 1) (fun w => w = .csr (f.srcB.toNat % 128) (A.headD 0))) := by
  refine completes_emit_one (u := s.setCtx c) (cls := .s) (cl := 0) (slot := sWord f.inS1 (packS 0x2E f)) ?_
  show settle s ((readCode s.ctx f.srcA.toNat 1).bind _) = _
  rw [source, bind_ok]
  dsimp only
  rw [accepted, if_neg Bool.false_ne_true]
  rfl

theorem exec_cwr_of_refused {f : SFields} (source : readCode s.ctx f.srcA.toNat 1 = .ok (A, c))
    (refused : cwrRefuses (f.srcB.toNat % 128) (s.tile s.cur).crewSpad (A.headD 0) = true) :
    exec (.cwr f) s = .next (s.takeTrap .illop (illopInfo 0x0C (sPos f.inS1))) := by
  show settle s ((readCode s.ctx f.srcA.toNat 1).bind _) = _
  rw [source, bind_ok]
  dsimp only
  rw [refused, if_pos rfl]
  rfl

theorem completes_movShadow {f : ShadowFields} (source : readCode s.ctx f.srcA.toNat 1 = .ok (A, c)) :
    Completes (.movShadow f) s (Owed (s.setCtx c) (s.clk + 1) (fun w =>
      (f.nw = 0 ∧ w = if f.sel.getLsbD 5 then .shadow (f.sel.toNat / 4 % 8) (BitVec.allOnes 64) (A.headD 0)
        else .shadow (f.sel.toNat / 4 % 8) ((0xFFFF : Word) <<< (16 * (f.sel.toNat % 4)))
          (A.headD 0 <<< (16 * (f.sel.toNat % 4)))) ∨
      w = .latch (if f.inS1 then 1 else 0) (A.headD 0))) := by
  have whole : (bits f.sel.toNat 5 5 = 1) = (f.sel.getLsbD 5 = true) :=
    propext (beq_iff_eq.symm.trans (Bool.eq_iff_iff.mp (bits_bit_eq f.sel.toNat 5)))
  refine ⟨_, ?_, owed_congr (emit_owed (s.setCtx c) .s 0 (sWord f.inS1 (packShadow f)) 1
    ((if f.nw = 0 then [if bits f.sel.toNat 5 5 = 1 then Wr.shadow (bits f.sel.toNat 4 2) (BitVec.allOnes 64) (A.headD 0)
        else .shadow (bits f.sel.toNat 4 2) ((0xFFFF : Word) <<< (16 * bits f.sel.toNat 1 0))
          (A.headD 0 <<< (16 * bits f.sel.toNat 1 0))] else []) ++ [.latch (aluLatch f.inS1) (A.headD 0)])) fun w => ?_⟩
  · show settle s ((readCode s.ctx f.srcA.toNat 1).bind _) = _
    rw [source, bind_ok]
    rfl
  · rw [List.mem_append, List.mem_singleton, bits_low_eq]
    simp only [whole]
    by_cases kept : f.nw = 0
    · rw [if_pos kept, List.mem_singleton]
      exact or_congr_left (iff_and_self.mpr fun _ => kept)
    · simp only [kept, if_false, List.not_mem_nil, false_and]
      rfl

end

/-! ### Scales (18 R396) -/

/-- The digit of a number that is given by its digits. -/
theorem packNat_digit (w : Nat) (l : List Nat) (j : Nat) : packNat w l / 2 ^ (w * j) % 2 ^ w = l.getD j 0 % 2 ^ w := by
  induction l generalizing j with
  | nil => simp [packNat]
  | cons x t ih =>
    cases j with
    | zero => simp [packNat]
    | succ j =>
      rw [packNat, List.getD_cons_succ, ← ih j, Nat.mul_succ, Nat.add_comm (w * j), Nat.pow_add, ← Nat.div_div_eq_div_mul,
        Nat.add_mul_div_left _ _ (by positivity), Nat.div_eq_of_lt (Nat.mod_lt x (by positivity)), Nat.zero_add]

theorem packNat_lt (w : Nat) (l : List Nat) : packNat w l < 2 ^ (w * l.length) := by
  induction l with
  | nil => simp [packNat]
  | cons x t ih =>
    rw [packNat, List.length_cons, Nat.mul_succ, Nat.add_comm (w * _), Nat.pow_add]
    have low : x % 2 ^ w < 2 ^ w := Nat.mod_lt x (by positivity)
    calc x % 2 ^ w + 2 ^ w * packNat w t < 2 ^ w * (packNat w t + 1) := by rw [Nat.mul_succ]; omega
      _ ≤ 2 ^ w * 2 ^ (w * t.length) := Nat.mul_le_mul_left _ ih

theorem bytesNat_lt (bs : List Byte) : bytesNat bs < 2 ^ (8 * bs.length) := by
  induction bs with
  | nil => simp [bytesNat]
  | cons b t ih =>
    rw [bytesNat, List.length_cons, Nat.mul_succ, Nat.pow_add]
    have := b.isLt
    omega

theorem take_drop_spadBytes (s : State) (t o n k m : Nat) (inside : k + m ≤ n) :
    ((s.spadBytes t o n).drop k).take m = s.spadBytes t (o + k) m := by
  refine List.ext_getElem? fun i => ?_
  by_cases within : i < m
  · simp [State.spadBytes, within, Nat.add_assoc, show k + i < n by omega]
  · simp [State.spadBytes, within]

theorem scalesOf_digit (block : Bool) (bs : List Byte) {j : Nat} (inside : j < 512) :
    (scalesOf block bs).toNat / 2 ^ (24 * j) % 2 ^ 24 =
      bytesNat ((bs.drop (3 * (if block then 128 * (j % 4) + j / 4 else j))).take 3) := by
  have fits := packNat_lt 24 ((List.range 512).map (fun j =>
    bytesNat ((bs.drop (3 * (if block then 128 * (j % 4) + j / 4 else j))).take 3)))
  rw [List.length_map, List.length_range] at fits
  have small := bytesNat_lt ((bs.drop (3 * (if block then 128 * (j % 4) + j / 4 else j))).take 3)
  unfold scalesOf
  rw [BitVec.toNat_ofNat, Nat.mod_eq_of_lt fits, packNat_digit, List.getD_eq_getElem?_getD, List.getElem?_map,
    List.getElem?_range inside, Option.map_some, Option.getD_some]
  refine Nat.mod_eq_of_lt (lt_of_lt_of_le small (Nat.pow_le_pow_right (by decide) ?_))
  have := List.length_take_le 3 (bs.drop (3 * (if block then 128 * (j % 4) + j / 4 else j)))
  omega

section
variable {s : State} (quiet : Quiet s) (f : KFields)
include quiet

theorem completes_lds {i : Instr} {op o : Nat} (block : Bool) (runs : exec i s = settle s (s.loadScales op f block))
    (at_ : o = (s.ctx.readS f.base.toNat).toNat % 2 ^ 48 + 64 * f.disp.toNat)
    (fits : o + 1536 ≤ (s.tile s.cur).crewSpad) (aligned : o % 64 = 0) (sound : (s.tile s.cur).spadPoison = []) :
    Completes i s (Owed s (s.clk + 4) (fun w => w = .scale f.sc.toNat (scalesOf block (s.spadBytes s.cur o 1536)))) := by
  have free := readBlocked_spad_of_quiet quiet 0 o 1536
  have read : s.readPlace s.cur s.curCtx (.spad o) 1536 .plain false = some (s.spadBytes s.cur o 1536, s) := by
    simp only [State.readPlace, spadBad_of_sound sound, Bool.false_eq_true, if_false]
  refine completes_emit_one (cls := .k) (cl := 0) (slot := packK op f) ?_
  rw [runs]
  unfold State.loadScales offset48
  simp only [← at_, fits, aligned, decide_true, beq_self_eq_true, need_true, bind_ok, free, read, Bool.false_eq_true, if_false,
    settle_ok]

/-- The scales by the bytes that each is made of. -/
theorem lds_loads {i : Instr} {op o : Nat} (block : Bool) (runs : exec i s = settle s (s.loadScales op f block))
    (at_ : o = (s.ctx.readS f.base.toNat).toNat % 2 ^ 48 + 64 * f.disp.toNat)
    (fits : o + 1536 ≤ (s.tile s.cur).crewSpad) (aligned : o % 64 = 0) (sound : (s.tile s.cur).spadPoison = []) :
    ∃ v : Scales, (∀ j < 512, v.toNat / 2 ^ (24 * j) % 2 ^ 24 =
        bytesNat (s.spadBytes s.cur (o + 3 * (if block then 128 * (j % 4) + j / 4 else j)) 3)) ∧
      Completes i s (Owed s (s.clk + 4) (fun w => w = .scale f.sc.toNat v)) := by
  refine ⟨_, fun j inside => ?_, completes_lds quiet f block runs at_ fits aligned sound⟩
  rw [scalesOf_digit block _ inside, take_drop_spadBytes _ _ _ _ _ _ (by split <;> omega)]

end

/-! ### The statement -/

/-- Settles O8: a value of the CSR unit, the write of CWR or its trap, the shadow that MOV writes, and the scales of LDS by the
bytes that each is made of. -/
theorem csrUnitShadowsAndScales : Obligations.CsrUnitShadowsAndScales := by
  refine ⟨fun s f => ⟨?cnt, ?crd, ?nrg, ?rnds, fun A c source => ⟨fun accepted => ?cwr, fun refused => ?refused⟩⟩,
    fun s f A c source => ?shadow, fun s => ⟨fun imm => ?limm, fun f quiet fits aligned sound => ?lds⟩⟩
  case cnt => exact ⟨_, rfl, sCsrUnit_result s 0x2B f _⟩
  case crd => exact ⟨_, rfl, sCsrUnit_result s 0x2C f _⟩
  case nrg => exact ⟨_, rfl, sCsrUnit_result s 0x4A f _⟩
  case rnds => exact ⟨_, rfl, sCsrUnit_result _ 0x4E f _⟩
  case cwr => exact completes_cwr source accepted
  case refused => exact exec_cwr_of_refused source refused
  case shadow =>
    obtain ⟨t, done, owed⟩ := completes_movShadow (f := f) source
    refine ⟨t, done, owed_congr owed fun w => ?_⟩
    cases whole : f.sel.getLsbD 5 <;> simp
  case limm => exact ⟨_, rfl, owed_congr (emit_owed s .none 0 0 1 [.latch 15 (imm.signExtend 64)]) fun _ => List.mem_singleton⟩
  case lds =>
    exact ⟨lds_loads quiet f false rfl rfl fits aligned sound, lds_loads quiet f true rfl rfl fits aligned sound⟩

end Sys2Proof.Proofs
end

section
/-! SUPPORT. Transfers of control (17 R362, R363, 18 R381, R399, R400, 19 R412, R430, 20 R460): the target of a branch, and what
each instruction that transfers control comes to where its guard holds. -/
namespace Sys2Proof.Proofs
open Sys2Proof Sys2Proof.Machine Sys2Proof.Laws

/-! ### Guards -/

section
variable {s : State}

theorem guardHolds_of_guardTrue {pred : BitVec 4} {sense : BitVec 1} (h : guardTrue s pred sense) :
    guardHolds s.ctx pred sense = true := by
  have same : (sense == 1) = decide (sense = 1) := rfl
  rw [guardHolds, same]
  exact h

theorem guarded_of_guardTrue {f : CFields} (h : guardTrue s f.pred f.sense) (r : Res State) : s.guarded f r = r := by
  unfold State.guarded
  rw [guardHolds_of_guardTrue h, if_pos rfl]

/-! ### Targets (05 R112) -/

theorem targetOf_eq (pc : Nat) (off : Int) : targetOf pc off = (((pc : Int) + 2 * off) % 2 ^ 64).toNat := by
  unfold targetOf
  rw [BitVec.toNat_ofInt]
  rfl

/-! ### Fields of the operand -/

theorem opn_high (f : CFields) {lo : Nat} (h : lo ≤ 18) : bits (opn f) 18 lo = f.opnd.toNat / 2 ^ lo := by
  unfold bits opn
  refine Nat.mod_eq_of_lt ((Nat.div_lt_iff_lt_mul (by positivity)).mpr ?_)
  rw [← Nat.pow_add]
  exact lt_of_lt_of_le f.opnd.isLt (Nat.pow_le_pow_right (by decide) (by omega))

end

/-! ### Branches (17 R362, 18 R400) -/

/-- A strand that branches to a target. -/
def branchedTo (c : Ctx) (target : Nat) : Ctx :=
  { c with
    npc := some target
    loops := c.loops.filter (fun e => decide (e.start ≤ target ∧ target ≤ e.stop))
    rot := if target ≤ c.pc ∨ 2 ^ 63 ≤ target then 1 else 0 }

theorem branch_eq (c : Ctx) (target : Nat) : c.branch target = branchedTo c target := by
  simp only [Ctx.branch, Ctx.goto, branchedTo, Bool.decide_and]

section
variable {s : State} {f : CFields}

theorem branchTarget_eq : s.branchTarget f = (((s.ctx.pc : Int) + 2 * f.opnd.toInt) % 2 ^ 64).toNat := targetOf_eq _ _

theorem exec_br : exec (.br f) s = .next (s.setCtx (branchedTo s.ctx (((s.ctx.pc : Int) + 2 * f.opnd.toInt) % 2 ^ 64).toNat)) := by
  rw [← branchTarget_eq, ← branch_eq]
  rfl

/-! ### Instructions whose guard holds -/

variable (guard : guardTrue s f.pred f.sense)
include guard

theorem exec_brc : exec (.brc f) s = exec (.br f) s := by
  show settle s (s.guarded f _) = _
  rw [guarded_of_guardTrue guard]
  rfl

theorem exec_call_of_room (room : s.ctx.callStack.length < 16) : exec (.call f) s = .next (s.setCtx { s.ctx with
    npc := some (((s.ctx.pc : Int) + 2 * f.opnd.toInt) % 2 ^ 64).toNat
    callStack := s.ctx.seqpc :: s.ctx.callStack
    rot := 1 }) := by
  show settle s (s.guarded f _) = _
  rw [guarded_of_guardTrue guard, if_neg (Nat.not_le.mpr room), branchTarget_eq]
  rfl

theorem exec_call_of_full (full : 16 ≤ s.ctx.callStack.length) : exec (.call f) s = .next (s.takeTrap .baddesc 0x10) := by
  show settle s (s.guarded f _) = _
  rw [guarded_of_guardTrue guard, if_pos full]
  rfl

theorem exec_ret : exec (.ret f) s = settle s (match s.ctx.callStack with
    | [] => .trap .baddesc 0x12
    | t :: rest => .ok (s.setCtx { s.ctx.goto t with callStack := rest, rot := 1 })) :=
  congrArg (settle s) (guarded_of_guardTrue guard _)

theorem exec_exit : exec (.exit f) s = .next (s.setCtx { s.ctx with run := .exiting }) := by
  show settle s (s.guarded f _) = _
  rw [guarded_of_guardTrue guard]
  rfl

theorem exec_yield : exec (.yield f) s = .next (s.setCtx { s.ctx with rot := 2 }) := by
  show settle s (s.guarded f _) = _
  rw [guarded_of_guardTrue guard]
  rfl

theorem exec_trap :
    exec (.trap f) s = .next (s.trapAt s.cur s.curCtx 0 .trapi (BitVec.ofNat 64 (f.opnd.toNat % 2 ^ 16))) := by
  show settle s (s.guarded f _) = _
  rw [guarded_of_guardTrue guard]
  rfl

/-! ### Loops (18 R399) -/

theorem exec_loop : exec (.loop f) s = settle s (
    if (s.ctx.readS (f.opnd.toNat / 2 ^ 13)).toNat % 2 ^ 32 = 0 then
      .ok (s.setCtx { s.ctx with npc := some (s.ctx.pc + 2 * (f.opnd.toNat % 2 ^ 13)), skip := true })
    else if 4 ≤ s.ctx.loops.length then .trap .baddesc 0x11
    else .ok (s.setCtx { s.ctx with loops :=
      { start := s.ctx.seqpc, stop := s.ctx.pc + 2 * (f.opnd.toNat % 2 ^ 13)
        rem := (s.ctx.readS (f.opnd.toNat / 2 ^ 13)).toNat % 2 ^ 32 } :: s.ctx.loops })) := by
  show settle s (s.guarded f _) = _
  rw [guarded_of_guardTrue guard, opn_high f (by decide), bits_low_eq]
  rfl

end

theorem loopEnd_of_last {c : Ctx} {e : LoopEntry} {rest : List LoopEntry} (straight : c.npc = none) (top : c.loops = e :: rest)
    (last : e.stop = c.pc) : c.loopEnd =
      if 1 < e.rem then { c with npc := some e.start, loops := { e with rem := e.rem - 1 } :: rest, rot := max c.rot 1 }
      else { c with loops := rest } := by
  unfold Ctx.loopEnd
  rw [straight, top]
  exact if_pos last

/-! ### The statements -/

/-- Settles O12, instruction by instruction. -/
theorem transfersOfControl : Obligations.TransfersOfControl := by
  refine ⟨fun s f => ⟨exec_br, fun guard => (exec_brc guard).trans exec_br⟩, fun s f guard => ⟨exec_call_of_room guard,
    exec_call_of_full guard, fun t rest stack => ?ret, fun empty => ?underflow⟩,
    fun s f guard => ⟨exec_exit guard, exec_yield guard, exec_trap guard⟩⟩
  case ret =>
    rw [exec_ret guard, stack]
    rfl
  case underflow =>
    rw [exec_ret guard, empty]
    rfl

/-- Settles O13, by the count at LOOP and by the entry on top of the stack at the end of its body. -/
theorem loopsRepeatTheBody : Obligations.LoopsRepeatTheBody := by
  refine fun s f => ⟨fun guard => ⟨fun some room => ?push, fun none => ?skip, fun some full => ?full⟩,
    fun c e rest straight top last => ⟨fun more => ?again, fun done => ?pop⟩⟩
  case push => rw [exec_loop guard, if_neg some, if_neg (Nat.not_le.mpr room), settle_ok]
  case skip => rw [exec_loop guard, if_pos none, settle_ok]
  case full => rw [exec_loop guard, if_neg some, if_pos full, settle_trap]
  case again => rw [loopEnd_of_last straight top last, if_pos more]
  case pop => rw [loopEnd_of_last straight top last, if_neg (Nat.not_lt.mpr done)]

end Sys2Proof.Proofs
end

section
/-! SUPPORT. What the end of a barrier episode leaves (17 R361): of a strand everything but its RELEASED bits and the counter of
its BARG.a, and of a tile everything but its strands and its counters. -/
namespace Sys2Proof.Proofs
open Sys2Proof Sys2Proof.Machine Sys2Proof.Laws

/-! ### A write of the device -/

/-- The module but for its memory, its translations and their requests, and the writes that wait for them. -/
def sansWrites (s : State) : State := { sansMemory s with atc := [], pageReqs := [], deferred := [], saves := [] }

theorem sansWrites_touchPage (s : State) (pasid va : Nat) : sansWrites (s.touchPage pasid va) = sansWrites s := by
  unfold State.touchPage
  dsimp only
  repeat' split
  all_goals rfl

theorem sansWrites_touchRange (s : State) (pasid va n : Nat) : sansWrites (s.touchRange pasid va n) = sansWrites s :=
  foldl_frame sansWrites (fun (u : State) (p : Nat) => u.touchPage pasid (4096 * p))
    (fun u _ => sansWrites_touchPage u pasid _) _ s

theorem sansWrites_vaPut (s : State) (vf pasid : Nat) (obj : Option Nat) (tag : Bool) (cells : List (Nat × Byte)) :
    sansWrites (s.vaPut vf pasid obj tag cells) = sansWrites s := by
  refine foldl_frame sansWrites _ (fun u sec => ?_) _ s
  split
  · exact congrArg (fun v : State => { v with atc := [], pageReqs := [], deferred := [], saves := [] })
      (sansMemory_sectorWrite u _)
  · rfl

theorem sansWrites_devWrite {w : DevWrite} (plain : w.record = none) (s : State) : sansWrites (s.devWrite w) = sansWrites s := by
  have written : sansWrites ((s.touchRange w.pasid w.va w.bytes.length).vaPut w.vf w.pasid w.obj false
      (cellsFrom w.va w.bytes)) = sansWrites s := (sansWrites_vaPut ..).trans (sansWrites_touchRange ..)
  unfold State.devWrite
  simp only [plain]
  split
  · exact written
  · exact sansWrites_touchRange s _ _ _

theorem sansWrites_bumpSaved (s : State) (key n k : Nat) : sansWrites (s.bumpSaved key n k) = sansWrites s := by
  unfold State.bumpSaved
  split
  · rfl
  · dsimp only
    split
    · exact sansWrites_devWrite rfl s
    · rfl

theorem sansWrites_onSaved (s : State) (key : Nat) (y : Saved) (new : Tile) :
    sansWrites (s.onSaved key y new) = sansWrites s := by
  refine (foldl_frame sansWrites _ (fun u n => ?_) _ _).trans rfl
  dsimp only
  split
  · rfl
  · exact sansWrites_bumpSaved u key n _

/-! ### What the end of an episode leaves -/

/-- A strand but for what the end of an episode writes. -/
def sansBarrier (k : Ctx) : Ctx := { k with relCrew := false, relGang := false, bargA := none }

/-- A tile but for that of its strands, and but for its counters. -/
def sansArrivals (x : Tile) : Tile × (Nat → Ctx) := ({ x with ctxs := [], ct := [] }, fun d => sansBarrier (x.ctx d))

/-- The tile that acts, and every tile but for that. -/
def sansEpisodes (s : State) : Nat × (Nat → Tile × (Nat → Ctx)) := (s.cur, fun i => sansArrivals (s.tile i))

theorem eq_of_sansBarrier {k l : Ctx} (same : sansBarrier k = sansBarrier l) :
    k = { l with relCrew := k.relCrew, relGang := k.relGang, bargA := k.bargA } := by
  cases k
  cases l
  simp only [sansBarrier, Ctx.mk.injEq] at same ⊢
  simpa using same

section
variable {s u : State} (same : sansEpisodes u = sansEpisodes s)
include same

theorem sansArrivals_of_sansEpisodes (i : Nat) : sansArrivals (u.tile i) = sansArrivals (s.tile i) :=
  congrFun (congrArg Prod.snd same) i

theorem cur_of_sansEpisodes : u.cur = s.cur := congrArg Prod.fst same

theorem tile_of_sansEpisodes {α : Type} (f : Tile → α) (i : Nat) (reads : ∀ x : Tile, f { x with ctxs := [], ct := [] } = f x) :
    f (u.tile i) = f (s.tile i) := by
  have := congrArg (fun p => f p.1) (sansArrivals_of_sansEpisodes same i)
  simpa only [sansArrivals, reads] using this

theorem ctxAt_of_sansEpisodes (i d : Nat) : sansBarrier (u.ctxAt i d) = sansBarrier (s.ctxAt i d) :=
  congrFun (congrArg Prod.snd (sansArrivals_of_sansEpisodes same i)) d

theorem curCtx_of_sansEpisodes : u.curCtx = s.curCtx := by
  rw [State.curCtx, cur_of_sansEpisodes same, tile_of_sansEpisodes same Tile.running _ (fun _ => rfl)]
  rfl

theorem ctx_of_sansEpisodes : u.ctx = { s.ctx with
    relCrew := u.ctx.relCrew, relGang := u.ctx.relGang, bargA := u.ctx.bargA } := by
  refine eq_of_sansBarrier ?_
  rw [State.ctx, cur_of_sansEpisodes same, curCtx_of_sansEpisodes same]
  exact ctxAt_of_sansEpisodes same _ _

end

/-! ### Episodes -/

theorem sansArrivals_setCtx (x : Tile) (c : Nat) (k : Ctx) (same : sansBarrier k = sansBarrier (x.ctx c)) :
    sansArrivals (x.setCtx c k) = sansArrivals x := by
  refine Prod.ext rfl (funext fun d => ?_)
  by_cases here : d = c
  · subst here
    exact (congrArg sansBarrier (tile_setCtx_ctx ..)).trans same
  · exact congrArg sansBarrier (tile_setCtx_ctx_other _ _ _ here)

theorem sansArrivals_crewEpisode (x : Tile) : sansArrivals x.crewEpisode = sansArrivals x := by
  unfold Tile.crewEpisode
  dsimp only
  split
  · rfl
  · refine foldl_frame sansArrivals _ (fun y c => ?_) _ x
    exact sansArrivals_setCtx y c _ rfl

theorem sansArrivals_gangRelease (x : Tile) : sansArrivals x.gangRelease = sansArrivals x := by
  refine foldl_frame sansArrivals _ (fun y c => ?_) x.participants x
  dsimp only
  split
  · exact sansArrivals_setCtx y c _ rfl
  · exact sansArrivals_setCtx y c _ rfl

theorem sansEpisodes_setTile (s : State) (t : Nat) (x : Tile) (same : sansArrivals x = sansArrivals (s.tile t)) :
    sansEpisodes (s.setTile t x) = sansEpisodes s := by
  refine Prod.ext rfl (funext fun i => ?_)
  by_cases here : i = t
  · subst here
    exact (congrArg sansArrivals (setTile_tile ..)).trans same
  · exact congrArg sansArrivals (setTile_tile_other _ _ _ here)

theorem sansEpisodes_onSaved (s : State) (key : Nat) (y : Saved) (new : Tile) :
    sansEpisodes (s.onSaved key y new) = sansEpisodes s :=
  (congrArg sansEpisodes (sansWrites_onSaved s key y new) :)

theorem sansEpisodes_gangEpisode (s : State) (gang : Nat) : sansEpisodes (s.gangEpisode gang) = sansEpisodes s := by
  unfold State.gangEpisode
  split
  · rfl
  · dsimp only
    split
    · rfl
    · refine foldl_frame sansEpisodes _ (fun u j => ?_) _ s
      unfold State.onCrew
      split
      · exact sansEpisodes_setTile u _ _ (sansArrivals_gangRelease _)
      · split
        · exact sansEpisodes_onSaved u _ _ _
        · rfl

theorem sansEpisodes_episodes (s : State) (t : Nat) : sansEpisodes (s.episodes t) = sansEpisodes s := by
  have crew := sansEpisodes_setTile s t _ (sansArrivals_crewEpisode (s.tile t))
  unfold State.episodes
  dsimp only
  split
  · exact (sansEpisodes_gangEpisode _ _).trans crew
  · exact crew

end Sys2Proof.Proofs
end

section
/-! SUPPORT. Supervisor strands (15 R329, 18 R380, 19 R421 to R424): standing, TSEL, ERET, and the issue of a block command. -/
namespace Sys2Proof.Proofs
open Sys2Proof Sys2Proof.Machine Sys2Proof.Laws

/-! ### Standing (19 R421) -/

section
variable {s : State} {f : SyscFields} (guard : guardTrue s f.pred f.sense)
include guard

theorem syscGate_of_ordinary (ordinary : s.curMark = 0) (pf : Bool) (k : Res State) :
    s.syscGate f pf k = .trap .priv 0 := by
  unfold State.syscGate
  rw [guardHolds_of_guardTrue guard, if_neg (by decide), if_pos ordinary]

theorem syscGate_of_lacking (lacking : s.curMark ≠ 2) (k : Res State) : s.syscGate f true k = .trap .priv 0 := by
  unfold State.syscGate
  rw [guardHolds_of_guardTrue guard, if_neg (by decide)]
  split
  · rfl
  · rw [if_pos (by simpa using lacking)]

theorem syscGate_of_standing (standing : s.curMark ≠ 0) {pf : Bool} (physical : pf = true → s.curMark = 2) (k : Res State) :
    s.syscGate f pf k = k := by
  unfold State.syscGate
  rw [guardHolds_of_guardTrue guard, if_neg (by decide), if_neg standing, if_neg]
  cases pf with
  | false => exact Bool.false_ne_true
  | true => simp [physical rfl]

end

/-! ### ERET (15 R329, 18 R380) -/

theorem ertgt_fields (w : Word) : ertgtTile w = w.toNat % 2 ^ 8 ∧ ertgtCtx w = w.toNat / 2 ^ 8 % 4 :=
  ⟨bits_low_eq w.toNat 7, rfl⟩

section
variable {s : State} {f : CFields} (guard : guardTrue s f.pred f.sense)
include guard

theorem exec_eret_of_ordinary (ordinary : s.curMark = 0) : exec (.eret f) s = .next (s.takeTrap .priv 0) := by
  show settle s (s.guarded f _) = _
  rw [guarded_of_guardTrue guard]
  dsimp only
  rw [if_pos ordinary, settle_trap]

variable (supervisor : s.curMark ≠ 0)
include supervisor

theorem exec_eret : exec (.eret f) s = settle s (
    if !s.ctx.ertgt.getLsbD 63 || (s.ctxAt (s.ctx.ertgt.toNat % 2 ^ 8) (s.ctx.ertgt.toNat / 2 ^ 8 % 4)).run != .trapped ||
      s.tileVf (s.ctx.ertgt.toNat % 2 ^ 8) != s.curVf then .trap .baddesc (s.ctx.ertgt &&& 0x7FFFFFFFFFFFFFFF)
    else .ok ((s.setCtx { s.ctx with ertgt := 0, rot := max s.ctx.rot 1 }).returnAt (s.ctx.ertgt.toNat % 2 ^ 8)
      (s.ctx.ertgt.toNat / 2 ^ 8 % 4) (s.ctx.ertgt.getLsbD 16))) := by
  obtain ⟨tile, ctx⟩ := ertgt_fields s.ctx.ertgt
  show settle s (s.guarded f _) = _
  rw [guarded_of_guardTrue guard]
  dsimp only
  rw [if_neg supervisor, tile, ctx]
  rfl

end

/-- The strand that a return leaves: its capture read back, ready at TRAPPC. -/
def returned (s : State) (t c : Nat) (skip : Bool) : Ctx :=
  let k := s.ctxAt t c
  let k := match s.trapRegion (s.tileVf t) t c with
    | some r =>
      match s.vaRead r.pasid (r.va + 64) (captureEntries k.capture).length with
      | some bs => { k with capture := captureBack k.capture bs }
      | none => k
    | none => k
  let cause := (k.readCsr 0x08).toNat
  { k with
    run := .ready, pc := (k.readCsr 0x09).toNat, fresh := true
    skipOne := k.skipOne || skip || cause == causeCode .trapi, watchOff := k.watchOff || cause == causeCode .watch }

theorem returned_fields (s : State) (t c : Nat) (skip : Bool) : ∃ m, returned s t c skip = { s.ctxAt t c with
    run := .ready, pc := ((s.ctxAt t c).readCsr 0x09).toNat, fresh := true, capture := m
    skipOne := (s.ctxAt t c).skipOne || skip || decide (((s.ctxAt t c).readCsr 0x08).toNat = 0x0A)
    watchOff := (s.ctxAt t c).watchOff || decide (((s.ctxAt t c).readCsr 0x08).toNat = 0x0E) } := by
  unfold returned
  dsimp only
  split
  · split
    · exact ⟨_, rfl⟩
    · exact ⟨_, rfl⟩
  · exact ⟨_, rfl⟩

theorem returnAt_eq (s : State) (t c : Nat) (skip : Bool) :
    s.returnAt t c skip = (s.setCtxAt t c (returned s t c skip)).episodes t := rfl

theorem setCtxAt_ctxAt_elsewhere (s : State) {t c i d : Nat} (k : Ctx) (other : (i, d) ≠ (t, c)) :
    (s.setCtxAt t c k).ctxAt i d = s.ctxAt i d := by
  by_cases tile : i = t
  · subst tile
    exact setCtxAt_ctxAt_other _ _ _ _ fun same => other (by rw [same])
  · exact congrArg (fun x : Tile => x.ctx d) (setTile_tile_other _ _ _ tile)

theorem curCtx_setCtxAt (s : State) (t c : Nat) (k : Ctx) : (s.setCtxAt t c k).curCtx = s.curCtx :=
  congrArg (fun r : Option Nat => r.getD 0) (setTile_reads Tile.running s (by rfl) s.cur)

theorem ctx_setCtxAt_elsewhere (s : State) {t c : Nat} (k : Ctx) (other : (t, c) ≠ (s.cur, s.curCtx)) :
    (s.setCtxAt t c k).ctx = s.ctx := by
  show (s.setCtxAt t c k).ctxAt s.cur (s.setCtxAt t c k).curCtx = _
  rw [curCtx_setCtxAt]
  exact setCtxAt_ctxAt_elsewhere s k (Ne.symm other)

theorem sameMemory_setCtxAt (s : State) (t c : Nat) (k : Ctx) : SameMemory s (s.setCtxAt t c k) := sameMemory_setTile s rfl rfl

theorem sameMemory_setTile_of_sansArrivals (s : State) {t : Nat} {x : Tile} (same : sansArrivals x = sansArrivals (s.tile t)) :
    SameMemory s (s.setTile t x) := by
  have beside : ({ x with ctxs := [], ct := [] } : Tile) = { s.tile t with ctxs := [], ct := [] } := congrArg Prod.fst same
  exact sameMemory_setTile s (congrArg Tile.spad beside :) (congrArg Tile.spadTag beside :)

/-- With no crew saved, the end of an episode writes no memory. -/
theorem sameMemory_gangEpisode {s : State} (gang : Nat) (resident : s.saves = []) : SameMemory s (s.gangEpisode gang) := by
  have same : ∀ u : State, SameMemory u u := fun _ => ⟨fun _ => rfl, fun _ => rfl, fun _ _ => rfl, fun _ _ => rfl⟩
  have released (u : State) (j : Nat) (h : u.saves = [] ∧ SameMemory s u) :
      (u.onCrew gang j Tile.gangRelease).saves = [] ∧ SameMemory s (u.onCrew gang j Tile.gangRelease) := by
    obtain ⟨none, kept⟩ := h
    unfold State.onCrew
    split
    · exact ⟨none, sameMemory_trans kept (sameMemory_setTile_of_sansArrivals u (sansArrivals_gangRelease _))⟩
    · rw [none]
      exact ⟨none, kept⟩
  unfold State.gangEpisode
  split
  · exact same s
  · dsimp only
    split
    · exact same s
    · exact (foldl_keeps (P := fun u : State => u.saves = [] ∧ SameMemory s u) _ released _ ⟨resident, same s⟩).2

theorem sameMemory_episodes {s : State} (t : Nat) (resident : s.saves = []) : SameMemory s (s.episodes t) := by
  have crew := sameMemory_setTile_of_sansArrivals s (sansArrivals_crewEpisode (s.tile t))
  unfold State.episodes
  dsimp only
  split
  · exact sameMemory_trans crew (sameMemory_gangEpisode _ resident)
  · exact crew

theorem fields_of_sansBarrier {k l : Ctx} (same : sansBarrier k = sansBarrier l) :
    k.run = l.run ∧ k.pc = l.pc ∧ k.skipOne = l.skipOne ∧ k.watchOff = l.watchOff :=
  ⟨(congrArg Ctx.run same :), (congrArg Ctx.pc same :), (congrArg Ctx.skipOne same :), (congrArg Ctx.watchOff same :)⟩

/-- The strand that returns, whatever episodes its return ends. -/
theorem returnAt_strand {s : State} {t c : Nat} {x : Ctx} (target : s.ctxAt t c = x) (skip : Bool) :
    ((s.returnAt t c skip).ctxAt t c).run = .ready ∧ ((s.returnAt t c skip).ctxAt t c).pc = (x.readCsr 0x09).toNat ∧
      ((s.returnAt t c skip).ctxAt t c).skipOne = (x.skipOne || skip || decide ((x.readCsr 0x08).toNat = 0x0A)) ∧
      ((s.returnAt t c skip).ctxAt t c).watchOff = (x.watchOff || decide ((x.readCsr 0x08).toNat = 0x0E)) := by
  obtain ⟨m, left⟩ := returned_fields s t c skip
  have same := ctxAt_of_sansEpisodes (sansEpisodes_episodes (s.setCtxAt t c (returned s t c skip)) t) t c
  rw [setCtxAt_ctxAt] at same
  obtain ⟨run, pc, skipOne, watchOff⟩ := fields_of_sansBarrier same
  rw [returnAt_eq, run, pc, skipOne, watchOff, left, target]
  exact ⟨rfl, rfl, rfl, rfl⟩

/-- Another strand that acts keeps all but what the end of an episode writes. -/
theorem returnAt_ctx (s : State) {t c : Nat} (skip : Bool) (other : (t, c) ≠ (s.cur, s.curCtx)) :
    (s.returnAt t c skip).ctx = { s.ctx with
      relCrew := (s.returnAt t c skip).ctx.relCrew, relGang := (s.returnAt t c skip).ctx.relGang
      bargA := (s.returnAt t c skip).ctx.bargA } := by
  have own := ctx_of_sansEpisodes (sansEpisodes_episodes (s.setCtxAt t c (returned s t c skip)) t)
  rw [ctx_setCtxAt_elsewhere s _ other] at own
  exact own

/-- Settles O17: what TSEL owes, and the strand that ERET makes ready beside the supervisor strand. -/
theorem supervisorReturn : Obligations.SupervisorReturn := by
  refine fun s supervisor => ⟨fun f guard => ?tsel, fun f guard => ⟨fun set trapped own other => ?returns, fun bad => ?refused⟩⟩
  case tsel =>
    refine completes_emit_one (cls := .none) (cl := 0) (slot := 0) ?_
    show settle s (s.syscGate f false _) = _
    rw [syscGate_of_standing guard supervisor (fun h => absurd h Bool.false_ne_true)]
    rfl
  case returns =>
    have goes := exec_eret guard supervisor
    rw [if_neg (by simp [-Nat.reducePow, set, trapped, own]), settle_ok] at goes
    generalize issued : s.setCtx { s.ctx with ertgt := 0, rot := max s.ctx.rot 1 } = s1 at goes
    have ctx : s1.ctx = { s.ctx with ertgt := 0, rot := max s.ctx.rot 1 } := by rw [← issued, setCtx_ctx]
    have apart : (s.ctx.ertgt.toNat % 2 ^ 8, s.ctx.ertgt.toNat / 2 ^ 8 % 4) ≠ (s1.cur, s1.curCtx) := by
      rw [← issued, setCtx_curCtx]
      exact other
    have target := setCtxAt_ctxAt_elsewhere s { s.ctx with ertgt := 0, rot := max s.ctx.rot 1 } other
    rw [← State.setCtx, issued] at target
    obtain ⟨run, pc, skipOne, watchOff⟩ := returnAt_strand target (s.ctx.ertgt.getLsbD 16)
    have mine := returnAt_ctx s1 (s.ctx.ertgt.getLsbD 16) apart
    rw [ctx] at mine
    refine ⟨_, goes, run, pc, skipOne, watchOff, mine, fun resident => ?_⟩
    rw [returnAt_eq]
    refine sameMemory_trans ?_ (sameMemory_episodes _ (by rw [← issued]; exact resident))
    rw [← issued]
    exact sameMemory_trans (sameMemory_setCtxAt s _ _ _) (sameMemory_setCtxAt _ _ _ _)
  case refused =>
    have goes := exec_eret guard supervisor
    rw [if_pos, settle_trap] at goes
    · exact goes
    · obtain unset | free | foreign := bad
      · rw [unset]
        rfl
      · rw [bne_iff_ne.mpr free, Bool.or_true, Bool.true_or]
      · rw [bne_iff_ne.mpr foreign, Bool.or_true]

/-! ### Block commands (19 R422 to R424) -/

/-- The command that a strand forks to the hub. -/
def forkedCommand (s : State) (f : SyscFields) (sub : Nat) (p : Place) : BlockCmd :=
  let ctl := s.ctx.readS f.arg.toNat
  { id := s.nextOp, sub, tile := s.cur, iss := (s.setCtx { s.ctx with nBlock := s.ctx.nBlock + 1 }).issuer s.cur s.curCtx
    pf := s.curMark == 2, place := p, cap := s.ctx.readK (ctl.toNat / 2 ^ 48 % 2 ^ 5), ct := ctl.toNat / 2 ^ 53 % 2 ^ 8
    nc := ctl.getLsbD 61 }

theorem ctx_issuer (s : State) (t c : Nat) : (s.issuer t c).ctx = c := by
  unfold State.issuer
  split <;> rfl

theorem setCtx_curMark (s : State) (k : Ctx) : (s.setCtx k).curMark = s.curMark := by
  have crew : ((s.setCtx k).tile s.cur).crew = (s.tile s.cur).crew := setTile_reads Tile.crew s (by rfl) s.cur
  unfold State.curMark State.tileGang
  rw [setCtx_cur, crew]
  rfl

theorem setCtx_curVf (s : State) (k : Ctx) : (s.setCtx k).curVf = s.curVf :=
  congrArg (fun o : Option Nat => o.getD 16) (setTile_reads Tile.owner s (by rfl) s.cur)

section
variable {s : State} {f : SyscFields} {sub size : Nat} {pf : Bool} {p : Place} (guard : guardTrue s f.pred f.sense)
  (standing : s.curMark ≠ 0) (physical : pf = true → s.curMark = 2)
  (checked : s.check (s.ctx.readK ((s.ctx.readS f.arg.toNat).toNat / 2 ^ 48 % 2 ^ 5))
    ((s.ctx.readS f.arg.toNat).toNat % 2 ^ 48) size (rR + rW) size .engine = .ok p)
include guard standing physical checked

theorem blockCommand_of_checked : s.blockCommand f sub pf size =
    (Res.need (bits (s.ctx.readS f.arg.toNat).toNat 63 62 == 0) .baddesc (s.ctx.readS f.arg.toNat)).bind fun _ =>
    (Res.need (decide (s.ctx.nBlock < 8)) .baddesc 9).bind fun _ =>
    .ok { (s.setCtx { s.ctx with nBlock := s.ctx.nBlock + 1 }).setVf s.curVf
      { s.vf s.curVf with blockQ := (s.vf s.curVf).blockQ ++ [forkedCommand s f sub p] } with nextOp := s.nextOp + 1 } := by
  have capability : bits (s.ctx.readS f.arg.toNat).toNat 52 48 = (s.ctx.readS f.arg.toNat).toNat / 2 ^ 48 % 2 ^ 5 := rfl
  unfold State.blockCommand
  rw [syscGate_of_standing guard standing physical]
  simp only [bits_low_eq, capability, checked, bind_ok, setCtx_curCtx, setCtx_curMark, setCtx_curVf]
  rfl

end

theorem ctlHigh_eq_zero_iff (w : Word) : (bits w.toNat 63 62 == 0) = decide (w.toNat < 2 ^ 62) := by
  have small : bits w.toNat 63 62 = w.toNat / 2 ^ 62 := by
    refine Nat.mod_eq_of_lt ?_
    have := w.isLt
    omega
  rw [small]
  exact decide_eq_decide.mpr (Nat.div_eq_zero_iff_lt (by positivity))

/-- A block command by its checks: it joins the commands of its virtual function, or traps BADDESC. -/
theorem blockCommand_row {i : Instr} {s : State} {f : SyscFields} {sub size : Nat} {pf : Bool}
    (runs : exec i s = settle s (s.blockCommand f sub pf size)) (guard : guardTrue s f.pred f.sense)
    (standing : s.curMark ≠ 0) (physical : pf = true → s.curMark = 2) (p : Place) :
    let ctl := s.ctx.readS f.arg.toNat
    let cap := s.ctx.readK (ctl.toNat / 2 ^ 48 % 2 ^ 5)
    s.check cap (ctl.toNat % 2 ^ 48) size (rR + rW) size .engine = .ok p →
      (ctl.toNat < 2 ^ 62 → s.ctx.nBlock < 8 →
        Completes i s (fun t => ∃ cmd : BlockCmd,
          (t.vf s.curVf).blockQ = (s.vf s.curVf).blockQ ++ [cmd] ∧ cmd.sub = sub ∧ cmd.place = p ∧ cmd.cap = cap ∧
          cmd.ct = ctl.toNat / 2 ^ 53 % 2 ^ 8 ∧ cmd.nc = ctl.getLsbD 61 ∧ cmd.tile = s.cur ∧ cmd.iss.ctx = s.curCtx ∧
          cmd.taken = none ∧
          t = { (s.setCtx { s.ctx with nBlock := s.ctx.nBlock + 1 }).setVf s.curVf
            { s.vf s.curVf with blockQ := (s.vf s.curVf).blockQ ++ [cmd] } with nextOp := s.nextOp + 1 })) ∧
      (2 ^ 62 ≤ ctl.toNat → exec i s = .next (s.takeTrap .baddesc ctl)) ∧
      (ctl.toNat < 2 ^ 62 → 8 ≤ s.ctx.nBlock → exec i s = .next (s.takeTrap .baddesc 9)) := by
  intro ctl cap checked
  have issues := blockCommand_of_checked (sub := sub) guard standing physical checked
  rw [ctlHigh_eq_zero_iff] at issues
  refine ⟨fun low room => ?joins, fun high => ?reserved, fun low full => ?ninth⟩
  case joins =>
    refine ⟨_, ?_, forkedCommand s f sub p, congrArg Vf.blockQ (setVf_vf ..), rfl, rfl, rfl, rfl, rfl, rfl, ctx_issuer .., rfl, rfl⟩
    rw [runs, issues, decide_eq_true low, need_true, bind_ok, decide_eq_true room, need_true, bind_ok, settle_ok]
  case reserved =>
    rw [runs, issues, decide_eq_false (Nat.not_lt.mpr high), need_false, bind_trap, settle_trap]
  case ninth =>
    rw [runs, issues, decide_eq_true low, need_true, bind_ok, decide_eq_false (Nat.not_lt.mpr full), need_false, bind_trap,
      settle_trap]

/-- Settles O18: the gate of the subcodes by the strand's mark, and the block commands of the table row by row. -/
theorem supervisorCommandsQueue : Obligations.SupervisorCommandsQueue := by
  refine ⟨fun s => ⟨fun ordinary => ⟨fun f guard => exec_eret_of_ordinary guard ordinary, fun f guard => ?ordinary⟩,
    fun lacking f guard => ?lacking⟩, fun s f guard standing => ?commands⟩
  case ordinary =>
    simp only [List.forall_mem_cons, List.not_mem_nil, false_imp_iff, implies_true, and_true]
    and_intros <;> exact congrArg (settle s) (syscGate_of_ordinary guard ordinary false _)
  case lacking =>
    simp only [List.forall_mem_cons, List.not_mem_nil, false_imp_iff, implies_true, and_true]
    and_intros <;> exact congrArg (settle s) (syscGate_of_lacking guard lacking _)
  case commands =>
    intro ctl cap
    unfold blockRows
    and_intros <;> exact fun physical p => blockCommand_row rfl guard standing physical p

end Sys2Proof.Proofs
end

section
/-! SUPPORT. The barriers (17 R360, R361, 12 R264, 15 R320). -/
namespace Sys2Proof.Proofs
open Sys2Proof Sys2Proof.Machine Sys2Proof.Laws

/-! ### The crew's episode -/

/-- A strand with its RELEASED bit of the crew's barrier set. -/
def releasedCrew (k : Ctx) : Ctx := { k with relCrew := true }

/-- A tile on which a strand has been presented at the crew's barrier. -/
def presented (x : Tile) (c : Nat) : Tile := x.setCtx c { x.ctx c with run := .blocked .barc }

/-- The other participants of a tile. -/
def companions (x : Tile) (c : Nat) : List Nat :=
  (List.range 4).filter (fun d => decide (d ≠ c) && (x.ctx d).participates)

theorem mem_companions {x : Tile} {c d : Nat} :
    d ∈ companions x c ↔ d < 4 ∧ d ≠ c ∧ (x.ctx d).participates = true := by
  simp [companions]

theorem presented_ctx (x : Tile) (c : Nat) : (presented x c).ctx c = { x.ctx c with run := .blocked .barc } :=
  tile_setCtx_ctx ..

theorem presented_ctx_other (x : Tile) {c d : Nat} (other : d ≠ c) : (presented x c).ctx d = x.ctx d :=
  tile_setCtx_ctx_other _ _ _ other

section
variable {x : Tile} {c : Nat} (unreleased : (x.ctx c).relCrew = false)

theorem participates_blocked {k : Ctx} (part : k.participates = true) (why : BlockWhy) :
    ({ k with run := .blocked why } : Ctx).participates = true := by
  simp only [Ctx.participates, Bool.and_eq_true] at part ⊢
  exact ⟨⟨⟨part.1.1.1, rfl⟩, rfl⟩, rfl⟩

theorem crewEpisode_of_absent {d : Nat} (companion : d ∈ companions x c) (absent : (x.ctx d).atBarc = false) :
    (presented x c).crewEpisode = presented x c := by
  obtain ⟨small, other, part⟩ := mem_companions.mp companion
  have here := presented_ctx_other x other
  unfold Tile.crewEpisode
  refine if_pos ?_
  rw [Bool.or_eq_true, Bool.not_eq_true', List.all_eq_false]
  exact Or.inr ⟨d, List.mem_filter.mpr ⟨List.mem_range.mpr small, here ▸ part⟩, by simp [here, absent]⟩

/-- The release of crew's strands. -/
theorem released_updates : Updates (fun (x : Tile) (d : Nat) => x.setCtx d (releasedCrew (x.ctx d))) Tile.ctx
    (fun d => d) (fun _ k => releasedCrew k) where
  at_key _ _ := tile_setCtx_ctx ..
  elsewhere _ _ _ apart := tile_setCtx_ctx_other _ _ _ apart

variable (present : ∀ d ∈ companions x c, (x.ctx d).atBarc = true) (part : (x.ctx c).participates = true) (small : c < 4)
include unreleased present part small

theorem crewEpisode_of_all {d : Nat} (arrived : d = c ∨ d ∈ companions x c) :
    (presented x c).crewEpisode.ctx d = releasedCrew ((presented x c).ctx d) := by
  have mem (e : Nat) : e ∈ (List.range 4).filter (fun e => ((presented x c).ctx e).participates) ↔
      e = c ∨ e ∈ companions x c := by
    rw [mem_companions, List.mem_filter, List.mem_range]
    by_cases here : e = c
    · subst here
      simp [small, presented_ctx, participates_blocked part]
    · simp [here, presented_ctx_other x here]
  have all : ((List.range 4).filter (fun e => ((presented x c).ctx e).participates)).all
      (fun e => ((presented x c).ctx e).atBarc) = true := by
    refine List.all_eq_true.mpr fun e listed => ?_
    rcases (mem e).mp listed with rfl | companion
    · simp [presented_ctx, Ctx.atBarc, unreleased]
    · rw [presented_ctx_other x (mem_companions.mp companion).2.1]
      exact present e companion
  unfold Tile.crewEpisode
  dsimp only
  rw [if_neg (by
    simp only [all, Bool.not_true, Bool.or_false, List.isEmpty_iff]
    exact List.ne_nil_of_mem ((mem c).mpr (Or.inl rfl)))]
  exact released_updates.foldl_at _ _ (by simpa using (List.nodup_range (n := 4)).filter _) ((mem d).mpr arrived)

end

/-! ### BARC (17 R361) -/

theorem barrierCrew_of_settled {s : State} (unreleased : s.ctx.relCrew = false)
    (settled : (s.tile s.cur).settled s.curCtx = true) : s.barrierCrew =
    let t := (presented (s.tile s.cur) s.curCtx).crewEpisode
    if (t.ctx s.curCtx).relCrew then
      .ok (s.setTile s.cur (t.setCtx s.curCtx { t.ctx s.curCtx with relCrew := false, run := s.ctx.run }))
    else .block .barc := by
  have shown : (s.setCtx { s.ctx with run := .blocked .barc }).tile s.cur = presented (s.tile s.cur) s.curCtx :=
    setTile_tile ..
  unfold State.barrierCrew
  dsimp only
  rw [if_neg (by simp [unreleased]), if_neg (by simp [settled]), shown]

section
variable {s : State} {f : CFields} (guard : guardTrue s f.pred f.sense)
include guard

theorem exec_barc_of_handler (handler : s.ctx.handler = true) : exec (.barc f) s = .next (s.takeTrap .baddesc 1) := by
  show settle s (s.guarded f _) = _
  rw [guarded_of_guardTrue guard, if_pos handler, settle_trap]

variable (ordinary : s.ctx.handler = false)
include ordinary

theorem exec_barc : exec (.barc f) s = settle s s.barrierCrew := by
  show settle s (s.guarded f _) = _
  rw [guarded_of_guardTrue guard, if_neg (by simp [ordinary])]

theorem exec_barc_of_released (released : s.ctx.relCrew = true) :
    exec (.barc f) s = .next (s.setCtx { s.ctx with relCrew := false }) := by
  rw [exec_barc guard ordinary]
  unfold State.barrierCrew
  dsimp only
  rw [if_pos released, settle_ok]

variable (unreleased : s.ctx.relCrew = false) (settled : (s.tile s.cur).settled s.curCtx = true)
include unreleased settled

theorem exec_barc_of_absent {d : Nat} (companion : d ∈ companions (s.tile s.cur) s.curCtx)
    (absent : (s.ctxAt s.cur d).atBarc = false) :
    exec (.barc f) s = .next ((s.block s.cur s.curCtx .barc).episodes s.cur) := by
  have kept := crewEpisode_of_absent companion absent
  have bit : ((presented (s.tile s.cur) s.curCtx).ctx s.curCtx).relCrew = false := by
    rw [presented_ctx]
    exact unreleased
  rw [exec_barc guard ordinary, barrierCrew_of_settled unreleased settled]
  dsimp only
  rw [kept, if_neg (by simp [bit]), settle_block]

theorem completes_barc_of_all (part : s.ctx.participates = true) (small : s.curCtx < 4)
    (present : ∀ d ∈ companions (s.tile s.cur) s.curCtx, (s.ctxAt s.cur d).atBarc = true) :
    Completes (.barc f) s (fun t => t.ctx = s.ctx ∧ t.curCtx = s.curCtx ∧
      ∀ d ∈ companions (s.tile s.cur) s.curCtx, t.ctxAt s.cur d = releasedCrew (s.ctxAt s.cur d)) := by
  have episode {d : Nat} := crewEpisode_of_all (x := s.tile s.cur) (d := d) unreleased present part small
  have own := (episode (Or.inl rfl)).trans (congrArg releasedCrew (presented_ctx ..))
  obtain ⟨y, ended⟩ : ∃ y, y = (presented (s.tile s.cur) s.curCtx).crewEpisode := ⟨_, rfl⟩
  rw [← ended] at own
  have issued : s.barrierCrew =
      .ok (s.setTile s.cur (y.setCtx s.curCtx { y.ctx s.curCtx with relCrew := false, run := s.ctx.run })) := by
    rw [barrierCrew_of_settled unreleased settled, ← ended]
    exact if_pos (congrArg Ctx.relCrew own)
  have running : y.running = (s.tile s.cur).running := by
    rw [ended]
    exact congrArg (fun p => p.1.running) (sansArrivals_crewEpisode (presented (s.tile s.cur) s.curCtx))
  refine ⟨_, (exec_barc guard ordinary).trans (congrArg (settle s) issued), ?_⟩
  generalize own' : ({ y.ctx s.curCtx with relCrew := false, run := s.ctx.run } : Ctx) = k
  have kept : k = s.ctx := by
    rw [← own', own]
    show ({ s.ctx with relCrew := false } : Ctx) = s.ctx
    rw [← unreleased]
  have current : (s.setTile s.cur (y.setCtx s.curCtx k)).curCtx = s.curCtx := by simp [State.curCtx, running]
  refine ⟨?_, current, fun d companion => ?_⟩
  · rw [State.ctx, current]
    simp only [State.ctxAt, setTile_cur, setTile_tile, tile_setCtx_ctx, kept]
  · obtain ⟨_, other, _⟩ := mem_companions.mp companion
    simp only [State.ctxAt, setTile_tile]
    rw [tile_setCtx_ctx_other _ _ _ other, ended, episode (Or.inr companion), presented_ctx_other _ other]

end

/-! ### BARG and BARG.a (17 R360, R361, 15 R320) -/

theorem flushTile_of_empty {s : State} {t : Nat} (empty : (s.tile t).l1 = []) : s.flushTile t = s := by
  unfold State.flushTile
  rw [empty, List.foldl_nil]

theorem exec_gangBarrier_of_none {s : State} {f : CFields} (guard : guardTrue s f.pred f.sense)
    (none : ∀ w g, (s.tile s.cur).crew = some w → s.gang w.gang = some g → g.gbar = none) (k : Nat → Res State) :
    settle s (s.guarded f (s.gangBarrier k)) = .next (s.takeTrap .illop 0x10A) := by
  have trapped : s.gangBarrier k = .trap .illop 0x10A := by
    unfold State.gangBarrier State.tileGang
    cases crew : (s.tile s.cur).crew with
    | none => rfl
    | some w =>
      cases gang : s.gang w.gang with
      | none => simp only [gang]; rfl
      | some g => simp only [gang, none w g crew gang]; rfl
  rw [guarded_of_guardTrue guard, trapped, settle_trap]

/-- An arrival that leaves the gang's episode open: another crew's strand has not arrived. -/
theorem gangEpisode_of_absent {s : State} {w : Crew} {g : Gang} (gang : s.gang w.gang = some g) (k : Ctx) {j u c : Nat} (crews : j < g.tiles.length) (active : g.retired.contains j = false)
    (placed : g.tiles.getD j none = some u) (away : u ≠ s.cur) (small : c < 4) (part : (s.ctxAt u c).participates = true)
    (absent : (s.ctxAt u c).atBarg = false) : (s.setCtx k).gangEpisode w.gang = s.setCtx k := by
  have stays : (s.setCtx k).gang w.gang = some g := gang
  have resident : (s.setCtx k).crewState w.gang j = some (s.tile u) := by
    have elsewhere : (s.setCtx k).tile u = s.tile u := setTile_tile_other _ _ _ away
    have crewTile : (s.setCtx k).crewTile w.gang j = some u := by
      unfold State.crewTile
      rw [stays]
      exact placed
    rw [State.crewState, crewTile, ← elsewhere]
  have member : c ∈ (s.tile u).participants := List.mem_filter.mpr ⟨List.mem_range.mpr small, part⟩
  unfold State.gangEpisode
  simp only [stays]
  refine if_pos ?_
  rw [Bool.or_eq_true, Bool.not_eq_true', List.all_eq_false]
  refine Or.inr ⟨s.tile u, List.mem_filterMap.mpr ⟨j, by simpa [crews] using active, resident⟩, ?_⟩
  rw [Bool.not_eq_true, List.all_eq_false]
  exact ⟨c, member, ne_true_of_eq_false absent⟩

section
variable {s : State} {f : CFields} {w : Crew} {g : Gang} (guard : guardTrue s f.pred f.sense)
  (crew : (s.tile s.cur).crew = some w) (gang : s.gang w.gang = some g) (gbar : g.gbar.isSome = true)
include guard crew gang gbar

theorem settle_gangBarrier (k : Nat → Res State) : settle s (s.guarded f (s.gangBarrier k)) =
    settle s (if s.ctx.handler then .trap .baddesc 2 else k w.gang) := by
  rw [guarded_of_guardTrue guard]
  unfold State.gangBarrier State.tileGang
  simp only [crew, gang]
  rw [if_neg (by simp [Option.ne_none_iff_isSome, gbar])]

variable (ordinary : s.ctx.handler = false)
include ordinary

theorem exec_barg_of_released (released : s.ctx.relGang = true) :
    exec (.barg f) s = .next ((s.setCtx { s.ctx with relGang := false }).join s.cur s.curCtx) := by
  show settle s (s.guarded f (s.gangBarrier _)) = _
  rw [settle_gangBarrier guard crew gang gbar, if_neg (by simp [ordinary])]
  dsimp only
  rw [if_pos released, settle_ok]
  unfold State.departFence
  simp

theorem exec_bargA_of_open (first : s.ctx.bargA = none) (free : s.ctx.heldBack = false) (log : (s.tile s.cur).sideLog = [])
    (summaries : (s.tile s.cur).sumq = []) (empty : (s.tile s.cur).l1 = []) {j u c : Nat} (crews : j < g.tiles.length)
    (active : g.retired.contains j = false) (placed : g.tiles.getD j none = some u) (away : u ≠ s.cur) (small : c < 4)
    (part : (s.ctxAt u c).participates = true) (absent : (s.ctxAt u c).atBarg = false) :
    exec (.bargA f) s = .next (s.setCtx { s.ctx with bargA := some (f.opnd.toNat / 2 ^ 11) }) := by
  have fence : s.arriveFence = .ok s := by
    have settled : (s.tile s.cur).settled s.curCtx = true := by
      have clear : ((s.tile s.cur).ctx s.curCtx).heldBack = false := free
      simp [Tile.settled, Tile.owesSummary, clear, summaries]
    unfold State.arriveFence
    rw [if_neg (by simp [settled, Tile.logged, log]), flushTile_of_empty empty]
  show settle s (s.guarded f (s.gangBarrier _)) = _
  rw [settle_gangBarrier guard crew gang gbar, if_neg (by simp [ordinary])]
  dsimp only
  rw [if_neg (by simp [first]), fence, bind_ok,
    gangEpisode_of_absent gang _ crews active placed away small part absent, settle_ok]
  exact congrArg (fun n => Host.Outcome.next (s.setCtx { s.ctx with bargA := some n })) (opn_high f (by decide))

end

/-- Settles O14: BARC by the crew's episode with the strand among the arrived, BARG and BARG.a by their gang and by the episode
that another crew's strand holds open. -/
theorem barriers : Obligations.Barriers := by
  unfold Obligations.Barriers
  refine ⟨fun s f guard ordinary => ⟨exec_barc_of_released guard ordinary, fun unreleased settled part small => ?_⟩,
    fun s f w g guard ordinary crew gang gbar => ⟨fun released => ?_, ?_⟩, fun s f guard => ⟨fun handler => ?_, fun none => ?_⟩⟩
  · exact ⟨fun ⟨_, companion, absent⟩ => exec_barc_of_absent guard ordinary unreleased settled companion absent,
      completes_barc_of_all guard ordinary unreleased settled part small⟩
  · have issued := exec_barg_of_released guard crew gang gbar ordinary released
    refine ⟨issued, fun clear => ⟨_, issued, ?_⟩⟩
    have joined : (s.setCtx { s.ctx with relGang := false }).join s.cur s.curCtx =
        (s.setCtx { s.ctx with relGang := false }).dropClean s.cur := by
      have clear' : ((s.setCtx { s.ctx with relGang := false }).ctxAt s.cur s.curCtx).owesRead = false := by
        rw [show (s.setCtx { s.ctx with relGang := false }).ctxAt s.cur s.curCtx = { s.ctx with relGang := false } from
          setCtxAt_ctxAt ..]
        exact clear
      unfold State.join
      dsimp only
      rw [if_neg (by simp [clear'])]
    rw [joined]
    refine ⟨(ctx_of_besideL1 (besideL1_dropClean _ _)).trans (setCtx_ctx ..), ?_⟩
    exact sameMemory_trans (u := s.setCtx { s.ctx with relGang := false }) (sameMemory_setTile s rfl rfl)
      (sameMemory_dropClean _ _)
  · exact fun first free log summaries empty j u c crews active placed away small part absent =>
      exec_bargA_of_open guard crew gang gbar ordinary first free log summaries empty crews active placed away small part absent
  · refine ⟨exec_barc_of_handler guard handler, fun w g crew gang gbar => ⟨?_, ?_⟩⟩
    · show settle s (s.guarded f (s.gangBarrier _)) = _
      rw [settle_gangBarrier guard crew gang gbar, if_pos handler, settle_trap]
    · show settle s (s.guarded f (s.gangBarrier _)) = _
      rw [settle_gangBarrier guard crew gang gbar, if_pos handler, settle_trap]
  · exact ⟨exec_gangBarrier_of_none guard none _, exec_gangBarrier_of_none guard none _⟩

end Sys2Proof.Proofs
end

section
/-! SUPPORT. The waits (20 R454 to R456), and what a read of a quiet strand waits for. -/
namespace Sys2Proof.Proofs
open Sys2Proof Sys2Proof.Machine Sys2Proof.Laws

/-! ### A join -/

section
variable {s : State} {t c : Nat}

theorem join_of_clear (clear : (s.ctxAt t c).owesRead = false) : s.join t c = s.dropClean t := by
  unfold State.join
  dsimp only
  rw [if_neg (by simp [clear])]

theorem join_of_owing (owing : (s.ctxAt t c).owesRead = true) : s.join t c = s.setCtxAt t c { s.ctxAt t c with
    num := (s.ctxAt t c).num + 1
    fences := (s.ctxAt t c).fences ++ [{ kind := 1, scope := 4, num := (s.ctxAt t c).num }] } := by
  unfold State.join
  dsimp only
  rw [if_pos owing]

end

/-! ### A read at the point of coherence -/

section
variable {s : State} (quiet : Quiet s)
include quiet

theorem logCovers_of_quiet (seq pasid va n : Nat) : (s.tile s.cur).logCovers s.curCtx seq pasid va n = false := by
  refine List.any_eq_false.mpr fun e listed covers => ctx_of_log_of_quiet quiet listed ?_
  simp only [Bool.and_eq_true] at covers
  exact covers.1.1.1.1

theorem readBlocked_of_quiet (seq : Nat) (p : Place) (n : Nat) :
    s.readBlocked s.cur s.curCtx s.ctx.num seq p n = false := by
  cases p with
  | spad o => exact readBlocked_spad_of_quiet quiet seq o n
  | virt pasid va obj =>
    have stores : (s.ctxAt s.cur s.curCtx).storeQ = [] := storeQ_of_quiet quiet
    simp [State.readBlocked, Ctx.storesTo, stores, behindSummary_of_quiet quiet, behindRead_of_quiet quiet,
      logCovers_of_quiet quiet]

theorem pollDword_of_quiet (p : Place) (n : Nat) :
    s.pollDword s.cur s.curCtx p n = (s.readPlace s.cur s.curCtx p n .home false).map (fun r => (bytesNat r.1, r.2)) := by
  refine if_neg ?_
  show ¬ (!(s.tile s.cur).mayRead s.curCtx _ || s.readBlocked s.cur s.curCtx s.ctx.num _ p n) = true
  rw [readBlocked_of_quiet quiet, Bool.or_false]
  exact fun waits => Bool.false_ne_true ((Bool.not_eq_true' _ ▸ waits).symm.trans (mayRead_of_quiet quiet p n _ .home))

end

/-! ### WAITC (20 R454) -/

section
variable {s : State} {f : CFields} (guard : guardTrue s f.pred f.sense)
include guard

theorem exec_waitc : exec (.waitc f) s = settle s (
    if ((s.tile s.cur).readCt (f.opnd.toNat / 2 ^ 11)).ult (s.ctx.readS (f.opnd.toNat / 2 ^ 5 % 2 ^ 6)) then
      .block (.waitc (f.opnd.toNat / 2 ^ 11) (s.ctx.readS (f.opnd.toNat / 2 ^ 5 % 2 ^ 6)))
    else .ok (s.join s.cur s.curCtx)) := by
  show settle s (s.guarded f _) = _
  rw [guarded_of_guardTrue guard, opn_high f (by decide)]
  rfl

end

/-! ### WAITV (20 R455, R456) -/

section
variable {s u : State} {f : CFields} {cap : TCap} {p : Place} {bs : List Byte} {n k off : Nat} {v : Word}
  (guard : guardTrue s f.pred f.sense) (size : n = if f.opnd.toNat % 4 = 3 then 8 else 4)
  (register : k = f.opnd.toNat / 2 ^ 14) (offset : off = (s.ctx.readS (f.opnd.toNat / 2 ^ 8 % 2 ^ 6)).toNat % 2 ^ 48)
  (value : v = s.ctx.readS (f.opnd.toNat / 2 ^ 2 % 2 ^ 6)) (named : readCapReg s.ctx k = .ok cap)
  (checked : s.check cap off n rR n .load = .ok p) (quiet : Quiet s) (unwatched : s.watch cap off n true false p = .ok ())
  (read : s.readPlace s.cur s.curCtx p n .home false = some (bs, u))
include guard size register offset value named checked quiet unwatched read

theorem waitv_of_read (cond : Nat) : s.waitv f cond =
    if waitvHolds cond (bytesNat bs) (v.toNat % 2 ^ (8 * n)) then .ok u else .block (.waitv cond k off n v) := by
  have polled (why : BlockWhy) : s.poll p n why = .ok (bytesNat bs, u) := by
    unfold State.poll
    rw [pollDword_of_quiet quiet, read]
    rfl
  have high : bits (opn f) 18 14 = k := by rw [opn_high f (by decide), register]
  have unfolded : s.waitv f cond = s.guarded f (
      (readCapReg s.ctx (bits (opn f) 18 14)).bind fun cap =>
      (s.check cap off n rR n .load).bind fun p =>
      (s.watch cap off n true false p).bind fun _ =>
      (s.poll p n (.waitv cond (bits (opn f) 18 14) off n v)).bind fun r =>
      if waitvHolds cond r.1 (v.toNat % 2 ^ (8 * n)) then .ok r.2 else .block (.waitv cond (bits (opn f) 18 14) off n v)) := by
    subst size offset value
    rfl
  rw [unfolded, guarded_of_guardTrue guard, high, named, bind_ok, checked, bind_ok, unwatched, bind_ok, polled, bind_ok]

/-- A WAITV issues exactly when its comparison holds. -/
theorem waitv_acts {i : Instr} {cond : Nat} (runs : exec i s = settle s (s.waitv f cond)) {holds : Prop}
    (compares : waitvHolds cond (bytesNat bs) (v.toNat % 2 ^ (8 * n)) = true ↔ holds) :
    (holds → exec i s = .next u) ∧
      (¬ holds → exec i s = .next ((s.block s.cur s.curCtx (.waitv cond k off n v)).episodes s.cur)) := by
  rw [runs, waitv_of_read guard size register offset value named checked quiet unwatched read]
  constructor
  · intro met
    rw [if_pos (compares.mpr met), settle_ok]
  · intro unmet
    rw [if_neg (fun met => unmet (compares.mp met)), settle_block]

end

/-- Settles O15: WAITC by its counter and what its join finds owed, WAITV by the word that its poll reads. -/
theorem waitInstructions : Obligations.WaitInstructions := by
  unfold Obligations.WaitInstructions
  refine ⟨fun s f guard => ⟨fun met => ?_, fun unmet => ?_⟩, fun s u f cap p bs guard named checked quiet unwatched read => ?_⟩
  · have issued : exec (.waitc f) s = .next (s.join s.cur s.curCtx) := by
      rw [exec_waitc guard, if_neg (by simpa [BitVec.ult] using met), settle_ok]
    refine ⟨fun clear => ⟨s.dropClean s.cur, ?_, ?_, fun sec x left => (dirty_of_dropClean left).1⟩, fun owing => ?_⟩
    · rw [issued, join_of_clear clear]
    · unfold State.dropClean
      rw [setTile_tile]
    · rw [issued, join_of_owing owing]
      rfl
  · rw [exec_waitc guard, if_pos (by simpa [BitVec.ult] using unmet), settle_block]
  · dsimp only
    have acts {i : Instr} {cond : Nat} (runs : exec i s = settle s (s.waitv f cond)) {holds : Prop} :=
      waitv_acts guard rfl rfl rfl rfl named checked quiet unwatched read runs (holds := holds)
    exact ⟨acts rfl (by simp [waitvHolds]), acts rfl (by simp [waitvHolds]), acts rfl (by simp [waitvHolds])⟩

end Sys2Proof.Proofs
end

section
/-! SUPPORT. Capabilities: their fields, the checks of cap_check, and derivation (10 R202, R206, 18 R388 to R391, R397). -/
namespace Sys2Proof.Proofs
open Sys2Proof Sys2Proof.Machine Sys2Proof.Laws

/-! ### Fields (10 R202) -/

theorem bits_lt (x hi lo : Nat) : bits x hi lo < 2 ^ (hi + 1 - lo) := Nat.mod_lt _ (by positivity)

/-- A capability made of its fields has them. -/
theorem mkCap_fields {gen obj rights kind low len : Nat} (hgen : gen < 2 ^ 16) (hobj : obj < 2 ^ 24) (hrights : rights < 2 ^ 6)
    (hkind : kind < 2 ^ 2) (hlow : low < 2 ^ 40) (hlen : len < 2 ^ 40) :
    capGen (mkCap gen obj rights kind low len) = gen ∧ capObj (mkCap gen obj rights kind low len) = obj ∧
      capRights (mkCap gen obj rights kind low len) = rights ∧ capKind (mkCap gen obj rights kind low len) = kind ∧
      capLow (mkCap gen obj rights kind low len) = low ∧ capLen (mkCap gen obj rights kind low len) = len := by
  simp only [capGen, capObj, capRights, capKind, capLow, capLen, mkCap, BitVec.toNat_ofNat, bits]
  omega

/-- The rights that a sealed derivation leaves: those asked for but the right to derive. -/
theorem sealed_rights {r : Nat} (small : r < 2 ^ 6) : r - (r &&& rD) = r &&& 61 := by
  have all : ∀ r : Fin 64, (r : Nat) - (r &&& rD) = r &&& 61 := by decide
  exact all ⟨r, small⟩

/-- What a derivation gives of the rights asked for. -/
def grantedRights (sealed : Bool) (asked : Nat) : Nat := if sealed then asked - (asked &&& rD) else asked

theorem grantedRights_le (sealed : Bool) (asked : Nat) : grantedRights sealed asked ≤ asked := by
  cases sealed
  · exact le_refl _
  · exact Nat.sub_le _ _

theorem grantedRights_within {asked held : Nat} (small : asked < 2 ^ 6) (within : asked &&& held = asked) (sealed : Bool) :
    grantedRights sealed asked &&& held = grantedRights sealed asked := by
  cases sealed with
  | false => exact within
  | true =>
    show (asked - (asked &&& rD)) &&& held = asked - (asked &&& rD)
    rw [sealed_rights small, Nat.and_right_comm, within]

theorem grantedRights_sealed {asked : Nat} (small : asked < 2 ^ 6) : grantedRights true asked &&& rD = 0 := by
  show (asked - (asked &&& rD)) &&& rD = 0
  rw [sealed_rights small, Nat.and_assoc]
  exact Nat.and_zero _

/-! ### Derivation (18 R390) -/

/-- The bounds and rights that a derivation may give a capability. -/
structure Derivable (c : TCap) (low len rights kind : Nat) : Prop where
  tagged : c.tag = true
  derives : capRights c &&& rD = rD
  within : rights &&& capRights c = rights
  kinds : kind = capKind c ∨ capKind c = 0 ∧ 2 ≤ kind
  above : capLow c ≤ low
  below : low + len ≤ capLow c + capLen c

theorem need_eq_ok {b : Bool} {k : Cause} {info : Word} {u : Unit} : Res.need b k info = .ok u ↔ b = true := by
  cases b <;> simp [Res.need]

/-- KDER derives exactly what its parent allows, from operands whose reserved bits are 0. -/
theorem derive_eq_ok {c n : TCap} {p q : Word} {sealed : Bool} : derive c p q sealed = .ok n ↔
    (bits p.toNat 63 40 = 0 ∧ bits q.toNat 63 48 = 0) ∧
      Derivable c (bits p.toNat 39 0) (bits q.toNat 39 0) (bits q.toNat 45 40) (bits q.toNat 47 46) ∧
      n = mkCap (capGen c) (capObj c) (grantedRights sealed (bits q.toNat 45 40)) (bits q.toNat 47 46) (bits p.toNat 39 0)
        (bits q.toNat 39 0) := by
  have four : bits q.toNat 47 46 < 2 ^ 2 := bits_lt ..
  unfold derive
  dsimp only
  simp only [bind_eq_ok, need_eq_ok, exists_and_left, exists_const, Bool.and_eq_true, Bool.or_eq_true, beq_iff_eq,
    decide_eq_true_eq, Res.ok.injEq]
  constructor
  · rintro ⟨reserved, ⟨tagged, derives⟩, within, kinds, ⟨above, below⟩, rfl⟩
    exact ⟨reserved, ⟨tagged, derives, within, by omega, above, below⟩, rfl⟩
  · rintro ⟨reserved, ⟨tagged, derives, within, kinds, above, below⟩, rfl⟩
    exact ⟨reserved, ⟨tagged, derives⟩, within, by omega, ⟨above, below⟩, rfl⟩

/-- A derived capability keeps its object and its generation, and has the bounds and rights that were granted. -/
theorem derived_fields {c : TCap} {rights : Nat} (p q : Word) (small : rights < 2 ^ 6) :
    let n := mkCap (capGen c) (capObj c) rights (bits q.toNat 47 46) (bits p.toNat 39 0) (bits q.toNat 39 0)
    capGen n = capGen c ∧ capObj n = capObj c ∧ capRights n = rights ∧ capKind n = bits q.toNat 47 46 ∧
      capLow n = bits p.toNat 39 0 ∧ capLen n = bits q.toNat 39 0 :=
  mkCap_fields (bits_lt ..) (bits_lt ..) small (bits_lt ..) (bits_lt ..) (bits_lt ..)

theorem derive_keeps_within {c n : TCap} {p q : Word} {sealed : Bool} (derived : derive c p q sealed = .ok n) :
    c.tag = true ∧ n.tag = true ∧ capRights n &&& capRights c = capRights n ∧ capLow c ≤ capLow n ∧
      capLow n + capLen n ≤ capLow c + capLen c ∧ capObj n = capObj c ∧ capGen n = capGen c ∧
      (sealed = true → capRights n &&& rD = 0) := by
  obtain ⟨_, allowed, rfl⟩ := derive_eq_ok.mp derived
  have small : bits q.toNat 45 40 < 2 ^ 6 := bits_lt ..
  obtain ⟨gen, obj, rights, _, low, len⟩ :=
    derived_fields (c := c) p q (lt_of_le_of_lt (grantedRights_le sealed (bits q.toNat 45 40)) small)
  rw [gen, obj, rights, low, len]
  refine ⟨allowed.tagged, rfl, grantedRights_within small allowed.within sealed, allowed.above, allowed.below, rfl, rfl, ?_⟩
  rintro rfl
  exact grantedRights_sealed small

/-! ### KCHK, KINFO, LEA, KDER -/

section
variable {s : State} {f : AFields} {cap : TCap} (named : readCapReg s.ctx f.k.toNat = .ok cap)
include named

theorem exec_kchk_of_checked {p : Place} (checked : s.check cap ((s.ctx.readS f.s.toNat).toNat % 2 ^ 48) (2 ^ f.size.toNat)
    f.data.toNat (2 ^ f.size.toNat) .untested = .ok p) : exec (.kchk f) s = .next s := by
  show settle s ((readCapReg s.ctx f.k.toNat).bind _) = _
  rw [named, bind_ok]
  show settle s ((s.check cap ((s.ctx.readS f.s.toNat).toNat % 2 ^ 48) (2 ^ f.size.toNat) f.data.toNat (2 ^ f.size.toNat)
    .untested).bind _) = _
  rw [checked, bind_ok, settle_ok]

theorem completes_kinfo : Completes (.kinfo f) s (Owed s (s.clk + 1) (fun w => w = .sreg f.data.toNat
    (if f.size = 0 then cap.bits.setWidth 64 else (cap.bits >>> 64).setWidth 64))) := by
  refine completes_emit_one (u := s) (cls := .a) (cl := 0) (slot := packA 0x76 f) ?_
  show settle s ((readCapReg s.ctx f.k.toNat).bind _) = _
  rw [named, bind_ok]
  rfl

theorem completes_lea {p : Place} (checked : s.check cap ((s.ctx.readS f.s.toNat).toNat % 2 ^ 48) (2 ^ f.size.toNat) 0
    (2 ^ f.size.toNat) .untested = .ok p) : Completes (.lea f) s (Owed s (s.clk + 2) (fun w => w = .sreg f.data.toNat
      (BitVec.ofNat 64 p.addr))) := by
  refine completes_emit_one (u := s) (cls := .a) (cl := 0) (slot := packA 0x7C f) ?_
  show settle s ((readCapReg s.ctx f.k.toNat).bind _) = _
  rw [named, bind_ok]
  show settle s ((s.check cap ((s.ctx.readS f.s.toNat).toNat % 2 ^ 48) (2 ^ f.size.toNat) 0 (2 ^ f.size.toNat)
    .untested).bind _) = _
  rw [checked, bind_ok]
  cases p <;> rfl

variable {old n : TCap} (owned : readCapReg s.ctx (f.data.toNat % 32) = .ok old)
include owned

theorem completes_kder_of_derived {i : Instr} {op : Nat} {sealed : Bool} (runs : exec i s = settle s (s.kder op f sealed))
    (derived : derive cap (s.ctx.readS f.s.toNat) (s.ctx.readS (f.s.toNat + 1)) sealed = .ok n) :
    Completes i s (Owed s (s.clk + 2) (fun w => w = .kreg (f.data.toNat % 32) n)) := by
  refine completes_emit_one (u := s) (cls := .a) (cl := 0) (slot := packA op f) ?_
  rw [runs]
  unfold State.kder
  simp only [named, owned, derived, bind_ok, settle_ok, State.aEmit]

end

/-- The fields that the operands of KDER ask for, their reserved bits 0. -/
theorem asked_fields {p q : Word} (plow : p.toNat < 2 ^ 40) (qlow : q.toNat < 2 ^ 48) :
    bits p.toNat 63 40 = 0 ∧ bits q.toNat 63 48 = 0 ∧ bits p.toNat 39 0 = p.toNat ∧ bits q.toNat 39 0 = q.toNat % 2 ^ 40 ∧
      bits q.toNat 45 40 = q.toNat / 2 ^ 40 % 2 ^ 6 ∧ bits q.toNat 47 46 = q.toNat / 2 ^ 46 := by
  simp only [bits]
  refine ⟨?_, ?_, ?_, ?_, trivial, ?_⟩ <;> omega

/-! ### cap_check (10 R206) -/

theorem capCheck_passes {s : State} {vf spad off n need align : Nat} {cap : TCap} {u : Use} {p : Place}
    (passed : s.capCheck vf spad cap off n need align u = .ok p) :
    cap.tag = true ∧ kindAllowed u (capKind cap) = true ∧ capRights cap &&& need = need ∧ off % align = 0 ∧
      capLow cap ≤ off ∧ off + n ≤ capLow cap + capLen cap ∧
      ((capObj cap = 0xFFFFFF ∧ p = .spad off ∧ capGen cap = 0 ∧ off + n ≤ spad) ∨
        ∃ e, capObj cap ≠ 0xFFFFFF ∧ s.objEntry vf (capObj cap) = some e ∧ e.valid = true ∧ e.vf = vf ∧
          e.gen = capGen cap ∧ off + n ≤ e.len ∧ p = .virt e.pasid (e.vabase + off) (some (capObj cap))) := by
  unfold State.capCheck at passed
  dsimp only at passed
  obtain ⟨_, granted, passed⟩ := bind_eq_ok.mp passed
  obtain ⟨_, bounded, passed⟩ := bind_eq_ok.mp passed
  obtain ⟨_, aligned, passed⟩ := bind_eq_ok.mp passed
  simp only [need_eq_ok, Bool.and_eq_true, Bool.or_eq_true, Bool.not_eq_true', beq_iff_eq, decide_eq_true_eq] at granted bounded aligned
  obtain ⟨⟨tagged, kind⟩, rights⟩ := granted
  obtain ⟨⟨low, high⟩, fits⟩ := bounded
  refine ⟨tagged, kind, rights, aligned, low, high, ?_⟩
  by_cases spad : capIsSpad cap = true
  · left
    rw [if_pos spad] at passed
    obtain ⟨_, current, passed⟩ := bind_eq_ok.mp passed
    refine ⟨by simpa [capIsSpad] using spad, ?_, by simpa [need_eq_ok] using current, ?_⟩
    · exact (Res.ok.injEq _ _ ▸ passed).symm
    · exact fits.resolve_left (by simp [spad])
  · right
    rw [if_neg spad] at passed
    cases entry : s.objEntry vf (capObj cap) with
    | none => simp [entry] at passed
    | some e =>
      simp only [entry] at passed
      obtain ⟨_, valid, passed⟩ := bind_eq_ok.mp passed
      obtain ⟨_, inside, passed⟩ := bind_eq_ok.mp passed
      simp only [need_eq_ok, Bool.and_eq_true, beq_iff_eq, decide_eq_true_eq] at valid inside
      obtain ⟨⟨isValid, owner⟩, generation⟩ := valid
      exact ⟨e, by simpa [capIsSpad] using spad, rfl, isValid, owner, generation, inside, (Res.ok.injEq _ _ ▸ passed).symm⟩

/-- Settles O24: a derivation by the conditions under which it succeeds, cap_check by its checks in order. -/
theorem capabilityDerivation : Obligations.CapabilityDerivation := by
  refine ⟨fun s f cap named => ⟨fun p checked => exec_kchk_of_checked named checked, completes_kinfo named,
      fun p checked => ?lea, fun old owned tagged derives plow qlow within kinds above below => ?kder⟩,
    fun c n p q sealed => derive_keeps_within, fun s vf spad cap off n need align u p => capCheck_passes⟩
  case lea =>
    cases p <;> exact completes_lea named checked
  case kder =>
    obtain ⟨reserved, reserved', low, len, rights, kind⟩ := asked_fields plow qlow
    have small : (s.ctx.readS (f.s.toNat + 1)).toNat / 2 ^ 40 % 2 ^ 6 < 2 ^ 6 := Nat.mod_lt _ (by decide)
    have allowed : Derivable cap (bits (s.ctx.readS f.s.toNat).toNat 39 0) (bits (s.ctx.readS (f.s.toNat + 1)).toNat 39 0)
        (bits (s.ctx.readS (f.s.toNat + 1)).toNat 45 40) (bits (s.ctx.readS (f.s.toNat + 1)).toNat 47 46) := by
      rw [low, len, rights, kind]
      exact ⟨tagged, derives, within, kinds, above, below⟩
    have made (sealed : Bool) : ∃ n : TCap,
        derive cap (s.ctx.readS f.s.toNat) (s.ctx.readS (f.s.toNat + 1)) sealed = .ok n ∧ n.tag = true ∧
          capGen n = capGen cap ∧ capObj n = capObj cap ∧ capKind n = (s.ctx.readS (f.s.toNat + 1)).toNat / 2 ^ 46 ∧
          capLow n = (s.ctx.readS f.s.toNat).toNat ∧ capLen n = (s.ctx.readS (f.s.toNat + 1)).toNat % 2 ^ 40 ∧
          capRights n = grantedRights sealed ((s.ctx.readS (f.s.toNat + 1)).toNat / 2 ^ 40 % 2 ^ 6) := by
      refine ⟨_, derive_eq_ok.mpr ⟨⟨reserved, reserved'⟩, allowed, rfl⟩, rfl, ?_⟩
      obtain ⟨gen, obj, granted, kind', low', len'⟩ := derived_fields (c := cap) (s.ctx.readS f.s.toNat)
        (s.ctx.readS (f.s.toNat + 1)) (lt_of_le_of_lt (grantedRights_le sealed _) (rights ▸ small))
      exact ⟨gen, obj, kind'.trans kind, low'.trans low, len'.trans len, granted.trans (congrArg _ rights)⟩
    obtain ⟨plain, derived, fields⟩ := made false
    obtain ⟨sealed, derived', fields'⟩ := made true
    exact ⟨⟨_, completes_kder_of_derived named owned rfl derived, plain, rfl, fields⟩,
      ⟨_, completes_kder_of_derived named owned rfl derived', sealed, rfl, fields'⟩⟩

end Sys2Proof.Proofs
end

section
/-! SUPPORT. A constant load across two pages, of which the second forbids reading (10 R211, 12 R267). -/
namespace Sys2Proof.Proofs
open Sys2Proof Sys2Proof.Machine Sys2Proof.Laws

/-- A capability of an object of two pages. -/
def pairCap : TCap := mkCap 1 0 63 0 0 0x2000

/-- The object, at the virtual address 0x10000. -/
def pairObject : ObjEntry :=
  { vabase := 0x10000, len := 0x2000, gen := 1, tid := 0, pasid := 0, vf := 0, tier := 0, nodem := false, valid := true }

/-- A strand whose s2 names the last dword of the object's first page, which is readable; the second page forbids reading. -/
def beforeForbidden : State :=
  let s := State.reset.loadStrand
  let k := { s.ctxAt 0 0 with k := [(2, pairCap)], s := [(2, 0xFF8)] }
  let s := (s.setCtxAt 0 0 k).setVf 0 { s.vf 0 with objCount := 1, objs := [(0, some pairObject)] }
  let first : AtcEntry := { map := { ppage := 0x10, writable := true } }
  let second : AtcEntry := { map := { ppage := 0x11, writable := true, readable := false } }
  { s with atc := Sparse.set none (Sparse.set none s.atc (atcKey 0 0x10) (some first)) (atcKey 0 0x11) (some second) }

/-- LDC of two dwords from the address in s2, through k2. -/
def pairLoad : AFields := { data := 6, order := 0, scope := 1, k := 2, s := 2, size := 3 }

/-- The place of the two dwords. -/
def pairPlace : Place := .virt 0 0x10FF8 (some 0)

/-- A read on b3 has failed. -/
def loadFailed (s : State) : Bool := ((s.ctxAt 0 0).port 3).any (fun e => e.failed.isSome)

theorem loadFailed_of_arrived {u : State} (empty : (u.ctxAt 0 0).port 3 = []) (v : Vec) (ws : List Wr) :
    loadFailed (u.setCtxAt 0 0 ((u.ctxAt 0 0).setPort 3 ((u.ctxAt 0 0).port 3 ++ [{ value := v, writes := ws }]))) = false := by
  rw [loadFailed, setCtxAt_ctxAt, empty]
  exact congrArg (fun es : List PortEntry => es.any (fun e => e.failed.isSome))
    (get_set_same [] (u.ctxAt 0 0).ports 3 [{ value := v, writes := ws }])

theorem beforeForbidden_admits : Quiet beforeForbidden ∧ readCapReg beforeForbidden.ctx pairLoad.k.toNat = .ok pairCap ∧
    beforeForbidden.check pairCap 0xFF8 16 rR 8 .load = .ok pairPlace ∧
    beforeForbidden.watch pairCap 0xFF8 16 true false pairPlace = .ok () := by
  unfold Quiet
  decide +kernel

/-- The constant path has a value for the first dword, and b3 stands as it did. -/
theorem readConstant_before_forbidden : ((numbered beforeForbidden).readConstant 0 0 pairPlace 16 0).any
    (fun r => decide ((r.2.ctxAt 0 0).port 3 = [])) = true := by decide +kernel

/-- The load takes its entry of b3 with PERM: its second page forbids it. -/
theorem ldc_fails : (match exec (.ldc pairLoad) beforeForbidden with
    | .next t => loadFailed t
    | _ => false) = true := by decide +kernel

/-- Refutes O19: an LDC whose second page forbids reading, of which the constant path would give a value by the first page
alone, pushes an entry that has failed with PERM, and no value. -/
theorem not_loadsDeliverValues : ¬ Obligations.LoadsDeliverValues := by
  intro claim
  obtain ⟨quiet, named, checked, unwatched⟩ := beforeForbidden_admits
  obtain ⟨⟨bs, u⟩, read, empty⟩ := (Option.any_eq_true _ _).mp readConstant_before_forbidden
  obtain ⟨-, constant⟩ := claim.1 beforeForbidden u pairLoad pairCap pairPlace bs quiet named checked unwatched
  have loaded := (constant read).2 (by decide)
  have fails := ldc_fails
  rw [loaded] at fails
  exact Bool.false_ne_true ((loadFailed_of_arrived (of_decide_eq_true empty) _ _).symm.trans fails)

end Sys2Proof.Proofs
end

section
/-! SUPPORT. Writes to the scratchpad: their bytes, masks and tags (10 R201, R205), and the stores that make them
(18 R393, 19 R418 to R420). -/
namespace Sys2Proof.Proofs
open Sys2Proof Sys2Proof.Machine Sys2Proof.Laws

/-! ### The cells of a write -/

theorem mem_cellsFrom {o q : Nat} {b : Byte} {bs : List Byte} :
    (q, b) ∈ cellsFrom o bs ↔ ∃ j, j < bs.length ∧ q = o + j ∧ b = bs.getD j 0 := by
  simp only [cellsFrom, List.mem_map, Prod.exists, List.mem_zipIdx_iff_getElem?, Prod.mk.injEq]
  constructor
  · rintro ⟨x, j, found, rfl, rfl⟩
    obtain ⟨inside, rfl⟩ := List.getElem?_eq_some_iff.mp found
    exact ⟨j, inside, rfl, by simp [inside]⟩
  · rintro ⟨j, inside, rfl, rfl⟩
    exact ⟨bs.getD j 0, j, by simp [inside], rfl, rfl⟩

theorem mem_addresses_cellsFrom {o q : Nat} {bs : List Byte} :
    q ∈ (cellsFrom o bs).map (fun c => c.1) ↔ o ≤ q ∧ q < o + bs.length := by
  simp only [List.mem_map, Prod.exists, exists_and_right, exists_eq_right, mem_cellsFrom]
  constructor
  · rintro ⟨_, j, inside, rfl, _⟩
    omega
  · rintro ⟨low, high⟩
    exact ⟨_, q - o, by omega, by omega, rfl⟩

/-- The cells that a mask leaves. -/
theorem mem_maskCells {m o q : Nat} {b : Byte} {bs : List Byte} : (q, b) ∈ maskCells m (cellsFrom o bs) ↔
    ∃ j, j < bs.length ∧ m.testBit j = true ∧ q = o + j ∧ b = bs.getD j 0 := by
  simp only [maskCells, List.mem_map, List.mem_filter, Prod.exists, List.mem_zipIdx_iff_getElem?, exists_and_right,
    exists_eq_right, Prod.mk.injEq, cellsFrom, List.getElem?_map, List.getElem?_zipIdx, Option.map_map, Option.map_eq_some_iff,
    Function.comp_apply, beq_iff_eq]
  constructor
  · rintro ⟨j, ⟨x, found, rfl, rfl⟩, bit⟩
    obtain ⟨inside, rfl⟩ := List.getElem?_eq_some_iff.mp found
    exact ⟨j, inside, by simpa [Nat.testBit_eq_decide_div_mod_eq] using bit, by simp, by simp [inside]⟩
  · rintro ⟨j, inside, bit, rfl, rfl⟩
    exact ⟨j, ⟨bs.getD j 0, by simp [inside], by simp, rfl⟩, by simpa [Nat.testBit_eq_decide_div_mod_eq] using bit⟩

theorem maskCells_sublist (m : Nat) (cells : List (Nat × Byte)) : (maskCells m cells).Sublist cells := by
  have kept := (List.filter_sublist (p := fun x => m / 2 ^ x.2 % 2 == 1) (l := cells.zipIdx)).map (fun x => x.1)
  rwa [List.zipIdx_map_fst] at kept

theorem nodup_maskCells (m o : Nat) (bs : List Byte) : ((maskCells m (cellsFrom o bs)).map (fun c => c.1)).Nodup :=
  (nodup_cellsFrom o bs).sublist ((maskCells_sublist m _).map _)

/-! ### Bytes and tags after a write -/

section
variable {x : Tile} {cells : List (Nat × Byte)}

theorem spadCells_get_listed (once : (cells.map (fun c => c.1)).Nodup) {q : Nat} {b : Byte} (listed : (q, b) ∈ cells) :
    Sparse.get 0 (x.spadCells cells).spad q = b :=
  spadPut_updates.foldl_at cells x once listed

theorem spadCells_get_unlisted {q : Nat} (unlisted : q ∉ cells.map (fun c => c.1)) :
    Sparse.get 0 (x.spadCells cells).spad q = Sparse.get 0 x.spad q :=
  spadPut_updates.foldl_elsewhere cells x unlisted

/-- A write clears the tags of the units that it touches, and no other. -/
theorem spadTag_spadCells (x : Tile) (cells : List (Nat × Byte)) (u : Nat) :
    Sparse.get false (x.spadCells cells).spadTag u =
      if u ∈ cells.map (fun c => c.1 / 16) then false else Sparse.get false x.spadTag u := by
  show Sparse.get false (cells.foldl (fun x c => x.spadPut c.1 c.2) x).spadTag u = _
  induction cells generalizing x with
  | nil => rfl
  | cons c rest ih =>
    have put : Sparse.get false (x.spadPut c.1 c.2).spadTag u = if u = c.1 / 16 then false else Sparse.get false x.spadTag u := by
      by_cases here : u = c.1 / 16
      · rw [if_pos here, here]
        exact get_set_same false x.spadTag (c.1 / 16) false
      · rw [if_neg here]
        exact get_set_other false x.spadTag false here
    rw [List.foldl_cons, ih, put, List.map_cons]
    simp only [List.mem_cons]
    by_cases here : u = c.1 / 16
    · simp [here]
    · rw [if_neg here]
      simp only [here, false_or]

end

theorem touched_cellsFrom {o u : Nat} {bs : List Byte} : u ∈ (cellsFrom o bs).map (fun c => c.1 / 16) ↔
    bs ≠ [] ∧ o / 16 ≤ u ∧ u ≤ (o + bs.length - 1) / 16 := by
  have addresses : u ∈ (cellsFrom o bs).map (fun c => c.1 / 16) ↔ ∃ q, (o ≤ q ∧ q < o + bs.length) ∧ q / 16 = u := by
    have split : (cellsFrom o bs).map (fun c => c.1 / 16) = ((cellsFrom o bs).map (fun c => c.1)).map (fun q => q / 16) := by
      rw [List.map_map]
      rfl
    rw [split, List.mem_map]
    simp only [mem_addresses_cellsFrom]
  rw [addresses, ← List.length_pos_iff]
  constructor
  · rintro ⟨q, inside, rfl⟩
    omega
  · rintro ⟨some, low, high⟩
    exact ⟨max o (16 * u), by omega, by omega⟩

/-- Bytes in a row written to the scratchpad of the current tile are a write of the scratchpad. -/
theorem scratchpadWritten_spadWrite (s : State) (o : Nat) (bs : List Byte) :
    ScratchpadWritten s o bs (s.spadWrite s.cur (cellsFrom o bs)) := by
  refine ⟨fun i q => spadByte_spadWrite s s.cur o bs i q, fun u => ?_, ?_⟩
  · rw [State.spadWrite, setTile_tile, spadTag_spadCells]
    simp only [touched_cellsFrom]
  · rw [State.spadWrite, setTile_tile]
    exact congrArg (s.setTile s.cur) (spadCells_frame _ _)

/-! ### Stores to the scratchpad -/

section
variable {s : State} (quiet : Quiet s)
include quiet

theorem room_of_quiet : s.room = .ok () := by
  obtain ⟨-, -, -, -, -, space⟩ := quiet
  unfold State.room
  rw [if_neg (ne_true_of_eq_false space)]

theorem put_spad_of_quiet (f : AFields) (o : Nat) (bs : List Byte) (mask : Option Nat) (tag : Option Bool) :
    s.put (.spad o) f bs mask tag = .ok (
      let t := s.spadWrite s.cur (match mask with | some m => maskCells m (cellsFrom o bs) | none => cellsFrom o bs)
      if tag == some true then t.spadSetTag s.cur (o / 16) true else t) := by
  unfold State.put
  rw [room_of_quiet quiet, bind_ok, aStore_spad_of_quiet quiet rfl (fun _ none => by cases none)]
  rfl

variable {f : AFields} {cap : TCap} {o : Nat} (named : readCapReg s.ctx f.k.toNat = .ok cap)
include named

theorem completes_st_spad {n g : Nat} (size : n = 2 ^ f.size.toNat)
    (members : g = if f.order = 0 then 2 ^ (f.scope.toNat % 4) else 1)
    (checked : s.check cap ((s.ctx.readS f.s.toNat).toNat % 2 ^ 48) (n * g) rW n .store = .ok (.spad o)) :
    Completes (.st f) s (ScratchpadWritten s o
      ((List.range g).flatMap (fun i => natBytes n (s.ctx.readS (f.data.toNat + i)).toNat))) := by
  refine ⟨_, ?_, scratchpadWritten_spadWrite s o _⟩
  have unfolded : exec (.st f) s = settle s (
      (readCapReg s.ctx f.k.toNat).bind fun cap =>
      (s.check cap ((s.ctx.readS f.s.toNat).toNat % 2 ^ 48) (n * g) rW n .store).bind fun p =>
      (s.watch cap ((s.ctx.readS f.s.toNat).toNat % 2 ^ 48) (n * g) false true p).bind fun _ =>
      s.put p f ((List.range g).flatMap (fun i => natBytes n (s.ctx.readS (f.data.toNat + i)).toNat)) none none) := by
    subst size members
    rfl
  rw [unfolded, named, bind_ok, checked, bind_ok]
  show settle s ((Res.ok ()).bind _) = _
  rw [bind_ok, put_spad_of_quiet quiet]
  rfl

theorem exec_stm_spad (checked : s.check cap ((s.ctx.readS f.s.toNat).toNat % 2 ^ 48) 8 rW 8 .store = .ok (.spad o)) :
    exec (.stm f) s = .next (s.spadWrite s.cur (maskCells ((s.ctx.readS (f.data.toNat + 1)).toNat % 256)
      (cellsFrom o (natBytes 8 (s.ctx.readS f.data.toNat).toNat)))) := by
  show settle s ((readCapReg s.ctx f.k.toNat).bind _) = _
  rw [named, bind_ok]
  show settle s ((s.check cap ((s.ctx.readS f.s.toNat).toNat % 2 ^ 48) 8 rW 8 .store).bind _) = _
  rw [checked, bind_ok]
  show settle s ((Res.ok ()).bind _) = _
  rw [bind_ok, put_spad_of_quiet quiet]
  rfl

end

/-- A masked row of 8 bytes in the scratchpad: those whose bit is set, and every other byte as before. -/
theorem spadByte_spadWrite_masked (s : State) (o m v i q : Nat) :
    (s.spadWrite s.cur (maskCells (m % 256) (cellsFrom o (natBytes 8 v)))).spadByte i q =
      if i = s.cur ∧ o ≤ q ∧ q < o + 8 ∧ m.testBit (q - o) = true then BitVec.ofNat 8 (v / 2 ^ (8 * (q - o)))
      else s.spadByte i q := by
  have bit {j : Nat} (inside : j < 8) : (m % 256).testBit j = m.testBit j := by
    rw [show (256 : Nat) = 2 ^ 8 from rfl, Nat.testBit_mod_two_pow, decide_eq_true inside, Bool.true_and]
  rcases eq_or_ne i s.cur with rfl | other
  case inr => rw [if_neg (fun h => other h.1), State.spadWrite, State.spadByte, setTile_tile_other _ _ _ other, State.spadByte]
  rw [State.spadWrite, State.spadByte, setTile_tile]
  split
  next inside =>
    obtain ⟨-, low, high, set⟩ := inside
    have listed : (q, BitVec.ofNat 8 (v / 2 ^ (8 * (q - o)))) ∈ maskCells (m % 256) (cellsFrom o (natBytes 8 v)) :=
      mem_maskCells.mpr ⟨q - o, by rw [length_natBytes]; omega, by rw [bit (by omega), set], by omega,
        (getD_natBytes 8 v (by omega)).symm⟩
    exact spadCells_get_listed (nodup_maskCells _ _ _) listed
  next outside =>
    refine spadCells_get_unlisted fun listed => outside ?_
    obtain ⟨⟨a, b⟩, cell, rfl⟩ := List.mem_map.mp listed
    obtain ⟨j, inside, set, rfl, -⟩ := mem_maskCells.mp cell
    rw [length_natBytes] at inside
    refine ⟨rfl, Nat.le_add_right _ _, Nat.add_lt_add_left inside o, ?_⟩
    rw [Nat.add_sub_cancel_left, ← bit inside, set]

/-! ### KST (18 R393) -/

section
variable {s : State} {f : AFields} {cap v : TCap} {p : Place} (named : readCapReg s.ctx f.k.toNat = .ok cap)
  (value : readCapReg s.ctx (f.data.toNat % 32) = .ok v)
  (checked : s.check cap ((s.ctx.readS f.s.toNat).toNat % 2 ^ 48) 16 rW 16 .store = .ok p)
  (unwatched : s.watch cap ((s.ctx.readS f.s.toNat).toNat % 2 ^ 48) 16 false true p = .ok ())
include named value checked unwatched

theorem exec_kst : exec (.kst f) s = settle s (
    if s.placeTier p == some 2 then .trap .perm (BitVec.ofNat 64 p.addr)
    else s.put p f (natBytes 16 v.bits.toNat) none (some v.tag)) := by
  show settle s ((readCapReg s.ctx f.k.toNat).bind _) = _
  rw [named, bind_ok]
  show settle s ((readCapReg s.ctx (f.data.toNat % 32)).bind _) = _
  rw [value, bind_ok]
  show settle s ((s.check cap ((s.ctx.readS f.s.toNat).toNat % 2 ^ 48) 16 rW 16 .store).bind _) = _
  rw [checked, bind_ok]
  show settle s ((s.watch cap ((s.ctx.readS f.s.toNat).toNat % 2 ^ 48) 16 false true p).bind _) = _
  rw [unwatched, bind_ok]
  cases p <;> rfl

end

/-- The tag of each unit after 16 bytes are stored with their tag to an aligned unit. -/
theorem spadTag_stored (s : State) {o : Nat} (aligned : o % 16 = 0) {bs : List Byte} (sixteen : bs.length = 16) (tag : Bool)
    (u : Nat) :
    let t := s.spadWrite s.cur (cellsFrom o bs)
    Sparse.get false ((if some tag == some true then t.spadSetTag s.cur (o / 16) true else t).tile s.cur).spadTag u =
      if u = o / 16 then tag else Sparse.get false (s.tile s.cur).spadTag u := by
  have cleared : Sparse.get false ((s.spadWrite s.cur (cellsFrom o bs)).tile s.cur).spadTag u =
      if u = o / 16 then false else Sparse.get false (s.tile s.cur).spadTag u := by
    rw [(scratchpadWritten_spadWrite s o bs).2.1 u, sixteen]
    have some : bs ≠ [] := by
      rintro rfl
      cases sixteen
    exact if_congr ⟨fun inside => by omega, fun here => ⟨some, by omega, by omega⟩⟩ rfl rfl
  cases tag with
  | false => exact cleared
  | true =>
    show Sparse.get false ((State.spadSetTag _ s.cur (o / 16) true).tile s.cur).spadTag u = _
    rw [State.spadSetTag, setTile_tile]
    by_cases here : u = o / 16
    · rw [if_pos here, here]
      exact get_set_same false _ (o / 16) true
    · rw [if_neg here]
      exact (get_set_other false _ true here).trans (cleared.trans (if_neg here))

/-- Settles O20: each store by the cells that it writes to the scratchpad. -/
theorem scratchpadStores : Obligations.ScratchpadStores := by
  refine ⟨fun s f cap o quiet named => ⟨fun checked => completes_st_spad quiet named rfl rfl checked, fun checked => ?stm⟩,
    fun s f cap v p quiet named value checked unwatched => ⟨fun o spot aligned => ?kst, fun pasid va obj spot host => ?host⟩⟩
  case stm =>
    refine ⟨_, exec_stm_spad quiet named checked, spadByte_spadWrite_masked s o _ _, ?_⟩
    rw [State.spadWrite, setTile_tile]
    exact congrArg (s.setTile s.cur) (spadCells_frame _ _)
  case kst =>
    subst spot
    have sixteen : (natBytes 16 v.bits.toNat).length = 16 := length_natBytes ..
    refine ⟨_, ?_, fun i q => ?_, spadTag_stored s aligned sixteen v.tag⟩
    · rw [exec_kst named value checked unwatched, if_neg (by simp [State.placeTier]), put_spad_of_quiet quiet]
      rfl
    · have tagged : ∀ u : State, (if some v.tag == some true then u.spadSetTag s.cur (o / 16) true else u).spadByte i q =
          u.spadByte i q := by
        intro u
        split
        · rcases eq_or_ne i s.cur with rfl | other
          · rw [State.spadSetTag, State.spadByte, setTile_tile, State.spadByte]
          · rw [State.spadSetTag, State.spadByte, setTile_tile_other _ _ _ other, State.spadByte]
        · rfl
      rw [tagged, spadByte_spadWrite, sixteen]
      split
      next inside => exact getD_natBytes 16 _ (by omega)
      next => rfl
  case host =>
    subst spot
    rw [exec_kst named value checked unwatched, if_pos (by simp [host]), settle_trap]
    rfl

end Sys2Proof.Proofs
end

section
/-! SUPPORT. A strand whose earlier accesses have all been performed, and what its next access does at once (12 R247, R251,
R256). -/
namespace Sys2Proof.Proofs
open Sys2Proof Sys2Proof.Machine Sys2Proof.Laws

/-- Nothing that a context of a tile has issued before number n is still to be performed. -/
structure PathClear (s : State) (t c n : Nat) : Prop where
  fences : (s.ctxAt t c).fences = []
  stores : (s.ctxAt t c).storeQ = []
  reads : ∀ p ∈ (s.ctxAt t c).ports, ∀ e ∈ p.2, ∀ h, e.failed = none → e.held = some h → n ≤ h.num
  log : ∀ e ∈ (s.tile t).sideLog, (e.ctx == c) = false
  summaries : ∀ o ∈ (s.tile t).sumq, (o.iss.ctx == c && decide (o.num < n)) = false

theorem ctxAt_numbered (s : State) : (numbered s).ctxAt s.cur s.curCtx = { s.ctx with num := s.ctx.num + 1 } :=
  setCtxAt_ctxAt ..

theorem pathClear_numbered {s : State} (quiet : Quiet s) : PathClear (numbered s) s.cur s.curCtx s.ctx.num where
  fences := by rw [ctxAt_numbered]; exact fences_of_quiet quiet
  stores := by rw [ctxAt_numbered]; exact storeQ_of_quiet quiet
  reads p listed e entry h sound held := by
    rw [ctxAt_numbered] at listed
    exact Nat.le_of_not_lt (num_le_of_quiet quiet listed entry sound held)
  log e listed := by
    have same : ((numbered s).tile s.cur).sideLog = (s.tile s.cur).sideLog := by simp [numbered, State.setCtx, State.setCtxAt]
    exact Bool.eq_false_iff.mpr (ctx_of_log_of_quiet quiet (same ▸ listed))
  summaries o listed := by
    have same : ((numbered s).tile s.cur).sumq = (s.tile s.cur).sumq := by simp [numbered, State.setCtx, State.setCtxAt]
    exact Bool.eq_false_iff.mpr (List.any_eq_false.mp (owesSummary_of_quiet quiet) o (same ▸ listed))

section
variable {s : State} {t c n : Nat} (clear : PathClear s t c n)
include clear

/-- No read of the context before number n satisfies what asks for one that is still owed. -/
theorem owed_reads_of_clear (test : Held → Bool) (early : ∀ h, test h = true → h.num < n) :
    (s.ctxAt t c).ports.any (fun p => p.2.any (fun e => e.failed.isNone && match e.held with
      | some h => test h
      | none => false)) = false := by
  refine List.any_eq_false.mpr fun p listed owed => ?_
  obtain ⟨e, entry, owed⟩ := List.any_eq_true.mp owed
  obtain ⟨sound, owed⟩ := Bool.and_eq_true_iff.mp owed
  cases held : e.held with
  | none => rw [held] at owed; cases owed
  | some h =>
    rw [held] at owed
    exact Nat.not_lt.mpr (clear.reads p listed e entry h (Option.isNone_iff_eq_none.mp sound) held) (early h owed)

theorem owesBefore_of_clear : (s.ctxAt t c).owesBefore n = false :=
  owed_reads_of_clear clear (fun h => decide (h.num < n)) (fun _ early => of_decide_eq_true early)

theorem owesAcquire_of_clear (seq : Nat) : (s.tile t).owesAcquire c n seq = false := by
  refine Bool.or_eq_false_iff.mpr ⟨Bool.or_eq_false_iff.mpr ⟨?reads, ?stores⟩, ?log⟩
  case reads =>
    exact owed_reads_of_clear clear (fun h => h.acq && decide (h.num < n))
      (fun _ early => of_decide_eq_true (Bool.and_eq_true_iff.mp early).2)
  case stores =>
    show (s.ctxAt t c).storeQ.any _ = false
    rw [clear.stores]
    rfl
  case log =>
    refine List.any_eq_false.mpr fun e listed owed => ?_
    simp only [Bool.and_eq_true] at owed
    exact Bool.false_ne_true ((clear.log e listed).symm.trans owed.1.1.1)

theorem owesSummary_of_clear : (s.tile t).owesSummary c n = false :=
  List.any_eq_false.mpr fun o listed => Bool.eq_false_iff.mp (clear.summaries o listed)

theorem mayRead_of_clear {h : Held} (number : h.num = n) : (s.tile t).mayRead c h = true := by
  have fences : ((s.tile t).ctx c).fences = [] := clear.fences
  have reads : ((s.tile t).ctx c).owesBefore n = false := owesBefore_of_clear clear
  have stores : ((s.tile t).ctx c).storeQ = [] := clear.stores
  unfold Tile.mayRead
  simp only [number, owesAcquire_of_clear clear, owesSummary_of_clear clear, reads, Ctx.storeBefore, stores, fences]
  cases h.kind <;> simp

theorem readBlocked_of_clear (seq : Nat) (p : Place) (k : Nat) : s.readBlocked t c n seq p k = false := by
  have summary : s.behindSummary t c n p k = false :=
    List.any_eq_false.mpr fun o listed behind =>
      Bool.false_ne_true ((clear.summaries o listed).symm.trans (Bool.and_eq_true_iff.mp behind).1)
  have read : s.behindRead t c n p k = false :=
    owed_reads_of_clear clear (fun h => decide (h.num < n) && (s.spansOf t h).any (fun a => overlap a.1 p a.2 k))
      (fun _ early => of_decide_eq_true (Bool.and_eq_true_iff.mp early).1)
  have log (pasid va : Nat) : (s.tile t).logCovers c seq pasid va k = false := by
    refine List.any_eq_false.mpr fun e listed covers => ?_
    simp only [Bool.and_eq_true] at covers
    exact Bool.false_ne_true ((clear.log e listed).symm.trans covers.1.1.1.1)
  unfold State.readBlocked
  simp only [Ctx.storesTo, clear.stores, summary, read, log]
  cases p <;> rfl

end

end Sys2Proof.Proofs
end

section
/-! SUPPORT. Atomics and compares and swaps (17 R352 to R357). -/
namespace Sys2Proof.Proofs
open Sys2Proof Sys2Proof.Machine Sys2Proof.Laws

/-! ### The new value -/

/-- The signed reading of n bytes is that of two's complement. -/
theorem signedBytes_eq {n x : Nat} (small : x < 2 ^ (8 * n)) :
    signedBytes n x = if 2 * x < 2 ^ (8 * n) then (x : Int) else (x : Int) - 2 ^ (8 * n) := by
  unfold signedBytes
  rw [BitVec.toInt_eq_toNat_cond, BitVec.toNat_ofNat, Nat.mod_eq_of_lt small]
  push_cast
  rfl

theorem signedBytes_max {n old opnd : Nat} :
    signedBytes n (atomNew n .max old opnd) = max (signedBytes n old) (signedBytes n opnd) := by
  unfold atomNew
  dsimp only
  split
  next less => rw [max_eq_right (le_of_lt less)]
  next more => rw [max_eq_left (not_lt.mp more)]

theorem signedBytes_min {n old opnd : Nat} :
    signedBytes n (atomNew n .min old opnd) = min (signedBytes n old) (signedBytes n opnd) := by
  unfold atomNew
  dsimp only
  split
  next less => rw [min_eq_right (le_of_lt less)]
  next more => rw [min_eq_left (not_lt.mp more)]

/-! ### At the scratchpad -/

theorem bytesNat_natBytes_of_lt {n x : Nat} (small : x < 2 ^ (8 * n)) : bytesNat (natBytes n x) = x := by
  rw [bytesNat_natBytes, Nat.mod_eq_of_lt]
  rwa [show (256 : Nat) = 2 ^ 8 from rfl, ← Nat.pow_mul]

section
variable {s : State} {t o n : Nat} {op : AtomOp}

theorem atomicSpad_of_writes {k : Nat} (small : k < 2 ^ (8 * n))
    (writes : atomWrites n op (bytesNat (s.spadBytes t o n)) = true) : (s.atomicSpad t o n op k).2 =
      s.spadWrite t (cellsFrom o (natBytes n (atomNew n op (bytesNat (s.spadBytes t o n)) k))) := by
  unfold State.atomicSpad
  dsimp only
  rw [if_pos writes, Nat.mod_eq_of_lt small]

theorem atomicSpad_of_keeps {k : Nat} (keeps : atomWrites n op (bytesNat (s.spadBytes t o n)) = false) :
    (s.atomicSpad t o n op k).2 = s := by
  unfold State.atomicSpad
  exact if_neg (ne_true_of_eq_false keeps)

/-- A read-modify-write of a context with nothing else to perform takes its value, and writes, as it issues. -/
theorem issueRead_atomic_spad {c port : Nat} {h : Held} {opnd : Word128} {signed facq : Bool} {order : Nat}
    (clear : PathClear s t c h.num) (sound : (s.tile t).spadPoison = []) (spot : h.place = .spad o)
    (kind : h.kind = .atomic n op opnd signed order facq none) :
    s.issueRead t c port h {} =
      let u := (s.atomicSpad t o n op opnd.toNat).2
      u.setCtxAt t c ((u.ctxAt t c).pushPort port { value := atomicValue n signed (bytesNat (s.spadBytes t o n)) }) := by
  have read : s.tryRead t c h {} =
      ({ value := atomicValue n signed (bytesNat (s.spadBytes t o n)) }, (s.atomicSpad t o n op opnd.toNat).2) := by
    have spans : s.readFault h = none := by simp [State.readFault, Held.spans, kind, spot]
    unfold State.tryRead
    simp only [kind, spot, spans, mayRead_of_clear clear rfl, readBlocked_of_clear clear, spadBad_of_sound sound,
      State.syncBefore, State.syncAfter, Bool.not_true, Bool.and_false, Bool.false_eq_true, if_false, ite_self]
    rfl
  unfold State.issueRead
  rw [read]

end

/-! ### The instructions -/

/-- The bytes of an atomic by the low bit of its size field. -/
theorem atomBytes_eq (f : AFields) : atomBytes f = if f.size.getLsbD 0 then 8 else 4 := by
  unfold atomBytes
  refine if_congr ?_ rfl rfl
  rw [BitVec.getLsbD, Nat.testBit_zero, decide_eq_true_iff]

/-- Whether an atomic returns its old value, by the high bit of its size field. -/
theorem aRet_eq (f : AFields) : aRet f = f.size.getLsbD 1 := by
  have all : ∀ x : BitVec 2, (x.toNat / 2 == 1) = x.getLsbD 1 := by decide
  exact all f.size

section
variable {s : State} {t o n : Nat}

theorem tile_atomicSpad_running (op : AtomOp) (k : Nat) :
    ((s.atomicSpad t o n op k).2.tile t).running = (s.tile t).running := by
  unfold State.atomicSpad
  dsimp only
  split
  · rw [State.spadWrite, setTile_tile, spadCells_frame]
  · rfl

theorem cur_atomicSpad (op : AtomOp) (k : Nat) : (s.atomicSpad t o n op k).2.cur = s.cur := by
  unfold State.atomicSpad
  dsimp only
  split <;> rfl

theorem curCtx_atomicSpad (op : AtomOp) (k : Nat) : (s.atomicSpad s.cur o n op k).2.curCtx = s.curCtx := by
  rw [State.curCtx, cur_atomicSpad, tile_atomicSpad_running, State.curCtx]

end

/-- The state in which an atomic on the scratchpad has been performed and has pushed its old value to b5. -/
def fetched (s : State) (o n : Nat) (op : AtomOp) (signed : Bool) (opnd : Nat) : State :=
  let u := ((numbered s).atomicSpad s.cur o n op opnd).2
  u.setCtx (u.ctx.pushPort 5 { value := atomicValue n signed (bytesNat (s.spadBytes s.cur o n)) })

section
variable {s : State} {o : Nat} (quiet : Quiet s) (sound : (s.tile s.cur).spadPoison = [])
include quiet sound

/-- The read of an atomic or of a compare and swap on the scratchpad. -/
theorem aRead_atomic_spad (n : Nat) (op : AtomOp) (acq signed facq : Bool) (opnd : Word128) (order : Nat) :
    s.aRead 5 (.spad o) acq (.atomic n op opnd signed order facq none) {} = fetched s o n op signed opnd.toNat := by
  have same : (numbered s).spadBytes s.cur o n = s.spadBytes s.cur o n := by
    simp [State.spadBytes, (sameMemory_numbered s).2.2.1]
  have sound' : ((numbered s).tile s.cur).spadPoison = [] := by
    simpa [numbered, State.setCtx, State.setCtxAt] using sound
  have current : ((numbered s).atomicSpad s.cur o n op opnd.toNat).2.curCtx = s.curCtx :=
    (curCtx_atomicSpad (s := numbered s) op opnd.toNat).trans (by simp [numbered, State.setCtx, State.setCtxAt, State.curCtx])
  unfold fetched
  dsimp only
  rw [← same, State.ctx, State.setCtx, current, cur_atomicSpad]
  exact issueRead_atomic_spad (pathClear_numbered quiet) sound' rfl rfl

/-- An atomic without a return on the scratchpad. -/
theorem aStore_atomic_spad {n k : Nat} (small : k < 2 ^ (8 * n)) (op : AtomOp) (order scope : Nat) :
    s.aStore { num := 0, place := .spad o, data := natBytes n k, aop := some op, order, scope } =
      .ok (s.atomicSpad s.cur o n op k).2 := by
  rw [aStore_spad_of_quiet quiet rfl (fun _ none => by cases none)]
  show Res.ok (if s.spadBad s.cur o (natBytes n k).length then _ else _) = _
  rw [spadBad_of_sound sound, if_neg Bool.false_ne_true]
  simp [State.syncBefore, State.syncAfter, length_natBytes, bytesNat_natBytes_of_lt small]

end

section
variable {s : State} {f : AFields} {cap : TCap} {o n : Nat} (quiet : Quiet s) (sound : (s.tile s.cur).spadPoison = [])
  (named : readCapReg s.ctx f.k.toNat = .ok cap) (plain : capKind cap ≠ 1)
  (checked : s.check cap ((s.ctx.readS f.s.toNat).toNat % 2 ^ 48) n rA n .atomic = .ok (.spad o))
include quiet sound named plain checked

theorem atomic_of_checked (size : n = if f.size.getLsbD 0 then 8 else 4) (op : AtomOp) (signed : Bool) :
    s.atomic f op signed = .ok (
      if f.size.getLsbD 1 then fetched s o n op signed ((s.ctx.readS f.data.toNat).toNat % 2 ^ (8 * n))
      else (s.atomicSpad s.cur o n op ((s.ctx.readS f.data.toNat).toNat % 2 ^ (8 * n))).2) := by
  have sync : syncWord cap (s.aOff f) = none := if_neg plain
  have checked' : s.check cap (s.aOff f) n rA n .atomic = .ok (.spad o) := checked
  have watched : s.watch cap (s.aOff f) n true true (.spad o) = .ok () := rfl
  have small : (s.ctx.readS f.data.toNat).toNat % 2 ^ (8 * n) < 2 ^ (8 * n) := Nat.mod_lt _ (by positivity)
  have wide : (BitVec.ofNat 128 ((s.ctx.readS f.data.toNat).toNat % 2 ^ (8 * n))).toNat =
      (s.ctx.readS f.data.toNat).toNat % 2 ^ (8 * n) := by
    refine Nat.mod_eq_of_lt (lt_of_lt_of_le small (Nat.pow_le_pow_right (by decide) ?_))
    subst size
    split <;> decide
  unfold State.atomic
  simp only [atomBytes_eq, ← size, named, bind_ok, checked', watched, sync, aRet_eq, room_of_quiet quiet,
    aRead_atomic_spad quiet sound, aStore_atomic_spad quiet sound small, wide]
  split <;> rfl

/-- What an atomic on the scratchpad replaces and returns. -/
theorem atomic_acts (size : n = if f.size.getLsbD 0 then 8 else 4) {i : Instr} {op : AtomOp} {signed : Bool}
    (runs : exec i s = settle s (s.atomic f op signed)) (writes : ∀ old, atomWrites n op old = true) :
    let opnd := (s.ctx.readS f.data.toNat).toNat % 2 ^ (8 * n)
    let old := bytesNat (s.spadBytes s.cur o n)
    (f.size.getLsbD 1 = false → Completes i s (ScratchpadWritten s o (natBytes n (atomNew n op old opnd)))) ∧
    (f.size.getLsbD 1 = true → Completes i s (fun t => ∃ u, ScratchpadWritten (numbered s) o (natBytes n (atomNew n op old opnd)) u ∧
      t = u.setCtx (u.ctx.setPort 5 (u.ctx.port 5 ++ [{
        value := (if signed then BitVec.ofInt 64 (BitVec.ofNat (8 * n) old).toInt else BitVec.ofNat 64 old).setWidth 512 }])))) := by
  dsimp only
  have small : (s.ctx.readS f.data.toNat).toNat % 2 ^ (8 * n) < 2 ^ (8 * n) := Nat.mod_lt _ (by positivity)
  have result := atomic_of_checked quiet sound named plain checked size op signed
  constructor
  · intro silent
    refine ⟨_, ?_, scratchpadWritten_spadWrite s o _⟩
    rw [runs, result, silent, if_neg Bool.false_ne_true, settle_ok, atomicSpad_of_writes small (writes _)]
  · intro returns
    have same : (numbered s).spadBytes s.cur o n = s.spadBytes s.cur o n := by
      simp [State.spadBytes, (sameMemory_numbered s).2.2.1]
    refine ⟨fetched s o n op signed ((s.ctx.readS f.data.toNat).toNat % 2 ^ (8 * n)), ?_, _,
      scratchpadWritten_spadWrite (numbered s) o _, ?_⟩
    · rw [runs, result, returns, if_pos rfl, settle_ok]
    · have word : n ≤ 8 := by subst size; split <;> decide
      have value : atomicValue n signed (bytesNat (s.spadBytes s.cur o n)) =
          (if signed then BitVec.ofInt 64 (BitVec.ofNat (8 * n) (bytesNat (s.spadBytes s.cur o n))).toInt
            else BitVec.ofNat 64 (bytesNat (s.spadBytes s.cur o n))).setWidth 512 := if_pos word
      unfold fetched
      dsimp only
      rw [atomicSpad_of_writes small (writes _), same, value]
      rfl

end

/-! ### Compares and swaps (17 R356, R357) -/

theorem port_setPort (k : Ctx) (n : Nat) (es : List PortEntry) : (k.setPort n es).port n = es := get_set_same _ _ _ _

theorem port_pushPort (k : Ctx) (n : Nat) (e : PortEntry) : (k.pushPort n e).port n = k.port n ++ [e] := port_setPort ..

/-- The second entry of an ACAS.w takes the high half of the first, which has its value. -/
theorem retryPort_twin {s : State} {t c : Nat} {v : Vec} (entries : (s.ctxAt t c).port 5 = [{ value := v }, { twin := true }]) :
    s.retryPort t c 5 = s.setCtxAt t c ((s.ctxAt t c).setPort 5 [{ value := v }, { value := v >>> 64 }]) := by
  unfold State.retryPort
  rw [entries]
  rfl

theorem bytesNat_append (a b : List Byte) : bytesNat (a ++ b) = bytesNat a + 2 ^ (8 * a.length) * bytesNat b := by
  induction a with
  | nil => simp [bytesNat]
  | cons x a ih =>
    rw [List.cons_append, bytesNat, ih, bytesNat, List.length_cons, Nat.mul_succ, Nat.pow_add]
    ring

theorem spadBytes_add (s : State) (t o m n : Nat) :
    s.spadBytes t o (m + n) = s.spadBytes t o m ++ s.spadBytes t (o + m) n := by
  simp [State.spadBytes, List.range_add, Nat.add_assoc]

/-- The halves of 16 bytes as a register of 512 bits holds them. -/
theorem halves_of_spadBytes (s : State) (t o : Nat) :
    (BitVec.ofNat 512 (bytesNat (s.spadBytes t o 16))).setWidth 64 = BitVec.ofNat 64 (bytesNat (s.spadBytes t o 8)) ∧
      (BitVec.ofNat 512 (bytesNat (s.spadBytes t o 16)) >>> 64).setWidth 64 =
        BitVec.ofNat 64 (bytesNat (s.spadBytes t (o + 8) 8)) := by
  have low := bytesNat_lt (s.spadBytes t o 8)
  have high := bytesNat_lt (s.spadBytes t (o + 8) 8)
  have length (p : Nat) : (s.spadBytes t p 8).length = 8 := by simp [State.spadBytes]
  rw [length] at low high
  rw [show (16 : Nat) = 8 + 8 from rfl, spadBytes_add, bytesNat_append, length]
  constructor <;> refine BitVec.eq_of_toNat_eq ?_
  · rw [BitVec.toNat_setWidth, BitVec.toNat_ofNat, BitVec.toNat_ofNat]
    omega
  · rw [BitVec.toNat_setWidth, BitVec.toNat_ushiftRight, BitVec.toNat_ofNat, BitVec.toNat_ofNat, Nat.shiftRight_eq_div_pow]
    omega

section
variable {s : State} {f : AFields} {cap : TCap} {o n : Nat} (quiet : Quiet s) (sound : (s.tile s.cur).spadPoison = [])
  (named : readCapReg s.ctx f.k.toNat = .ok cap) (plain : capKind cap ≠ 1)
  (checked : s.check cap ((s.ctx.readS f.s.toNat).toNat % 2 ^ 48) n rA n .atomic = .ok (.spad o))
include quiet sound named plain checked

theorem compareSwap_of_checked (small : n ≤ 16) (e new : Nat) : s.compareSwap f n e new = .ok (
    let u := fetched s o n (.cas (BitVec.ofNat 128 (e % 2 ^ (8 * n)))) false (new % 2 ^ (8 * n))
    if n = 16 then (u.setCtx (u.ctx.pushPort 5 { twin := true })).retryPort u.cur u.curCtx 5 else u) := by
  have sync : syncWord cap (s.aOff f) = none := if_neg plain
  have checked' : s.check cap (s.aOff f) n rA n .atomic = .ok (.spad o) := checked
  have watched : s.watch cap (s.aOff f) n true true (.spad o) = .ok () := rfl
  have wide : (BitVec.ofNat 128 (new % 2 ^ (8 * n))).toNat = new % 2 ^ (8 * n) :=
    Nat.mod_eq_of_lt (lt_of_lt_of_le (Nat.mod_lt _ (by positivity)) (Nat.pow_le_pow_right (by decide) (by omega)))
  unfold State.compareSwap
  simp only [named, bind_ok, checked', watched, sync, room_of_quiet quiet, aRead_atomic_spad quiet sound, wide]

end

/-! ### What a compare and swap leaves -/

theorem port_fetched (s : State) (o n : Nat) (op : AtomOp) (signed : Bool) (k : Nat) : (fetched s o n op signed k).ctx.port 5 =
    s.ctx.port 5 ++ [{ value := atomicValue n signed (bytesNat (s.spadBytes s.cur o n)) }] := by
  unfold fetched
  dsimp only
  rw [setCtx_ctx, port_pushPort, ctx_atomicSpad]
  rw [show (numbered s).ctx = { s.ctx with num := s.ctx.num + 1 } from setCtx_ctx ..]
  rfl

theorem sameMemory_setCtx (s : State) (k : Ctx) : SameMemory s (s.setCtx k) := sameMemory_setTile s rfl rfl

theorem fetched_memory (s : State) (o n : Nat) (op : AtomOp) (signed : Bool) (k : Nat) :
    SameMemory ((numbered s).atomicSpad s.cur o n op k).2 (fetched s o n op signed k) := sameMemory_setCtx _ _

theorem pocByte_atomicSpad (s : State) (t o n : Nat) (op : AtomOp) (k a : Nat) :
    (s.atomicSpad t o n op k).2.pocByte a = s.pocByte a := by
  unfold State.atomicSpad
  dsimp only
  split <;> rfl

theorem pocByte_fetched (s : State) (o n : Nat) (op : AtomOp) (signed : Bool) (k a : Nat) :
    (fetched s o n op signed k).pocByte a = s.pocByte a := by
  rw [(fetched_memory s o n op signed k).1, pocByte_atomicSpad, (sameMemory_numbered s).1]

section
variable {s : State} {o n e new : Nat}

theorem expected_eq (small : n ≤ 16) : (BitVec.ofNat 128 (e % 2 ^ (8 * n))).toNat % 2 ^ (8 * n) = e % 2 ^ (8 * n) := by
  have fits : e % 2 ^ (8 * n) < 2 ^ 128 :=
    lt_of_lt_of_le (Nat.mod_lt _ (by positivity)) (Nat.pow_le_pow_right (by decide) (by omega))
  rw [BitVec.toNat_ofNat, Nat.mod_eq_of_lt fits, Nat.mod_mod]

theorem spadByte_fetched_of_differs (small : n ≤ 16) (differs : bytesNat (s.spadBytes s.cur o n) ≠ e % 2 ^ (8 * n)) (x q : Nat) :
    (fetched s o n (.cas (BitVec.ofNat 128 (e % 2 ^ (8 * n)))) false (new % 2 ^ (8 * n))).spadByte x q = s.spadByte x q := by
  have same : (numbered s).spadBytes s.cur o n = s.spadBytes s.cur o n := by
    simp [State.spadBytes, (sameMemory_numbered s).2.2.1]
  have keeps : atomWrites n (.cas (BitVec.ofNat 128 (e % 2 ^ (8 * n)))) (bytesNat ((numbered s).spadBytes s.cur o n)) = false := by
    rw [same]
    exact beq_eq_false_iff_ne.mpr (by rwa [expected_eq small])
  rw [(fetched_memory ..).2.2.1, atomicSpad_of_keeps keeps, (sameMemory_numbered s).2.2.1]

theorem spadByte_fetched_of_equal (small : n ≤ 16) (equal : bytesNat (s.spadBytes s.cur o n) = e % 2 ^ (8 * n)) (x q : Nat) :
    (fetched s o n (.cas (BitVec.ofNat 128 (e % 2 ^ (8 * n)))) false (new % 2 ^ (8 * n))).spadByte x q =
      if x = s.cur ∧ o ≤ q ∧ q < o + n then BitVec.ofNat 8 (new / 2 ^ (8 * (q - o))) else s.spadByte x q := by
  have same : (numbered s).spadBytes s.cur o n = s.spadBytes s.cur o n := by
    simp [State.spadBytes, (sameMemory_numbered s).2.2.1]
  have met : bytesNat (s.spadBytes s.cur o n) = (BitVec.ofNat 128 (e % 2 ^ (8 * n))).toNat % 2 ^ (8 * n) := by
    rw [equal, expected_eq small]
  have writes : atomWrites n (.cas (BitVec.ofNat 128 (e % 2 ^ (8 * n)))) (bytesNat ((numbered s).spadBytes s.cur o n)) = true := by
    rw [same]
    exact beq_iff_eq.mpr met
  have value : atomNew n (.cas (BitVec.ofNat 128 (e % 2 ^ (8 * n)))) (bytesNat (s.spadBytes s.cur o n)) (new % 2 ^ (8 * n)) =
      new % 2 ^ (8 * n) := if_pos met
  rw [(fetched_memory ..).2.2.1, atomicSpad_of_writes (Nat.mod_lt _ (by positivity)) writes, same, value, natBytes_mod,
    spadByte_spadWrite, length_natBytes, (sameMemory_numbered s).2.2.1]
  split
  next inside => exact getD_natBytes n new (by omega)
  next => rfl

end

/-- The halves that a compare and swap of n bytes returns. -/
def oldHalves (s : State) (o n : Nat) : List Word :=
  if n = 16 then [BitVec.ofNat 64 (bytesNat (s.spadBytes s.cur o 8)), BitVec.ofNat 64 (bytesNat (s.spadBytes s.cur (o + 8) 8))]
  else [BitVec.ofNat 64 (bytesNat (s.spadBytes s.cur o n))]

/-- What a compare and swap leaves: its halves in b5, its new value where the old one was the expected, and all other bytes. -/
def CasLeaves (s : State) (o n e new : Nat) (halves : List Word) (t : State) : Prop :=
  (t.ctx.port 5).map (fun x => x.value.setWidth 64) = halves ∧
  (bytesNat (s.spadBytes s.cur o n) ≠ e % 2 ^ (8 * n) → ∀ x q, t.spadByte x q = s.spadByte x q) ∧
  (bytesNat (s.spadBytes s.cur o n) = e % 2 ^ (8 * n) → ∀ x q, t.spadByte x q =
    if x = s.cur ∧ o ≤ q ∧ q < o + n then BitVec.ofNat 8 (new / 2 ^ (8 * (q - o))) else s.spadByte x q) ∧
  (∀ a, t.pocByte a = s.pocByte a)

theorem casLeaves_of_fetched {s t : State} {o n e new : Nat} {halves : List Word} (small : n ≤ 16)
    (memory : SameMemory (fetched s o n (.cas (BitVec.ofNat 128 (e % 2 ^ (8 * n)))) false (new % 2 ^ (8 * n))) t)
    (returned : (t.ctx.port 5).map (fun x => x.value.setWidth 64) = halves) : CasLeaves s o n e new halves t :=
  ⟨returned, fun differs x q => by rw [memory.2.2.1, spadByte_fetched_of_differs small differs],
    fun equal x q => by rw [memory.2.2.1, spadByte_fetched_of_equal small equal],
    fun a => by rw [memory.1, pocByte_fetched]⟩

section
variable {s : State} {f : AFields} {cap : TCap} {o n : Nat} (quiet : Quiet s) (sound : (s.tile s.cur).spadPoison = [])
  (empty : s.ctx.port 5 = []) (named : readCapReg s.ctx f.k.toNat = .ok cap) (plain : capKind cap ≠ 1)
  (checked : s.check cap ((s.ctx.readS f.s.toNat).toNat % 2 ^ 48) n rA n .atomic = .ok (.spad o))
include quiet sound empty named plain checked

theorem compareSwap_word {i : Instr} {e new : Nat} (word : n ≤ 8) (runs : exec i s = settle s (s.compareSwap f n e new)) :
    Completes i s (CasLeaves s o n e new [BitVec.ofNat 64 (bytesNat (s.spadBytes s.cur o n))]) := by
  refine ⟨_, ?_, casLeaves_of_fetched (by omega) ⟨fun _ => rfl, fun _ => rfl, fun _ _ => rfl, fun _ _ => rfl⟩ ?_⟩
  · rw [runs, compareSwap_of_checked quiet sound named plain checked (by omega), settle_ok]
    exact congrArg Host.Outcome.next (if_neg (by omega))
  · have value : atomicValue n false (bytesNat (s.spadBytes s.cur o n)) =
        (BitVec.ofNat 64 (bytesNat (s.spadBytes s.cur o n))).setWidth 512 := if_pos word
    rw [port_fetched, empty, value]
    simp

theorem compareSwap_pair {i : Instr} {e new : Nat} (pair : n = 16) (runs : exec i s = settle s (s.compareSwap f n e new)) :
    Completes i s (CasLeaves s o n e new [BitVec.ofNat 64 (bytesNat (s.spadBytes s.cur o 8)),
      BitVec.ofNat 64 (bytesNat (s.spadBytes s.cur (o + 8) 8))]) := by
  obtain ⟨u, hu⟩ : ∃ u, u = fetched s o n (.cas (BitVec.ofNat 128 (e % 2 ^ (8 * n)))) false (new % 2 ^ (8 * n)) := ⟨_, rfl⟩
  have first : u.ctx.port 5 = [{ value := BitVec.ofNat 512 (bytesNat (s.spadBytes s.cur o 16)) }] := by
    rw [hu, port_fetched, empty, pair]
    rfl
  obtain ⟨v, hv⟩ : ∃ v, v = u.setCtx (u.ctx.pushPort 5 { twin := true }) := ⟨_, rfl⟩
  have current : v.curCtx = u.curCtx := by rw [hv]; simp
  have both : v.ctx.port 5 = [{ value := BitVec.ofNat 512 (bytesNat (s.spadBytes s.cur o 16)) }, { twin := true }] := by
    rw [hv, setCtx_ctx, port_pushPort, first]
    rfl
  have retried : v.retryPort u.cur u.curCtx 5 = v.setCtx (v.ctx.setPort 5 [
      { value := BitVec.ofNat 512 (bytesNat (s.spadBytes s.cur o 16)) },
      { value := BitVec.ofNat 512 (bytesNat (s.spadBytes s.cur o 16)) >>> 64 }]) := by
    have same : v.cur = u.cur := by rw [hv]; rfl
    rw [← same, ← current]
    exact retryPort_twin both
  obtain ⟨low, high⟩ := halves_of_spadBytes s s.cur o
  refine ⟨v.retryPort u.cur u.curCtx 5, ?_, casLeaves_of_fetched (by omega) ?_ ?_⟩
  · rw [runs, compareSwap_of_checked quiet sound named plain checked (by omega), settle_ok]
    dsimp only
    rw [if_pos pair, ← hu, hv]
  · rw [retried, ← hu]
    exact sameMemory_trans (hv ▸ sameMemory_setCtx u _) (sameMemory_setCtx v _)
  · rw [retried, setCtx_ctx, port_setPort, List.map_cons, List.map_cons, low, high]
    rfl

end

/-- Settles O22: the new values by the equations of `atomNew`, and each instruction by what it replaces and returns. -/
theorem atomicResults : Obligations.AtomicResults := by
  refine ⟨fun n old opnd e _ hold hopnd => ?values, fun s f cap o quiet sound named checked plain => ?atomics,
    fun s f cap o quiet sound empty named plain => ?swaps⟩
  case values =>
    dsimp only
    have new (op : AtomOp) (either : atomNew n op old opnd = old ∨ atomNew n op old opnd = opnd) :
        atomNew n op old opnd < 2 ^ (8 * n) := by rcases either with h | h <;> rw [h] <;> assumption
    have max := signedBytes_max (n := n) (old := old) (opnd := opnd)
    have min := signedBytes_min (n := n) (old := old) (opnd := opnd)
    rw [signedBytes_eq (new .max (by unfold atomNew; dsimp only; split <;> simp)), signedBytes_eq hold, signedBytes_eq hopnd] at max
    rw [signedBytes_eq (new .min (by unfold atomNew; dsimp only; split <;> simp)), signedBytes_eq hold, signedBytes_eq hopnd] at min
    exact ⟨rfl, rfl, rfl, rfl, max, min, rfl, rfl, rfl, rfl⟩
  case atomics =>
    have acts {i : Instr} {op : AtomOp} {signed : Bool} (runs : exec i s = settle s (s.atomic f op signed)) :=
      atomic_acts quiet sound named plain checked rfl runs
    exact ⟨acts rfl fun _ => rfl, acts rfl fun _ => rfl, acts rfl fun _ => rfl, acts rfl fun _ => rfl, acts rfl fun _ => rfl,
      acts rfl fun _ => rfl, acts rfl fun _ => rfl, acts rfl fun _ => rfl, acts rfl fun _ => rfl, acts rfl fun _ => rfl,
      acts rfl fun _ => rfl⟩
  case swaps =>
    refine ⟨fun checked => compareSwap_word quiet sound empty named plain checked (by split <;> decide) ?_,
      fun checked => compareSwap_pair quiet sound empty named plain checked rfl rfl⟩
    rw [← atomBytes_eq]
    rfl

end Sys2Proof.Proofs
end

section
/-! SUPPORT. Stores to memory (10 R200, R212, R213, 12 R248, R249, 19 R418, R419): translations that a use leaves as they were,
bytes of a sector of L1, and what a store of a strand that owes nothing comes to. -/
namespace Sys2Proof.Proofs
open Sys2Proof Sys2Proof.Machine Sys2Proof.Laws

/-! ### Bytes of a sector -/

theorem testBit_vecByte (v : Vec) (i j : Nat) : (vecByte v i).getLsbD j = (decide (j < 8) && v.getLsbD (8 * i + j)) := by
  rw [vecByte, BitVec.getLsbD_ofNat, Nat.testBit_div_two_pow, Nat.add_comm j, BitVec.testBit_toNat]

/-- A byte that is put into a sector is read there, and every other as before. -/
theorem vecByte_vecPutByte (v : Vec) {i j : Nat} (b : Byte) (hi : i < 64) (hj : j < 64) :
    vecByte (vecPutByte v i b) j = if j = i then b else vecByte v j := by
  refine BitVec.eq_of_getLsbD_eq fun k hk => ?_
  have ones : (0xFF#512).getLsbD (8 * j + k - 8 * i) = decide (8 * j + k - 8 * i < 8) := by
    rw [show (0xFF#512) = BitVec.ofNat 512 (2 ^ 8 - 1) from rfl, BitVec.getLsbD_ofNat, Nat.testBit_two_pow_sub_one]
    by_cases inside : 8 * j + k - 8 * i < 8
    · simp [inside, show 8 * j + k - 8 * i < 512 by omega]
    · simp [inside]
  rw [testBit_vecByte, vecPutByte]
  simp only [BitVec.getLsbD_or, BitVec.getLsbD_and, BitVec.getLsbD_not, BitVec.getLsbD_shiftLeft, BitVec.getLsbD_setWidth,
    ones, hk, show 8 * j + k < 512 by omega, decide_true, Bool.true_and]
  rcases lt_trichotomy j i with below | rfl | above
  · rw [if_neg (by omega), testBit_vecByte]
    simp [show 8 * j + k < 8 * i by omega, hk]
  · rw [if_pos rfl]
    simp [show ¬ 8 * j + k < 8 * j by omega, hk, show 8 * j + k - 8 * j = k by omega, show k < 512 by omega]
  · rw [if_neg (by omega), testBit_vecByte]
    have outside : b.getLsbD (8 * j + k - 8 * i) = false := BitVec.getLsbD_of_ge _ _ (by omega)
    simp [show ¬ 8 * j + k < 8 * i by omega, hk, outside, show ¬ 8 * j + k - 8 * i < 8 by omega]

theorem getD_digit (bs : List Byte) (i : Nat) : BitVec.ofNat 8 (bytesNat bs / 2 ^ (8 * i)) = bs.getD i 0 := by
  induction bs generalizing i with
  | nil => simp [bytesNat]
  | cons b bs ih =>
    cases i with
    | zero =>
      refine BitVec.eq_of_toNat_eq ?_
      have := b.isLt
      simp [bytesNat]
      omega
    | succ i =>
      have peel : bytesNat (b :: bs) / 2 ^ (8 * (i + 1)) = bytesNat bs / 2 ^ (8 * i) := by
        have := b.isLt
        rw [bytesNat, Nat.mul_succ, Nat.pow_add, Nat.mul_comm (2 ^ (8 * i)), ← Nat.div_div_eq_div_mul]
        congr 1
        omega
      rw [peel, ih]
      rfl

theorem vecByte_bytesVec {bs : List Byte} (fits : bs.length ≤ 64) (i : Nat) : vecByte (bytesVec bs) i = bs.getD i 0 := by
  have small : bytesNat bs < 2 ^ 512 :=
    lt_of_lt_of_le (bytesNat_lt bs) (Nat.pow_le_pow_right (by decide) (by omega))
  rw [vecByte, bytesVec, BitVec.toNat_ofNat, Nat.mod_eq_of_lt small, getD_digit]

/-! ### Translations -/

/-- A translation but for its access bit. -/
def unmarked (e : AtcEntry) : AtcEntry := { e with accessed := false }

theorem eq_of_unmarked {e e' : AtcEntry} (same : unmarked e = unmarked e') : e.map = e'.map ∧ e.held = e'.held := by
  cases e
  cases e'
  simp only [unmarked, AtcEntry.mk.injEq] at same
  exact ⟨same.1, same.2.1⟩

/-- The translations of a state but for their access bits, and the pages that are being moved. -/
def xlats (s : State) : (Nat → Option AtcEntry) × List PageMove :=
  (fun k => (Sparse.get none s.atc k).map unmarked, s.pageMoves)

/-- The page that covers an address is one of those listed. -/
theorem get_of_pageAt {s : State} {pasid v b : Nat} {e : AtcEntry} (found : s.pageAt pasid v = some (b, e)) :
    Sparse.get none s.atc (atcKey pasid b) = some e := by
  obtain ⟨z, _, at_⟩ := List.exists_of_findSome?_eq_some found
  split at at_
  next e' listed =>
    split at at_
    · cases at_
      exact listed
    · cases at_
  next => cases at_

section
variable {s u : State} (same : xlats u = xlats s)
include same

theorem pageAt_of_xlats (pasid v : Nat) :
    (u.pageAt pasid v).map (fun x => (x.1, unmarked x.2)) = (s.pageAt pasid v).map (fun x => (x.1, unmarked x.2)) := by
  have listed (k : Nat) : (Sparse.get none u.atc k).map unmarked = (Sparse.get none s.atc k).map unmarked :=
    congrFun (congrArg Prod.fst same) k
  unfold State.pageAt
  generalize [0, 1, 2] = zs
  induction zs with
  | nil => rfl
  | cons z rest ih =>
    have here := listed (atcKey pasid (pageBase v z))
    rw [List.findSome?_cons, List.findSome?_cons]
    cases hu : Sparse.get none u.atc (atcKey pasid (pageBase v z)) with
    | none =>
      cases hs : Sparse.get none s.atc (atcKey pasid (pageBase v z)) with
      | none => exact ih
      | some e => rw [hu, hs] at here; cases here
    | some e =>
      cases hs : Sparse.get none s.atc (atcKey pasid (pageBase v z)) with
      | none => rw [hu, hs] at here; cases here
      | some e' =>
        rw [hu, hs] at here
        have entry : unmarked e = unmarked e' := Option.some.inj here
        obtain ⟨map, -⟩ := eq_of_unmarked entry
        dsimp only
        rw [map]
        by_cases inside : v < pageBase v z + mapPages e'.map
        · rw [if_pos inside, if_pos inside]
          exact congrArg (fun x => some (pageBase v z, x)) entry
        · rw [if_neg inside, if_neg inside]
          exact ih

theorem lookupVa_of_xlats (pasid va : Nat) (write : Bool) : u.lookupVa pasid va write = s.lookupVa pasid va write := by
  have pages := pageAt_of_xlats same pasid (va / 4096)
  have moving (b : Nat) : u.moving pasid b = s.moving pasid b :=
    congrArg (fun l : List PageMove => l.any (fun m => m.pasid == pasid && m.vpage == b)) (congrArg Prod.snd same)
  unfold State.lookupVa
  cases hu : u.pageAt pasid (va / 4096) with
  | none =>
    cases hs : s.pageAt pasid (va / 4096) with
    | none => rfl
    | some x => rw [hu, hs] at pages; cases pages
  | some x =>
    cases hs : s.pageAt pasid (va / 4096) with
    | none => rw [hu, hs] at pages; cases pages
    | some y =>
      obtain ⟨b, e⟩ := x
      obtain ⟨b', e'⟩ := y
      rw [hu, hs] at pages
      obtain ⟨rfl, entry⟩ := Prod.mk.inj (Option.some.inj pages)
      obtain ⟨map, held⟩ := eq_of_unmarked entry
      dsimp only at map held
      simp only [map, held, moving]

end

theorem xlats_touchPage (s : State) (pasid va : Nat) : xlats (s.touchPage pasid va) = xlats s := by
  unfold State.touchPage
  dsimp only
  cases found : s.pageAt pasid (va / 4096) with
  | none => dsimp only; split <;> rfl
  | some x =>
    obtain ⟨b, e⟩ := x
    dsimp only
    split
    · split <;> rfl
    · split
      · rfl
      · refine Prod.ext (funext fun k => ?_) rfl
        show (Sparse.get none (Sparse.set none s.atc (atcKey pasid b) (some { e with accessed := true })) k).map unmarked =
          (Sparse.get none s.atc k).map unmarked
        by_cases here : k = atcKey pasid b
        · rw [here, get_set_same, get_of_pageAt found]
          rfl
        · rw [get_set_other _ _ _ here]

theorem lookupVa_touchPage (s : State) (pasid va p v : Nat) (write : Bool) :
    (s.touchPage pasid va).lookupVa p v write = s.lookupVa p v write := lookupVa_of_xlats (xlats_touchPage s pasid va) p v write

theorem sameMemory_touchPage (s : State) (pasid va : Nat) : SameMemory s (s.touchPage pasid va) := by
  unfold State.touchPage
  dsimp only
  repeat' split
  all_goals exact ⟨fun _ => rfl, fun _ => rfl, fun _ _ => rfl, fun _ _ => rfl⟩

theorem tile_touchPage (s : State) (pasid va t : Nat) : (s.touchPage pasid va).tile t = s.tile t := by
  unfold State.touchPage
  dsimp only
  repeat' split
  all_goals rfl

theorem mdata_touchPage (s : State) (pasid va : Nat) : sansWrites (s.touchPage pasid va) = sansWrites s :=
  sansWrites_touchPage s pasid va

/-- The sector of an address that is mapped lies at the same page. -/
theorem lookupVa_sector {s : State} {pasid va pa : Nat} {write : Bool} (mapped : s.lookupVa pasid va write = .mapped pa) :
    s.lookupVa pasid (64 * (va / 64)) write = .mapped (pa - va % 64) := by
  have page : 64 * (va / 64) / 4096 = va / 4096 := by omega
  unfold State.lookupVa at mapped ⊢
  rw [page]
  cases found : s.pageAt pasid (va / 4096) with
  | none => rw [found] at mapped; cases mapped
  | some x =>
    rw [found] at mapped
    obtain ⟨b, e⟩ := x
    obtain ⟨barred, hbarred⟩ : ∃ barred : Bool, barred =
        if write then !e.map.writable || inWcBank (4096 * e.map.ppage) else !e.map.readable := ⟨_, rfl⟩
    dsimp only at mapped ⊢
    rw [← hbarred] at mapped ⊢
    by_cases absent : (!e.held || s.moving pasid b) = true
    · rw [if_pos absent] at mapped
      cases mapped
    · rw [if_neg absent] at mapped ⊢
      cases barred with
      | true => cases mapped
      | false =>
        obtain rfl := Xlat.mapped.inj mapped
        refine congrArg Xlat.mapped ?_
        omega

/-! ### A sector present in Mortar -/

section
variable (s : State) (a : Nat)

theorem pocByte_leaves (k : Nat) : ((s.mortarWriteBack k).mortarDrop k).pocByte a = s.pocByte a :=
  (pocByte_mortarDrop (fun _ inside => mdata_mortarWriteBack s k inside) a).trans (pocByte_mortarWriteBack s k a)

theorem pocByte_mortarTrim (slice n k : Nat) : (s.mortarTrim slice n k).pocByte a = s.pocByte a := by
  induction k generalizing s with
  | zero => rfl
  | succ k ih =>
    unfold State.mortarTrim
    dsimp only
    split
    · rfl
    · split
      · refine (ih _).trans ?_
        exact foldl_frame (fun v : State => v.pocByte a)
          (fun (v : State) (x : Nat × Option MortarSector) => (v.mortarWriteBack x.1).mortarDrop x.1)
          (fun v x => pocByte_leaves v a x.1) _ _
      · rfl

theorem pocByte_mortarRoom (tag : MTag) : (s.mortarRoom tag).pocByte a = s.pocByte a := by
  unfold State.mortarRoom
  dsimp only
  split
  · rfl
  · split
    · rfl
    · exact pocByte_mortarTrim s a _ _ _

theorem pocByte_mortarTouch (sec : Nat) (tag : MTag) (dirty : Bool) :
    (s.mortarTouch sec tag dirty).pocByte a = s.pocByte a := by
  unfold State.mortarTouch
  split
  · split
    · rfl
    · have made := (pocByte_mortarRoom ((s.mortarWriteBack sec).mortarDrop sec) a tag).trans (pocByte_leaves s a sec)
      generalize ((s.mortarWriteBack sec).mortarDrop sec).mortarRoom tag = u at made ⊢
      exact made
  · have made := pocByte_mortarRoom s a tag
    generalize s.mortarRoom tag = u at made ⊢
    exact made

end

end Sys2Proof.Proofs
end

section
/-! SUPPORT. A relaxed store within one sector of a tile's L1 (10 R200, 12 R248, R249): what the tile, the point of coherence and the
scratchpads read after it. -/
namespace Sys2Proof.Proofs
open Sys2Proof Sys2Proof.Machine Sys2Proof.Laws

/-! ### Bytes of a row within a sector -/

theorem vecByte_beyond (v : Vec) {j : Nat} (beyond : 64 ≤ j) : vecByte v j = 0 := by
  refine BitVec.eq_of_getLsbD_eq fun k _ => ?_
  rw [testBit_vecByte, BitVec.getLsbD_of_ge v _ (by omega), Bool.and_false]
  exact BitVec.getLsbD_zero.symm

theorem putByte_updates : Updates (fun (v : Vec) (c : Nat × Byte) => vecPutByte v (c.1 % 64) c.2) vecByte (fun c => c.1 % 64)
    (fun c _ => c.2) where
  at_key v c := by
    have inside : c.1 % 64 < 64 := Nat.mod_lt _ (by decide)
    rw [vecByte_vecPutByte v c.2 inside inside, if_pos rfl]
  elsewhere v c j other := by
    rcases Nat.lt_or_ge j 64 with inside | beyond
    · rw [vecByte_vecPutByte v c.2 (Nat.mod_lt _ (by decide)) inside, if_neg other]
    · rw [vecByte_beyond _ beyond, vecByte_beyond _ beyond]

section
variable {pa : Nat} {bs : List Byte} (within : pa % 64 + bs.length ≤ 64)
include within

theorem nodup_positions : ((cellsFrom pa bs).map (fun c => c.1 % 64)).Nodup := by
  have split : (cellsFrom pa bs).map (fun c => c.1 % 64) = ((cellsFrom pa bs).map (fun c => c.1)).map (fun q => q % 64) := by
    rw [List.map_map]
    rfl
  rw [split]
  refine List.Nodup.map_on (fun x hx y hy same => ?_) (nodup_cellsFrom pa bs)
  rw [mem_addresses_cellsFrom] at hx hy
  omega

/-- A row of bytes put into a sector. -/
theorem vecByte_put_row (v : Vec) {j : Nat} (inside : j < 64) :
    vecByte ((cellsFrom pa bs).foldl (fun v c => vecPutByte v (c.1 % 64) c.2) v) j =
      if pa % 64 ≤ j ∧ j < pa % 64 + bs.length then bs.getD (j - pa % 64) 0 else vecByte v j := by
  split
  next row =>
    obtain ⟨k, rfl⟩ := Nat.exists_eq_add_of_le row.1
    have listed : (pa + k, bs.getD k 0) ∈ cellsFrom pa bs := mem_cellsFrom.mpr ⟨k, by omega, rfl, rfl⟩
    have put := putByte_updates.foldl_at (cellsFrom pa bs) v (nodup_positions within) listed
    dsimp only at put
    rw [Nat.add_sub_cancel_left]
    rwa [show (pa + k) % 64 = pa % 64 + k by omega] at put
  next outside =>
    refine putByte_updates.foldl_elsewhere (cellsFrom pa bs) v fun listed => outside ?_
    obtain ⟨⟨q, b⟩, cell, rfl⟩ := List.mem_map.mp listed
    obtain ⟨k, hk, rfl, -⟩ := mem_cellsFrom.mp cell
    dsimp only
    omega

end

/-! ### Filling and writing a sector -/

theorem l1Get_l1Set (x : Tile) (sec i : Nat) (d : Option L1Sector) :
    (x.l1Set sec d).l1Get i = if i = sec then d else x.l1Get i := by
  by_cases here : i = sec
  · rw [if_pos here, here]
    exact get_set_same none x.l1 sec d
  · rw [if_neg here]
    exact get_set_other none x.l1 d here

theorem viewByte_of_sectors {s u : State} {t : Nat} (poc : ∀ x, u.pocByte x = s.pocByte x)
    (sectors : ∀ i, (u.tile t).l1Get i = (s.tile t).l1Get i) (x : Nat) : u.viewByte t x = s.viewByte t x := by
  unfold State.viewByte
  rw [sectors]
  split
  · rfl
  · exact poc x

/-- The tile's L1 has room for the line of a sector. -/
def L1Roomy (x : Tile) (sec : Nat) : Prop :=
  (x.l1Lines (Config.l1Set (sec / 2) % 512)).length < 10 ∨ sec / 2 ∈ x.l1Lines (Config.l1Set (sec / 2) % 512)

theorem l1Room_of_roomy {s : State} {t sec : Nat} (roomy : L1Roomy (s.tile t) sec) : s.l1Room t sec = s := by
  unfold State.l1Room
  dsimp only
  split
  · rfl
  · refine if_pos ?_
    rw [Bool.or_eq_true, decide_eq_true_eq, List.contains_iff_mem]
    exact roomy

theorem tiles_of_sansMemory {s u : State} (same : sansMemory u = sansMemory s) : u.tiles = s.tiles :=
  (congrArg State.tiles same :)

theorem tile_of_tiles {s u : State} (same : u.tiles = s.tiles) (i : Nat) : u.tile i = s.tile i := by
  rw [State.tile, same, State.tile]

section
variable {s : State} {t sec : Nat} (tag : MTag)

theorem viewByte_freshSector (x : Nat) (here : x / 64 = sec) : vecByte (s.freshSector sec tag).data (x % 64) = s.pocByte x := by
  have length : (s.pocBytes (64 * sec) 64).length = 64 := by simp [State.pocBytes]
  show vecByte (bytesVec (s.pocBytes (64 * sec) 64)) (x % 64) = _
  rw [vecByte_bytesVec (le_of_eq length)]
  have inside : x % 64 < 64 := Nat.mod_lt _ (by decide)
  simp only [State.pocBytes, List.getD_eq_getElem?_getD, List.getElem?_map, List.getElem?_range inside, Option.map_some,
    Option.getD_some]
  rw [show 64 * sec + x % 64 = x by omega]

variable (roomy : L1Roomy (s.tile t) sec)
include roomy

/-- A fill changes no byte that the tile, the point of coherence or a scratchpad reads, and the sector is there after it. -/
theorem l1Ensure_fills : (∀ x, (s.l1Ensure t sec tag).viewByte t x = s.viewByte t x) ∧
    (∀ x, (s.l1Ensure t sec tag).pocByte x = s.pocByte x) ∧
    (∀ x q, (s.l1Ensure t sec tag).spadByte x q = s.spadByte x q) ∧
    ∃ d, ((s.l1Ensure t sec tag).tile t).l1Get sec = some d := by
  cases found : (s.tile t).l1Get sec with
  | some d =>
    have same : s.l1Ensure t sec tag = s := by
      unfold State.l1Ensure
      rw [found]
    rw [same]
    exact ⟨fun _ => rfl, fun _ => rfl, fun _ _ => rfl, d, found⟩
  | none =>
    have filled : s.l1Ensure t sec tag = (s.mortarTouch sec tag false).setTile t
        ((s.tile t).l1Set sec (some (s.freshSector sec tag))) := by
      unfold State.l1Ensure
      simp only [found, l1Room_of_roomy roomy]
    have poc (x : Nat) : (s.l1Ensure t sec tag).pocByte x = s.pocByte x := by
      rw [filled]
      exact pocByte_mortarTouch s x sec tag false
    have sectors (i : Nat) : ((s.l1Ensure t sec tag).tile t).l1Get i =
        if i = sec then some (s.freshSector sec tag) else (s.tile t).l1Get i := by
      rw [filled, setTile_tile, l1Get_l1Set]
    have tiles (i : Nat) : (s.mortarTouch sec tag false).tile i = s.tile i :=
      tile_of_tiles (tiles_of_sansMemory (sansMemory_mortarTouch s sec tag false)) i
    refine ⟨fun x => ?_, poc, fun i q => ?_, _, (sectors sec).trans (if_pos rfl)⟩
    · unfold State.viewByte
      rw [sectors, poc]
      by_cases here : x / 64 = sec
      · rw [if_pos here, here, found]
        exact viewByte_freshSector tag x here
      · rw [if_neg here]
    · rw [filled]
      unfold State.spadByte
      by_cases here : i = t
      · rw [here, setTile_tile]
        rfl
      · rw [setTile_tile_other _ _ _ here, tiles]

end

/-- The values that the dwords of some cells held in a sector are kept. -/
def histKept (s : State) (d : L1Sector) (cells : List (Nat × Byte)) : State :=
  ((cells.map (fun y => y.1 / 8)).eraseDups).foldl (fun s k => s.keepHist k
    (BitVec.ofNat 64 (d.data.toNat / 2 ^ (64 * (k % 8))))) s

theorem tiles_histKept (s : State) (d : L1Sector) (cells : List (Nat × Byte)) : (histKept s d cells).tiles = s.tiles := by
  unfold histKept
  refine foldl_frame State.tiles _ (fun u k => ?_) _ s
  rfl

theorem pocByte_histKept (s : State) (d : L1Sector) (cells : List (Nat × Byte)) (a : Nat) :
    (histKept s d cells).pocByte a = s.pocByte a := by
  unfold histKept
  refine foldl_frame (fun v : State => v.pocByte a) _ (fun u k => ?_) _ s
  rfl

theorem l1Write_eq {s : State} {t : Nat} {c : Nat × Byte} {rest : List (Nat × Byte)} {d : L1Sector} (tag : Bool)
    (found : (s.tile t).l1Get (c.1 / 64) = some d) : ∃ new : L1Sector,
      new.data = (c :: rest).foldl (fun v c => vecPutByte v (c.1 % 64) c.2) d.data ∧
      s.l1Write t tag (c :: rest) = (histKept s d (c :: rest)).setTile t
        (((histKept s d (c :: rest)).tile t).l1Set (c.1 / 64) (some new)) := by
  unfold State.l1Write
  dsimp only
  rw [found]
  exact ⟨{ d with
    data := (c :: rest).foldl (fun v c => vecPutByte v (c.1 % 64) c.2) d.data
    dmask := _, tags := _, dirty := _, poison := _ }, rfl, rfl⟩

section
variable {s : State} {t pa : Nat} {bs : List Byte} (some_ : bs ≠ []) (within : pa % 64 + bs.length ≤ 64) {d : L1Sector}
  (found : (s.tile t).l1Get (pa / 64) = some d)
include some_ within found

/-- A row of bytes written to a sector that the tile's L1 holds. -/
theorem l1Write_row (tag : Bool) :
    (∀ x, (s.l1Write t tag (cellsFrom pa bs)).viewByte t x =
      if pa ≤ x ∧ x < pa + bs.length then bs.getD (x - pa) 0 else s.viewByte t x) ∧
    (∀ x, (s.l1Write t tag (cellsFrom pa bs)).pocByte x = s.pocByte x) ∧
    (∀ x q, (s.l1Write t tag (cellsFrom pa bs)).spadByte x q = s.spadByte x q) := by
  obtain ⟨u, new, written, data, tiles, poc⟩ : ∃ (u : State) (new : L1Sector),
      s.l1Write t tag (cellsFrom pa bs) = u.setTile t ((u.tile t).l1Set (pa / 64) (some new)) ∧
      new.data = (cellsFrom pa bs).foldl (fun v c => vecPutByte v (c.1 % 64) c.2) d.data ∧ u.tiles = s.tiles ∧
      ∀ a, u.pocByte a = s.pocByte a := by
    obtain ⟨b, rest, rfl⟩ := List.exists_cons_of_ne_nil some_
    obtain ⟨new, data, written⟩ := l1Write_eq (c := (pa, b)) (rest := (rest.zipIdx 1).map (fun x => (pa + x.2, x.1))) tag found
    exact ⟨_, new, written, data, tiles_histKept .., pocByte_histKept s d _⟩
  have same := tile_of_tiles tiles
  have sectors (i : Nat) : ((s.l1Write t tag (cellsFrom pa bs)).tile t).l1Get i =
      if i = pa / 64 then some new else (s.tile t).l1Get i := by
    rw [written, setTile_tile, l1Get_l1Set, same]
  have poc' (x : Nat) : (s.l1Write t tag (cellsFrom pa bs)).pocByte x = s.pocByte x := by
    rw [written]
    exact poc x
  refine ⟨fun x => ?_, poc', fun i q => ?_⟩
  · unfold State.viewByte
    rw [sectors, poc']
    by_cases here : x / 64 = pa / 64
    · rw [if_pos here, here, found]
      dsimp only
      rw [data, vecByte_put_row within _ (Nat.mod_lt _ (by decide))]
      by_cases row : pa ≤ x ∧ x < pa + bs.length
      · rw [if_pos row, if_pos (by omega), show x % 64 - pa % 64 = x - pa by omega]
      · rw [if_neg row, if_neg (by omega)]
    · rw [if_neg here, if_neg (by omega)]
  · rw [written]
    unfold State.spadByte
    by_cases here : i = t
    · rw [here, setTile_tile, same]
      rfl
    · rw [setTile_tile_other _ _ _ here, same]

end

/-! ### A store within one sector -/

theorem eraseDups_of_const {l : List Nat} {a : Nat} (some_ : l ≠ []) (const : ∀ x ∈ l, x = a) : l.eraseDups = [a] := by
  obtain ⟨b, rest, rfl⟩ := List.exists_cons_of_ne_nil some_
  obtain rfl := const b (List.mem_cons_self ..)
  rw [List.eraseDups_cons, List.filter_eq_nil_iff.mpr, List.eraseDups_nil]
  intro x listed
  simp [const x (List.mem_cons_of_mem _ listed)]

/-- The cells of a row in one sector of virtual memory, moved to where its page lies. -/
theorem cells_moved {va pa : Nat} {bs : List Byte} (one : (va + bs.length - 1) / 64 = va / 64) (offset : pa % 64 = va % 64) :
    ((cellsFrom va bs).filter (fun x => x.1 / 64 == va / 64)).map (fun x => (pa - va % 64 + x.1 % 64, x.2)) = cellsFrom pa bs := by
  have inside (j : Nat) (hj : j < bs.length) : (va + j) / 64 = va / 64 ∧ pa - va % 64 + (va + j) % 64 = pa + j := by omega
  rw [List.filter_eq_self.mpr]
  · unfold cellsFrom
    rw [List.map_map]
    refine List.map_congr_left fun x listed => ?_
    obtain ⟨hj, -⟩ := List.getElem?_eq_some_iff.mp (List.mem_zipIdx_iff_getElem?.mp listed)
    exact Prod.ext (inside x.2 hj).2 rfl
  · intro c listed
    obtain ⟨j, hj, at_, -⟩ := mem_cellsFrom.mp (show (c.1, c.2) ∈ _ from listed)
    rw [at_, (inside j hj).1, beq_self_eq_true]

theorem doorbellAt_of_device {pa : Nat} (device : tierOf pa ≠ 2) : doorbellAt pa = none := by
  refine if_neg fun bell => device ?_
  have high : Config.t0Bytes + Config.t1Bytes ≤ pa := le_trans (by decide) bell.1
  have high' : Config.t0Bytes ≤ pa := le_trans (Nat.le_add_right _ _) high
  rw [tierOf, if_neg (by omega), if_neg (by omega)]

theorem tierOf_mono {p q : Nat} (le : p ≤ q) (device : tierOf q ≠ 2) : tierOf p ≠ 2 := by
  unfold tierOf at device ⊢
  split at device
  · rw [if_pos (by omega)]
    decide
  · split at device
    · split
      · decide
      · rw [if_pos (by omega)]
        decide
    · exact absurd rfl device

section
variable {s : State} {t c pasid va pa : Nat} {obj : Option Nat} {bs : List Byte} (some_ : bs ≠ [])
  (one : (va + bs.length - 1) / 64 = va / 64) (mapped : s.lookupVa pasid va true = .mapped pa) (device : tierOf pa ≠ 2)
  (offset : pa % 64 = va % 64)
include some_ one mapped device offset

/-- A relaxed store within one sector of device memory fills the sector in L1, and writes its bytes there. -/
theorem perform_one_sector : ∃ tag, s.perform t c { pasid, va, obj, data := bs } =
    ((s.touchPage pasid (64 * (va / 64))).l1Ensure t (pa / 64) tag).l1Write t false (cellsFrom pa bs) := by
  have sector : ((cellsFrom va bs).map (fun x => x.1 / 64)).eraseDups = [va / 64] := by
    refine eraseDups_of_const (by simpa [cellsFrom] using some_) fun q listed => ?_
    obtain ⟨⟨p, b⟩, cell, rfl⟩ := List.mem_map.mp listed
    obtain ⟨j, hj, rfl, -⟩ := mem_cellsFrom.mp cell
    dsimp only
    omega
  have at_ : (s.touchPage pasid (64 * (va / 64))).lookupVa pasid (64 * (va / 64)) true = .mapped (pa - va % 64) := by
    rw [lookupVa_touchPage, lookupVa_sector mapped]
  have device' : tierOf (pa - va % 64) ≠ 2 := tierOf_mono (Nat.sub_le _ _) device
  refine ⟨(s.touchPage pasid (64 * (va / 64))).fileTag (s.tileVf t) pasid (64 * (va / 64)) obj, ?_⟩
  show s.writeVirt t (s.tileVf t) pasid obj .plain false (cellsFrom va bs) = _
  unfold State.writeVirt
  rw [sector, List.foldl_cons, List.foldl_nil]
  dsimp only
  rw [at_]
  dsimp only
  rw [doorbellAt_of_device device', cells_moved one offset]
  dsimp only
  rw [if_neg (by simpa [Via.past] using device'), show (pa - va % 64) / 64 = pa / 64 by omega]

theorem perform_reads (roomy : L1Roomy (s.tile t) (pa / 64)) :
    let u := s.perform t c { pasid, va, obj, data := bs }
    (∀ x, u.viewByte t x = if pa ≤ x ∧ x < pa + bs.length then bs.getD (x - pa) 0 else s.viewByte t x) ∧
    (∀ x, u.pocByte x = s.pocByte x) ∧ (∀ x q, u.spadByte x q = s.spadByte x q) := by
  obtain ⟨tag, performed⟩ := perform_one_sector (t := t) (c := c) (obj := obj) some_ one mapped device offset
  have touched := sameMemory_touchPage s pasid (64 * (va / 64))
  have tiles (i : Nat) := tile_touchPage s pasid (64 * (va / 64)) i
  have view (x : Nat) : (s.touchPage pasid (64 * (va / 64))).viewByte t x = s.viewByte t x :=
    viewByte_of_sectors touched.1 (fun i => by rw [tiles]) x
  obtain ⟨view', poc', spad', d, found⟩ := l1Ensure_fills (t := t) tag
    (s := s.touchPage pasid (64 * (va / 64))) (by rwa [tiles])
  have positive : 0 < bs.length := List.length_pos_iff.mpr some_
  obtain ⟨view'', poc'', spad''⟩ := l1Write_row some_ (by omega) found false
  dsimp only
  rw [performed]
  refine ⟨fun x => ?_, fun x => ?_, fun x q => ?_⟩
  · rw [view'', view', view]
  · rw [poc'', poc', touched.1]
  · rw [spad'', spad', touched.2.2.1]

end

end Sys2Proof.Proofs
end

section
/-! SUPPORT. A store to memory of a strand that owes nothing: performed, logged, or blocked (10 R211 to R213, 19 R418, R419). -/
namespace Sys2Proof.Proofs
open Sys2Proof Sys2Proof.Machine Sys2Proof.Laws

/-! ### The entries of a logged store (10 R212) -/

section
variable (seq c : Nat) (r : StoreReq)

theorem logEntries_length (k : Nat) : (logEntries seq c r k).length = k := by
  induction k with
  | zero => rfl
  | succ k ih => rw [logEntries, List.length_append, ih, List.length_singleton]

theorem logEntries_va (k : Nat) : (logEntries seq c r k).map (fun e => e.va) = (List.range k).map (fun i => r.va + 32 * i) := by
  induction k with
  | zero => rfl
  | succ k ih => rw [logEntries, List.map_append, ih, List.range_succ, List.map_append]; rfl

theorem logEntries_data (k : Nat) : (logEntries seq c r k).flatMap (fun e => e.data) = r.data.take (32 * k) := by
  induction k with
  | zero => rfl
  | succ k ih =>
    rw [logEntries, List.flatMap_append, ih, List.flatMap_singleton, Nat.mul_succ, List.take_add]

theorem logEntries_of_plain (aop : r.aop = none) (mask : r.mask = none) (k : Nat) :
    ∀ e ∈ logEntries seq c r k, e.ctx = c ∧ e.pasid = r.pasid ∧ e.op = 0 := by
  induction k with
  | zero => exact fun _ listed => nomatch listed
  | succ k ih =>
    intro e listed
    rw [logEntries, List.mem_append, List.mem_singleton] at listed
    rcases listed with earlier | rfl
    · exact ih e earlier
    · exact ⟨rfl, rfl, by simp [aop, mask]⟩

end

/-! ### What an event counter and a request for a page leave -/

theorem sameMemory_refl (s : State) : SameMemory s s := ⟨fun _ => rfl, fun _ => rfl, fun _ _ => rfl, fun _ _ => rfl⟩

theorem sameMemory_count (s : State) (t c src k : Nat) : SameMemory s (s.count t c src k) := by
  unfold State.count
  dsimp only
  split
  · exact sameMemory_refl s
  · exact sameMemory_setTile s rfl rfl

theorem sideLog_count (s : State) (t c src k i : Nat) : ((s.count t c src k).tile i).sideLog = (s.tile i).sideLog := by
  unfold State.count
  dsimp only
  split
  · rfl
  · by_cases here : i = t
    · rw [here, setTile_tile]
    · rw [setTile_tile_other _ _ _ here]

theorem sameMemory_touchRange (s : State) (pasid va n : Nat) : SameMemory s (s.touchRange pasid va n) := by
  unfold State.touchRange
  generalize pagesOf va n = ps
  induction ps generalizing s with
  | nil => exact sameMemory_refl s
  | cons p rest ih => exact sameMemory_trans (sameMemory_touchPage s pasid _) (ih _)

theorem tile_touchRange (s : State) (pasid va n t : Nat) : (s.touchRange pasid va n).tile t = s.tile t :=
  foldl_frame (fun u : State => u.tile t) (fun (u : State) (p : Nat) => u.touchPage pasid (4096 * p))
    (fun u _ => tile_touchPage u pasid _ t) _ s

/-! ### A store by its translations -/

/-- The state in which a store has entered the side log. -/
def logEntered (s : State) (t c : Nat) (r : StoreReq) (k : Nat) : State :=
  s.setTile t { s.tile t with
    sideLog := (s.tile t).sideLog ++ logEntries (s.tile t).logSeq c r k
    logSeq := (s.tile t).logSeq + k }

/-- The same with its access number given out, and its events counted. -/
def logged (s : State) (t c : Nat) (r : StoreReq) (k : Nat) : State :=
  (((logEntered s t c r k).numberedFrom t c r.num).count t c 21 k).count t c 26 1

/-- A store that has entered the side log marks the pages that it finds missing as used. -/
def marked (u : State) (r : StoreReq) : State :=
  match u.rangeXlat r.pasid r.va r.data.length true with
  | .missing => u.touchRange r.pasid r.va r.data.length
  | _ => u

theorem sameMemory_logged (s : State) (t c : Nat) (r : StoreReq) (k : Nat) : SameMemory s (logged s t c r k) := by
  have memory : SameMemory s (logEntered s t c r k) := sameMemory_setTile s rfl rfl
  unfold logged
  generalize logEntered s t c r k = u at memory ⊢
  exact sameMemory_trans (sameMemory_trans (sameMemory_trans memory (sameMemory_setCtxAt u t c _)) (sameMemory_count ..))
    (sameMemory_count ..)

theorem sideLog_setCtxAt (s : State) (t c : Nat) (k : Ctx) : ((s.setCtxAt t c k).tile t).sideLog = (s.tile t).sideLog := by
  rw [State.setCtxAt, setTile_tile]
  rfl

theorem sideLog_logged (s : State) (t c : Nat) (r : StoreReq) (k : Nat) :
    ((logged s t c r k).tile t).sideLog = (s.tile t).sideLog ++ logEntries (s.tile t).logSeq c r k := by
  unfold logged
  rw [sideLog_count, sideLog_count, State.numberedFrom, sideLog_setCtxAt, logEntered, setTile_tile]

section
variable {s : State} {t c : Nat} {r : StoreReq}

theorem store_of_mapped {a : Nat} (mapped : s.rangeXlat r.pasid r.va r.data.length true = .mapped a)
    (first : (s.tile t).loggedBefore c r.num = false) : s.store t c r = .ok (s.perform t c r) := by
  unfold State.store
  simp only [mapped, first, Bool.not_false, Bool.and_self, if_true]

variable (missing : s.rangeXlat r.pasid r.va r.data.length true = .missing)
include missing

theorem store_of_full (full : 256 < (s.tile t).sideLog.length + logCount r.data.length) :
    s.store t c r = .block .sideLog := by
  unfold State.store
  simp only [missing, Bool.false_and, Bool.false_eq_true, if_false, if_pos full]

/-- A store without a translation enters the side log, and nothing of memory changes. -/
theorem store_of_missing (space : (s.tile t).sideLog.length + logCount r.data.length ≤ 256) :
    ∃ u, s.store t c r = .ok u ∧ SameMemory s u ∧
      (u.tile t).sideLog = (s.tile t).sideLog ++ logEntries (s.tile t).logSeq c r (logCount r.data.length) := by
  have memory := sameMemory_logged s t c r (logCount r.data.length)
  have log := sideLog_logged s t c r (logCount r.data.length)
  have stored : s.store t c r = .ok (marked (logged s t c r (logCount r.data.length)) r) := by
    unfold State.store logged logEntered
    simp only [missing, Bool.false_and, Bool.false_eq_true, if_false, if_neg (Nat.not_lt.mpr space)]
    rfl
  refine ⟨_, stored, ?_⟩
  generalize logged s t c r (logCount r.data.length) = u at memory log ⊢
  unfold marked
  split
  · exact ⟨sameMemory_trans memory (sameMemory_touchRange u _ _ _), by rw [tile_touchRange, log]⟩
  · exact ⟨memory, log⟩

end

/-- The request that a store of the A slot makes of memory. -/
def putReq (s : State) (f : AFields) (pasid va : Nat) (obj : Option Nat) (bs : List Byte) (mask : Option Nat) : StoreReq :=
  { pasid, va, obj, data := bs, mask, order := f.order.toNat, num := s.ctx.num
    scope := if f.order = 0 then s.plainScope (.virt pasid va obj) else f.scope.toNat }

section
variable {s : State} {pasid va : Nat} {obj : Option Nat} (clear : HostClear s (.virt pasid va obj))
include clear

theorem pathHeld_of_clear {r : StoreReq} (here : r.pasid = pasid ∧ r.va = va ∧ r.obj = obj) (aop : r.aop = none)
    (sync : r.sync = none) : s.pathHeld s.cur r = false := by
  obtain ⟨rfl, rfl, rfl⟩ := here
  obtain ⟨none, bell⟩ := clear
  have sectors : s.anySector r.pasid r.va r.data.length (fun sec =>
      if r.aop.isSome then s.awaits sec else s.pending sec && ((s.tile s.cur).l1Get sec).isNone) = false := by
    refine List.any_eq_false.mpr fun x _ => ?_
    split
    · simp [aop, State.pending, none]
    · exact Bool.false_ne_true
  unfold State.pathHeld
  rw [sectors]
  cases rings : s.rings (.virt r.pasid r.va r.obj) with
  | false => simp [sync]
  | true => simp [bell rings]

variable (quiet : Quiet s) (f : AFields) (bs : List Byte) (mask : Option Nat)
include quiet

/-- What a store to memory comes to, by what its tile does with the request. -/
theorem put_virt_of_quiet {r : Res State} (stored : s.store s.cur s.curCtx (putReq s f pasid va obj bs mask) = r)
    (goes : r = .block .sideLog ∨ ∃ u, r = .ok u) : s.put (.virt pasid va obj) f bs mask none = r := by
  have held : (s.ctxAt s.cur s.curCtx).heldBack = false := by
    show s.ctx.heldBack = false
    simp [Ctx.heldBack, fences_of_quiet quiet, owesRead_of_quiet quiet, storeQ_of_quiet quiet]
  have tagless : (f.order = 0 ∧ (none : Option Bool).isNone) ↔ f.order = 0 := ⟨And.left, fun h => ⟨h, rfl⟩⟩
  have waits : ∀ q : QueuedStore, q.num = s.ctx.num → q.place = .virt pasid va obj → q.data = bs → q.aop = none → q.sync = none →
      q.rel = false → s.storeWaits s.cur s.curCtx q = false := by
    intro q num place data aop sync rel
    have path : s.pathHeld s.cur (q.req pasid va obj) = false := pathHeld_of_clear clear ⟨rfl, rfl, rfl⟩ aop sync
    simp [State.storeWaits, num, place, behindSummary_of_quiet quiet, owesSummary_of_quiet quiet, path, rel]
  unfold State.put
  rw [room_of_quiet quiet, bind_ok]
  unfold State.aStore State.issueStore
  dsimp only
  rw [held, if_neg Bool.false_ne_true]
  unfold State.doStore
  rw [waits _ rfl rfl rfl rfl rfl rfl, if_neg Bool.false_ne_true]
  dsimp only
  have scope : (if f.order = 0 ∧ (none : Option Bool).isNone then s.plainScope (.virt pasid va obj) else aScope f) =
      if f.order = 0 then s.plainScope (.virt pasid va obj) else f.scope.toNat := if_congr tagless rfl rfl
  rw [scope]
  change (match s.store s.cur s.curCtx (putReq s f pasid va obj bs mask) with
    | .block .sideLog => if true then Res.block .sideLog else _
    | .block _ => _
    | r => r) = r
  rw [stored]
  rcases goes with rfl | ⟨u, rfl⟩ <;> rfl

variable {a : Nat}

theorem put_virt_of_mapped (mapped : s.rangeXlat pasid va bs.length true = .mapped a) :
    s.put (.virt pasid va obj) f bs mask none = .ok (s.perform s.cur s.curCtx (putReq s f pasid va obj bs mask)) := by
  have log : (s.tile s.cur).loggedBefore s.curCtx s.ctx.num = false :=
    List.any_eq_false.mpr fun _ listed owed => ctx_of_log_of_quiet quiet listed (Bool.and_eq_true_iff.mp owed).1
  exact put_virt_of_quiet clear quiet f bs mask (store_of_mapped mapped log) (Or.inr ⟨_, rfl⟩)

variable (missing : s.rangeXlat pasid va bs.length true = .missing)
include missing

theorem put_virt_of_full (full : 256 < (s.tile s.cur).sideLog.length + (bs.length + 31) / 32) :
    s.put (.virt pasid va obj) f bs mask none = .block .sideLog :=
  put_virt_of_quiet clear quiet f bs mask (store_of_full missing full) (Or.inl rfl)

theorem put_virt_of_missing (space : (s.tile s.cur).sideLog.length + (bs.length + 31) / 32 ≤ 256) :
    ∃ t, s.put (.virt pasid va obj) f bs mask none = .ok t ∧ SameMemory s t ∧
      (t.tile s.cur).sideLog = (s.tile s.cur).sideLog ++ logEntries (s.tile s.cur).logSeq s.curCtx
        (putReq s f pasid va obj bs mask) ((bs.length + 31) / 32) := by
  obtain ⟨t, stored, memory, log⟩ := store_of_missing (t := s.cur) (c := s.curCtx) (r := putReq s f pasid va obj bs mask)
    missing space
  exact ⟨t, put_virt_of_quiet clear quiet f bs mask stored (Or.inr ⟨t, rfl⟩), memory, log⟩

end

/-! ### The instructions -/

section
variable {s : State} {f : AFields} {cap : TCap} {p : Place} {n g : Nat} (named : readCapReg s.ctx f.k.toNat = .ok cap)
include named

theorem exec_st_of_checked (size : n = 2 ^ f.size.toNat) (members : g = if f.order = 0 then 2 ^ (f.scope.toNat % 4) else 1)
    (checked : s.check cap ((s.ctx.readS f.s.toNat).toNat % 2 ^ 48) (n * g) rW n .store = .ok p)
    (unwatched : s.watch cap ((s.ctx.readS f.s.toNat).toNat % 2 ^ 48) (n * g) false true p = .ok ()) :
    exec (.st f) s = settle s (s.put p f
      ((List.range g).flatMap (fun i => natBytes n (s.ctx.readS (f.data.toNat + i)).toNat)) none none) := by
  have unfolded : exec (.st f) s = settle s (
      (readCapReg s.ctx f.k.toNat).bind fun cap =>
      (s.check cap ((s.ctx.readS f.s.toNat).toNat % 2 ^ 48) (n * g) rW n .store).bind fun p =>
      (s.watch cap ((s.ctx.readS f.s.toNat).toNat % 2 ^ 48) (n * g) false true p).bind fun _ =>
      s.put p f ((List.range g).flatMap (fun i => natBytes n (s.ctx.readS (f.data.toNat + i)).toNat)) none none) := by
    subst size members
    rfl
  rw [unfolded, named, bind_ok, checked, bind_ok, unwatched, bind_ok]

theorem exec_stm_of_checked
    (checked : s.check cap ((s.ctx.readS f.s.toNat).toNat % 2 ^ 48) 8 rW 8 .store = .ok p)
    (unwatched : s.watch cap ((s.ctx.readS f.s.toNat).toNat % 2 ^ 48) 8 false true p = .ok ()) :
    exec (.stm f) s = settle s (s.put p f (natBytes 8 (s.ctx.readS f.data.toNat).toNat)
      (some ((s.ctx.readS (f.data.toNat + 1)).toNat % 256)) none) := by
  show settle s ((readCapReg s.ctx f.k.toNat).bind _) = _
  rw [named, bind_ok]
  show settle s ((s.check cap ((s.ctx.readS f.s.toNat).toNat % 2 ^ 48) 8 rW 8 .store).bind _) = _
  rw [checked, bind_ok]
  show settle s ((s.watch cap ((s.ctx.readS f.s.toNat).toNat % 2 ^ 48) 8 false true p).bind _) = _
  rw [unwatched, bind_ok]

end

/-- The bytes of g members of n bytes. -/
theorem length_members (n g : Nat) (v : Nat → Nat) : ((List.range g).flatMap (fun i => natBytes n (v i))).length = n * g := by
  rw [List.length_flatMap]
  simp [length_natBytes, Nat.mul_comm]

/-- Settles O21: the request of each store by its translations, and a relaxed store in one sector by the fill and the write of
its sector of L1. -/
theorem memoryStores : Obligations.MemoryStores := by
  refine ⟨fun s f cap pasid va a obj quiet named => ⟨fun checked unwatched mapped clear => ?st,
      fun checked unwatched mapped clear => ?stm⟩,
    fun s f cap pasid va obj quiet named checked unwatched missing clear => ⟨fun space => ?logs, fun full => ?blocks⟩,
    fun s t c pasid va pa obj bs some_ one mapped device offset room => perform_reads some_ one mapped device offset ?view⟩
  case st =>
    rw [exec_st_of_checked named rfl rfl checked unwatched,
      put_virt_of_mapped clear quiet f _ none (by rwa [length_members]), settle_ok]
    rfl
  case stm =>
    rw [exec_stm_of_checked named checked unwatched,
      put_virt_of_mapped clear quiet f _ _ (by rwa [length_natBytes]), settle_ok]
    rfl
  case logs =>
    have length := length_members (2 ^ f.size.toNat) (if f.order = 0 then 2 ^ (f.scope.toNat % 4) else 1)
      (fun i => (s.ctx.readS (f.data.toNat + i)).toNat)
    obtain ⟨t, stored, memory, log⟩ := put_virt_of_missing clear quiet f
      ((List.range (if f.order = 0 then 2 ^ (f.scope.toNat % 4) else 1)).flatMap
        (fun i => natBytes (2 ^ f.size.toNat) (s.ctx.readS (f.data.toNat + i)).toNat)) none (by rwa [length]) (by rwa [length])
    rw [length] at log
    refine ⟨t, ?_, _, log, logEntries_length .., ?_, logEntries_of_plain _ _ _ rfl rfl _, logEntries_va .., memory⟩
    · rw [exec_st_of_checked named rfl rfl checked unwatched, stored, settle_ok]
    · rw [logEntries_data]
      refine List.take_of_length_le ?_
      show List.length (List.flatMap _ _) ≤ _
      rw [length]
      omega
  case blocks =>
    rw [exec_st_of_checked named rfl rfl checked unwatched,
      put_virt_of_full clear quiet f _ none (by rwa [length_members]) (by rwa [length_members]), settle_block]
  case view =>
    unfold L1Roomy
    rw [Nat.div_div_eq_div_mul]
    exact room

end Sys2Proof.Proofs
end

section
/-! SUPPORT. What a vector slot does in the clusters that it reaches: VF0 (04 R89), the draws (20 R433), the port vb4 (04 R90)
and the results owed (04 R88). -/
namespace Sys2Proof.Proofs
open Sys2Proof Sys2Proof.Machine Sys2Proof.Laws

/-! ### Steps of one cluster after another -/

/-- A step that changes what stands at its own key alone has, after all keys once, changed each listed key once. -/
theorem foldl_at {α β : Type} {g : β → Nat → β} {get : β → Nat → α} {upd : Nat → α → α}
    (step : ∀ b k j, get (g b k) j = if j = k then upd k (get b k) else get b j) {keys : List Nat} (nodup : keys.Nodup)
    (b : β) (j : Nat) : get (keys.foldl g b) j = if j ∈ keys then upd j (get b j) else get b j := by
  induction keys generalizing b with
  | nil => rfl
  | cons k rest ih =>
    obtain ⟨fresh, nodup⟩ := List.nodup_cons.mp nodup
    rw [List.foldl_cons, ih nodup, step]
    by_cases here : j = k
    · rw [if_neg (here ▸ fresh), if_pos here, if_pos (here ▸ List.mem_cons_self), here]
    · simp only [here, if_false, List.mem_cons, false_or]

/-- The state with VF0's times and the strand's context replaced. -/
def vState (s : State) (v : Sparse Nat) (c : Ctx) : State :=
  (s.setTile s.cur { s.tile s.cur with vf0 := v }).setCtx c

section
variable {s : State} {v v' : Sparse Nat} {c c' : Ctx}

theorem vState_ctx : (vState s v c).ctx = c := setCtx_ctx ..

theorem vState_vf0 : ((vState s v c).tile s.cur).vf0 = v := by
  rw [vState, State.setCtx, State.setCtxAt, setTile_cur, setTile_tile, tile_setCtx_vf0, setTile_tile]

theorem vState_acc : ((vState s v c).tile s.cur).acc = (s.tile s.cur).acc := by
  simp only [vState, State.setCtx, State.setCtxAt, State.curCtx, setTile_cur, setTile_tile, Tile.setCtx]

theorem setCtx_eq_vState (u : State) (c : Ctx) : u.setCtx c = vState u (u.tile u.cur).vf0 c := by
  simp only [vState, State.setCtx, State.setCtxAt, State.curCtx, setTile_cur, setTile_tile, setTile_setTile]

theorem vState_vState : vState (vState s v c) v' c' = vState s v' c' := by
  simp only [vState, State.setCtx, State.setCtxAt, State.curCtx, setTile_cur, setTile_tile, setTile_setTile, Tile.setCtx, set_set]

theorem vState_setCtx : vState (s.setCtx c) v' c' = vState s v' c' := by rw [setCtx_eq_vState, vState_vState]

end

/-- VF0's times after a cluster's step that holds it, where it is free (04 R89). -/
def vHeld (clk hold : Nat) (v : Sparse Nat) (cl : Nat) : Sparse Nat :=
  if hold ≠ 0 ∧ Sparse.get 0 v cl ≤ clk then Sparse.set 0 v cl (clk + hold) else v

theorem get_vHeld (clk hold : Nat) (v : Sparse Nat) (cl j : Nat) : Sparse.get 0 (vHeld clk hold v cl) j =
    if j = cl then if hold ≠ 0 ∧ Sparse.get 0 v cl ≤ clk then clk + hold else Sparse.get 0 v cl else Sparse.get 0 v j := by
  unfold vHeld
  split
  next free => rw [get_set]
  next busy =>
    split
    next here => rw [here]
    next => rfl

/-- The context once a cluster's step has read vb4. -/
def vTaken (takes : Bool) (c : Ctx) (cl : Nat) : Ctx := if takes then c.markPort (16 + cl) else c

/-- The context once a cluster's step has drawn. -/
def vDrawn (draws : Nat) (c : Ctx) (cl : Nat) : Ctx :=
  if draws = 0 then c else c.writeDraw cl (c.readDraw cl + draws)

theorem vTaken_frame (takes : Bool) (c : Ctx) (cl : Nat) : vTaken takes c cl = { c with popped := (vTaken takes c cl).popped } := by
  unfold vTaken Ctx.markPort
  split
  · split <;> rfl
  · rfl

theorem mem_popped_vTaken (takes : Bool) (c : Ctx) (cl n : Nat) :
    n ∈ (vTaken takes c cl).popped ↔ n ∈ c.popped ∨ (takes ∧ n = 16 + cl) := by
  unfold vTaken Ctx.markPort
  cases takes with
  | false => simp only [Bool.false_eq_true, if_false, false_and, or_false]
  | true =>
    by_cases marked : c.popped.contains (16 + cl)
    · have old := List.contains_iff_mem.mp marked
      simp only [marked, if_true, true_and]
      exact ⟨Or.inl, fun h => h.elim id (fun same => same ▸ old)⟩
    · simp only [marked, Bool.false_eq_true, if_true, if_false, List.mem_append, List.mem_singleton, true_and]

theorem vDrawn_frame (draws : Nat) (c : Ctx) (cl : Nat) : vDrawn draws c cl = { c with draws := (vDrawn draws c cl).draws } := by
  unfold vDrawn
  split <;> rfl

theorem readDraw_vDrawn (draws : Nat) (c : Ctx) (cl j : Nat) : (vDrawn draws c cl).readDraw j =
    if j = cl then if draws ≠ 0 then (c.readDraw cl + draws) % 2 ^ 48 else c.readDraw cl else c.readDraw j := by
  unfold vDrawn
  by_cases none : draws = 0
  · rw [if_pos none, if_neg (not_not_intro none)]
    split
    next here => rw [here]
    next => rfl
  · rw [if_neg none, if_pos none]
    exact get_set ..

/-- What a cluster's step leaves as another cluster's step reads it. -/
structure Apart (s : State) (cl : Nat) (u : State) : Prop where
  clk : u.clk = s.clk
  cur : u.cur = s.cur
  acc : (u.tile u.cur).acc = (s.tile s.cur).acc
  free : Sparse.get 0 (u.tile u.cur).vf0 cl = Sparse.get 0 (s.tile s.cur).vf0 cl
  drawn : u.ctx.readDraw cl = s.ctx.readDraw cl
  ctx : u.ctx = { s.ctx with pending := u.ctx.pending, popped := u.ctx.popped, draws := u.ctx.draws }

theorem apart_self (s : State) (cl : Nat) : Apart s cl s := ⟨rfl, rfl, rfl, rfl, rfl, rfl⟩

/-- What a slot's step does in one cluster: VF0 is held, vb4 read, numbers drawn, and the writes owed. -/
def vAct (hold draws n slot : Nat) (takes : Bool) (u : State) (cl : Nat) (ws : List Wr) : State :=
  vState u (vHeld u.clk hold (u.tile u.cur).vf0 cl) (vEmit u.clk n slot (vDrawn draws (vTaken takes u.ctx cl) cl) cl ws)

section
variable {s : State} {f : VFields} {hold draws n slot : Nat} {takes : Bool} {ws : Nat → List Wr}

/-- The context after a cluster's step. -/
def vCtxStep (clk draws n slot : Nat) (takes : Bool) (ws : Nat → List Wr) (c : Ctx) (cl : Nat) : Ctx :=
  vEmit clk n slot (vDrawn draws (vTaken takes c cl) cl) cl (ws cl)

theorem vCtxStep_frame (clk : Nat) (c : Ctx) (cl : Nat) : vCtxStep clk draws n slot takes ws c cl = { c with
    pending := (vCtxStep clk draws n slot takes ws c cl).pending
    popped := (vCtxStep clk draws n slot takes ws c cl).popped
    draws := (vCtxStep clk draws n slot takes ws c cl).draws } := by
  have whole : ∃ p q r, vCtxStep clk draws n slot takes ws c cl = { c with pending := p, popped := q, draws := r } :=
    ⟨_, _, _, by rw [vCtxStep, vEmit_frame, vDrawn_frame, vTaken_frame]⟩
  obtain ⟨p, q, r, whole⟩ := whole
  rw [whole]

theorem owes_vCtxStep (clk : Nat) (c : Ctx) (cl d : Nat) (w : Wr) : (vCtxStep clk draws n slot takes ws c cl).Owes d w ↔
    c.Owes d w ∨ (d = clk + n ∧ w ∈ ws cl) := by
  rw [vCtxStep, vEmit_owes, vDrawn_frame, vTaken_frame]
  rfl

theorem readDraw_vCtxStep (clk : Nat) (c : Ctx) (cl j : Nat) : (vCtxStep clk draws n slot takes ws c cl).readDraw j =
    if j = cl then if draws ≠ 0 then (c.readDraw cl + draws) % 2 ^ 48 else c.readDraw cl else c.readDraw j := by
  have before : ∀ i, (vTaken takes c cl).readDraw i = c.readDraw i := fun i => by rw [vTaken_frame]; rfl
  rw [← before j, ← before cl, ← readDraw_vDrawn, vCtxStep, vEmit_frame]
  rfl

theorem popped_vCtxStep (clk : Nat) (c : Ctx) (cl m : Nat) : m ∈ (vCtxStep clk draws n slot takes ws c cl).popped ↔
    m ∈ c.popped ∨ (takes ∧ m = 16 + cl) := by
  rw [← mem_popped_vTaken, vCtxStep, vEmit_frame, vDrawn_frame]

/-- The context after the steps of the clusters. -/
def vCtxSteps (s : State) (draws n slot : Nat) (takes : Bool) (ws : Nat → List Wr) (cs : List Nat) (c : Ctx) : Ctx :=
  cs.foldl (vCtxStep s.clk draws n slot takes ws) c

theorem vCtxSteps_frame (cs : List Nat) (c : Ctx) : vCtxSteps s draws n slot takes ws cs c = { c with
    pending := (vCtxSteps s draws n slot takes ws cs c).pending
    popped := (vCtxSteps s draws n slot takes ws cs c).popped
    draws := (vCtxSteps s draws n slot takes ws cs c).draws } := by
  refine foldl_keeps (P := fun d : Ctx => d = { c with pending := d.pending, popped := d.popped, draws := d.draws }) _
    (fun d cl same => ?_) cs rfl
  rw [vCtxStep_frame, same]

theorem popped_vCtxSteps (cs : List Nat) (c : Ctx) (m : Nat) : m ∈ (vCtxSteps s draws n slot takes ws cs c).popped ↔
    m ∈ c.popped ∨ (takes ∧ ∃ cl ∈ cs, m = 16 + cl) := by
  induction cs generalizing c with
  | nil => simp only [vCtxSteps, List.foldl_nil, List.not_mem_nil, false_and, exists_false, and_false, or_false]
  | cons cl rest ih =>
    rw [vCtxSteps, List.foldl_cons]
    refine (ih _).trans ?_
    rw [popped_vCtxStep]
    simp only [List.mem_cons, exists_eq_or_imp, or_assoc, and_or_left]

theorem owes_vCtxSteps {cs : List Nat} (nodup : cs.Nodup) (c : Ctx) (d : Nat) (w : Wr) :
    (vCtxSteps s draws n slot takes ws cs c).Owes d w ↔ c.Owes d w ∨ ∃ cl ∈ cs, d = s.clk + n ∧ w ∈ ws cl :=
  foldl_owes (g := vCtxStep s.clk draws n slot takes ws) (Reads := fun _ _ => True) (W := fun cl d w => d = s.clk + n ∧ w ∈ ws cl)
    (fun c cl _ d w => owes_vCtxStep s.clk c cl d w) (fun _ _ _ _ _ _ => trivial) nodup (fun _ _ => trivial) d w

variable {k : State → Nat → Res State}

theorem foldl_acts (step : ∀ u cl, cl ∈ clustersOf f.target → Apart s cl u → k u cl = .ok (vAct hold draws n slot takes u cl (ws cl)))
    {cs : List Nat} (nodup : cs.Nodup) (reached : ∀ cl ∈ cs, cl ∈ clustersOf f.target) {u : State}
    (apart : ∀ cl ∈ cs, Apart s cl u) (some_ : cs ≠ []) :
    cs.foldl (fun (r : Res State) cl => r.bind fun u => k u cl) (.ok u) =
      .ok (vState u (cs.foldl (vHeld s.clk hold) (u.tile u.cur).vf0) (vCtxSteps s draws n slot takes ws cs u.ctx)) := by
  induction cs generalizing u with
  | nil => exact absurd rfl some_
  | cons cl rest ih =>
    obtain ⟨fresh, nodup⟩ := List.nodup_cons.mp nodup
    have first := apart cl List.mem_cons_self
    have acted : vAct hold draws n slot takes u cl (ws cl) =
        vState u (vHeld s.clk hold (u.tile u.cur).vf0 cl) (vCtxStep s.clk draws n slot takes ws u.ctx cl) := by
      rw [vAct, first.clk]
      rfl
    rw [List.foldl_cons, bind_ok, step u cl (reached cl List.mem_cons_self) first, acted]
    cases rest with
    | nil => rfl
    | cons next others =>
      have kept : ∀ x ∈ next :: others, Apart s x
          (vState u (vHeld s.clk hold (u.tile u.cur).vf0 cl) (vCtxStep s.clk draws n slot takes ws u.ctx cl)) := by
        intro x listed
        have before := apart x (List.mem_cons_of_mem _ listed)
        have other : x ≠ cl := fun same => fresh (same ▸ listed)
        refine ⟨before.clk, before.cur, (vState_acc (s := u)).trans before.acc, ?_, ?_, ?_⟩
        · refine (congrArg (Sparse.get 0 · x) (vState_vf0 (s := u))).trans ?_
          rw [get_vHeld, if_neg other]
          exact before.free
        · rw [vState_ctx, readDraw_vCtxStep, if_neg other]
          exact before.drawn
        · rw [vState_ctx, vCtxStep_frame, before.ctx]
      rw [ih nodup (fun x listed => reached x (List.mem_cons_of_mem _ listed)) kept (List.cons_ne_nil _ _), vState_vState, vState_ctx]
      refine congrArg (fun v => Res.ok (vState u v _)) ?_
      exact congrArg (List.foldl (vHeld s.clk hold) · (next :: others)) (vState_vf0 (s := u))

/-- A slot whose step is the same act in every cluster completes, and owes what the acts owe. -/
theorem vEach_completes
    (step : ∀ u cl, cl ∈ clustersOf f.target → Apart s cl u → k u cl = .ok (vAct hold draws n slot takes u cl (ws cl))) :
    ∃ t, settle s (s.vEach f k) = .next t ∧
      VOwed s f hold draws (takes = true) (fun cl d w => d = s.clk + n ∧ w ∈ ws cl) t := by
  have ran := foldl_acts step (clustersOf_nodup _) (fun _ h => h) (fun cl _ => apart_self s cl) (clustersOf_ne_nil f.target)
  refine ⟨_, by rw [State.vEach, ran, settle_ok], ?_⟩
  constructor
  case only =>
    rw [vState_ctx, vState_vf0]
    exact congrArg (vState s _) (vCtxSteps_frame _ _)
  case owes => intro d w; rw [vState_ctx]; exact owes_vCtxSteps (clustersOf_nodup _) _ d w
  case held =>
    intro cl
    rw [vState_vf0, foldl_at (get := fun v => Sparse.get 0 v)
      (upd := fun _ x => if hold ≠ 0 ∧ x ≤ s.clk then s.clk + hold else x) (get_vHeld s.clk hold) (clustersOf_nodup _)]
    by_cases listed : cl ∈ clustersOf f.target
    · simp only [listed, if_true, true_and]
    · simp only [listed, if_false, false_and]
  case drawn =>
    intro cl
    rw [vState_ctx, vCtxSteps, foldl_at (get := Ctx.readDraw)
      (upd := fun _ x => if draws ≠ 0 then (x + draws) % 2 ^ 48 else x) (readDraw_vCtxStep s.clk) (clustersOf_nodup _)]
    by_cases listed : cl ∈ clustersOf f.target
    · simp only [listed, if_true, true_and]
    · simp only [listed, if_false, false_and]
  case ports => intro m; rw [vState_ctx]; exact popped_vCtxSteps _ _ m

end

/-! ### The parts of a cluster's step -/

section
variable {s u : State} {f : VFields} {cl : Nat}

theorem emit_eq_vAct (n slot : Nat) (ws : List Wr) : u.emit .v cl slot n ws = vAct 0 0 n slot false u cl ws :=
  setCtx_eq_vState u _

/-- A result of the float unit: VF0 is held where it is free. -/
theorem vUnit_float (octet : Bool) : u.vUnit cl .float octet = (if octet then 5 else 4, vfLatch u cl,
    if Sparse.get 0 (u.tile u.cur).vf0 cl ≤ u.clk then
      u.setTile u.cur { u.tile u.cur with vf0 := Sparse.set 0 (u.tile u.cur).vf0 cl (u.clk + if octet then 2 else 1) } else u) := by
  rw [State.vUnit, vfLatch]
  dsimp only
  by_cases free : Sparse.get 0 (u.tile u.cur).vf0 cl ≤ u.clk
  · simp only [if_pos free]
  · simp only [if_neg free]

theorem vUnit_float_ctx (octet : Bool) : (u.vUnit cl .float octet).2.2.ctx = u.ctx := by
  rw [vUnit_float]
  dsimp only
  split
  next => simp only [State.ctx, State.curCtx, State.ctxAt, setTile_cur, setTile_tile, Tile.ctx]
  next => rfl

theorem emit_vUnit_float (octet : Bool) (n slot : Nat) (ws : List Wr) : (u.vUnit cl .float octet).2.2.emit .v cl slot n ws =
    vAct (if octet then 2 else 1) 0 n slot false u cl ws := by
  have holds : (if octet then 2 else 1) ≠ 0 := by split <;> decide
  rw [emit_eq_vEmit, vUnit_float_ctx, vUnit_float, vAct, vHeld]
  generalize (if octet then 2 else 1) = hold at holds ⊢
  by_cases free : Sparse.get 0 (u.tile u.cur).vf0 cl ≤ u.clk
  · simp only [if_pos free, if_pos (And.intro holds free)]
    rfl
  · simp only [if_neg free, if_neg (fun h : hold ≠ 0 ∧ _ => free h.2)]
    exact setCtx_eq_vState u _

/-- The context that a step has replaced before its act. -/
theorem vAct_setCtx {hold draws n slot : Nat} {takes : Bool} {ws : List Wr} :
    vAct hold 0 n slot false (u.setCtx (vDrawn draws (vTaken takes u.ctx cl) cl)) cl ws =
      vAct hold draws n slot takes u cl ws := by
  unfold vAct
  rw [vState_setCtx, setCtx_ctx, setCtx_cur, setCtx_clk, setCtx_vf0]
  rfl

end

end Sys2Proof.Proofs
end

section
/-! SUPPORT. Element operations of vector slots: what their steps read, and what they owe. -/
namespace Sys2Proof.Proofs
open Sys2Proof Sys2Proof.Machine Sys2Proof.Laws

/-! ### What a cluster's step reads -/

section
variable {s u : State} {f : VFields} {cl : Nat} (apart : Apart s cl u)
include apart

theorem Apart.of_ctx {α : Type} (h : Ctx → α) (blind : ∀ c p q r, h { c with pending := p, popped := q, draws := r } = h c) :
    h u.ctx = h s.ctx := by
  rw [apart.ctx, blind]

theorem Apart.lanes : activeLanes u.ctx cl f.pred = activeLanes s.ctx cl f.pred :=
  apart.of_ctx (activeLanes · cl f.pred) fun _ _ _ _ => rfl

theorem Apart.vA : u.vA f cl = s.vA f cl := apart.of_ctx (elemsA · f cl) fun _ _ _ _ => rfl

theorem Apart.vC : u.vC f cl = s.vC f cl :=
  apart.of_ctx (fun c => groupElems (vW f) (readVGroup c cl f.srcC.toNat (vG f))) fun _ _ _ _ => rfl

theorem Apart.readS (n : Nat) : u.ctx.readS n = s.ctx.readS n := apart.of_ctx (Ctx.readS · n) fun _ _ _ _ => rfl

theorem Apart.vrm : u.ctx.vrm = s.ctx.vrm := apart.of_ctx Ctx.vrm fun _ _ _ _ => rfl

theorem Apart.vMode (code e : Nat) : vMode u code cl e = vMode s code cl e := by
  have seed : u.ctx.readCsr 0x0D = s.ctx.readCsr 0x0D := apart.of_ctx (Ctx.readCsr · 0x0D) fun _ _ _ _ => rfl
  rw [Machine.vMode, Machine.vMode, apart.drawn, seed]

theorem Apart.vfLatch : vfLatch u cl = vfLatch s cl := by
  rw [Machine.vfLatch, Machine.vfLatch, apart.free, apart.clk]

theorem Apart.taken (takes : Bool) : Apart s cl (u.setCtx (vTaken takes u.ctx cl)) where
  clk := apart.clk
  cur := apart.cur
  acc := by
    rw [setCtx_eq_vState]
    exact (vState_acc (s := u)).trans apart.acc
  free := by rw [setCtx_cur, setCtx_vf0, apart.free]
  drawn := by
    rw [setCtx_ctx, vTaken_frame]
    exact apart.drawn
  ctx := by
    rw [setCtx_ctx, vTaken_frame, apart.ctx]

end

/-! ### srcB (05 R113, 04 R90) -/

/-- The slot reads the return port vb4. -/
def readsVb4 (f : VFields) : Bool := f.bsel.toNat == 1 && f.srcB.toNat == 4

theorem readsVb4_iff (f : VFields) : readsVb4 f = true ↔ vTakes f := by
  unfold readsVb4 vTakes
  simp only [Bool.and_eq_true, beq_iff_eq, ← BitVec.toNat_inj]
  exact Iff.rfl

theorem readVSrcB_ctx (f : VFields) (cl : Nat) {c d : Ctx} {b : List Vec} (read : readVSrcB c cl f = .ok (b, d)) :
    d = vTaken (readsVb4 f) c cl := by
  unfold readVSrcB at read
  unfold readsVb4 vTaken
  have other {r : List Vec × Ctx} (same : Res.ok r = .ok (b, d)) : r.2 = d := congrArg Prod.snd (Res.ok.inj same)
  generalize f.bsel.toNat = form at read ⊢
  match form with
  | 0 => exact (other read).symm
  | 1 =>
    unfold readVLatch at read
    by_cases port : f.srcB.toNat = 4
    · simp only [port, if_true] at read
      obtain ⟨r, inner, outer⟩ := bind_eq_ok.mp read
      obtain ⟨v, -, marked⟩ := bind_eq_ok.mp inner
      simp only [port, beq_self_eq_true, Bool.and_self, if_true]
      exact (other outer).symm.trans (congrArg Prod.snd (Res.ok.inj marked)).symm
    · simp only [port, if_false] at read
      simp only [beq_eq_false_iff_ne.mpr port, Bool.and_false, Bool.false_eq_true, if_false]
      exact (other read).symm
  | 2 => exact (other read).symm
  | n + 3 => exact (other read).symm

theorem readVSrcB_blind (f : VFields) (cl : Nat) (c : Ctx) (p : List Pending) (q : List Nat) (r : Sparse Nat) :
    (readVSrcB { c with pending := p, popped := q, draws := r } cl f).bind (fun x => Res.ok x.1) =
      (readVSrcB c cl f).bind (fun x => Res.ok x.1) := by
  unfold readVSrcB
  generalize f.bsel.toNat = form
  match form with
  | 0 => rfl
  | 1 =>
    unfold readVLatch
    by_cases port : f.srcB.toNat = 4
    · simp only [port, if_true]
      generalize head : readPort c (16 + cl) = x
      have same : readPort { c with pending := p, popped := q, draws := r } (16 + cl) = x := head
      rw [same]
      cases x <;> rfl
    · simp only [port, if_false]
      rfl
  | 2 => rfl
  | n + 3 => rfl

section
variable {s u : State} {f : VFields} {cl : Nat}

theorem Apart.readVSrcB {b : List Vec} (apart : Apart s cl u) (readable : ∃ c, readVSrcB s.ctx cl f = .ok (b, c)) :
    readVSrcB u.ctx cl f = .ok (b, vTaken (readsVb4 f) u.ctx cl) := by
  obtain ⟨c, read⟩ := readable
  have same := apart.of_ctx (fun c => (Machine.readVSrcB c cl f).bind (fun x => Res.ok x.1)) (readVSrcB_blind f cl)
  rw [read, bind_ok] at same
  obtain ⟨⟨b', d⟩, read', same⟩ := bind_eq_ok.mp same
  obtain rfl : b' = b := Res.ok.inj same
  rw [read', readVSrcB_ctx f cl read']

theorem Apart.vB {b : List Vec} (apart : Apart s cl u) (readable : ∃ c, Machine.readVSrcB s.ctx cl f = .ok (b, c)) :
    u.vB f cl = .ok (groupElems (vW f) b, u.setCtx (vTaken (readsVb4 f) u.ctx cl)) := by
  rw [State.vB, apart.readVSrcB readable, bind_ok]

theorem vAct_taken {hold draws n slot : Nat} {takes : Bool} {ws : List Wr} :
    vAct hold draws n slot false (u.setCtx (vTaken takes u.ctx cl)) cl ws = vAct hold draws n slot takes u cl ws := by
  unfold vAct
  rw [vState_setCtx, setCtx_ctx, setCtx_cur, setCtx_clk, setCtx_vf0]
  rfl

/-! ### Draws (20 R433) -/

/-- Draws of a slot of n elements under a rounding code. -/
def drawCount (code n : Nat) : Nat := if code = 4 then (n + 3) / 4 else 0

theorem drawModes_fst (code n : Nat) : (u.drawModes code cl n).1 = (List.range n).map (vMode u code cl) := by
  unfold State.drawModes vMode
  dsimp only
  split
  next => rfl
  next => simp only [List.map_const', List.length_range]

theorem drawModes_lanes (code n : Nat) : activeLanes (u.drawModes code cl n).2.ctx cl f.pred = activeLanes u.ctx cl f.pred := by
  unfold State.drawModes
  dsimp only
  split
  next => rw [setCtx_ctx]; rfl
  next => rfl

theorem drawModes_vfLatch (code n : Nat) : vfLatch (u.drawModes code cl n).2 cl = vfLatch u cl := by
  unfold State.drawModes
  dsimp only
  split
  next => rw [vfLatch, setCtx_cur, setCtx_vf0]; rfl
  next => rfl

theorem vAct_drawModes {hold m slot n code : Nat} {ws : List Wr} (some_ : n ≠ 0) :
    vAct hold 0 m slot false (u.drawModes code cl n).2 cl ws = vAct hold (drawCount code n) m slot false u cl ws := by
  unfold State.drawModes drawCount
  by_cases stochastic : code = 4
  · have drawn : (n + 3) / 4 ≠ 0 := by omega
    simp only [stochastic, if_true]
    have step := vAct_setCtx (u := u) (cl := cl) (hold := hold) (draws := (n + 3) / 4) (n := m) (slot := slot) (takes := false) (ws := ws)
    simp only [vDrawn, vTaken, if_neg drawn, Bool.false_eq_true, if_false] at step
    exact step
  · simp only [if_neg stochastic]

end

/-! ### Units (04 R87, R89) -/

/-- How long a unit holds VF0, when its result lands, and the latch that takes it. -/
def unitHold (x : VUnit) (octet : Bool) : Nat :=
  match x with
  | .float => if octet then 2 else 1
  | _ => 0
def unitClk (x : VUnit) (octet : Bool) : Nat :=
  match x with
  | .float => if octet then 5 else 4
  | .int n => n
  | .trans => 8
def unitLatch (s : State) (x : VUnit) (cl : Nat) : Nat :=
  match x with
  | .float => vfLatch s cl
  | .int _ => 2
  | .trans => 3

/-- What a slot writes for elements: their registers and latch, and the flags of those in active lanes. -/
def elemWrites (act : VPred) (f : VFields) (cl latch w g : Nat) (es : List FRes) : List Wr :=
  deliverWr f cl latch (laneMask act) (groupOf w g (es.map (fun x => x.code))) (liveFlags w act es)

theorem unitLatch_float (s : State) (cl : Nat) : unitLatch s .float cl = vfLatch s cl := rfl

section
variable {s u : State} {f : VFields} {cl : Nat}

theorem vResult_eq_vAct (op n latch w g : Nat) (es : List FRes) : u.vResult op f cl n latch w g es =
    vAct 0 0 n (packV op f) false u cl (elemWrites (activeLanes u.ctx cl f.pred) f cl latch w g es) := emit_eq_vAct ..

theorem vUnit_ctx (x : VUnit) (octet : Bool) : (u.vUnit cl x octet).2.2.ctx = u.ctx := by
  cases x with
  | float => exact vUnit_float_ctx octet
  | int n => rfl
  | trans => rfl

theorem emit_vUnit (x : VUnit) (octet : Bool) (n slot : Nat) (ws : List Wr) :
    (u.vUnit cl x octet).2.2.emit .v cl slot n ws = vAct (unitHold x octet) 0 n slot false u cl ws := by
  cases x with
  | float => exact emit_vUnit_float octet n slot ws
  | int n => exact emit_eq_vAct ..
  | trans => exact emit_eq_vAct ..

theorem vUnit_clk (x : VUnit) (octet : Bool) : (u.vUnit cl x octet).1 = unitClk x octet := by
  cases x with
  | float => rw [vUnit_float]; rfl
  | int n => rfl
  | trans => rfl

theorem vUnit_latch (x : VUnit) (octet : Bool) : (u.vUnit cl x octet).2.1 = unitLatch u x cl := by
  cases x with
  | float => rw [vUnit_float]; rfl
  | int n => rfl
  | trans => rfl

theorem Apart.unitLatch (apart : Apart s cl u) (x : VUnit) : unitLatch u x cl = unitLatch s x cl := by
  cases x with
  | float => exact apart.vfLatch
  | int n => rfl
  | trans => rfl

theorem vResult_vUnit (x : VUnit) (octet : Bool) (op w g : Nat) (es : List FRes) :
    (u.vUnit cl x octet).2.2.vResult op f cl (u.vUnit cl x octet).1 (u.vUnit cl x octet).2.1 w g es =
      vAct (unitHold x octet) 0 (unitClk x octet) (packV op f) false u cl
        (elemWrites (activeLanes u.ctx cl f.pred) f cl (unitLatch u x cl) w g es) := by
  rw [← emit_vUnit, ← vUnit_clk (u := u) (cl := cl) x octet, ← vUnit_latch, ← vUnit_ctx (u := u) (cl := cl) x octet]
  rfl

end

/-! ### What a slot of elements owes -/

section
variable {s : State} {f : VFields} {hold draws n slot w g : Nat} {takes : Bool} {P : Prop} {latch : Nat → Nat}
  {es : Nat → List FRes} {k : State → Nat → Res State}

theorem vElements_iff (s : State) (f : VFields) (cl n latch w g : Nat) (es : List FRes) (d : Nat) (x : Wr) :
    VElements s f cl n latch w g es d x ↔
      d = s.clk + n ∧ x ∈ elemWrites (activeLanes s.ctx cl f.pred) f cl latch w g es := vDelivers_iff ..

theorem vEach_elements (named : takes = true ↔ P)
    (step : ∀ u cl, cl ∈ clustersOf f.target → Apart s cl u → k u cl = .ok (vAct hold draws n slot takes u cl
      (elemWrites (activeLanes s.ctx cl f.pred) f cl (latch cl) w g (es cl)))) :
    ∃ t, settle s (s.vEach f k) = .next t ∧
      VOwed s f hold draws P (fun cl => VElements s f cl n (latch cl) w g (es cl)) t := by
  obtain ⟨t, settled, owed⟩ := vEach_completes step
  rw [named] at owed
  exact ⟨t, settled, vOwed_congr (fun cl d x => (vElements_iff s f cl n _ w g _ d x).symm) owed⟩

/-- An element operation with srcA alone. -/
theorem vUnary_elements (s : State) (op : Nat) (f : VFields) (x : VUnit) (fn : Nat → FRes) :
    ∃ t, settle s (s.vUnary op f x fn) = .next t ∧
      VOwed s f (unitHold x (f.width == 3)) 0 False (fun cl => VElements s f cl (unitClk x (f.width == 3)) (unitLatch s x cl)
        (vW f) (vG f) ((s.vA f cl).map fn)) t := by
  refine vEach_elements (takes := false) (slot := packV op f) (by decide) fun u cl _ apart => ?_
  dsimp only
  rw [vResult_vUnit, apart.lanes, apart.vA, apart.unitLatch]

/-- An element operation with srcA and srcB. -/
theorem vBinary_elements {s : State} {f : VFields} {B : Nat → List Vec} (readable : vReadable s f B) (op : Nat) (x : VUnit)
    (fn : Nat → Nat → FRes) : ∃ t, settle s (s.vBinary op f x fn) = .next t ∧
      VOwed s f (unitHold x (f.width == 3)) 0 (vTakes f) (fun cl => VElements s f cl (unitClk x (f.width == 3)) (unitLatch s x cl)
        (vW f) (vG f) (List.zipWith fn (s.vA f cl) (groupElems (vW f) (B cl)))) t := by
  refine vEach_elements (takes := readsVb4 f) (slot := packV op f) (readsVb4_iff f) fun u cl reached apart => ?_
  rw [apart.vB (readable cl reached), bind_ok]
  dsimp only
  rw [vResult_vUnit, (apart.taken _).lanes, apart.vA, (apart.taken _).unitLatch, vAct_taken]

end

/-! ### Rounded operations (20 R435) -/

theorem length_groupElems (w : Nat) (vs : List Vec) : (groupElems w vs).length = vs.length * elemsPer w := by
  rw [groupElems, List.length_flatMap]
  simp only [vecElems, List.length_map, List.length_range, List.map_const', List.sum_replicate_nat]

theorem elemsPer_pos (t : Nat) : 0 < elemsPer (typeBits t) :=
  Nat.pos_of_ne_zero fun none => by
    have whole := elemsPer_mul_typeBits t
    rw [none] at whole
    omega

theorem vN_pos (f : VFields) : 0 < vN f := Nat.mul_pos (Nat.two_pow_pos _) (elemsPer_pos _)

/-- Lists zipped in pairs give, at each place, what stands there in each. -/
theorem zip_pairs {α β : Type} {n : Nat} {a : Nat → α} {xs ys zs : List Nat} (lenX : xs.length = n) (lenY : ys.length = n)
    (lenZ : zs.length = n) (h : α → Nat → Nat → Nat → β) :
    List.zipWith (fun (p : α × Nat) (q : Nat × Nat) => h p.1 p.2 q.1 q.2) (((List.range n).map a).zip xs) (ys.zip zs) =
      (List.range n).map (fun e => h (a e) (xs.getD e 0) (ys.getD e 0) (zs.getD e 0)) := by
  refine List.ext_getElem ?_ fun i _ inside => ?_
  · simp only [List.length_zipWith, List.length_zip, List.length_map, List.length_range, lenX, lenY, lenZ, min_self]
  · have bound : i < n := by rwa [List.length_map, List.length_range] at inside
    simp only [List.getElem_zipWith, List.getElem_zip, List.getElem_map, List.getElem_range, List.getD_eq_getElem?_getD,
      List.getElem?_eq_getElem (lenX ▸ bound : i < xs.length), List.getElem?_eq_getElem (lenY ▸ bound : i < ys.length),
      List.getElem?_eq_getElem (lenZ ▸ bound : i < zs.length), Option.getD_some]

/-- The third operand: srcC, or zeros. -/
def thirdOf (s : State) (f : VFields) (three : Bool) (cl : Nat) : List Nat :=
  if three then s.vC f cl else List.replicate (vN f) 0

theorem length_thirdOf (s : State) (f : VFields) (three : Bool) (cl : Nat) : (thirdOf s f three cl).length = vN f := by
  unfold thirdOf
  split
  · rw [State.vC, length_groupElems, readVGroup, List.length_map, List.length_range]
    rfl
  · exact List.length_replicate

theorem Apart.thirdOf {s u : State} {f : VFields} {cl : Nat} (apart : Apart s cl u) (three : Bool) :
    thirdOf u f three cl = thirdOf s f three cl := by rw [Proofs.thirdOf, Proofs.thirdOf, apart.vC]

theorem vRounded_elements {s : State} {f : VFields} {B : Nat → List Vec} (readable : vReadable s f B)
    (whole : ∀ cl ∈ clustersOf f.target, (B cl).length = vG f) (op : Nat) (three : Bool) (fn : RMode → FVal → FVal → FVal → FRes) :
    ∃ t, settle s (s.vRounded op f three fn) = .next t ∧
      VOwed s f (unitHold .float (f.width == 3)) (drawCount s.ctx.vrm (vN f)) (vTakes f)
        (fun cl => VElements s f cl (unitClk .float (f.width == 3)) (vfLatch s cl) (vW f) (vG f)
          ((List.range (vN f)).map (fun e => fn (vMode s s.ctx.vrm cl e) (fdecode (vFmt f) ((s.vA f cl).getD e 0))
            (fdecode (vFmt f) ((groupElems (vW f) (B cl)).getD e 0)) (fdecode (vFmt f) ((thirdOf s f three cl).getD e 0))))) t := by
  refine vEach_elements (takes := readsVb4 f) (slot := packV op f) (readsVb4_iff f) fun u cl reached apart => ?_
  have lenY : (groupElems (vW f) (B cl)).length = vN f := by rw [length_groupElems, whole cl reached]; rfl
  have taken := apart.taken (readsVb4 f)
  have modes : (List.range (vN f)).map (vMode (u.setCtx (vTaken (readsVb4 f) u.ctx cl)) s.ctx.vrm cl) =
      (List.range (vN f)).map (vMode s s.ctx.vrm cl) := List.map_congr_left fun e _ => taken.vMode _ e
  rw [apart.vB (readable cl reached), bind_ok]
  dsimp only
  rw [vResult_vUnit, apart.vrm, apart.vA, drawModes_fst, modes, drawModes_lanes, taken.lanes, vAct_drawModes (vN_pos f).ne', vAct_taken]
  have third : (if three then u.vC f cl else List.replicate (vN f) 0) = thirdOf s f three cl := apart.thirdOf three
  have zipped := zip_pairs (a := vMode s s.ctx.vrm cl) (length_elemsA s.ctx f cl) lenY (length_thirdOf s f three cl)
    (fun m x y z => fn m (fdecode (vFmt f) x) (fdecode (vFmt f) y) (fdecode (vFmt f) z))
  rw [vA_eq_elemsA, ← zipped, unitLatch_float, drawModes_vfLatch, taken.vfLatch, third]
  rfl

end Sys2Proof.Proofs
end

section
/-! SUPPORT. Vector float arithmetic (20 R434, R435). -/
namespace Sys2Proof.Proofs
open Sys2Proof Sys2Proof.Machine Sys2Proof.Laws

theorem unitHold_float (f : VFields) : unitHold .float (f.width == 3) = if f.width = 3 then 2 else 1 := by
  simp only [unitHold, beq_iff_eq]

theorem unitClk_float (f : VFields) : unitClk .float (f.width == 3) = if f.width = 3 then 5 else 4 := by
  simp only [unitClk, beq_iff_eq]

theorem completes_rounded {s : State} {f : VFields} {B : Nat → List Vec} (readable : vReadable s f B)
    (whole : ∀ cl ∈ clustersOf f.target, (B cl).length = vG f) {i : Instr} (op : Nat) (three : Bool)
    (fn : RMode → FVal → FVal → FVal → FRes) (runs : exec i s = settle s (s.vRounded op f three fn)) :
    Completes i s (VOwed s f (if f.width = 3 then 2 else 1) (drawCount s.ctx.vrm (vN f)) (vTakes f)
      (fun cl => VElements s f cl (if f.width = 3 then 5 else 4) (vfLatch s cl) (vW f) (vG f)
        ((List.range (vN f)).map (fun e => fn (vMode s s.ctx.vrm cl e) (fdecode (vFmt f) ((s.vA f cl).getD e 0))
          (fdecode (vFmt f) ((groupElems (vW f) (B cl)).getD e 0)) (fdecode (vFmt f) ((thirdOf s f three cl).getD e 0)))))) := by
  obtain ⟨t, settled, owed⟩ := vRounded_elements readable whole op three fn
  rw [unitHold_float, unitClk_float] at owed
  exact ⟨t, runs.trans settled, owed⟩

/-- Settles O25: in each cluster the exact operation on the elements' values, rounded under VRM's mode or their draws. -/
theorem vectorFloatArithmetic : Obligations.VectorFloatArithmetic := by
  unfold Obligations.VectorFloatArithmetic
  intro s f B readable _ g b fmt n gives whole
  have rounds {i : Instr} (op : Nat) (three : Bool) (fn : RMode → FVal → FVal → FVal → FRes)
      (runs : exec i s = settle s (s.vRounded op f three fn)) : gives i three fn :=
    completes_rounded readable whole op three fn runs
  exact ⟨rounds 0x8C false (fun m x y _ => fadd fmt m x y) rfl, rounds 0xC3 false (fun m x y _ => fadd fmt m x y.neg) rfl,
    rounds 0xAB false (fun m x y _ => fmul fmt m x y) rfl, rounds 0x9A true (fun m x y z => ffma fmt m x y z) rfl,
    rounds 0x9B true (fun m x y z => ffma fmt m x y z.neg) rfl, rounds 0x9C true (fun m x y z => ffma fmt m x.neg y z) rfl⟩

end Sys2Proof.Proofs
end

section
/-! SUPPORT. Vector integer operations, extremes and signs (20 R435 to R439). -/
namespace Sys2Proof.Proofs
open Sys2Proof Sys2Proof.Machine Sys2Proof.Laws

/-! ### Elements and their types (05 R114) -/

theorem groupElems_lt {w x : Nat} {vs : List Vec} (member : x ∈ groupElems w vs) : x < 2 ^ w := by
  obtain ⟨v, -, listed⟩ := List.mem_flatMap.mp member
  obtain ⟨i, -, rfl⟩ := List.mem_map.mp listed
  exact Nat.mod_lt _ (Nat.two_pow_pos w)

theorem zipWith_congr_of_mem {α β γ : Type} {h k : α → β → γ} {xs : List α} {ys : List β}
    (same : ∀ x ∈ xs, ∀ y ∈ ys, h x y = k x y) : List.zipWith h xs ys = List.zipWith k xs ys := by
  have curried (g : α → β → γ) : List.zipWith g xs ys = (xs.zip ys).map (fun p => g p.1 p.2) :=
    (List.map_zip_eq_zipWith (f := fun p : α × β => g p.1 p.2)).symm
  rw [curried, curried]
  exact List.map_congr_left fun p listed => same p.1 (List.of_mem_zip listed).1 p.2 (List.of_mem_zip listed).2

theorem vW_pos (f : VFields) : 0 < vW f := by
  unfold vW typeBits
  split
  · decide
  · split <;> decide

/-- The signed types: the largest value is that of their bits. -/
theorem typeMax_of_signed {f : VFields} (integer : 4 ≤ f.type.toNat) (signed : f.type ≠ 7) :
    typeMax f.type.toNat = 2 ^ (vW f - 1) - 1 := by
  have below : f.type.toNat ≠ 7 := fun seven => signed (BitVec.eq_of_toNat_eq seven)
  have bound := f.type.isLt
  unfold vW
  obtain h | h | h : f.type.toNat = 4 ∨ f.type.toNat = 5 ∨ f.type.toNat = 6 := by omega
  all_goals rw [h]; rfl

theorem vW_of_n32 {f : VFields} (unsigned : f.type = 7) : vW f = 32 := by
  rw [vW, unsigned]
  rfl

/-! ### Clamped and wrapped results -/

theorem clampInt_eq {lo hi i : Int} (order : lo ≤ hi) :
    clampInt lo hi i = (max lo (min hi i), if i < lo ∨ hi < i then 1 else 0) := by
  unfold clampInt fISAT
  by_cases low : i < lo
  · rw [if_pos low, if_pos (.inl low), min_eq_right (by omega), max_eq_left (by omega)]
  · rw [if_neg low]
    by_cases high : hi < i
    · rw [if_pos high, if_pos (.inr high), min_eq_left (by omega), max_eq_right (by omega)]
    · rw [if_neg high, if_neg (by omega), min_eq_right (by omega), max_eq_right (by omega)]

/-- The least and the largest value of an integer type of b bits. -/
def leastOf (f : VFields) : Int := if f.type = 7 then 0 else -2 ^ (vW f - 1)
def mostOf (f : VFields) : Int := if f.type = 7 then 2 ^ 32 - 1 else 2 ^ (vW f - 1) - 1

theorem vClamp_eq {f : VFields} (integer : 4 ≤ f.type.toNat) (i : Int) : vClamp f i =
    { code := (max (leastOf f) (min (mostOf f) i) % 2 ^ vW f).toNat
      flags := if i < leastOf f ∨ mostOf f < i then 1 else 0 } := by
  unfold vClamp leastOf mostOf
  by_cases unsigned : f.type = 7
  · simp only [if_pos unsigned, clampInt_eq (show (0 : Int) ≤ 2 ^ 32 - 1 by decide)]
  · have power : (0 : Int) < 2 ^ (vW f - 1) := by positivity
    simp only [if_neg unsigned, typeMax_of_signed integer unsigned, neg_sub, sub_sub_cancel_left]
    rw [clampInt_eq (by omega)]

theorem wrap_of_lt {b x : Nat} (small : x < 2 ^ b) : ((x : Int) % 2 ^ b).toNat = x := by
  have cast : ((x : Int) % 2 ^ b) = ((x % 2 ^ b : Nat) : Int) := by push_cast; rfl
  rw [cast, Int.toNat_natCast, Nat.mod_eq_of_lt small]

/-- Shifted right by more than its bits, an integer leaves copies of its sign. -/
theorem ediv_beyond {b n : Nat} {i : Int} (low : -2 ^ (b - 1) ≤ i) (high : i < 2 ^ (b - 1)) (beyond : b ≤ n) :
    i / 2 ^ n = i / 2 ^ b := by
  have copies {m : Nat} (le : b ≤ m) : i / 2 ^ m = if i < 0 then -1 else 0 := by
    have size : (2 : Int) ^ (b - 1) ≤ 2 ^ m := pow_le_pow_right₀ (by decide) (by omega)
    split
    next negative => rw [Int.ediv_eq_neg_one_of_neg_of_le negative (by omega)]
    next => exact Int.ediv_eq_zero_of_lt (by omega) (by omega)
  rw [copies beyond, copies (Nat.le_refl b)]

theorem sar_eq (b x n : Nat) : ((BitVec.ofNat b x).sshiftRight (Nat.min n b)).toNat =
    ((BitVec.ofNat b x).toInt / 2 ^ n % 2 ^ b).toNat := by
  have value (v : BitVec b) : v.toNat = (v.toInt % 2 ^ b).toNat := by
    conv_lhs => rw [← BitVec.ofInt_toInt (x := v), BitVec.toNat_ofInt]
    push_cast
    rfl
  rw [value, BitVec.toInt_sshiftRight, Int.shiftRight_eq_div_pow]
  push_cast
  rcases Nat.le_total n b with within | beyond
  · rw [show Nat.min n b = n from Nat.min_eq_left within]
  · rw [show Nat.min n b = b from Nat.min_eq_right beyond, ediv_beyond (BitVec.le_toInt _) BitVec.toInt_lt beyond]

theorem shl_eq (b x n : Nat) : (if b ≤ n then 0 else x * 2 ^ n % 2 ^ b) = (((x * 2 ^ n : Nat) : Int) % 2 ^ b).toNat := by
  have cast : (((x * 2 ^ n : Nat) : Int) % 2 ^ b) = ((x * 2 ^ n % 2 ^ b : Nat) : Int) := by push_cast; rfl
  rw [cast, Int.toNat_natCast]
  split
  next beyond => exact (Nat.mod_eq_zero_of_dvd (Dvd.dvd.mul_left (Nat.pow_dvd_pow 2 beyond) x)).symm
  next => rfl

theorem shr_eq {b x : Nat} (small : x < 2 ^ b) (n : Nat) :
    (if b ≤ n then 0 else x / 2 ^ n) = (((x / 2 ^ n : Nat) : Int) % 2 ^ b).toNat := by
  rw [wrap_of_lt (Nat.lt_of_le_of_lt (Nat.div_le_self _ _) small)]
  split
  next beyond => exact (Nat.div_eq_of_lt (Nat.lt_of_lt_of_le small (Nat.pow_le_pow_right (by decide) beyond))).symm
  next => rfl

/-! ### Signs (20 R436) -/

theorem vFmt_bits {f : VFields} (float : f.type.toNat < 4) : (vFmt f).bits = vW f := by
  unfold vFmt vW
  obtain h | h | h | h : f.type.toNat = 0 ∨ f.type.toNat = 1 ∨ f.type.toNat = 2 ∨ f.type.toNat = 3 := by omega
  all_goals rw [h]; rfl

/-- An element without its sign bit, and with the sign bit turned where `flip` says so. -/
theorem signed_code {b x : Nat} (positive : 0 < b) (small : x < 2 ^ b) (flip : Bool) :
    (BitVec.ofNat b x &&& BitVec.ofNat b (2 ^ (b - 1) - 1) |||
      (if flip then ~~~(BitVec.ofNat b x) &&& BitVec.ofNat b (2 ^ (b - 1)) else 0)).toNat =
      if flip && decide (x < 2 ^ (b - 1)) then x + 2 ^ (b - 1) else x % 2 ^ (b - 1) := by
  obtain ⟨m, rfl⟩ : ∃ m, b = m + 1 := ⟨b - 1, by omega⟩
  simp only [Nat.add_sub_cancel]
  have low : (BitVec.ofNat (m + 1) x &&& BitVec.ofNat (m + 1) (2 ^ m - 1)).toNat = x % 2 ^ m := by
    rw [BitVec.toNat_and, BitVec.toNat_ofNat, BitVec.toNat_ofNat, Nat.mod_eq_of_lt small,
      Nat.mod_eq_of_lt (by have := Nat.two_pow_pos m; omega), Nat.and_two_pow_sub_one_eq_mod]
  rw [BitVec.toNat_or, low]
  cases flip with
  | false => simp only [Bool.false_eq_true, if_false, Bool.false_and, BitVec.ofNat_eq_ofNat, BitVec.toNat_zero, Nat.or_zero]
  | true =>
    have turned : (~~~(BitVec.ofNat (m + 1) x) &&& BitVec.ofNat (m + 1) (2 ^ m)).toNat =
        (decide (x < 2 ^ m)).toNat * 2 ^ m := by
      rw [BitVec.toNat_and, BitVec.toNat_not, BitVec.toNat_ofNat, BitVec.toNat_ofNat, Nat.mod_eq_of_lt small,
        Nat.mod_eq_of_lt (by omega), Nat.and_two_pow, Nat.sub_sub, Nat.add_comm 1 x, Nat.testBit_two_pow_sub_succ small]
      congr 2
      by_cases below : x < 2 ^ m
      · simp only [below, Nat.testBit_lt_two_pow below, Nat.lt_add_one, decide_true, Bool.not_false, Bool.and_self]
      · simp only [below, Nat.testBit_of_two_pow_le_and_two_pow_add_one_gt (Nat.not_lt.mp below) small, decide_false,
          Bool.not_true, Bool.and_false]
    simp only [if_true, Bool.true_and, turned, decide_eq_true_eq]
    by_cases below : x < 2 ^ m
    · have joined := Nat.two_pow_add_eq_or_of_lt below 1
      rw [Nat.mul_one] at joined
      simp only [below, if_true, decide_true, Bool.toNat_true, Nat.one_mul, Nat.mod_eq_of_lt below]
      rw [Nat.or_comm, ← joined, Nat.add_comm]
    · simp only [below, if_false, decide_false, Bool.toNat_false, Nat.zero_mul, Nat.or_zero]

theorem vSign_eq {f : VFields} (float : f.type.toNat < 4) (flip : Bool) {x : Nat} (small : x < 2 ^ vW f) : vSign f flip x =
    if (fdecode (vFmt f) x).isNan then { code := (vFmt f).nanCode }
    else { code := (BitVec.ofNat (vW f) x &&& BitVec.ofNat (vW f) (2 ^ (vW f - 1) - 1) |||
      (if flip then ~~~(BitVec.ofNat (vW f) x) &&& BitVec.ofNat (vW f) (2 ^ (vW f - 1)) else 0)).toNat } := by
  rw [signed_code (vW_pos f) small, vSign, vFmt_bits float]

/-- A value of a signed type whose sign changes: only the least one does not fit. -/
theorem vClamp_of_turned {f : VFields} (integer : 4 ≤ f.type.toNat) (signed : f.type ≠ 7) {i : Int}
    (low : -2 ^ (vW f - 1) ≤ i) (high : i ≤ 2 ^ (vW f - 1)) : vClamp f i =
      if i = 2 ^ (vW f - 1) then { code := 2 ^ (vW f - 1) - 1, flags := 1 } else { code := (i % 2 ^ vW f).toNat } := by
  rw [vClamp_eq integer, leastOf, mostOf, if_neg signed, if_neg signed]
  by_cases beyond : i = 2 ^ (vW f - 1)
  · have power := Nat.two_pow_pos (vW f - 1)
    have wider : 2 ^ (vW f - 1) ≤ 2 ^ vW f := Nat.pow_le_pow_right (by decide) (Nat.sub_le _ _)
    have cast : (2 : Int) ^ (vW f - 1) - 1 = ((2 ^ (vW f - 1) - 1 : Nat) : Int) := by
      rw [Nat.cast_sub power]
      push_cast
      rfl
    rw [if_pos beyond, beyond, min_eq_left (by omega), max_eq_right (by omega), if_pos (by omega), cast,
      wrap_of_lt (by omega)]
  · rw [if_neg beyond, min_eq_right (by omega), max_eq_right (by omega), if_neg (by omega)]

section
variable {f : VFields}

theorem vValue_bounds (signed : f.type ≠ 7) (x : Nat) : -2 ^ (vW f - 1) ≤ vValue f x ∧ vValue f x < 2 ^ (vW f - 1) := by
  rw [vValue, if_neg signed]
  exact ⟨BitVec.le_toInt _, BitVec.toInt_lt⟩

theorem abs_eq_max (i : Int) : (i.natAbs : Int) = max i (-i) := by rw [Int.natCast_natAbs, abs_eq_max_neg]

/-! ### Units and results -/

theorem isFloatType_eq (f : VFields) : isFloatType f.type.toNat = decide (f.type.toNat < 4) := rfl

theorem unitHold_split (f : VFields) : unitHold (vSplit f) (f.width == 3) =
    if decide (f.type.toNat < 4) then if f.width = 3 then 2 else 1 else 0 := by
  rw [vSplit, isFloatType_eq]
  split
  next => exact unitHold_float f
  next => rfl

theorem unitClk_split (f : VFields) : unitClk (vSplit f) (f.width == 3) =
    if decide (f.type.toNat < 4) then if f.width = 3 then 5 else 4 else 2 := by
  rw [vSplit, isFloatType_eq]
  split
  next => exact unitClk_float f
  next => rfl

theorem unitLatch_split (s : State) (f : VFields) (cl : Nat) : unitLatch s (vSplit f) cl =
    if decide (f.type.toNat < 4) then vfLatch s cl else 2 := by
  rw [vSplit, isFloatType_eq]
  split <;> rfl

variable {s : State} {B : Nat → List Vec} {i : Instr}

theorem vA_lt {cl x : Nat} (member : x ∈ s.vA f cl) : x < 2 ^ vW f := groupElems_lt member

/-- An integer operation: what it makes of each pair of elements. -/
theorem completes_integer (readable : vReadable s f B) (op n : Nat) (fn fn' : Nat → Nat → FRes)
    (same : ∀ x < 2 ^ vW f, ∀ y < 2 ^ vW f, fn x y = fn' x y) (runs : exec i s = settle s (s.vBinary op f (.int n) fn)) :
    Completes i s (VOwed s f 0 0 (vTakes f) (fun cl => VElements s f cl n 2 (vW f) (vG f)
      (List.zipWith fn' (s.vA f cl) (groupElems (vW f) (B cl))))) := by
  obtain ⟨t, settled, owed⟩ := vBinary_elements readable op (.int n) fn
  refine ⟨t, runs.trans settled, vOwed_congr (fun cl d w => ?_) owed⟩
  rw [zipWith_congr_of_mem (xs := s.vA f cl) fun x hx y hy => same x (vA_lt hx) y (groupElems_lt hy)]
  exact Iff.rfl

/-- An operation of the unit of the type, with srcA and srcB. -/
theorem completes_pair (readable : vReadable s f B) (op : Nat) (fn : Nat → Nat → FRes)
    (runs : exec i s = settle s (s.vBinary op f (vSplit f) fn)) :
    Completes i s (VOwed s f (if decide (f.type.toNat < 4) then if f.width = 3 then 2 else 1 else 0) 0 (vTakes f)
      (fun cl => VElements s f cl (if decide (f.type.toNat < 4) then if f.width = 3 then 5 else 4 else 2)
        (if decide (f.type.toNat < 4) then vfLatch s cl else 2) (vW f) (vG f)
        (List.zipWith fn (s.vA f cl) (groupElems (vW f) (B cl))))) := by
  obtain ⟨t, settled, owed⟩ := vBinary_elements readable op (vSplit f) fn
  simp only [unitHold_split, unitClk_split, unitLatch_split] at owed
  exact ⟨t, runs.trans settled, owed⟩

/-- An operation of the unit of the type, with srcA alone. -/
theorem completes_single (op : Nat) (fn fn' : Nat → FRes) (same : ∀ x < 2 ^ vW f, fn x = fn' x)
    (runs : exec i s = settle s (s.vUnary op f (vSplit f) fn)) :
    Completes i s (VOwed s f (if decide (f.type.toNat < 4) then if f.width = 3 then 2 else 1 else 0) 0 False
      (fun cl => VElements s f cl (if decide (f.type.toNat < 4) then if f.width = 3 then 5 else 4 else 2)
        (if decide (f.type.toNat < 4) then vfLatch s cl else 2) (vW f) (vG f) ((s.vA f cl).map fn'))) := by
  obtain ⟨t, settled, owed⟩ := vUnary_elements s op f (vSplit f) fn
  simp only [unitHold_split, unitClk_split, unitLatch_split] at owed
  refine ⟨t, runs.trans settled, vOwed_congr (fun cl d w => ?_) owed⟩
  rw [List.map_congr_left (l := s.vA f cl) fun x hx => same x (vA_lt hx)]

end

/-! ### The statement -/

/-- Settles O26: each operation on the elements' numbers agrees with the one of the statement. -/
theorem vectorInteger : Obligations.VectorInteger := by
  unfold Obligations.VectorInteger
  constructor
  · intro s f B readable integer g b val lo hi clamp wrap gives
    have gives' {i : Instr} (op n : Nat) (fn fn' : Nat → Nat → FRes)
        (runs : exec i s = settle s (s.vBinary op f (.int n) fn)) (same : ∀ x < 2 ^ vW f, ∀ y < 2 ^ vW f, fn x y = fn' x y) :
        gives i n fn' := completes_integer readable op n fn fn' same runs
    have codes {x y : Nat} (same : x = y) : ({ code := x } : FRes) = { code := y } := by rw [same]
    refine ⟨gives' 0x9F 2 _ _ rfl fun _ _ _ _ => rfl, gives' 0xA1 2 _ _ rfl fun _ _ _ _ => rfl,
      gives' 0xA0 2 _ _ rfl fun x _ y _ => vClamp_eq integer (vValue f x + vValue f y),
      gives' 0xA2 2 _ _ rfl fun x _ y _ => vClamp_eq integer (vValue f x - vValue f y),
      gives' 0xA4 3 _ _ rfl fun _ _ _ _ => rfl, ?and, ?or, ?xor,
      gives' 0xBE 2 _ _ rfl fun x _ n _ => codes (shl_eq (vW f) x n),
      gives' 0xBF 2 _ _ rfl fun x hx n _ => codes (shr_eq hx n),
      gives' 0xB6 2 _ _ rfl fun x _ n _ => codes (sar_eq (vW f) x n)⟩
    case and => exact gives' 0x8D 2 _ _ rfl fun x hx y _ => codes (wrap_of_lt (Nat.lt_of_le_of_lt Nat.and_le_left hx)).symm
    case or => exact gives' 0xAD 2 _ _ rfl fun x hx y hy => codes (wrap_of_lt (Nat.or_lt_two_pow hx hy)).symm
    case xor => exact gives' 0xC9 2 _ _ rfl fun x hx y hy => codes (wrap_of_lt (Nat.xor_lt_two_pow hx hy)).symm
  · intro s f g b fmt float a val hold n latch one sign exact_
    have turns (isFloat : f.type.toNat < 4) (flip : Bool) {x : Nat} (small : x < 2 ^ vW f) {p q : FRes} :
        (if isFloatType f.type.toNat then vSign f flip x else p) = if float then sign flip x else q := by
      rw [if_pos (by rw [isFloatType_eq, decide_eq_true_eq]; exact isFloat), if_pos (by rw [decide_eq_true_eq]; exact isFloat)]
      exact vSign_eq isFloat flip small
    refine ⟨fun signed => ⟨?abs, ?neg⟩, fun B readable => ⟨?max, ?min⟩⟩
    case abs =>
      refine completes_single 0x8A _ _ (fun x small => ?_) rfl
      rcases Nat.lt_or_ge f.type.toNat 4 with isFloat | integer
      · exact turns isFloat false small
      · have bounds := vValue_bounds signed x
        rw [if_neg (by rw [isFloatType_eq, decide_eq_true_eq]; omega), if_neg (by rw [decide_eq_true_eq]; omega), abs_eq_max]
        exact vClamp_of_turned integer signed (by omega) (by omega)
    case neg =>
      refine completes_single 0xAC _ _ (fun x small => ?_) rfl
      rcases Nat.lt_or_ge f.type.toNat 4 with isFloat | integer
      · exact turns isFloat true small
      · have bounds := vValue_bounds signed x
        rw [if_neg (by rw [isFloatType_eq, decide_eq_true_eq]; omega), if_neg (by rw [decide_eq_true_eq]; omega)]
        exact vClamp_of_turned integer signed (by omega) (by omega)
    case max => exact completes_pair readable 0xA8 _ rfl
    case min => exact completes_pair readable 0xA9 _ rfl

end Sys2Proof.Proofs
end

section
/-! SUPPORT. Vector compares (20 R441, 08 R166). -/
namespace Sys2Proof.Proofs
open Sys2Proof Sys2Proof.Machine Sys2Proof.Laws

/-! ### The bits of lanes -/

theorem getLsbD_foldl_twoPow (test : Nat → Bool) (is : List Nat) (p : VPred) {j : Nat} (lane : j < 16) :
    (is.foldl (fun p i => if test i then p ||| BitVec.twoPow 16 i else p) p).getLsbD j =
      (p.getLsbD j || (decide (j ∈ is) && test j)) := by
  induction is generalizing p with
  | nil => simp only [List.foldl_nil, List.not_mem_nil, decide_false, Bool.false_and, Bool.or_false]
  | cons i rest ih =>
    rw [List.foldl_cons, ih]
    by_cases here : j = i
    · subst here
      cases test j with
      | false => simp only [Bool.false_eq_true, if_false, Bool.and_false]
      | true =>
        simp only [if_true, BitVec.getLsbD_or, BitVec.getLsbD_twoPow, lane, decide_true, Bool.and_true, Bool.or_true,
          Bool.true_or, List.mem_cons_self]
    · have other : (if test i then p ||| BitVec.twoPow 16 i else p).getLsbD j = p.getLsbD j := by
        split
        next =>
          simp only [BitVec.getLsbD_or, BitVec.getLsbD_twoPow, Bool.and_false, Bool.or_false, decide_eq_false (Ne.symm here)]
        next => rfl
      rw [other]
      simp only [List.mem_cons, here, false_or]

/-- The bit of a lane is 1 when the condition holds of every element of the lane. -/
theorem laneBits_iff (w : Nat) (bs : List Bool) {j : Nat} (lane : j < 16) :
    (laneBits w bs).getLsbD j = true ↔ ∀ e (inside : e < bs.length), elemLane w e = j → bs[e] = true := by
  have clear : BitVec.getLsbD (0 : VPred) j = false := BitVec.getLsbD_zero
  rw [laneBits, getLsbD_foldl_twoPow _ _ _ lane, clear, Bool.false_or]
  simp only [List.mem_range, lane, decide_true, Bool.true_and, List.all_eq_true,
    List.mem_filter, beq_iff_eq, Prod.forall, List.mem_zipIdx_iff_getElem?, and_imp]
  constructor
  · exact fun all e inside here => all bs[e] e (List.getElem?_eq_getElem inside) here
  · intro all b e member here
    obtain ⟨inside, rfl⟩ := List.getElem?_eq_some_iff.mp member
    exact all e inside here

section
variable {s : State} {f : VFields} {B : Nat → List Vec}

theorem length_readVSrcB {c d : Ctx} {cl : Nat} {b : List Vec} (single : f.width = 0) (read : readVSrcB c cl f = .ok (b, d)) :
    b.length = 1 := by
  have g : groupSize f.width = 1 := by rw [single]; rfl
  unfold readVSrcB at read
  have other {r : List Vec × Ctx} (same : Res.ok r = .ok (b, d)) : r.1 = b := congrArg Prod.fst (Res.ok.inj same)
  generalize f.bsel.toNat = form at read
  match form with
  | 0 => rw [← other read, readVGroup, List.length_map, List.length_range, g]
  | 1 =>
    obtain ⟨r, -, taken⟩ := bind_eq_ok.mp read
    rw [← other taken]
    rfl
  | 2 => rw [← other read, List.length_replicate, g]
  | n + 3 => rw [← other read, List.length_replicate, g]

theorem groupElems_single {w : Nat} {vs : List Vec} (one : vs.length = 1) : groupElems w vs = vecElems w (vs.headD 0) := by
  obtain ⟨v, rfl⟩ := List.length_eq_one_iff.mp one
  rw [groupElems, List.flatMap_cons, List.flatMap_nil, List.append_nil]
  rfl

/-- The lanes in which a condition holds. -/
def comparedLanes (s : State) (f : VFields) (B : Nat → List Vec) (cond cl : Nat) : VPred :=
  laneBits (vW f) (List.zipWith (vCond f cond) (s.vA f cl) (groupElems (vW f) (B cl)))

theorem comparedLanes_iff (readable : vReadable s f B) (single : f.width = 0) (cond : Nat) {cl : Nat}
    (reached : cl ∈ clustersOf f.target) {i : Nat} (lane : i < 16) : (comparedLanes s f B cond cl).getLsbD i = true ↔
      ∀ e, e < 512 / vW f → e * vW f / 32 = i →
        vCond f cond (elemOf (vW f) (s.ctx.readV cl f.srcA.toNat) e) (elemOf (vW f) ((B cl).headD 0) e) = true := by
  obtain ⟨c, read⟩ := readable cl reached
  have own : s.vA f cl = vecElems (vW f) (s.ctx.readV cl f.srcA.toNat) := by
    rw [State.vA, vG, single]
    exact groupElems_single rfl
  have pairs : List.zipWith (vCond f cond) (s.vA f cl) (groupElems (vW f) (B cl)) = (List.range (elemsPer (vW f))).map (fun e =>
      vCond f cond (elemOf (vW f) (s.ctx.readV cl f.srcA.toNat) e) (elemOf (vW f) ((B cl).headD 0) e)) := by
    rw [own, groupElems_single (length_readVSrcB single read), vecElems, vecElems, List.zipWith_map, List.zipWith_self]
  rw [comparedLanes, pairs, laneBits_iff _ _ lane]
  simp only [List.length_map, List.length_range, List.getElem_map, List.getElem_range]
  refine forall_congr' fun e => forall_congr' fun inside => ?_
  rw [elemLane, Nat.mod_eq_of_lt inside]

/-- What a compare writes in a cluster. -/
def compareWrites (s : State) (f : VFields) (p : Nat → VPred) (cl : Nat) : List Wr :=
  (if f.nw = 0 then [Wr.vpred cl f.dst.toNat (activeLanes s.ctx cl f.pred) (p cl)] else []) ++
    [.vlatch cl 2 (laneMask (p cl &&& activeLanes s.ctx cl f.pred))]

theorem mem_compareWrites (p : Nat → VPred) (cl : Nat) (w : Wr) : w ∈ compareWrites s f p cl ↔
    ((f.nw = 0 ∧ w = .vpred cl f.dst.toNat (activeLanes s.ctx cl f.pred) (p cl)) ∨
      w = .vlatch cl 2 (laneMask (p cl &&& activeLanes s.ctx cl f.pred))) := by
  rw [compareWrites, List.mem_append, List.mem_singleton]
  by_cases written : f.nw = 0
  · rw [if_pos written, List.mem_singleton]
    exact or_congr_left (and_iff_right written).symm
  · rw [if_neg written]
    simp only [written, List.not_mem_nil, false_and]

/-- A compare completes with the lanes in which its condition holds. -/
theorem completes_compare (readable : vReadable s f B) (single : f.width = 0) (op cond : Nat)
    (P : Nat → Nat → Prop) {i : Instr} (runs : exec i s = settle s (s.vCompare op f cond))
    (same : ∀ x y, vCond f cond x y = true ↔ P x y) : ∃ p : Nat → VPred,
      (∀ cl ∈ clustersOf f.target, ∀ i < 16, (p cl).getLsbD i = true ↔ ∀ e, e < 512 / vW f → e * vW f / 32 = i →
        P (elemOf (vW f) (s.ctx.readV cl f.srcA.toNat) e) (elemOf (vW f) ((B cl).headD 0) e)) ∧
      Completes i s (VOwed s f 0 0 (vTakes f) (fun cl d w => d = s.clk + 2 ∧
        ((f.nw = 0 ∧ w = .vpred cl f.dst.toNat (activeLanes s.ctx cl f.pred) (p cl)) ∨
          w = .vlatch cl 2 (laneMask (p cl &&& activeLanes s.ctx cl f.pred))))) := by
  refine ⟨comparedLanes s f B cond, fun cl reached i lane => ?_, ?_⟩
  · rw [comparedLanes_iff readable single cond reached lane]
    simp only [same]
  · have step (u : State) (cl : Nat) (reached : cl ∈ clustersOf f.target) (apart : Apart s cl u) :
        ((u.vB f cl).bind fun b =>
          let act := activeLanes u.ctx cl f.pred
          let p := laneBits (vW f) (List.zipWith (vCond f cond) (u.vA f cl) b.1)
          Res.ok (b.2.emit .v cl (packV op f) 2 ((if f.nw = 0 then [Wr.vpred cl f.dst.toNat act p] else []) ++
            [.vlatch cl 2 (laneMask (p &&& act))]))) =
        .ok (vAct 0 0 2 (packV op f) (readsVb4 f) u cl (compareWrites s f (comparedLanes s f B cond) cl)) := by
      rw [apart.vB (readable cl reached), bind_ok, apart.lanes, apart.vA]
      dsimp only
      rw [emit_eq_vAct, vAct_taken]
      rfl
    obtain ⟨t, settled, owed⟩ := vEach_completes step
    rw [readsVb4_iff] at owed
    exact ⟨t, runs.trans settled, vOwed_congr (fun cl d w => and_congr_right fun _ => mem_compareWrites _ cl w) owed⟩

end

/-! ### The statement -/

/-- Settles O27: the lanes of each compare are those in which the model's condition holds, and that is the named one. -/
theorem vectorCompares : Obligations.VectorCompares := by
  unfold Obligations.VectorCompares
  intro s f B readable single b fmt val nan order gives
  have compares (i : Instr) (op cond : Nat) {P : Nat → Nat → Prop} (same : ∀ x y, vCond f cond x y = true ↔ P x y)
      (runs : exec i s = settle s (s.vCompare op f cond)) : gives i P := completes_compare readable single op cond P runs same
  constructor
  · intro isFloat
    have float : isFloatType f.type.toNat = true := decide_eq_true isFloat
    have ordered (c : Prop) [Decidable c] (x y : Nat) :
        (!(fdecode fmt x).isNan && !(fdecode fmt y).isNan && decide c) = true ↔ ¬ nan x y ∧ c := by
      simp only [Bool.and_eq_true, Bool.not_eq_true', decide_eq_true_eq, nan, not_or, Bool.not_eq_true]
    have eq (x y : Nat) : vCond f 0 x y = true ↔ ¬ nan x y ∧ order x y = 0 := by
      rw [show vCond f 0 x y = feq (fdecode fmt x) (fdecode fmt y) from if_pos float]
      exact ordered _ x y
    have ne (x y : Nat) : vCond f 1 x y = true ↔ nan x y ∨ order x y ≠ 0 := by
      rw [show vCond f 1 x y = !feq (fdecode fmt x) (fdecode fmt y) from if_pos float, Bool.not_eq_true',
        ← Bool.not_eq_true, feq, ordered (FVal.compare (fdecode fmt x) (fdecode fmt y) = 0)]
      exact not_and_or.trans (or_congr_left not_not)
    have lt (x y : Nat) : vCond f 2 x y = true ↔ ¬ nan x y ∧ order x y < 0 := by
      rw [show vCond f 2 x y = flt (fdecode fmt x) (fdecode fmt y) from if_pos float]
      exact ordered _ x y
    have le (x y : Nat) : vCond f 3 x y = true ↔ ¬ nan x y ∧ order x y ≤ 0 := by
      rw [show vCond f 3 x y = fle (fdecode fmt x) (fdecode fmt y) from if_pos float]
      exact ordered _ x y
    have un (x y : Nat) : vCond f 4 x y = true ↔ nan x y := by
      rw [show vCond f 4 x y = funord (fdecode fmt x) (fdecode fmt y) from if_pos float]
      exact Iff.of_eq (Bool.or_eq_true ..)
    exact ⟨compares (.vcmpEq f) 0x8F 0 eq rfl, compares (.vcmpNe f) 0x90 1 ne rfl, compares (.vcmpLt f) 0x91 2 lt rfl,
      compares (.vcmpLe f) 0x92 3 le rfl, compares (.vcmpUn f) 0x93 4 un rfl⟩
  · intro integer
    have int : ¬ isFloatType f.type.toNat = true := fun float => absurd (of_decide_eq_true float) (by omega)
    have eq (x y : Nat) : vCond f 0 x y = true ↔ x = y := by
      rw [show vCond f 0 x y = (x == y) from if_neg int, beq_iff_eq]
    have ne (x y : Nat) : vCond f 1 x y = true ↔ x ≠ y := by
      rw [show vCond f 1 x y = (x != y) from if_neg int, bne_iff_ne]
    have lt (x y : Nat) : vCond f 2 x y = true ↔ val x < val y := by
      rw [show vCond f 2 x y = decide (val x < val y) from if_neg int, decide_eq_true_iff]
    have le (x y : Nat) : vCond f 3 x y = true ↔ val x ≤ val y := by
      rw [show vCond f 3 x y = decide (val x ≤ val y) from if_neg int, decide_eq_true_iff]
    exact ⟨compares (.vcmpEq f) 0x8F 0 eq rfl, compares (.vcmpNe f) 0x90 1 ne rfl, compares (.vcmpLt f) 0x91 2 lt rfl,
      compares (.vcmpLe f) 0x92 3 le rfl⟩

end Sys2Proof.Proofs
end

section
/-! SUPPORT. Transport within and between clusters (20 R440, R448, R451 to R453, 08 R167). -/
namespace Sys2Proof.Proofs
open Sys2Proof Sys2Proof.Machine Sys2Proof.Laws

/-! ### Registers delivered bit for bit -/

theorem vecOf_append {v : Vec} (rest : List Nat) : vecOf 32 (vecElems 32 v ++ rest) = v := by
  have short : (vecElems 32 v).length = elemsPer 32 := by rw [vecElems, List.length_map, List.length_range]
  rw [vecOf, List.take_append_of_le_length short.ge, List.take_of_length_le short.le]
  refine Eq.trans ?_ (vecOf_vecElems (w := 32) rfl v)
  rw [vecOf, List.take_of_length_le short.le]

theorem groupOf_groupElems (vs : List Vec) : groupOf 32 vs.length (groupElems 32 vs) = vs := by
  induction vs with
  | nil => rfl
  | cons v rest ih =>
    have short : (vecElems 32 v).length = elemsPer 32 := by rw [vecElems, List.length_map, List.length_range]
    have split : groupElems 32 (v :: rest) = vecElems 32 v ++ groupElems 32 rest := List.flatMap_cons
    rw [List.length_cons, split, groupOf, vecOf_append, List.drop_append_of_le_length short.ge,
      List.drop_of_length_le short.le, List.nil_append, ih]

theorem elemWrites_asElems (act : VPred) (f : VFields) (cl latch : Nat) {g : Nat} {vs : List Vec} (whole : vs.length = g) :
    elemWrites act f cl latch 32 g (asElems vs) = deliverWr f cl latch (laneMask act) vs [] := by
  have regs : groupOf 32 g ((asElems vs).map (fun x => x.code)) = vs := by
    rw [asElems, List.map_map, ← whole]
    refine Eq.trans (congrArg _ ?_) (groupOf_groupElems vs)
    exact List.map_id _
  rw [elemWrites, regs, deliverWr, deliverWr, flagWr_liveFlags_asElems]
  rfl

section
variable {s : State} {f : VFields} {hold draws n slot : Nat} {takes : Bool} {P : Prop} {latch : Nat → Nat}
  {regs : Nat → List Vec} {fl : Nat → List (BitVec 4)} {pred : BitVec 4} {k : State → Nat → Res State}

theorem vEach_delivers (named : takes = true ↔ P)
    (step : ∀ u cl, cl ∈ clustersOf f.target → Apart s cl u → k u cl = .ok (vAct hold draws n slot takes u cl
      (deliverWr f cl (latch cl) (laneMask (activeLanes s.ctx cl pred)) (regs cl) (fl cl)))) :
    ∃ t, settle s (s.vEach f k) = .next t ∧ VOwed s f hold draws P (fun cl => VDelivers s f pred cl n (latch cl) (regs cl)
      ((fl cl).foldl (fun a b => a ||| b) 0)) t := by
  obtain ⟨t, settled, owed⟩ := vEach_completes step
  rw [named] at owed
  exact ⟨t, settled, vOwed_congr (fun cl d x => (vDelivers_iff s f pred cl n _ _ _ d x).symm) owed⟩

end

section
variable {s : State} {f : VFields} {B : Nat → List Vec}

theorem vmov_delivers (readable : vReadable s f B) (whole : ∀ cl ∈ clustersOf f.target, (B cl).length = vG f) :
    Completes (.vmov f) s (VOwed s f 0 0 (vTakes f) (fun cl => VDelivers s f f.pred cl 2 2 (B cl) 0)) := by
  refine vEach_delivers (takes := readsVb4 f) (slot := packV 0xAA f) (latch := fun _ => 2) (fl := fun _ => [])
    (readsVb4_iff f) fun u cl reached apart => ?_
  rw [apart.readVSrcB (readable cl reached), bind_ok]
  dsimp only
  rw [vResult_eq_vAct, (apart.taken _).lanes, elemWrites_asElems _ f cl 2 (whole cl reached), vAct_taken]

theorem laneMask_all : laneMask 0xFFFF = BitVec.allOnes 512 := by decide +kernel

/-- VSEL writes every lane, each from srcA where the predicate's bit is 1 and from srcB elsewhere. -/
def selected (c : Ctx) (f : VFields) (cl : Nat) (b : List Vec) : List Vec :=
  List.zipWith (fun x y => (x &&& laneMask (c.readVp cl f.pred.toNat)) ||| (y &&& ~~~laneMask (c.readVp cl f.pred.toNat)))
    (readVGroup c cl f.srcA.toNat (vG f)) b

theorem vsel_delivers (readable : vReadable s f B) :
    Completes (.vsel f) s (VOwed s f 0 0 (vTakes f) (fun cl => VDelivers s f 0 cl 2 2 (selected s.ctx f cl (B cl)) 0)) := by
  refine vEach_delivers (takes := readsVb4 f) (slot := packV 0xBB f) (latch := fun _ => 2) (fl := fun _ => [])
    (readsVb4_iff f) fun u cl reached apart => ?_
  have chosen (b : List Vec) : selected u.ctx f cl b = selected s.ctx f cl b :=
    apart.of_ctx (selected · f cl b) fun _ _ _ _ => rfl
  have merged (b : List Vec) : List.zipWith (fun x y => mergeBits (laneMask (u.ctx.readVp cl f.pred.toNat)) y x)
      (readVGroup u.ctx cl f.srcA.toNat (vG f)) b = selected u.ctx f cl b :=
    congrArg (fun h => List.zipWith h _ b) (funext fun x => funext fun y => BitVec.or_comm ..)
  rw [apart.readVSrcB (readable cl reached), bind_ok]
  dsimp only
  rw [merged, chosen, vDeliver_eq_emit, emit_eq_vAct, vAct_taken, ← laneMask_all]
  rfl

theorem getLsbD_zero_iff (i : BitVec 6) : i.getLsbD 0 = true ↔ i.toNat % 2 = 1 := by
  rw [BitVec.getLsbD, Nat.testBit_zero, decide_eq_true_eq]

theorem vidx_elements (readable : vReadable s f B) (whole : ∀ cl ∈ clustersOf f.target, (B cl).length = vG f) :
    Completes (.vidx f) s (VOwed s f 0 0 (vTakes f) (fun cl => VElements s f cl 2 2 (vW f) (vG f)
      ((List.range (vN f)).map (fun e => { code :=
        ((groupElems (vW f) (B cl)).getD e 0 + e + (if f.srcA.getLsbD 0 then cl * vN f else 0)) % 2 ^ vW f })))) := by
  refine vEach_elements (takes := readsVb4 f) (slot := packV 0xA3 f) (latch := fun _ => 2) (readsVb4_iff f)
    fun u cl reached apart => ?_
  have lenB : (groupElems (vW f) (B cl)).length = vN f := by rw [length_groupElems, whole cl reached]; rfl
  have offset : (f.srcA.toNat % 2) * cl * vN f = if f.srcA.getLsbD 0 then cl * vN f else 0 := by
    split
    next odd => rw [(getLsbD_zero_iff _).mp odd, Nat.one_mul]
    next even =>
      rw [getLsbD_zero_iff] at even
      rw [show f.srcA.toNat % 2 = 0 by omega, Nat.zero_mul, Nat.zero_mul]
  have sum (x e : Nat) : vWrap f ((x : Int) + e + (f.srcA.toNat % 2) * cl * vN f) =
      { code := (x + e + (if f.srcA.getLsbD 0 then cl * vN f else 0)) % 2 ^ vW f } := by
    have cast : ((x : Int) + e + (f.srcA.toNat % 2) * cl * vN f) % 2 ^ vW f =
        (((x + e + (f.srcA.toNat % 2) * cl * vN f) % 2 ^ vW f : Nat) : Int) := by push_cast; rfl
    rw [vWrap, cast, Int.toNat_natCast, offset]
  rw [apart.vB (readable cl reached), bind_ok]
  dsimp only
  rw [vResult_eq_vAct, (apart.taken _).lanes, vAct_taken, map_zipIdx_eq_map_range lenB (fun x e =>
    vWrap f ((x : Int) + e + (f.srcA.toNat % 2) * cl * vN f))]
  simp only [sum]

theorem map_eq_map_range {α : Type} {l : List Nat} {n : Nat} (len : l.length = n) (h : Nat → α) :
    l.map h = (List.range n).map (fun e => h (l.getD e 0)) := by
  rw [← map_zipIdx_eq_map_range len (fun x _ => h x)]
  conv_lhs => rw [← List.zipIdx_map_fst 0 l, List.map_map]
  rfl

theorem vshfPerm_elements (readable : vReadable s f B) (whole : ∀ cl ∈ clustersOf f.target, (B cl).length = vG f) :
    Completes (.vshfPerm f) s (VOwed s f 0 0 (vTakes f) (fun cl => VElements s f cl 2 2 (vW f) (vG f)
      ((List.range (vN f)).map (fun e => { code := (s.vA f cl).getD ((groupElems (vW f) (B cl)).getD e 0 % vN f) 0 })))) := by
  refine vEach_elements (takes := readsVb4 f) (slot := packV 0xBC f) (latch := fun _ => 2) (readsVb4_iff f)
    fun u cl reached apart => ?_
  have lenB : (groupElems (vW f) (B cl)).length = vN f := by rw [length_groupElems, whole cl reached]; rfl
  rw [apart.vB (readable cl reached), bind_ok]
  dsimp only
  rw [vResult_eq_vAct, (apart.taken _).lanes, vAct_taken, apart.vA, map_eq_map_range lenB]

/-- The rotation of VSHF.rot: a scalar, or a signed immediate. -/
def rotation (s : State) (f : VFields) : Int := if f.bsel = 2 then (s.ctx.readS f.srcB.toNat).toNat else (vImm f).toInt

theorem rotated_index (s : State) (f : VFields) (e : Nat) :
    (e + s.vIndex f (((vImm f).toInt % (vN f : Int)).toNat)) % vN f = (((e : Int) + rotation s f) % (vN f : Int)).toNat := by
  have positive : (vN f : Int) ≠ 0 := by have := vN_pos f; omega
  unfold State.vIndex rotation
  split
  next => rw [← Nat.cast_add, ← Int.natCast_mod, Int.toNat_natCast]
  next =>
    have turned : ((((vImm f).toInt % (vN f : Int)).toNat : Nat) : Int) = (vImm f).toInt % vN f :=
      Int.toNat_of_nonneg (Int.emod_nonneg _ positive)
    apply Int.ofNat.inj
    show (((e + ((vImm f).toInt % (vN f : Int)).toNat) % vN f : Nat) : Int) = ((((e : Int) + (vImm f).toInt) % (vN f : Int)).toNat : Int)
    rw [Int.natCast_mod, Nat.cast_add, turned, Int.add_emod_emod, Int.toNat_of_nonneg (Int.emod_nonneg _ positive)]

theorem Apart.vIndex {u : State} {cl : Nat} (apart : Apart s cl u) (imm : Nat) : u.vIndex f imm = s.vIndex f imm := by
  rw [State.vIndex, State.vIndex, apart.readS]

theorem vshfRot_elements : Completes (.vshfRot f) s (VOwed s f 0 0 False (fun cl => VElements s f cl 2 2 (vW f) (vG f)
    ((List.range (vN f)).map (fun (e : Nat) => { code := (s.vA f cl).getD (((e : Int) + rotation s f) % (vN f : Int)).toNat 0 })))) := by
  refine vEach_elements (takes := false) (slot := packV 0xBD f) (latch := fun _ => 2) (by decide) fun u cl reached apart => ?_
  dsimp only
  rw [vResult_eq_vAct, apart.lanes, apart.vA, apart.vIndex]
  simp only [rotated_index]

theorem execVbcast_beyond (beyond : vN f ≤ s.vIndex f (vImm f).toNat) :
    exec (.vbcast f) s = .next (s.takeTrap .shape (BitVec.ofNat 64 (s.vIndex f (vImm f).toNat))) := by
  show settle s (if _ then _ else _) = _
  rw [if_pos beyond]
  rfl

theorem vbcast_elements (within : s.vIndex f (vImm f).toNat < vN f) :
    Completes (.vbcast f) s (VOwed s f 0 0 False (fun cl => VElements s f cl 2 2 (vW f) (vG f)
      (List.replicate (vN f) { code := (s.vA f cl).getD (s.vIndex f (vImm f).toNat) 0 }))) := by
  have runs : exec (.vbcast f) s = settle s (s.vEach f fun u cl => .ok (u.vResult 0x8E f cl 2 2 (vW f) (vG f)
      (List.replicate (vN f) { code := (u.vA f cl).getD (s.vIndex f (vImm f).toNat) 0 }))) := by
    show settle s (if _ then _ else _) = _
    rw [if_neg (Nat.not_le.mpr within)]
  rw [Completes, runs]
  refine vEach_elements (takes := false) (slot := packV 0x8E f) (latch := fun _ => 2) (by decide) fun u cl reached apart => ?_
  rw [vResult_eq_vAct, apart.lanes, apart.vA]

theorem vxclSource_eq (i cl : Nat) : vxclSource i cl =
    if i / 8 % 4 = 0 then (cl + i % 8) % 8 else if i / 8 % 4 = 1 then cl ^^^ (i % 8) else i % 8 := by
  have low : bits i 2 0 = i % 8 := by
    rw [bits, Nat.pow_zero, Nat.div_one]
    rfl
  have high : bits i 4 3 = i / 8 % 4 := rfl
  rw [vxclSource, low, high]
  match i / 8 % 4 with
  | 0 => rfl
  | 1 => rfl
  | n + 2 => rfl

theorem vxcl_delivers : Completes (.vxcl f) s (VOwed s f 0 0 False (fun cl => VDelivers s f f.pred cl 3 5
    (readVGroup s.ctx (vxclSource (vImm f).toNat cl) f.srcA.toNat (vG f)) 0)) := by
  refine vEach_delivers (takes := false) (slot := packV 0xC8 f) (latch := fun _ => 5) (fl := fun _ => []) (by decide)
    fun u cl reached apart => ?_
  have regs (x : Nat) : readVGroup u.ctx x f.srcA.toNat (vG f) = readVGroup s.ctx x f.srcA.toNat (vG f) :=
    apart.of_ctx (readVGroup · x f.srcA.toNat (vG f)) fun _ _ _ _ => rfl
  rw [regs, vResult_eq_vAct, apart.lanes, elemWrites_asElems _ f cl 5 (by rw [readVGroup, List.length_map, List.length_range])]

end

/-! ### The statement -/

/-- Settles O28: registers and elements move bit for bit; only VIDX computes, modulo the element's size. -/
theorem vectorTransport : Obligations.VectorTransport := by
  unfold Obligations.VectorTransport
  intro s f g b n a imm scalar
  refine ⟨fun B readable whole => ⟨vmov_delivers readable whole, vsel_delivers readable, vidx_elements readable whole,
    vshfPerm_elements readable whole⟩, vshfRot_elements, ⟨fun within => vbcast_elements within,
    fun beyond => execVbcast_beyond beyond⟩, ?_⟩
  have crossed := vxcl_delivers (s := s) (f := f)
  simp only [vxclSource_eq] at crossed
  exact crossed

end Sys2Proof.Proofs
end

section
/-! SUPPORT. Conversions, functions, accumulator rows and packing (20 R442 to R445, 08 R176 to R178). -/
namespace Sys2Proof.Proofs
open Sys2Proof Sys2Proof.Machine Sys2Proof.Laws

/-! ### VCVT (20 R442 to R444) -/

theorem vcvtDstWidth_table : ∀ w < 4, ∀ t < 8, ∀ d < 8,
    2 ^ (if 2 ^ w * (512 / typeBits t) * typeBits d < 512 then 0 else Nat.log2 (2 ^ w * (512 / typeBits t) * typeBits d / 512)) =
      Max.max 1 (2 ^ w * (512 / typeBits t) * typeBits d / 512) := by decide +kernel

/-- The type that VCVT converts to. -/
def dstType (f : VFields) : Nat := (vImm f).toNat % 8

/-- Registers of the destination of VCVT: a short destination is one register. -/
def dstRegs (f : VFields) : Nat := Max.max 1 (vN f * typeBits (dstType f) / 512)

theorem dstRegs_eq (f : VFields) : 2 ^ vcvtDstWidth f = dstRegs f :=
  vcvtDstWidth_table f.width.toNat f.width.isLt f.type.toNat f.type.isLt (dstType f) (Nat.mod_lt _ (by decide))

/-- The value of an element of a type. -/
def typeValue (t x : Nat) : FVal :=
  if t < 4 then fdecode (typeFmt t) x else ofInt (if t = 7 then (x : Int) else (BitVec.ofNat (typeBits t) x).toInt)

/-- A .satf result stands for an infinity: the source is one, or its rounding overflows. -/
def Infinite (t d : Nat) (m : RMode) (x : Nat) : Prop :=
  (typeValue t x = .inf false ∨ typeValue t x = .inf true) ∨ (fround (typeFmt d) m (typeValue t x)).flags &&& 4 ≠ 0

section
variable {t d : Nat} {sat : Bool} {m : RMode} {x : Nat}

theorem convert_of_integer (small : d < 8) (integer : 4 ≤ d) : convert t d sat m x =
    let lo : Int := if d = 7 then 0 else -2 ^ (typeBits d - 1)
    let hi : Int := if d = 7 then 2 ^ 32 - 1 else 2 ^ (typeBits d - 1) - 1
    { code := ((ftoInt m lo hi (typeValue t x)).1 % 2 ^ typeBits d).toNat, flags := (ftoInt m lo hi (typeValue t x)).2 } := by
  have value : (if isFloatType t then fdecode (typeFmt t) x
      else ofInt (if t = 7 then (x : Int) else (BitVec.ofNat (typeBits t) x).toInt)) = typeValue t x := by
    simp only [isFloatType, decide_eq_true_eq, typeValue]
  rw [convert, value]
  obtain rfl | rfl | rfl | rfl : d = 4 ∨ d = 5 ∨ d = 6 ∨ d = 7 := by omega
  all_goals rfl

theorem satFloat_eq (fmt : Fmt) (m : RMode) (v : FVal) : satFloat fmt m v = open Classical in
    if (v = .inf false ∨ v = .inf true) ∨ (fround fmt m v).flags &&& 4 ≠ 0 then
      { code := fmt.maxCode + fsign fmt v.isNeg, flags := 8 }
    else fround fmt m v := by
  have finite {v : FVal} (no : ∀ b, v ≠ .inf b) : ((v = .inf false ∨ v = .inf true) ∨ (fround fmt m v).flags &&& 4 ≠ 0) ↔
      ¬ (fround fmt m v).flags &&& fOVF = 0 := by
    simp only [no, false_or]
    exact Iff.rfl
  cases v with
  | inf neg =>
    rw [if_pos (.inl (by cases neg <;> simp))]
    rfl
  | nan =>
    rw [if_congr (finite fun b same => FVal.noConfusion same) rfl rfl]
    exact (ite_not ..).symm
  | fin n k e =>
    rw [if_congr (finite fun b same => FVal.noConfusion same) rfl rfl]
    exact (ite_not ..).symm

theorem convert_of_float (isFloat : d < 4) : convert t d sat m x = open Classical in
    if sat ∧ Infinite t d m x then
      { code := (typeFmt d).maxCode + fsign (typeFmt d) (typeValue t x).isNeg, flags := 8 }
    else fround (typeFmt d) m (typeValue t x) := by
  have value : (if isFloatType t then fdecode (typeFmt t) x
      else ofInt (if t = 7 then (x : Int) else (BitVec.ofNat (typeBits t) x).toInt)) = typeValue t x := by
    simp only [isFloatType, decide_eq_true_eq, typeValue]
  rw [convert, value]
  dsimp only
  rw [if_pos (show isFloatType d = true from decide_eq_true isFloat)]
  cases sat with
  | true =>
    rw [if_pos rfl, satFloat_eq]
    classical exact if_congr (and_iff_right rfl).symm rfl rfl
  | false => simp only [Bool.false_eq_true, if_false, false_and]

end

section
variable {s : State} {f : VFields}

theorem vConvert_elements (op mode : Nat) {i : Instr} (runs : exec i s = settle s (s.vConvert op f mode)) :
    Completes i s (VOwed s f (if f.width = 3 ∨ dstRegs f = 8 then 2 else 1) (drawCount mode (vN f)) False
      (fun cl => VElements s f cl (if f.width = 3 ∨ dstRegs f = 8 then 5 else 4) (vfLatch s cl) (typeBits (dstType f)) (dstRegs f)
        ((List.range (vN f)).map (fun e => convert f.type.toNat (dstType f) (decide (8 ≤ (vImm f).toNat)) (vMode s mode cl e)
          ((s.vA f cl).getD e 0))))) := by
  have octet : (f.width == 3 || dstRegs f == 8) = decide (f.width = 3 ∨ dstRegs f = 8) := by
    rw [Bool.eq_iff_iff, Bool.or_eq_true, beq_iff_eq, beq_iff_eq, decide_eq_true_iff]
  have step (u : State) (cl : Nat) (reached : cl ∈ clustersOf f.target) (apart : Apart s cl u) :
      (let m := u.drawModes mode cl (vN f)
       let r := m.2.vUnit cl .float (f.width == 3 || 2 ^ vcvtDstWidth f == 8)
       Res.ok (r.2.2.vResult op f cl r.1 r.2.1 (typeBits (dstType f)) (2 ^ vcvtDstWidth f)
         (List.zipWith (convert f.type.toNat (dstType f) (decide (8 ≤ (vImm f).toNat))) m.1 (u.vA f cl)))) =
      .ok (vAct (if f.width = 3 ∨ dstRegs f = 8 then 2 else 1) (drawCount mode (vN f))
        (if f.width = 3 ∨ dstRegs f = 8 then 5 else 4) (packV op f) false u cl
        (elemWrites (activeLanes s.ctx cl f.pred) f cl (vfLatch s cl) (typeBits (dstType f)) (dstRegs f)
          ((List.range (vN f)).map (fun e => convert f.type.toNat (dstType f) (decide (8 ≤ (vImm f).toNat)) (vMode s mode cl e)
            ((s.vA f cl).getD e 0))))) := by
    have modes : (List.range (vN f)).map (vMode u mode cl) = (List.range (vN f)).map (vMode s mode cl) :=
      List.map_congr_left fun e _ => apart.vMode _ e
    have elems : s.vA f cl = (List.range (vN f)).map (fun e => (s.vA f cl).getD e 0) := by
      have listed := map_eq_map_range (length_elemsA s.ctx f cl) id
      rwa [List.map_id] at listed
    dsimp only
    rw [vResult_vUnit, apart.vA, drawModes_fst, modes, drawModes_lanes, apart.lanes, vAct_drawModes (vN_pos f).ne',
      unitLatch_float, drawModes_vfLatch, apart.vfLatch, dstRegs_eq, octet]
    conv_lhs => rw [elems, List.zipWith_map, List.zipWith_self]
    simp only [unitHold, unitClk, decide_eq_true_eq]
  obtain ⟨t, settled, owed⟩ := vEach_elements (takes := false) (P := False) (by decide) step
  exact ⟨t, runs.trans settled, owed⟩

/-! ### Functions of an element (20 R445) -/

theorem vTrans_elements (op : Nat) (fn : Nat → FRes) {i : Instr} (runs : exec i s = settle s (s.vUnary op f .trans fn)) :
    Completes i s (VOwed s f 0 0 False (fun cl => VElements s f cl 8 3 (vW f) (vG f) ((s.vA f cl).map fn))) := by
  obtain ⟨t, settled, owed⟩ := vUnary_elements s op f .trans fn
  exact ⟨t, runs.trans settled, owed⟩

theorem functions_of_nan {fmt : Fmt} {x : Nat} (nan : (fdecode fmt x).isNan) :
    ∀ fn ∈ [fexp2, flog2, frcp, frsq, fsig, ftanh], fn fmt x = { code := fmt.nanCode } := by
  have value : fdecode fmt x = .nan := by
    generalize fdecode fmt x = v at nan
    cases v with
    | nan => rfl
    | inf b => cases nan
    | fin a b c => cases nan
  simp only [List.forall_mem_cons, List.not_mem_nil, false_implies, implies_true, and_true, fexp2, flog2, frcp, frsq, fsig, ftanh,
    value]

/-! ### VACC (08 R176) -/

/-- The accumulators of the strand's crew. -/
def crewAccs (s : State) : Nat := match s.curCrew with | some w => w.acc | none => 0

theorem execVacc_eq (s : State) (f : VFields) : exec (.vacc f) s = settle s (
    if 512 ≤ s.vIndex f (vImm f).toNat ∨ crewAccs s ≤ bits (s.vIndex f (vImm f).toNat) 8 7 ∨
        127 < bits (s.vIndex f (vImm f).toNat) 6 0 + vG f - 1 then .trap .shape (BitVec.ofNat 64 (s.vIndex f (vImm f).toNat))
    else s.vEach f fun u cl => .ok (u.vResult 0x8B f cl 6 7 32 (vG f) (asElems ((List.range (vG f)).map (fun m =>
      (u.tile u.cur).accRow (bits (s.vIndex f (vImm f).toNat) 8 7) (bits (s.vIndex f (vImm f).toNat) 6 0 + m) (16 * cl)))))) := rfl

theorem vacc_delivers (v : Nat) : ∃ t, settle s (s.vEach f fun u cl => .ok (u.vResult 0x8B f cl 6 7 32 (vG f)
      (asElems ((List.range (vG f)).map (fun m => (u.tile u.cur).accRow (bits v 8 7) (bits v 6 0 + m) (16 * cl)))))) = .next t ∧
    VOwed s f 0 0 False (fun cl => VDelivers s f f.pred cl 6 7 ((List.range (vG f)).map (fun m => vecOf 32 ((List.range 16).map
      (fun i => (Sparse.get 0 (s.tile s.cur).acc (16384 * (v / 128 % 4) + 128 * (v % 128 + m) + 16 * cl + i)).toNat)))) 0) t := by
  have row : bits v 6 0 = v % 128 := by
    rw [bits, Nat.pow_zero, Nat.div_one]
    rfl
  refine vEach_delivers (takes := false) (slot := packV 0x8B f) (latch := fun _ => 7) (fl := fun _ => []) (by decide)
    fun u cl reached apart => ?_
  rw [vResult_eq_vAct, apart.lanes, elemWrites_asElems _ f cl 7 (by rw [List.length_map, List.length_range]), row]
  simp only [Tile.accRow, apart.acc]
  rfl

/-! ### Packing (08 R177, R178) -/

/-- Whether the block draws, and the modes of its elements: draws under sr for MX4, nearest for PP8. -/
def packDraws (s : State) (four : Bool) : Nat := if four then drawCount s.ctx.vrm 32 else 0
def packModes (s : State) (four : Bool) (cl e : Nat) : RMode := if four then vMode s s.ctx.vrm cl e else .rne

/-- The modes that a cluster's step takes, with the state after it. -/
def packTaken (u : State) (four : Bool) (cl : Nat) : List RMode × State :=
  if four then u.drawModes u.ctx.vrm cl 32 else (List.replicate 32 .rne, u)

theorem packTaken_fst {u : State} {cl : Nat} (apart : Apart s cl u) (four : Bool) :
    (packTaken u four cl).1 = (List.range 32).map (packModes s four cl) := by
  cases four with
  | true =>
    refine (drawModes_fst _ _).trans ?_
    rw [apart.vrm]
    exact List.map_congr_left fun e _ => apart.vMode _ e
  | false => rfl

theorem packTaken_lanes {u : State} {cl : Nat} (four : Bool) :
    activeLanes (packTaken u four cl).2.ctx cl f.pred = activeLanes u.ctx cl f.pred := by
  cases four with
  | true => exact drawModes_lanes _ _
  | false => rfl

theorem packTaken_vfLatch {u : State} {cl : Nat} (four : Bool) : vfLatch (packTaken u four cl).2 cl = vfLatch u cl := by
  cases four with
  | true => exact drawModes_vfLatch _ _
  | false => rfl

theorem vAct_packTaken {u : State} {cl hold n slot : Nat} (apart : Apart s cl u) (four : Bool) (ws : List Wr) :
    vAct hold 0 n slot false (packTaken u four cl).2 cl ws = vAct hold (packDraws s four) n slot false u cl ws := by
  cases four with
  | true =>
    refine (vAct_drawModes (by decide)).trans ?_
    rw [apart.vrm]
    rfl
  | false => rfl

/-- Flags of a packed block's elements, w bits each, in active lanes. -/
def packFlags (act : VPred) (w : Nat) (es : List FRes) : List (BitVec 4) :=
  es.zipIdx.map (fun x => if act.getLsbD (x.2 * w / 32) then x.1.flags else 0)

theorem vWrite_asElems {u : State} {op cl n latch g : Nat} {vs : List Vec} (whole : vs.length = g) (fl : List (BitVec 4)) :
    u.vWrite op f cl n latch 32 g (asElems vs) fl =
      u.emit .v cl (packV op f) n (deliverWr f cl latch (laneMask (activeLanes u.ctx cl f.pred)) vs fl) := by
  have regs : groupOf 32 g ((asElems vs).map (fun x => x.code)) = vs := by
    rw [asElems, List.map_map, ← whole]
    exact Eq.trans (congrArg _ (List.map_id _)) (groupOf_groupElems vs)
  rw [State.vWrite, regs]
  rfl

/-- The packed block of a cluster, and its two registers. -/
def packed (s : State) (f : VFields) (four : Bool) (cl : Nat) : List FRes × Nat :=
  packBlock four ((List.range 32).map (packModes s four cl)) (s.vA f cl)
def packedRegs (s : State) (f : VFields) (four : Bool) (cl : Nat) : List Vec :=
  [vecOf (if four then 4 else 8) ((packed s f four cl).1.map (fun x => x.code)), BitVec.ofNat 512 (packed s f four cl).2]

theorem vPack_delivers (op : Nat) (four : Bool) {i : Instr} (runs : exec i s = settle s (s.vPack op f four)) :
    Completes i s (VOwed s f 1 (packDraws s four) False (fun cl => VDelivers s f f.pred cl 4 (vfLatch s cl) (packedRegs s f four cl)
      ((packFlags (activeLanes s.ctx cl f.pred) (if four then 4 else 8) (packed s f four cl).1).foldl (fun x y => x ||| y) 0))) := by
  have step (u : State) (cl : Nat) (reached : cl ∈ clustersOf f.target) (apart : Apart s cl u) :
      (let m := packTaken u four cl
       let r := m.2.vUnit cl .float false
       let p := packBlock four m.1 (u.vA f cl)
       let w := if four then 4 else 8
       Res.ok (r.2.2.vWrite op f cl r.1 r.2.1 32 2 (asElems [vecOf w (p.1.map (fun x => x.code)), BitVec.ofNat 512 p.2])
         (packFlags (activeLanes u.ctx cl f.pred) w p.1))) =
      .ok (vAct 1 (packDraws s four) 4 (packV op f) false u cl (deliverWr f cl (vfLatch s cl)
        (laneMask (activeLanes s.ctx cl f.pred)) (packedRegs s f four cl)
        (packFlags (activeLanes s.ctx cl f.pred) (if four then 4 else 8) (packed s f four cl).1))) := by
    dsimp only
    rw [vWrite_asElems (g := 2) rfl, emit_vUnit, vUnit_clk, vUnit_latch, vUnit_ctx, unitLatch_float, packTaken_lanes, packTaken_vfLatch,
      packTaken_fst apart, vAct_packTaken apart, apart.lanes, apart.vfLatch, apart.vA]
    rfl
  obtain ⟨t, settled, owed⟩ := vEach_delivers (pred := f.pred) (takes := false) (P := False) (by decide) step
  exact ⟨t, runs.trans settled, owed⟩

/-- What VUPK makes of an element of its block and the scale. -/
def unpacked (c : Ctx) (f : VFields) (w : Nat) (dec : Nat → FVal) (cl : Nat) : List FRes :=
  (List.range 32).map (fun e => fround fp32 .rne (blockValue (dec (elemOf w (c.readV cl f.srcA.toNat) e))
    (scaleVal (elemOf 32 (c.readV cl (f.srcA.toNat + 1)) 0))))

theorem vUnpack_elements (op w : Nat) (four : Bool) (dec : Nat → FVal) {i : Instr}
    (runs : exec i s = settle s (s.vUnpack op f four))
    (block : ∀ v e, (if four then fdecode e2m1 (elemOf 4 v e) else pp8Dec (elemOf 8 v e)) = dec (elemOf w v e)) :
    Completes i s (VOwed s f 1 0 False (fun cl => VElements s f cl 4 (vfLatch s cl) 32 2 (unpacked s.ctx f w dec cl))) := by
  have step (u : State) (cl : Nat) (reached : cl ∈ clustersOf f.target) (apart : Apart s cl u) :
      (let r := u.vUnit cl .float false
       let v := u.ctx.readV cl f.srcA.toNat
       let sc := scaleVal (elemOf 32 (u.ctx.readV cl (f.srcA.toNat + 1)) 0)
       let es := (List.range 32).map (fun j => fround fp32 .rne (blockValue
         (if four then fdecode e2m1 (elemOf 4 v j) else pp8Dec (elemOf 8 v j)) sc))
       Res.ok (r.2.2.vResult op f cl r.1 r.2.1 32 2 es)) =
      .ok (vAct 1 0 4 (packV op f) false u cl
        (elemWrites (activeLanes s.ctx cl f.pred) f cl (vfLatch s cl) 32 2 (unpacked s.ctx f w dec cl))) := by
    have same : unpacked u.ctx f w dec cl = unpacked s.ctx f w dec cl := apart.of_ctx (unpacked · f w dec cl) fun _ _ _ _ => rfl
    dsimp only
    rw [vResult_vUnit, apart.lanes, unitLatch_float, apart.vfLatch, ← same]
    simp only [block]
    rfl
  obtain ⟨t, settled, owed⟩ := vEach_elements (takes := false) (P := False) (by decide) step
  exact ⟨t, runs.trans settled, owed⟩

end

/-! ### The statement -/

/-- Settles O29: each element is converted, computed, packed or unpacked as the model's functions say, under its own mode. -/
theorem vectorConversions : Obligations.VectorConversions := by
  unfold Obligations.VectorConversions
  constructor
  · intro s f g t b n a
    constructor
    · intro i d gd lo hi value rounded infinite one gives
      have named (m : RMode) (x : Nat) : convert t d (decide (8 ≤ i)) m x = one m x := by
        rcases Nat.lt_or_ge d 4 with isFloat | integer
        · rw [convert_of_float isFloat]
          refine Eq.trans ?_ (if_neg (Nat.not_le.mpr isFloat)).symm
          classical exact if_congr (and_congr_left' decide_eq_true_iff) rfl rfl
        · rw [convert_of_integer (Nat.mod_lt _ (by decide)) integer]
          exact (if_pos integer).symm
      have converts (k : Instr) (op mode : Nat) (runs : exec k s = settle s (s.vConvert op f mode)) : gives k mode := by
        obtain ⟨u, settled, owed⟩ := vConvert_elements op mode runs
        refine ⟨u, settled, vOwed_congr (fun cl due w => ?_) owed⟩
        have elems := List.map_congr_left (l := List.range n) fun e _ => named (vMode s mode cl e) ((a cl).getD e 0)
        exact iff_of_eq (congrArg (fun es => VElements s f cl _ _ _ _ es due w) elems)
      exact ⟨converts (.vcvtRne f) 0x94 0 rfl, converts (.vcvtRtz f) 0x95 1 rfl, converts (.vcvtRdn f) 0x96 2 rfl,
        converts (.vcvtRup f) 0x97 3 rfl, converts (.vcvtSr f) 0x98 4 rfl⟩
    · intro gives fmt
      have functions (k : Instr) (op : Nat) (fn : Nat → FRes) (runs : exec k s = settle s (s.vUnary op f .trans fn)) :
          gives k fn := vTrans_elements op fn runs
      exact ⟨functions (.vexp2 f) 0x99 _ rfl, functions (.vlog2 f) 0xA7 _ rfl, functions (.vrcp f) 0xB1 _ rfl,
        functions (.vrsq f) 0xB5 _ rfl, functions (.vsig f) 0xC0 _ rfl, functions (.vtanh f) 0xC5 _ rfl,
        fun x nan => functions_of_nan nan⟩
  · intro s f g imm v row acc owned
    have low : bits v 6 0 = row := by
      rw [bits, Nat.pow_zero, Nat.div_one]
      rfl
    have high : bits v 8 7 = acc := rfl
    have size : 0 < vG f := Nat.two_pow_pos _
    have index : s.vIndex f (vImm f).toNat = v := rfl
    refine ⟨fun small own rows => ?_, fun refused => ?_, fun word pair => ?_, fun single => ?_⟩
    · have inside : row + vG f ≤ 128 := rows
      obtain ⟨t, settled, owed⟩ := vacc_delivers (s := s) (f := f) v
      refine ⟨t, ?_, owed⟩
      rw [execVacc_eq, index, if_neg, settled]
      rw [low, high]
      have accs : acc < crewAccs s := own
      omega
    · have beyond : 512 ≤ v ∨ owned ≤ acc ∨ 128 < row + vG f := refused
      rw [execVacc_eq, index, if_pos, settle_trap]
      rw [low, high]
      refine beyond.imp_right fun rest => rest.imp_right fun rows => ?_
      omega
    · have elems (cl : Nat) : s.vA f cl = groupElems 32 (readVGroup s.ctx cl f.srcA.toNat 2) := by
        rw [State.vA, vG, vW, word, pair]
        rfl
      intro a gives
      have packs (k : Instr) (op : Nat) (four : Bool) (mode : Nat → Nat → RMode) (runs : exec k s = settle s (s.vPack op f four))
          (modes : ∀ cl e, packModes s four cl e = mode cl e) : gives k four (if four then 4 else 8) (packDraws s four) mode := by
        obtain ⟨t, settled, owed⟩ := vPack_delivers op four runs
        refine ⟨t, settled, vOwed_congr (fun cl due w => ?_) owed⟩
        have block : packed s f four cl = packBlock four ((List.range 32).map (mode cl)) (a cl) := by
          rw [packed, elems, funext (modes cl)]
        rw [packedRegs, block]
        rfl
      exact ⟨packs (.vpkPp8 f) 0xAF false _ rfl fun _ _ => rfl, packs (.vpkMx4 f) 0xB0 true _ rfl fun _ _ => rfl⟩
    · exact ⟨vUnpack_elements 0xC6 8 false pp8Dec rfl fun _ _ => rfl,
        vUnpack_elements 0xC7 4 true (fdecode e2m1) rfl fun _ _ => rfl⟩

end Sys2Proof.Proofs
end

section
/-! SUPPORT. A broadcast load of a strand whose summary operation is numbered as its next access (09 R181, 12 R247). -/
namespace Sys2Proof.Proofs
open Sys2Proof Sys2Proof.Machine Sys2Proof.Laws

/-- A capability of the crew's scratchpad. -/
def padCap : TCap := mkCap 0 0xFFFFFF 63 0 0 4096

/-- A clear of the bytes that cluster 1 loads, with the number of the strand's next access. -/
def aheadClear (s : State) : SumOp :=
  { id := 0, num := s.ctx.num, iss := s.issuer 0 0, op := 0x80, cl := 0, cap := padCap, off := 64, place := .spad 64, bf := false
    elems := [], act := 0, coin := 0, size := 64 }

/-- A strand with the scratchpad in k1 and that clear in its tile's reduction unit. -/
def beforeAhead : State :=
  let s := State.reset.loadStrand
  let s := s.setCtxAt 0 0 { s.ctxAt 0 0 with k := [(1, padCap)] }
  s.setTile 0 { s.tile 0 with sumq := [aheadClear s] }

/-- VLD of one register in every cluster, from the scratchpad at offset 0. -/
def wideLoad : VFields :=
  { target := .broadcast, type := 0, width := 0, nw := 0, dst := 1, pred := 0, srcA := 0, bsel := 2, srcB := 2, srcC := 1 }

theorem beforeAhead_admits : readCapReg beforeAhead.ctx (wideLoad.srcC.toNat % 32) = .ok padCap ∧
    beforeAhead.lanesCheck padCap 0 ((clustersOf wideLoad.target).flatMap (fun c =>
      (vLanes beforeAhead wideLoad 0 c).map (fun l => l.2))) false = .ok (.spad 0) ∧ Quiet beforeAhead ∧
    beforeAhead.ctx.ports.any (fun p => p.2.any (fun e => e.held.isSome)) = false ∧
    (beforeAhead.tile beforeAhead.cur).spadPoison = [] ∧ beforeAhead.ctx.port 17 = [] := by
  unfold Quiet
  decide +kernel

/-- Cluster 1's read, the second to be numbered, stays behind the clear. -/
theorem vld_waits : (match exec (.vld wideLoad) beforeAhead with
    | .next t => (t.ctx.port 17).any (fun e => e.held.isSome)
    | _ => false) = true := by decide +kernel

/-- Refutes O31: the reads of a slot's clusters are numbered one after another, and one that a summary operation of the
strand comes before waits, though the operation is not before the strand's next access. -/
theorem not_vectorLoads : ¬ Obligations.VectorLoads := by
  intro claim
  obtain ⟨named, checked, quiet, none_, sound, empty⟩ := beforeAhead_admits
  obtain ⟨-, -, -, -, loads, -, -⟩ := claim beforeAhead wideLoad padCap named
  obtain ⟨t, runs, -, ports⟩ := loads checked quiet none_ sound
  have waits := vld_waits
  rw [runs] at waits
  have entry := ports 17
  rw [empty] at entry
  dsimp only at waits
  rw [entry] at waits
  exact Bool.false_ne_true waits

end Sys2Proof.Proofs
end

section
/-! SUPPORT. Cold and warm reset (16 R343, R350). -/
namespace Sys2Proof.Proofs
open Sys2Proof Sys2Proof.Machine Sys2Proof.Laws

/-- A tile that is out of service. -/
def outOfService : Tile := { tstate := .disabled }

/-- The tiles that warm reset lists: those out of service, with nothing else of them. -/
def keptDisabled (m : Sparse Tile) : Sparse Tile :=
  (m.filter (fun x => x.2.tstate == .disabled)).map (fun x => (x.1, outOfService))

theorem get_keptDisabled (m : Sparse Tile) (t : Nat) :
    (Sparse.get {} (keptDisabled m) t = {} ∨ Sparse.get {} (keptDisabled m) t = outOfService) ∧
    ((Sparse.get {} m t).tstate = .disabled → Sparse.get {} (keptDisabled m) t = outOfService) := by
  induction m with
  | nil => exact ⟨.inl rfl, fun h => nomatch (h : TileState.unassigned = TileState.disabled)⟩
  | cons x m ih =>
    obtain ⟨k, v⟩ := x
    unfold keptDisabled at ih ⊢
    by_cases off : v.tstate = .disabled
    · rw [List.filter_cons_of_pos (by simpa using off), List.map_cons]
      simp only [Sparse.get]
      split
      · exact ⟨.inr rfl, fun _ => rfl⟩
      · exact ih
    · rw [List.filter_cons_of_neg (by simpa using off)]
      simp only [Sparse.get]
      split
      · exact ⟨ih.1, fun h => absurd h off⟩
      · exact ih

/-- Warm reset leaves a tile as cold reset does, or out of service. -/
theorem tile_warmReset (s : State) (image : Firmware) (t : Nat) :
    (s.warmReset image).tile t = Sparse.get {} (keptDisabled s.tiles) t := rfl

theorem boot_runs_iff (b : Boot) (image : Firmware) :
    b.runs image = true ↔ image.verified = true ∧ b.fuse ≤ image.version ∧ isZordex b.zident = true := by
  simp only [Boot.runs, Bool.and_eq_true, decide_eq_true_eq, and_assoc]

/-- Settles O44: both resets build their state from that of `State.reset`, and the boot decides by `Boot.runs` alone. -/
theorem coldAndWarmReset : Obligations.ColdAndWarmReset := by
  intro s image msg runs
  refine ⟨⟨_, rfl, boot_runs_iff s.boot image⟩, ⟨_, rfl, ?_⟩, rfl⟩
  refine ⟨rfl, rfl, rfl, rfl, boot_runs_iff s.boot image, rfl, rfl, rfl, rfl, rfl, rfl, fun t => ?_, fun t off => ?_⟩
  · rw [tile_warmReset]
    obtain fresh | gone := (get_keptDisabled s.tiles t).1
    · rw [fresh]; exact ⟨rfl, rfl, rfl⟩
    · rw [gone]; exact ⟨rfl, rfl, rfl⟩
  · rw [tile_warmReset, (get_keptDisabled s.tiles t).2 off, outOfService]

end Sys2Proof.Proofs
end

section
/-! SUPPORT. The Crown and Brim: what their engines' turns leave of the Crown's entries and of a strand (14 R303 to R317). -/
namespace Sys2Proof.Proofs
open Sys2Proof Sys2Proof.Machine Sys2Proof.Laws

/-! ### The Crown's entries -/

/-- The Crown's entries, their owners and its broadcasts. -/
def crowns (s : State) : Sparse CrownSlot × Sparse (Option Nat) × List Broadcast := (s.crown, s.crownOwner, s.broadcasts)

theorem crowns_sectorWrite (s : State) (w : SectorWrite) : crowns (s.sectorWrite w) = crowns s :=
  (congrArg crowns (sansMemory_sectorWrite s w) :)

theorem crowns_flushTile (s : State) (t : Nat) : crowns (s.flushTile t) = crowns s := by
  refine foldl_frame crowns (fun (u : State) (x : Nat × Option L1Sector) => u.l1WriteBack t x.1) (fun u x => ?_) _ s
  unfold State.l1WriteBack
  split
  · split
    · rfl
    · exact crowns_sectorWrite u _
  · rfl

theorem crowns_sendAll (s : State) (ds : List Nat) (vc lane : Nat) (pay : FlitPay) :
    crowns (s.sendAll ds vc lane pay) = crowns s := by
  obtain ⟨l, o, n, sends⟩ := sendAll_changes s ds vc lane pay
  rw [sends]
  rfl

theorem crowns_enroll (s : State) (k r : Nat) (x : Comm) (c : CollCmd) : crowns (s.enroll k r x c) = crowns s := by
  unfold State.enroll
  extract_lets m c₁ c₂ y
  rw [apply_ite crowns]
  split
  · rfl
  · exact crowns_sendAll _ _ _ _ _

theorem crowns_crownJoin (s : State) (k r : Nat) (x : Comm) (w j root : Nat) (isRoot : Bool) :
    crowns (s.crownJoin k r x w j root isRoot) = crowns s := by
  unfold State.crownJoin
  dsimp only
  split
  · rfl
  · exact crowns_enroll _ _ _ _ _

theorem crownSlot_of_crowns {s u : State} (same : crowns u = crowns s) (w j : Nat) : u.crownSlot w j = s.crownSlot w j := by
  rw [State.crownSlot, show u.crown = s.crown from congrArg Prod.fst same, State.crownSlot]

@[simp] theorem setCrownSlot_crownSlot (s : State) (w j : Nat) (x : CrownSlot) :
    (s.setCrownSlot w j x).crownSlot w j = x := get_set_same ..

theorem setCrownSlot_crownSlot_other (s : State) (w : Nat) {i j : Nat} (x : CrownSlot) (other : i ≠ j) :
    (s.setCrownSlot w j x).crownSlot w i = s.crownSlot w i := get_set_other _ _ _ (by omega)

/-! ### Slots of a set -/

/-- The slot that a search finds has one of the states, and none below it has. -/
theorem crownFind_spec {s : State} {w k j : Nat} (found : s.crownFind w [k] none = some j) :
    (s.crownSlot w j).state.toNat = k ∧ ∀ i < j, (s.crownSlot w i).state.toNat ≠ k := by
  have first := List.find?_range_eq_some.mp found
  simp only [List.contains_cons, List.contains_nil, Bool.or_false, Option.isNone_none, Bool.true_or, Bool.and_true,
    beq_iff_eq, Bool.not_eq_true', beq_eq_false_iff_ne] at first
  exact ⟨first.1, fun i below => first.2.2 i below⟩

theorem published_state {s : State} {w o : Nat} (published : s.published w = some o) : (s.crownSlot w o).state = 2 :=
  BitVec.eq_of_toNat_eq (crownFind_spec published).1

theorem publish_of_published {s : State} {w j o : Nat} (published : s.published w = some o) (other : o ≠ j) :
    ((s.publish w j).crownSlot w o).state = (if (s.crownSlot w o).readers = 0 then 0 else 3) := by
  simp only [State.publish, published]
  rw [setCrownSlot_crownSlot_other _ _ _ other, setCrownSlot_crownSlot]

theorem publish_state (s : State) (w j : Nat) : ((s.publish w j).crownSlot w j).state = 2 := by
  rw [State.publish, setCrownSlot_crownSlot]

/-- R303, R306: what a publication makes of its entry and of the one before it. -/
theorem publish_spec {s : State} {w j : Nat} (claimed : (s.crownSlot w j).state = 1) :
    ((s.publish w j).crownSlot w j).state = 2 ∧ ∀ o, s.published w = some o →
      ((s.publish w j).crownSlot w o).state = if (s.crownSlot w o).readers = 0 then 0 else 3 := by
  refine ⟨publish_state s w j, fun o published => publish_of_published published fun same => ?_⟩
  have : (1 : BitVec 2) = 2 := claimed.symm.trans (same ▸ published_state published)
  exact absurd this (by decide)

/-- R303: a claim takes the lowest free slot. -/
theorem claimSlot_spec {s u : State} {w j : Nat} {ver : BitVec 32} (claims : s.claimSlot w ver = some (j, u)) :
    (s.crownSlot w j).state = 0 ∧ (∀ i < j, (s.crownSlot w i).state ≠ 0) ∧
      (u.crownSlot w j).state = 1 ∧ (u.crownSlot w j).ver = ver := by
  obtain ⟨i, found, made⟩ := Option.map_eq_some_iff.mp claims
  obtain ⟨rfl, rfl⟩ := Prod.mk.inj made
  obtain ⟨free, lowest⟩ := crownFind_spec found
  refine ⟨BitVec.eq_of_toNat_eq free, fun i below zero => lowest i below (congrArg BitVec.toNat zero), ?_, ?_⟩ <;>
    rw [setCrownSlot_crownSlot]

/-! ### Broadcasts -/

theorem advanceBroadcasts_of_none {s : State} (none : s.broadcasts = []) : s.advanceBroadcasts = s := by
  simp only [State.advanceBroadcasts, none, List.foldl_nil]

/-- A broadcast that has its slot joins its collective, or waits for it. -/
theorem crowns_advanceBroadcast (s : State) {b : Broadcast} {j : Nat} (placed : b.slot = some j) :
    crowns (s.advanceBroadcast b) = crowns s := by
  cases known : s.comm b.comm with
  | none => simp only [State.advanceBroadcast, known]
  | some x =>
    simp only [State.advanceBroadcast, known, placed]
    split
    · rfl
    · split
      · rfl
      · split
        · exact crowns_crownJoin _ _ _ _ _ _ _ _
        · rfl

/-- A broadcast that a peer's Crown has just heard of. -/
def heard (w k ver : Nat) : Broadcast := { set := w, ver, comm := k, slot := none, root := false }

/-- The Crown with a slot for the broadcast that it has heard of. -/
def placed (s : State) (w k ver j : Nat) : State :=
  { s.setCrownSlot w j { s.crownSlot w j with state := 1, ver := BitVec.ofNat 32 ver, readers := 0 } with
    broadcasts := [{ heard w k ver with slot := some j }] }

theorem advanceBroadcast_heard {s : State} {w k ver j : Nat} {x : Comm} (known : s.comm k = some x)
    (free : s.crownFind w [0] none = some j) :
    ({ s with broadcasts := [heard w k ver] } : State).advanceBroadcast (heard w k ver) = placed s w k ver j := by
  have known' : ({ s with broadcasts := [heard w k ver] } : State).comm k = some x := known
  have free' : ({ s with broadcasts := [heard w k ver] } : State).crownFind w [0] none = some j := free
  simp only [State.advanceBroadcast, heard] at known' free' ⊢
  simp only [known', State.claimSlot, free', Option.map_some]
  simp [State.payOwed, placed, heard, State.setCrownSlot, State.crownSlot]

/-- R307: a broadcast takes a free slot at a peer. -/
theorem broadcastClaim_spec {s : State} {w k ver j : Nat} {x : Comm} (idle : s.broadcasts = []) (known : s.comm k = some x)
    (crown : x.crown = some w) (free : s.crownFind w [0] none = some j) :
    crowns (s.broadcastClaim w k ver) = crowns (placed s w k ver j) := by
  have claims : s.broadcastClaim w k ver = ({ s with broadcasts := [heard w k ver] } : State).advanceBroadcasts := by
    simp only [State.broadcastClaim, known, crown, idle]
    rw [if_neg (by simp)]
    rfl
  rw [claims, State.advanceBroadcasts]
  simp only [List.foldl_cons, List.foldl_nil, advanceBroadcast_heard known free]
  exact crowns_advanceBroadcast _ rfl

/-- R307: a broadcast that has landed is published, where its collective has gone well and nothing newer is. -/
theorem broadcastLand_spec {s : State} {b : Broadcast} {j e : Nat} (peer : b.root = false) (slot : b.slot = some j)
    (ended : b.ended = some e) (claimed : (s.crownSlot b.set j).state = 1) :
    let t : State := { s with broadcasts := [] }
    (e ≠ 0 → ({ s with broadcasts := [b] } : State).broadcastLand b.set = t.freeSlot b.set j) ∧
    (e = 0 → s.published b.set = none → ({ s with broadcasts := [b] } : State).broadcastLand b.set = t.publish b.set j) := by
  intro t
  have claimed' : ¬ (t.crownSlot b.set j).state ≠ 1 := not_not_intro claimed
  have erased : [b].erase b = [] := by simp
  have freed : (t.freeSlot b.set j).broadcasts = [] := rfl
  have shown (none : s.published b.set = none) : (t.publish b.set j).broadcasts = [] := by
    simp only [State.publish, show t.published b.set = Option.none from none]
    rfl
  simp only [State.broadcastLand, List.find?_cons, peer, slot, ended, beq_self_eq_true, Bool.not_false, Option.isSome_some,
    Bool.and_self, Option.getD_some, erased]
  rw [if_neg claimed']
  refine ⟨fun bad => ?_, fun good none => ?_⟩
  · rw [if_neg (by simp [bad]), advanceBroadcasts_of_none freed]
  · subst good
    have none' : t.published b.set = Option.none := none
    rw [if_pos (by rw [none']; rfl), advanceBroadcasts_of_none (shown none)]

end Sys2Proof.Proofs
end

section
/-! SUPPORT. The turns of WVADOPT and TJCLOSE (14 R310, R314). -/
namespace Sys2Proof.Proofs
open Sys2Proof Sys2Proof.Machine Sys2Proof.Laws

/-! ### The first command of a hub's queue -/

/-- A command that has reached the hub stays first; one alone reaches it with its fork. -/
theorem reachHub_first (s : State) {c : EngCmd} {rest : List EngCmd} (first : c.here = true ∨ rest = [])
    (ready : s.forkReady c.iss = true) : ∃ more, s.reachHub (c :: rest) = { c with here := true } :: more := by
  cases here : c.here with
  | true =>
    have same : { c with here := true } = c := by rw [← here]
    rw [State.reachHub, List.filter_cons_of_pos here, same]
    exact ⟨_, rfl⟩
  | false =>
    obtain rfl : rest = [] := first.resolve_left (by simp [here])
    simp [State.reachHub, here, ready]

/-- The end of an engine's operation of a strand whose crew is on a tile. -/
theorem finishOp_of_resident {s : State} {i : Issuer} {t : Nat} (resident : s.crewTile i.gang i.crew = some t)
    (ct k : Nat) (nr : Bool) (port id v : Nat) : s.finishOp i ct k nr port id v = s.setTile t
      (if nr then (s.tile t).bumpCt ct k else ((s.tile t).bumpCt ct k).setCtx i.ctx
        (((s.tile t).ctx i.ctx).answer port id (BitVec.ofNat 512 v) [])) := by
  rw [State.finishOp, State.bump, onCrew_of_resident resident, State.status]
  split
  · rfl
  · rw [State.onStrand, onCrew_of_resident (s := s.setTile t _) resident, setTile_tile, setTile_setTile]
    rfl

/-- What an engine's end leaves of its strand: all but the answers in its ports. -/
theorem finishOp_ctxAt {α : Type} (read : Ctx → α) (reads : ∀ (x : Ctx) port id v, read (x.answer port id v []) = read x)
    {s : State} {i : Issuer} {t : Nat} (resident : s.crewTile i.gang i.crew = some t) (ct k : Nat) (nr : Bool) (port id v : Nat) :
    read ((s.finishOp i ct k nr port id v).ctxAt t i.ctx) = read (s.ctxAt t i.ctx) := by
  rw [finishOp_of_resident resident, setTile_ctxAt]
  split
  · rfl
  · rw [tile_setCtx_ctx, reads]
    rfl

/-- A change of a strand whose crew is on a tile. -/
theorem onStrand_of_resident {s : State} {i : Issuer} {t : Nat} (resident : s.crewTile i.gang i.crew = some t)
    (f : Ctx → Ctx) : s.onStrand i f = s.setTile t ((s.tile t).setCtx i.ctx (f (s.ctxAt t i.ctx))) :=
  onCrew_of_resident resident _

/-! ### WVADOPT -/

/-- A command that has reached its hub. -/
def arrived (c : EngCmd) : EngCmd := { c with here := true }

theorem crownServe_of_first {s u : State} {c : EngCmd} {more : List EngCmd} (idle : s.broadcasts = [])
    (queued : s.reachHub s.crownQ = arrived c :: more) (strand : c.bc = none)
    (turn : ({ s with crownQ := arrived c :: more } : State).crownTurn (arrived c) = .done u) : s.crownServe = u := by
  have none_ends : (arrived c :: more).findSome? ({ s with crownQ := arrived c :: more } : State).crownBc = none := by
    refine List.findSome?_eq_none_iff.mpr fun o _ => ?_
    unfold State.crownBc
    split
    · rfl
    · simp only [idle, List.find?_nil]
  have first : ({ s with crownQ := arrived c :: more } : State).crownFirst = some (arrived c) := by
    simp [State.crownFirst, arrived, strand]
  simp only [State.crownServe, queued, none_ends, first, turn]

/-- The Crown with one reader more of an entry, and a strand whose ADOPT holds it. -/
def adopted (s : State) (n d w j : Nat) : State :=
  let x := s.crownSlot w j
  let a := (s.ctxAt n d).readCsr 0x07
  (s.setCrownSlot w j { x with readers := x.readers + 1 }).setTile n
    ((s.tile n).setCtx d ((s.ctxAt n d).writeCsr 0x07 (mkAdopt x.ver j w true (adoptLag a) (adoptMode a))))

section
variable {s : State} {i : Issuer} {n : Nat} (resident : s.crewTile i.gang i.crew = some n)
include resident

theorem adoptOf_of_resident : s.adoptOf i = (s.ctxAt n i.ctx).readCsr 0x07 := by
  simp only [State.adoptOf, State.crewState, resident]
  rfl

/-- R310: a strand without a hold takes one on the published version. -/
theorem adopt_of_free {j : Nat} (free : adoptHeld ((s.ctxAt n i.ctx).readCsr 0x07) = false)
    (owned : Sparse.get none s.crownOwner (adoptSet ((s.ctxAt n i.ctx).readCsr 0x07)) = some i.vf)
    (published : s.published (adoptSet ((s.ctxAt n i.ctx).readCsr 0x07)) = some j)
    (room : (s.crownSlot (adoptSet ((s.ctxAt n i.ctx).readCsr 0x07)) j).readers ≠ BitVec.allOnes 32) :
    s.adopt i .force = (0, adopted s n i.ctx (adoptSet ((s.ctxAt n i.ctx).readCsr 0x07)) j) := by
  have moves (v : BitVec 32) : adoptMoves .force ((s.ctxAt n i.ctx).readCsr 0x07) v = true := by
    simp [adoptMoves, free]
  have strand (w : Nat) (y : CrownSlot) (f : Ctx → Ctx) : (s.setCrownSlot w j y).onStrand i f =
      (s.setCrownSlot w j y).setTile n ((s.tile n).setCtx i.ctx (f (s.ctxAt n i.ctx))) :=
    onStrand_of_resident (s := s.setCrownSlot w j y) resident f
  unfold State.adopt
  simp only [adoptOf_of_resident resident, State.crownOwned, owned, beq_self_eq_true, Bool.not_true, published, moves, room,
    State.releaseAdopt, free, if_false, Bool.false_eq_true, strand]
  rfl

end

/-- The state in which a hub's command has its turn: its queue as it stands, and the strand's tile flushed. -/
theorem ctxAt_flushTile (s : State) (t d : Nat) : (s.flushTile t).ctxAt t d = s.ctxAt t d := by
  rw [State.ctxAt, Tile.ctx, ctxs_flushTile]
  rfl

theorem readCt_flushTile (s : State) (t k : Nat) : ((s.flushTile t).tile t).readCt k = (s.tile t).readCt k :=
  congrArg (fun m => Sparse.get 0 m k) (congrArg (fun x => x.2.1) (stores_flushTile s t) :)

/-- The queue without the command that ends. -/
theorem ne_of_mem_filter {q : List EngCmd} {id : Nat} : ∀ o ∈ q.filter (fun o => o.id != id), o.id ≠ id := by
  simp

/-- R310: WVADOPT's turn. -/
theorem crownTurn_of_adopt {s : State} {c : EngCmd} {n w j : Nat} (strand : c.place = none) (ready : s.forkReady c.iss = true)
    (resident : s.crewTile c.iss.gang c.iss.crew = some n) (set : w = adoptSet ((s.ctxAt n c.iss.ctx).readCsr 0x07))
    (free : adoptHeld ((s.ctxAt n c.iss.ctx).readCsr 0x07) = false)
    (owned : Sparse.get none s.crownOwner w = some c.iss.vf) (published : s.published w = some j)
    (room : (s.crownSlot w j).readers ≠ BitVec.allOnes 32) :
    ∃ res, s.crownTurn c = .done ((adopted (s.flushTile n) n c.iss.ctx w j).crownFinish c 0 res) := by
  have csr := congrArg (fun x : Ctx => x.readCsr 0x07) (ctxAt_flushTile s n c.iss.ctx)
  have same := crowns_flushTile s n
  have owner : (s.flushTile n).crownOwner = s.crownOwner := congrArg (fun x => x.2.1) same
  have slots (v i : Nat) := crownSlot_of_crowns same v i
  have shown : (s.flushTile n).published w = s.published w := by
    simp only [State.published, State.crownFind, slots]
  have home : (s.flushTile n).crewTile c.iss.gang c.iss.crew = some n :=
    (crewTile_of_books (books_flushTile s n) _ _).trans resident
  have adopts := adopt_of_free home (j := j) (csr ▸ free) (by rw [owner, csr, ← set]; exact owned)
    (by rw [csr, ← set, shown]; exact published) (by rw [csr, ← set, slots]; exact room)
  rw [csr, ← set] at adopts
  refine ⟨some (adoptVer ((adopted (s.flushTile n) n c.iss.ctx w j).adoptOf c.iss)).toNat, ?_⟩
  simp only [State.crownTurn, ready, fork_of_resident resident, strand, adopts, Bool.not_true]
  rfl

/-- What the Crown's end of a command leaves. -/
theorem crownFinish_spec {s : State} {c : EngCmd} {n : Nat} (resident : s.crewTile c.iss.gang c.iss.crew = some n)
    (st : Nat) (res : Option Nat) : let u := s.crownFinish c st res
    u.broadcasts = s.broadcasts ∧ (∀ w j, u.crownSlot w j = s.crownSlot w j) ∧
      (u.ctxAt n c.iss.ctx).readCsr 0x07 = (s.ctxAt n c.iss.ctx).readCsr 0x07 ∧
      (u.tile n).readCt c.ct = (s.tile n).readCt c.ct + 1 ∧ ∀ o ∈ u.crownQ, o.id ≠ c.id := by
  let t : State := (s.hubStatus c.op st res none).2
  have home : t.crewTile c.iss.gang c.iss.crew = some n := resident
  have strand := finishOp_of_resident home c.ct 1 c.nr 11 c.id (s.hubStatus c.op st res none).1
  refine ⟨?_, fun w j => ?_, ?_, ?_, ne_of_mem_filter⟩
  · exact (congrArg State.broadcasts strand :)
  · exact (congrArg (fun x : State => x.crownSlot w j) strand :)
  · exact finishOp_ctxAt (fun x => x.readCsr 0x07) (fun _ _ _ _ => rfl) home ..
  · exact (ended_finishOp t c.iss c.ct 1 c.nr 11 c.id _).1 n home

theorem readers_adopted (s : State) (n d w j : Nat) :
    ((adopted s n d w j).crownSlot w j).readers = (s.crownSlot w j).readers + 1 :=
  congrArg CrownSlot.readers (setCrownSlot_crownSlot s w j _)

theorem tile_adopted (s : State) (n d w j : Nat) : (adopted s n d w j).tile n = (s.tile n).setCtx d
    ((s.ctxAt n d).writeCsr 0x07 (mkAdopt (s.crownSlot w j).ver j w true (adoptLag ((s.ctxAt n d).readCsr 0x07))
      (adoptMode ((s.ctxAt n d).readCsr 0x07)))) := setTile_tile ..

/-- R305, R310: the first command that has reached the Crown, a WVADOPT, takes effect. -/
theorem wvadopt_completes {s : State} {c : EngCmd} {rest : List EngCmd} {n w j : Nat} (idle : s.broadcasts = [])
    (queued : s.crownQ = c :: rest) (first : c.here = true ∨ rest = []) (whole : c.bc = none) (strand : c.place = none)
    (ready : s.forkReady c.iss = true) (resident : s.crewTile c.iss.gang c.iss.crew = some n)
    (set : w = adoptSet ((s.ctxAt n c.iss.ctx).readCsr 0x07)) (free : adoptHeld ((s.ctxAt n c.iss.ctx).readCsr 0x07) = false)
    (owned : Sparse.get none s.crownOwner w = some c.iss.vf) (published : s.published w = some j)
    (room : (s.crownSlot w j).readers ≠ BitVec.allOnes 32) :
    let a := (s.ctxAt n c.iss.ctx).readCsr 0x07
    Completes .crownComplete s (fun u => (u.crownSlot w j).readers = (s.crownSlot w j).readers + 1 ∧
      (u.ctxAt n c.iss.ctx).readCsr 0x07 = mkAdopt (s.crownSlot w j).ver j w true (adoptLag a) (adoptMode a) ∧
      (u.tile n).readCt c.ct = (s.tile n).readCt c.ct + 1 ∧ ∀ o ∈ u.crownQ, o.id ≠ c.id) := by
  intro a
  obtain ⟨more, reaches⟩ := reachHub_first s first ready
  let t : State := { s with crownQ := arrived c :: more }
  obtain ⟨res, turn⟩ := crownTurn_of_adopt (s := t) (c := arrived c) strand ready resident set free owned published room
  have serves := crownServe_of_first idle (queued ▸ reaches) whole turn
  have same := crowns_flushTile t n
  have home : (adopted (t.flushTile n) n c.iss.ctx w j).crewTile (arrived c).iss.gang (arrived c).iss.crew = some n :=
    (crewTile_of_books (books_flushTile t n) _ _).trans resident
  obtain ⟨broadcasts, slots, csr, counter, queue⟩ := crownFinish_spec home 0 res
  have quiet : (adopted (t.flushTile n) n c.iss.ctx w j).broadcasts = [] :=
    (congrArg (fun x => x.2.2) same :).trans idle
  have strand_kept := ctxAt_flushTile t n c.iss.ctx
  have slot_kept := crownSlot_of_crowns same w j
  refine ⟨_, congrArg Host.Outcome.next ((congrArg State.advanceBroadcasts serves).trans
    (advanceBroadcasts_of_none (broadcasts.trans quiet))), ?_, ?_, ?_, queue⟩
  · refine (congrArg CrownSlot.readers (slots w j)).trans ?_
    rw [readers_adopted, slot_kept]
    rfl
  · refine csr.trans ?_
    rw [State.ctxAt, tile_adopted, show (arrived c).iss.ctx = c.iss.ctx from rfl, tile_setCtx_ctx, strand_kept, slot_kept]
    exact get_set_same ..
  · refine counter.trans (congrArg (· + 1) ?_)
    rw [tile_adopted]
    exact readCt_flushTile t n c.ct

/-! ### TJCLOSE -/

theorem brimServe_of_first {s u : State} {c : EngCmd} {more : List EngCmd} (queued : s.reachHub s.brimQ = arrived c :: more)
    (turn : ({ s with brimQ := arrived c :: more } : State).brimTurn (arrived c) = .done u) : s.brimServe = u := by
  have first : (arrived c :: more).find? (fun o => o.here) = some (arrived c) := by simp [arrived]
  simp only [State.brimServe, queued, first, turn]

/-- The mark of an open sequence. -/
theorem tjOpen_and (h : Word) : tjOpen (h &&& 0x7FFFFFFFFFFFFFFF) = false := by
  unfold tjOpen
  rw [BitVec.getLsbD_and]
  simp

theorem handleOf_of_resident {s : State} {i : Issuer} {n : Nat} (resident : s.crewTile i.gang i.crew = some n) :
    s.handleOf i = (s.ctxAt n i.ctx).tjHandle := by
  simp only [State.handleOf, State.crewState, resident]
  rfl

/-- What Brim's end of a command that delivers nothing leaves. -/
theorem brimFinish_spec {s : State} {c : EngCmd} {n : Nat} (resident : s.crewTile c.iss.gang c.iss.crew = some n)
    (st : Nat) (res info : Option Nat) : let u := s.brimFinish c st res info
    (u.ctxAt n c.iss.ctx).tjHandle = (s.ctxAt n c.iss.ctx).tjHandle ∧
      (u.tile n).readCt c.ct = (s.tile n).readCt c.ct + 1 ∧ ∀ o ∈ u.brimQ, o.id ≠ c.id := by
  let t : State := (s.hubStatus c.op st res info).2
  have home : t.crewTile c.iss.gang c.iss.crew = some n := resident
  have ends : ∃ q, s.brimFinish c st res info =
      { t.finishOp c.iss c.ct 1 c.nr 12 c.id (s.hubStatus c.op st res info).1 with brimQ := q } := by
    rw [State.brimFinish, State.brimEnd, landAt_of_no_handler]
    exact ⟨_, rfl⟩
  refine ⟨?_, ?_, ne_of_mem_filter⟩ <;> obtain ⟨q, made⟩ := ends <;> rw [made]
  · exact finishOp_ctxAt (fun x => x.tjHandle) (fun _ _ _ _ => rfl) home ..
  · exact (ended_finishOp t c.iss c.ct 1 c.nr 12 c.id _).1 n home

/-- A strand's handle, without the mark of an open sequence. -/
def closed (s : State) (n d : Nat) : State :=
  s.setTile n ((s.tile n).setCtx d { s.ctxAt n d with tjHandle := (s.ctxAt n d).tjHandle &&& 0x7FFFFFFFFFFFFFFF })

theorem units_tjWrite (s : State) (vf : Nat) (g : Region) (va : Nat) (bs : List Byte) : units (s.tjWrite vf g va bs) = units s := by
  rw [State.tjWrite, units_vaPut, units_touchRange]

/-- R314: TJCLOSE writes its sequence's header and closes it. -/
theorem tjSeq_of_close {s : State} {c : EngCmd} {n : Nat} {g : Region} {b : List Byte}
    (resident : s.crewTile c.iss.gang c.iss.crew = some n) (strand : c.place = none)
    (current : s.tjCurrent c.iss.vf (s.ctxAt n c.iss.ctx).tjHandle = true)
    (region : (s.tjRing c.iss.vf (tjRingOf (s.ctxAt n c.iss.ctx).tjHandle)).region = some g)
    (header : s.vaRead g.pasid ((s.tjRing c.iss.vf (tjRingOf (s.ctxAt n c.iss.ctx).tjHandle)).slotVa g
      (tjSlotOf (s.ctxAt n c.iss.ctx).tjHandle)) 64 = some b) :
    ∃ t : State, units t = units s ∧ s.tjSeq c = .done ((closed t n c.iss.ctx).brimFinish c 0 none none) := by
  have open_ : tjOpen (s.ctxAt n c.iss.ctx).tjHandle = true := by
    simp only [State.tjCurrent, Bool.and_eq_true] at current
    exact current.1.1
  let h := (s.ctxAt n c.iss.ctx).tjHandle
  let t := s.tjWrite c.iss.vf g ((s.tjRing c.iss.vf (tjRingOf h)).slotVa g (tjSlotOf h))
    ({ tjHdr b with result := c.sval.toNat, state := 2 } : TjHdr).bytes
  have same : units t = units s := units_tjWrite ..
  have home : t.crewTile c.iss.gang c.iss.crew = some n := (crewTile_of_books (books_of_units same) _ _).trans resident
  have closes : t.setHandle c.iss (t.handleOf c.iss &&& 0x7FFFFFFFFFFFFFFF) = closed t n c.iss.ctx := by
    rw [handleOf_of_resident home, State.setHandle, onStrand_of_resident home]
    rfl
  refine ⟨t, same, ?_⟩
  simp only [State.tjSeq, handleOf_of_resident resident, open_, current, region, header, State.tjUse, strand]
  exact congrArg (fun x : State => HodStep.done (x.brimFinish c 0 none none)) closes

/-! ### The flush of a tile does not look at Brim's queue -/

/-- The module with another Brim queue. -/
def atBrim (q : List EngCmd) (s : State) : State := { s with brimQ := q }

section
variable (q : List EngCmd) (s : State)

theorem foldl_atBrim {α : Type} (f : State → α → State) (comm : ∀ u x, f (atBrim q u) x = atBrim q (f u x)) (l : List α) :
    l.foldl f (atBrim q s) = atBrim q (l.foldl f s) := List.foldl_hom (atBrim q) comm

theorem mortarWriteBack_atBrim (sec : Nat) : (atBrim q s).mortarWriteBack sec = atBrim q (s.mortarWriteBack sec) := by
  unfold State.mortarWriteBack
  generalize List.range 64 = l
  generalize List.range 4 = l'
  dsimp only
  rw [foldl_atBrim q s _ (fun u i => ?bytes), foldl_atBrim q _ _ (fun u i => ?tags)]
  case tags => dsimp only [atBrim]; split <;> rfl
  case bytes => dsimp only [atBrim]; split <;> rfl
  rfl

theorem mortarDrop_atBrim (sec : Nat) : (atBrim q s).mortarDrop sec = atBrim q (s.mortarDrop sec) := by
  unfold State.mortarDrop
  generalize List.range 64 = l
  generalize List.range 4 = l'
  dsimp only
  rw [foldl_atBrim q s _ (fun _ _ => rfl), foldl_atBrim q _ _ (fun _ _ => rfl)]
  rfl

theorem mortarTrim_atBrim (slice n k : Nat) : (atBrim q s).mortarTrim slice n k = atBrim q (s.mortarTrim slice n k) := by
  have evicts (u : State) (tag : MTag) : (atBrim q u).mortarEvict tag = atBrim q (u.mortarEvict tag) :=
    foldl_atBrim q u (fun (v : State) (x : Nat × Option MortarSector) => (v.mortarWriteBack x.1).mortarDrop x.1)
      (fun v x => by rw [mortarWriteBack_atBrim, mortarDrop_atBrim]) _
  induction k generalizing s with
  | zero => rfl
  | succ k ih =>
    have lines : (atBrim q s).linesIn slice = s.linesIn slice := rfl
    have taken : (atBrim q s).takeFree = (s.takeFree.1, atBrim q s.takeFree.2) := rfl
    simp only [State.mortarTrim, lines, taken]
    split
    · rfl
    · split
      · rw [evicts, ih]
      · rfl

theorem mortarRoom_atBrim (tag : MTag) : (atBrim q s).mortarRoom tag = atBrim q (s.mortarRoom tag) := by
  unfold State.mortarRoom
  dsimp only
  rw [apply_ite (atBrim q), apply_ite (atBrim q), ← mortarTrim_atBrim]
  rfl

theorem mortarTouch_atBrim (sec : Nat) (tag : MTag) (dirty : Bool) :
    (atBrim q s).mortarTouch sec tag dirty = atBrim q (s.mortarTouch sec tag dirty) := by
  have held : (atBrim q s).mortar = s.mortar := rfl
  simp only [State.mortarTouch, held]
  split
  · split
    · rfl
    · rw [mortarWriteBack_atBrim, mortarDrop_atBrim, mortarRoom_atBrim]
      generalize ((s.mortarWriteBack sec).mortarDrop sec).mortarRoom tag = u
      rfl
  · rw [mortarRoom_atBrim]
    rfl

theorem sectorStore_atBrim (w : SectorWrite) : (atBrim q s).sectorStore w = atBrim q (s.sectorStore w) := by
  unfold State.sectorStore
  split
  · rfl
  · dsimp only
    rw [mortarTouch_atBrim, foldl_atBrim q _ _ (fun _ _ => rfl), foldl_atBrim q _ _ (fun _ _ => rfl),
      foldl_atBrim q _ _ (fun _ _ => rfl)]
    split
    · rfl
    · rfl

theorem l1WriteBack_atBrim (t sec : Nat) : (atBrim q s).l1WriteBack t sec = atBrim q (s.l1WriteBack t sec) := by
  have writes (w : SectorWrite) : (atBrim q s).sectorWrite w = atBrim q (s.sectorWrite w) := by
    have waits (k : Nat) : (atBrim q s).awaits k = s.awaits k := rfl
    simp only [State.sectorWrite, waits]
    split
    · rfl
    · rw [apply_ite (atBrim q), ← sectorStore_atBrim]
      rfl
  have held : (atBrim q s).tile t = s.tile t := rfl
  have tagged (vf pasid va : Nat) (obj : Option Nat) : (atBrim q s).fileTag vf pasid va obj = s.fileTag vf pasid va obj := rfl
  simp only [State.l1WriteBack, held, tagged, writes]
  split
  · split
    · rfl
    · rfl
  · rfl

/-- A tile's flush is the same whatever waits at Brim. -/
theorem flushTile_atBrim (t : Nat) : (atBrim q s).flushTile t = atBrim q (s.flushTile t) :=
  foldl_atBrim q s (fun (u : State) (x : Nat × Option L1Sector) => u.l1WriteBack t x.1)
    (fun u x => l1WriteBack_atBrim q u t x.1) _

end

/-- R314: the first command that has reached Brim, a TJCLOSE, closes the strand's sequence. -/
theorem tjclose_completes {s : State} {c : EngCmd} {rest : List EngCmd} {n : Nat} {g : Region} {b : List Byte}
    (queued : s.brimQ = c :: rest) (first : c.here = true ∨ rest = []) (op : c.op = 0xF5) (strand : c.place = none)
    (ready : s.forkReady c.iss = true) (resident : s.crewTile c.iss.gang c.iss.crew = some n)
    (current : s.tjCurrent c.iss.vf (s.ctxAt n c.iss.ctx).tjHandle = true)
    (region : (s.tjRing c.iss.vf (tjRingOf (s.ctxAt n c.iss.ctx).tjHandle)).region = some g)
    (header : (s.fork c.iss).vaRead g.pasid ((s.tjRing c.iss.vf (tjRingOf (s.ctxAt n c.iss.ctx).tjHandle)).slotVa g
      (tjSlotOf (s.ctxAt n c.iss.ctx).tjHandle)) 64 = some b) :
    Completes .brimComplete s (fun u => tjOpen (u.ctxAt n c.iss.ctx).tjHandle = false ∧
      (u.tile n).readCt c.ct = (s.tile n).readCt c.ct + 1 ∧ ∀ o ∈ u.brimQ, o.id ≠ c.id) := by
  obtain ⟨more, reaches⟩ := reachHub_first s first ready
  let t : State := atBrim (arrived c :: more) s
  let f : State := t.flushTile n
  have strand_kept : f.ctxAt n c.iss.ctx = s.ctxAt n c.iss.ctx := ctxAt_flushTile t n c.iss.ctx
  have vfs : f.vfs = s.vfs := (congrArg Prod.fst (books_flushTile t n) :)
  have ring (v k : Nat) : f.tjRing v k = s.tjRing v k := by simp only [State.tjRing, State.vf, vfs]
  have home : f.crewTile (arrived c).iss.gang (arrived c).iss.crew = some n :=
    (crewTile_of_books (books_flushTile t n) _ _).trans resident
  have header' : f.vaRead g.pasid ((s.tjRing c.iss.vf (tjRingOf (s.ctxAt n c.iss.ctx).tjHandle)).slotVa g
      (tjSlotOf (s.ctxAt n c.iss.ctx).tjHandle)) 64 = some b := by
    rw [fork_of_resident resident] at header
    exact (congrArg (fun x : State => x.vaRead _ _ 64) (flushTile_atBrim _ s n)).trans header
  obtain ⟨r, same, closes⟩ := tjSeq_of_close (s := f) (c := arrived c) (n := n) (g := g) (b := b) home strand
    (by rw [show (arrived c).iss.ctx = c.iss.ctx from rfl, strand_kept, State.tjCurrent, ring]; exact current)
    (by rw [show (arrived c).iss.ctx = c.iss.ctx from rfl, strand_kept, ring]; exact region)
    (by rw [show (arrived c).iss.ctx = c.iss.ctx from rfl, strand_kept, ring]; exact header')
  have turn : t.brimTurn (arrived c) = .done ((closed r n c.iss.ctx).brimFinish (arrived c) 0 none none) := by
    have ready' : t.forkReady (arrived c).iss = true := ready
    have forked : t.fork (arrived c).iss = f := fork_of_resident (s := t) (i := (arrived c).iss) resident
    have op' : (arrived c).op = 0xF5 := op
    simp only [State.brimTurn, ready', forked, op', Bool.not_true, closes]
    rfl
  have home' : (closed r n c.iss.ctx).crewTile (arrived c).iss.gang (arrived c).iss.crew = some n :=
    (crewTile_of_books (books_of_units same) _ _).trans home
  obtain ⟨handle, counter, queue⟩ := brimFinish_spec home' 0 none none
  have tile : (closed r n c.iss.ctx).tile n = (r.tile n).setCtx c.iss.ctx
      { r.ctxAt n c.iss.ctx with tjHandle := (r.ctxAt n c.iss.ctx).tjHandle &&& 0x7FFFFFFFFFFFFFFF } := setTile_tile ..
  refine ⟨_, congrArg Host.Outcome.next (brimServe_of_first (queued ▸ reaches) turn), ?_, ?_, queue⟩
  · refine (congrArg tjOpen handle).trans ?_
    rw [State.ctxAt, tile, show (arrived c).iss.ctx = c.iss.ctx from rfl, tile_setCtx_ctx]
    exact tjOpen_and _
  · refine counter.trans (congrArg (· + 1) ?_)
    rw [tile, tile_of_units same]
    exact readCt_flushTile t n c.ct

/-- Settles O53: each command's turn is followed through its queue and the fork of its strand; publications, claims and
broadcasts are the Crown's entries alone. -/
theorem crownAndBrimComplete : Obligations.CrownAndBrimComplete := by
  intro s idle
  refine ⟨?adopts, fun w j _ claimed => publish_spec claimed, fun w ver j u claims => claimSlot_spec claims, ?claims, ?lands, ?closes⟩
  case adopts =>
    intro c rest n w j queued first whole strand ready resident a x set free owned published room
    exact wvadopt_completes idle queued first whole strand ready resident set free owned published room
  case claims =>
    intro w k ver x j known crown heads free
    have taken := broadcastClaim_spec (ver := ver) idle known crown free
    refine ⟨_, rfl, ?_, ?_, _, (congrArg (fun y => y.2.2) taken :), rfl, rfl, rfl, rfl⟩ <;>
      rw [crownSlot_of_crowns taken] <;> exact congrArg _ (setCrownSlot_crownSlot s w j _)
  case lands =>
    intro b j e peer slot ended claimed t
    obtain ⟨fails, lands⟩ := broadcastLand_spec peer slot ended claimed
    refine ⟨fun bad => ⟨_, congrArg Host.Outcome.next (fails bad), rfl, ?_⟩, fun good none _ =>
      ⟨_, congrArg Host.Outcome.next (lands good none), ?_, publish_state _ _ _⟩⟩
    · rw [State.freeSlot, setCrownSlot_crownSlot]
    · simp only [State.publish, show ({ s with broadcasts := [] } : State).published b.set = Option.none from none]
      rfl
  case closes =>
    intro c rest n g b queued first op strand ready resident h r current region header _
    exact tjclose_completes queued first op strand ready resident current region header

end Sys2Proof.Proofs
end

section
/-! SUPPORT. Function-level reset (15 R332, R333) and a tile that leaves service (15 R336). -/
namespace Sys2Proof.Proofs
open Sys2Proof Sys2Proof.Machine Sys2Proof.Laws

/-! ### Folds over keys -/

/-- A fold in which one element alone changes what is read. -/
theorem foldl_once {σ α β : Type} {f : σ → α → σ} {a : α} (read : σ → β) (new : β → β)
    (here : ∀ s, read (f s a) = new (read s)) (other : ∀ s x, x ≠ a → read (f s x) = read s) {l : List α} (nodup : l.Nodup)
    (listed : a ∈ l) (s : σ) : read (l.foldl f s) = new (read s) := by
  have elsewhere (l : List α) (absent : a ∉ l) (u : σ) : read (l.foldl f u) = read u := by
    induction l generalizing u with
    | nil => rfl
    | cons x rest ih =>
      obtain ⟨ne, absent⟩ := not_or.mp (fun m => absent (List.mem_cons.mpr m))
      rw [List.foldl_cons, ih absent, other u x (Ne.symm ne)]
  obtain ⟨before, after, rfl⟩ := List.append_of_mem listed
  obtain ⟨-, tail, apart⟩ := List.nodup_append.mp nodup
  rw [List.foldl_append, List.foldl_cons, elsewhere after (List.nodup_cons.mp tail).1, here,
    elsewhere before fun m => apart a m a List.mem_cons_self rfl]

/-- A fold that sets each tile of a list from what stands beside its number leaves some such value there, and no other tile
changed. -/
theorem tile_foldl_setTile (f : Tile → Tile) (l : List (Nat × Tile)) (s : State) (t : Nat) :
    let u := l.foldl (fun (s : State) x => s.setTile x.1 (f x.2)) s
    (∃ y, (t, y) ∈ l ∧ u.tile t = f y) ∨ (t ∉ Sparse.keys l ∧ u.tile t = s.tile t) := by
  induction l generalizing s with
  | nil => exact .inr ⟨List.not_mem_nil, rfl⟩
  | cons x rest ih =>
    obtain ⟨k, y⟩ := x
    rw [List.foldl_cons]
    rcases ih (s.setTile k (f y)) with ⟨z, later, found⟩ | ⟨fresh, kept⟩
    · exact .inl ⟨z, List.mem_cons_of_mem _ later, found⟩
    · by_cases here : t = k
      · subst here
        exact .inl ⟨y, List.mem_cons_self, kept.trans (setTile_tile ..)⟩
      · refine .inr ⟨?_, kept.trans (setTile_tile_other _ _ _ here)⟩
        simpa [Sparse.keys, here] using fresh

/-- What is listed under a key, in a table whose keys are all different, is what is read there. -/
theorem get_of_mem {α : Type} {d v : α} {m : Sparse α} {k : Nat} (keys : (Sparse.keys m).Nodup) (listed : (k, v) ∈ m) :
    Sparse.get d m k = v := by
  induction m with
  | nil => cases listed
  | cons x rest ih =>
    obtain ⟨a, w⟩ := x
    obtain ⟨fresh, keys⟩ := List.nodup_cons.mp keys
    rw [Sparse.get]
    rcases List.mem_cons.mp listed with same | later
    · obtain ⟨rfl, rfl⟩ := Prod.mk.inj same
      exact if_pos rfl
    · rw [if_neg fun same : a = k => fresh (List.mem_map.mpr ⟨_, later, same.symm⟩), ih keys later]

/-! ### FLR_INITIATE -/

theorem units_freeEntries (s : State) (v : Nat) : units (s.freeEntries v) = units s := by
  unfold State.freeEntries
  split
  · rfl
  · refine foldl_frame units _ (fun u i => ?_) _ s
    split
    · unfold State.putEntry
      split
      · exact units_devWrite u _
      · rfl
    · rfl

theorem units_abortComms (s : State) (v : Nat) : units (s.abortComms v) = units s := by
  have aborts (u : State) (k : Nat) (x : Comm) : units (u.sendAbort k x) = units u := by
    unfold State.sendAbort State.abortComm
    split
    · split
      · exact units_sendAll ..
      · exact units_sendAll ..
    · exact units_sendAll ..
  refine foldl_frame units _ (fun u y => ?_) _ s
  split
  · split
    · exact aborts u _ _
    · rfl
  · rfl

theorem dropCommands_vf (s : State) {v : Nat} (small : v < 16) :
    (s.dropCommands v).vf v = { s.vf v with blockQ := [], accepted := [] } := by
  unfold State.dropCommands
  rw [State.vf]
  refine foldl_once (a := v) (fun u : State => Sparse.get {} u.vfs v) (fun x => { x with blockQ := [], accepted := [] })
    (fun u => ?_) (fun u x other => ?_) (List.nodup_range (n := 16)) (List.mem_range.mpr small) s
  · dsimp only
    rw [if_pos rfl]
    exact get_set_same ..
  · exact get_set_other _ _ _ (Ne.symm other)

theorem tiles_dropCommands (s : State) (v : Nat) : (s.dropCommands v).tiles = s.tiles := by
  unfold State.dropCommands
  dsimp only
  generalize List.range 16 = l
  refine foldl_frame State.tiles _ (fun _ _ => ?_) l s
  rfl

theorem dropMoves_keeps (s : State) (v : Nat) : (s.dropMoves v).tiles = s.tiles ∧ (s.dropMoves v).vfs = s.vfs := ⟨rfl, rfl⟩

theorem dropGangs_vfs (s : State) (v : Nat) : (s.dropGangs v).vfs = s.vfs := by
  refine foldl_frame State.vfs (fun (s : State) (x : Nat × Tile) => s.setTile x.1 { x.2.vacate with l1 := [] }) (fun _ _ => ?_) _ s
  rfl

theorem dropWrites_keeps (s : State) (v : Nat) (ps : List Nat) : (s.dropWrites v ps).tiles = s.tiles ∧
    (s.dropWrites v ps).vfs = s.vfs := ⟨rfl, rfl⟩

/-- The commands in the queues of the hubs. -/
def hubQueues (s : State) : List EngCmd × List CollCmd := (s.mortarQ ++ s.crownQ ++ s.brimQ, s.hodQ)

theorem dropGangs_queues (s : State) (v : Nat) : hubQueues (s.dropGangs v) = hubQueues s := by
  refine foldl_frame hubQueues (fun (s : State) (x : Nat × Tile) => s.setTile x.1 { x.2.vacate with l1 := [] }) (fun _ _ => ?_) _ s
  rfl

theorem vf_of_vfs {s u : State} (same : u.vfs = s.vfs) (v : Nat) : u.vf v = s.vf v := by rw [State.vf, same, State.vf]

/-- No command of a virtual function. -/
def NoCommands (v : Nat) (q : List EngCmd × List CollCmd) : Prop := (∀ c ∈ q.1, c.iss.vf ≠ v) ∧ ∀ c ∈ q.2, c.iss.vf ≠ v

/-- The queues of the hubs hold no command of a virtual function whose commands are dropped. -/
theorem dropCommands_queues (s : State) (v : Nat) :
    NoCommands v (hubQueues (s.dropCommands v)) := by
  have kept {α : Type} (vf : α → Nat) (q : List α) : ∀ c ∈ q.filter (fun c => vf c != v), vf c ≠ v := by simp
  refine ⟨fun c listed => ?_, fun c listed => ?_⟩ <;> unfold hubQueues State.dropCommands at listed
  · dsimp only at listed
    rw [← List.filter_append, ← List.filter_append] at listed
    exact kept (fun c : EngCmd => c.iss.vf) _ c listed
  · exact kept (fun c => c.iss.vf) _ c listed

/-- A tile that a reset has emptied. -/
def Emptied (x : Tile) : Prop := x.crew = none ∧ x.ctxs = [] ∧ x.l1 = []

theorem dropGangs_tile (s : State) (v t : Nat) :
    ((s.tile t).owner = some v → Emptied ((s.dropGangs v).tile t)) ∧
    ((Sparse.keys s.tiles).Nodup → (s.tile t).owner ≠ some v → (s.dropGangs v).tile t = s.tile t) := by
  obtain ⟨y, listed, made⟩ | ⟨fresh, kept⟩ := tile_foldl_setTile (fun x => { x.vacate with l1 := [] })
    (s.tiles.filter (fun x => x.2.owner == some v)) s t
  · obtain ⟨listed, own⟩ := List.mem_filter.mp listed
    refine ⟨fun _ => ?_, fun keys foreign => ?_⟩
    · rw [show (s.dropGangs v).tile t = _ from made]
      exact ⟨rfl, rfl, rfl⟩
    · rw [State.tile, get_of_mem keys listed] at foreign
      exact absurd (by simpa using own) foreign
  · refine ⟨fun own => ?_, fun _ _ => kept⟩
    have there : (t, s.tile t) ∈ s.tiles := by
      refine mem_of_get_eq (d := ({} : Tile)) rfl fun absent => ?_
      rw [show s.tile t = {} from absent] at own
      cases own
    exact absurd (List.mem_map.mpr ⟨_, List.mem_filter.mpr ⟨there, by simpa using own⟩, rfl⟩) fresh

/-- What is read from a table whose entries all pass a test passes it, unless nothing is listed. -/
theorem get_filter {α : Type} {m : Sparse α} {p : Nat × α → Bool} {d v : α} {k : Nat}
    (found : Sparse.get d (m.filter p) k = v) (listed : v ≠ d) : p (k, v) = true :=
  (List.mem_filter.mp (mem_of_get_eq found listed)).2

theorem tiles_of_units {s u : State} (same : units u = units s) : u.tiles = s.tiles := congrArg Prod.fst same

/-- A virtual function whose strands, engines and commands have all stopped. -/
def Stopped (v : Nat) (u : State) : Prop :=
  (u.vf v).flr = true ∧ (u.vf v).blockQ = [] ∧ (u.vf v).accepted = [] ∧
    (∀ id g, u.gang id = some g → g.vf ≠ v) ∧ (∀ i w, Sparse.get none u.waves i = some w → w.vf ≠ v) ∧
    NoCommands v (hubQueues u)

/-- R332: FLR stops every strand and engine of a virtual function. -/
theorem flrInitiate_stops {s : State} {v : Nat} (small : v < 16) (first : (s.vf v).flr = false) :
    Stopped v (s.flrInitiate v) ∧ (∀ t, (s.tile t).owner = some v → Emptied ((s.flrInitiate v).tile t)) ∧
    ((Sparse.keys s.tiles).Nodup → ∀ t, (s.tile t).owner ≠ some v → ((s.flrInitiate v).tile t).ctxs = (s.tile t).ctxs) := by
  let r := ((s.freeEntries v).setVf v { (s.freeEntries v).vf v with flr := true }).abortComms v
  let d := (r.dropCommands v).dropMoves v
  have made : s.flrInitiate v = (d.dropGangs v).dropWrites v (s.pasidsOf v) := by
    simp only [State.flrInitiate, first]
    rfl
  have tiles : d.tiles = s.tiles := (dropMoves_keeps _ v).1.trans <| (tiles_dropCommands r v).trans
    ((tiles_of_units (units_abortComms _ v)).trans (tiles_of_units (units_freeEntries s v) :))
  have tile (t : Nat) : d.tile t = s.tile t := congrArg (fun m => Sparse.get ({} : Tile) m t) tiles
  have vf : d.vf v = { r.vf v with blockQ := [], accepted := [] } :=
    (vf_of_vfs (dropMoves_keeps _ v).2 v).trans (dropCommands_vf r small)
  have flr : (r.vf v).flr = true := by
    rw [vf_of_books (books_of_units (units_abortComms _ v)), setVf_vf]
  have vf' : ((d.dropGangs v).dropWrites v (s.pasidsOf v)).vf v = d.vf v :=
    vf_of_vfs ((dropWrites_keeps _ v _).2.trans (dropGangs_vfs d v)) v
  have queues : hubQueues ((d.dropGangs v).dropWrites v (s.pasidsOf v)) = hubQueues (r.dropCommands v) := dropGangs_queues d v
  rw [made]
  refine ⟨⟨?_, ?_, ?_, fun id g found => ?_, fun i w found => ?_, ?_⟩, fun t own => ?_, fun keys t foreign => ?_⟩
  · rw [vf', vf]; exact flr
  · rw [vf', vf]
  · rw [vf', vf]
  · simpa using get_filter found (by simp)
  · simpa using get_filter found (by simp)
  · rw [queues]
    exact dropCommands_queues r v
  · exact (dropGangs_tile d v t).1 (by rw [tile]; exact own)
  · refine (congrArg Tile.ctxs ((dropGangs_tile d v t).2 (by rw [tiles]; exact keys) (by rw [tile]; exact foreign))).trans ?_
    rw [tile]

/-! ### FLR_COMPLETE -/

/-- A virtual function's queue keeps its ring, without records, mark or halt. -/
theorem queue_cleared (x : Vf) (part q : Nat) : (x.cleared.queue part q) = (x.queue part q).emptied := by
  have mapped (m : Sparse LaunchQ) (k : Nat) :
      Sparse.get ({} : LaunchQ) (m.map (fun q => (q.1, q.2.emptied))) k = (Sparse.get {} m k).emptied := by
    induction m with
    | nil => rfl
    | cons y rest ih =>
      rw [List.map_cons, Sparse.get, Sparse.get]
      split
      · rfl
      · exact ih
  exact mapped x.queues _

/-- The tiles and the virtual functions. -/
def holders (s : State) : Sparse Tile × Sparse Vf := (s.tiles, s.vfs)

theorem holders_grantTo (s : State) (p vc : Nat) : holders (s.grantTo p vc) = holders s := by
  obtain ⟨l, o, made, -⟩ := grantTo_changes s p vc
  rw [made]
  rfl

theorem holders_payOwed (s : State) (b : Broadcast) : holders (s.payOwed b) = holders s :=
  foldl_frame holders (fun (s : State) (p : Nat) => s.grantTo p 2) (fun u p => holders_grantTo u p 2) _ s

theorem holders_freeSets (s : State) (v : Nat) : holders (s.freeSets v) = holders s := by
  unfold State.freeSets
  exact foldl_frame holders State.payOwed holders_payOwed _ s

/-- A tile that a reset has scrubbed. -/
def Scrubbed (v : Nat) (x : Tile) : Prop :=
  x.owner = some v ∧ x.tstate = .learner ∧ x.ctxs = [] ∧ x.spad = [] ∧ x.ct = [] ∧ x.acc = []

theorem scrubTiles_tile {s : State} {v t : Nat} (own : (s.tile t).owner = some v) (still : s.inMove t = false) :
    Scrubbed v ((s.scrubTiles v).tile t) := by
  have there : (t, s.tile t) ∈ s.tiles := by
    refine mem_of_get_eq (d := ({} : Tile)) rfl fun absent => ?_
    rw [show s.tile t = {} from absent] at own
    cases own
  obtain ⟨y, listed, made⟩ | ⟨fresh, -⟩ := tile_foldl_setTile (fun x => { x.scrub with tstate := .learner })
    (s.tiles.filter (fun x => x.2.owner == some v && !s.inMove x.1)) s t
  · have qualifies := (List.mem_filter.mp listed).2
    simp only [Bool.and_eq_true, beq_iff_eq] at qualifies
    rw [show (s.scrubTiles v).tile t = _ from made]
    exact ⟨qualifies.1, rfl, rfl, rfl, rfl, rfl⟩
  · exact absurd (List.mem_map.mpr ⟨_, List.mem_filter.mpr ⟨there, by simp [own, still]⟩, rfl⟩) fresh

/-- R332: when FLR completes, the virtual function is as its physical function has set it. -/
theorem flrComplete_clears {s : State} {v : Nat} (resetting : (s.vf v).flr = true) :
    (s.flrComplete v).vf v = (s.vf v).cleared ∧ (∀ k x, (s.flrComplete v).comm k = some x → x.vf ≠ v) ∧
    (∀ w, Sparse.get none (s.flrComplete v).crownOwner w ≠ some v) ∧
    ∀ t, (s.tile t).owner = some v → s.inMove t = false → Scrubbed v ((s.flrComplete v).tile t) := by
  let r := s.scrubTiles v
  let z := (r.mortarPurge false (r.mortarSecs v (fun _ => true))).zeroWindows (r.vf v).windows
  have made : s.flrComplete v = (z.freeSets v).setVf v ((z.freeSets v).vf v).cleared := by
    simp only [State.flrComplete, resetting, Bool.not_true]
    rfl
  have purged : units (r.mortarPurge false (r.mortarSecs v (fun _ => true))) = units r := units_mortarPurge ..
  have held : holders (z.freeSets v) = holders r := (holders_freeSets z v).trans
    (Prod.ext (congrArg Prod.fst purged :) (congrArg (fun x => x.2.1) purged :))
  have vfs : r.vfs = s.vfs := by
    refine foldl_frame State.vfs (fun (s : State) (x : Nat × Tile) => s.setTile x.1 { x.2.scrub with tstate := .learner })
      (fun _ _ => ?_) _ s
    rfl
  rw [made]
  refine ⟨?_, fun k x found => ?_, fun w found => ?_, fun t own still => ?_⟩
  · rw [setVf_vf, vf_of_vfs ((congrArg Prod.snd held).trans vfs)]
  · have kept : Sparse.get none (z.freeSets v).comms k = some x := found
    unfold State.freeSets at kept
    simpa using get_filter kept (by simp)
  · have kept : Sparse.get none (z.freeSets v).crownOwner w = some v := found
    unfold State.freeSets at kept
    simpa using get_filter kept (by simp)
  · rw [setVf_tile, show (z.freeSets v).tile t = r.tile t from
      congrArg (fun m => Sparse.get ({} : Tile) m t) (congrArg Prod.fst held)]
    exact scrubTiles_tile own still

/-- R336: a condemned tile without a crew leaves service, where no actor tile must leave with it. -/
theorem tileDisable_of_learner {s : State} {t v : Nat} (own : (s.tile t).owner = some v) (learner : (s.tile t).tstate = .learner)
    (condemned : (s.tile t).condemned = true) (idle : (s.tile t).crew = none)
    (still : s.moves.any (fun m => m.vf == v && m.die == t / 64) = false) :
    s.tileDisable t = (s.setTile t { tstate := .disabled }).measure := by
  simp only [State.tileDisable, own, learner, condemned, idle, still]
  rfl

/-- Settles O43: each table that a reset cleans is read off its own step of FLR_INITIATE or FLR_COMPLETE. -/
theorem functionReset : Obligations.FunctionReset := by
  intro s v small
  refine ⟨fun running first => ?_, fun running again => ?_, fun resetting => ?_, fun t own learner condemned idle still => ?_⟩
  · obtain ⟨⟨flr, blocks, accepted, gangs, waves, hubs, hods⟩, mine, others⟩ := flrInitiate_stops small first
    have runs : execFlrInitiate v s = .next (s.flrInitiate v) := by rw [execFlrInitiate, if_pos ⟨small, running⟩]
    exact ⟨_, runs, flr, blocks, accepted, gangs, waves, hubs, hods, mine, others⟩
  · show execFlrInitiate v s = .next s
    rw [execFlrInitiate, if_pos ⟨small, running⟩, State.flrInitiate, if_pos again]
  · obtain ⟨vf, comms, sets, tiles⟩ := flrComplete_clears resetting
    refine ⟨_, rfl, ?_, ?_, ?_, ?_, ?_, ?_, ?_, ?_, fun part q => ?_, comms, sets, tiles⟩ <;> rw [vf]
    case refine_9 =>
      rw [queue_cleared]
      exact ⟨rfl, rfl, rfl, rfl, rfl, rfl⟩
    all_goals rfl
  · exact congrArg Host.Outcome.next (tileDisable_of_learner own learner condemned idle still)

end Sys2Proof.Proofs
end

section
/-! SUPPORT. Trap entry (15 R319, R323): what a strand's capture and its record leave of its registers. -/
namespace Sys2Proof.Proofs
open Sys2Proof Sys2Proof.Machine Sys2Proof.Laws

/-! ### The core leaves a strand -/

theorem leave_running (x : Tile) (c clk : Nat) : (x.leave c clk).running ≠ some c := by
  unfold Tile.leave
  split
  · simp
  · assumption

theorem leave_ctx (x : Tile) (c clk d : Nat) : (x.leave c clk).ctx d = x.ctx d := by
  unfold Tile.leave
  split <;> rfl

/-! ### Counting an event changes an event counter alone -/

theorem count_tile (s : State) (t c src k : Nat) :
    ((s.count t c src k).tile t).ctxs = (s.tile t).ctxs ∧ ((s.count t c src k).tile t).running = (s.tile t).running ∧
      ((s.count t c src k).tile t).owner = (s.tile t).owner := by
  unfold State.count
  dsimp only
  split
  · exact ⟨rfl, rfl, rfl⟩
  · rw [setTile_tile]
    exact ⟨rfl, rfl, rfl⟩

/-- What the trap regions and the translations of a state depend on, but for its tiles. -/
def areas (s : State) : Sparse Vf × Sparse (Option AtcEntry) × List PageMove := (s.vfs, s.atc, s.pageMoves)

theorem areas_count (s : State) (t c src k : Nat) : areas (s.count t c src k) = areas s := by
  unfold State.count
  dsimp only
  split <;> rfl

theorem trapRegion_of_areas {s u : State} (same : areas u = areas s) (vf t c : Nat) :
    u.trapRegion vf t c = s.trapRegion vf t c := by
  have vfs : u.vfs = s.vfs := congrArg Prod.fst same
  simp only [State.trapRegion, State.vf, vfs]

theorem rangeXlat_of_areas {s u : State} (same : areas u = areas s) (pasid va n : Nat) (write : Bool) :
    u.rangeXlat pasid va n write = s.rangeXlat pasid va n write := by
  have kept : xlats u = xlats s := congrArg (fun x : _ × _ × _ => (fun k => (Sparse.get none x.2.1 k).map unmarked, x.2.2)) same
  simp only [State.rangeXlat, lookupVa_of_xlats kept]

/-! ### A strand that becomes FATAL -/

/-- The registers and latches of a strand. -/
def registers (k : Ctx) : Sparse Word × Sparse Word × Sparse TCap × BitVec 16 × Sparse Vec × Sparse VPred × Sparse SumLatch ×
    Sparse Word × Sparse Word × Sparse Vec := (k.csr, k.s, k.k, k.p, k.v, k.vp, k.sum, k.shape, k.b, k.vb)

/-- The tile of a strand that ends FATAL. -/
def fatalTile (x : Tile) (c clk : Nat) : Tile := ((x.discard c).setCtx c (x.ctx c).fatal).leave c clk

theorem episodes_fatalTile (u : State) (x : Tile) (t c clk : Nat) :
    let r := (u.setTile t (fatalTile x c clk)).episodes t
    sansBarrier (r.ctxAt t c) = sansBarrier (x.ctx c).fatal ∧ (r.tile t).running ≠ some c := by
  intro r
  have same := sansEpisodes_episodes (u.setTile t (fatalTile x c clk)) t
  refine ⟨(ctxAt_of_sansEpisodes same t c).trans ?_, ?_⟩
  · rw [setTile_ctxAt, fatalTile, leave_ctx, tile_setCtx_ctx]
  · rw [tile_of_sansEpisodes same Tile.running t fun _ => rfl, setTile_tile]
    exact leave_running _ _ _

theorem makeFatal_ctx (s : State) (t c : Nat) :
    sansBarrier ((s.makeFatal t c).ctxAt t c) = sansBarrier (s.ctxAt t c).fatal ∧ ((s.makeFatal t c).tile t).running ≠ some c := by
  unfold State.makeFatal
  dsimp only
  split
  · exact episodes_fatalTile _ (s.tile t) t c s.clk
  · exact episodes_fatalTile _ (s.tile t) t c s.clk

/-- What a strand that ends FATAL keeps. -/
theorem makeFatal_spec (s : State) (t c : Nat) : let y := (s.makeFatal t c).ctxAt t c
    registers y = registers (s.ctxAt t c) ∧ y.pending = [] ∧ y.run = .fatal ∧ ((s.makeFatal t c).tile t).running ≠ some c := by
  obtain ⟨same, left⟩ := makeFatal_ctx s t c
  have kept := eq_of_sansBarrier same
  refine ⟨?_, ?_, ?_, left⟩
  · exact (congrArg registers kept :)
  · exact (congrArg Ctx.pending kept :)
  · exact (congrArg Ctx.run kept :)

/-! ### The capture goes out -/

section
variable (e : State) (t c kind extra : Nat) (cause : Cause) (info : Word) (pc : Nat)

/-- A strand is TRAPPED with its capture, or FATAL; its registers stay. -/
theorem captureOut_spec (landed : (e.ctxAt t c).pending = []) (left : (e.tile t).running ≠ some c) :
    let u := e.captureOut t c kind extra cause info pc
    let y := u.ctxAt t c
    registers y = registers (e.ctxAt t c) ∧ y.pending = [] ∧ (u.tile t).running ≠ some c ∧
    (e.trapRegion (e.tileVf t) t c = none → y.run = .fatal) ∧
    (∀ r, e.trapRegion (e.tileVf t) t c = some r → (∀ n, e.rangeXlat r.pasid r.va n true ≠ .forbidden) →
      y.run = (e.ctxAt t c).run ∧ y.capture = (e.ctxAt t c).capture) := by
  let told := e.setCtxAt t c { e.ctxAt t c with causeOvf := false }
  have told_ctx : told.ctxAt t c = { e.ctxAt t c with causeOvf := false } := setCtxAt_ctxAt ..
  have told_left : (told.tile t).running ≠ some c := by
    rw [show told.tile t = _ from setTile_tile ..]
    exact left
  unfold State.captureOut
  dsimp only
  split
  next r usable =>
    have same : units (told.devWrite { vf := e.tileVf t, pasid := r.pasid, va := r.va, bytes := captureBytes (e.ctxAt t c).capture
                                       fatal := some (t, c)
                                       record := some (e.strandRecord t c kind extra cause info pc) }) = units told :=
      units_devWrite ..
    have strand := (ctxAt_of_units same t c).trans told_ctx
    have found : e.trapRegion (e.tileVf t) t c = some r := (Option.filter_eq_some_iff.mp usable).1
    refine ⟨(congrArg registers strand :), (congrArg Ctx.pending strand :).trans landed, ?_, fun none => ?_, fun _ _ _ =>
      ⟨(congrArg Ctx.run strand :), (congrArg Ctx.capture strand :)⟩⟩
    · rw [tile_of_units same]
      exact told_left
    · rw [found] at none
      cases none
  next unusable =>
    have same : units (e.postTrap t c kind (extra + 16) cause info pc) = units told := units_post ..
    have strand := (ctxAt_of_units same t c).trans told_ctx
    obtain ⟨kept, none_due, fatal, gone⟩ := makeFatal_spec (e.postTrap t c kind (extra + 16) cause info pc) t c
    refine ⟨kept.trans (congrArg registers strand :), none_due, gone, fun _ => fatal, fun r found allowed => ?_⟩
    rw [found, Option.filter_some, if_pos (by simpa using allowed _)] at unusable
    cases unusable

end

/-! ### Trap entry -/

/-- The context of a strand that traps. -/
def trapEntered (k : Ctx) (clk kind : Nat) (cause : Cause) (info : Word) : Ctx :=
  { (((((k.captureAt clk).clearLatches.unissue).writeCsr 0x08 (BitVec.ofNat 64 (causeCode cause))).writeCsr 0x09
      (BitVec.ofNat 64 k.pc)).writeCsr 0x0A info) with run := .trapped, trapKind := kind }

/-- A strand that has left its core, and whose trap is counted. -/
def trapLeft (s : State) (t c kind : Nat) (cause : Cause) (info : Word) : State :=
  (s.setTile t (({ s.tile t with mould := [] }.setCtx c (trapEntered (s.ctxAt t c) s.clk kind cause info)).leave c s.clk)).count
    t c 11 1

section
variable {s : State} {t c kind : Nat} {cause : Cause} {info : Word}

theorem trapAt_of_none_due (none_due : ∀ p ∈ (s.ctxAt t c).pending, s.clk < p.due) :
    s.trapAt t c kind cause info = (trapLeft s t c kind cause info).captureOut t c kind 0 cause info (s.ctxAt t c).pc := by
  have landed : s.landDue t c = s := landBy_of_none none_due
  rw [State.trapAt, landed]
  rfl

theorem trapLeft_ctxAt : (trapLeft s t c kind cause info).ctxAt t c = trapEntered (s.ctxAt t c) s.clk kind cause info := by
  rw [trapLeft, State.ctxAt, Tile.ctx, (count_tile _ t c 11 1).1, setTile_tile]
  exact (leave_ctx ..).trans (tile_setCtx_ctx ..)

theorem trapLeft_running : ((trapLeft s t c kind cause info).tile t).running ≠ some c := by
  rw [trapLeft, (count_tile _ t c 11 1).2.1, setTile_tile]
  exact leave_running _ _ _

theorem trapLeft_areas : areas (trapLeft s t c kind cause info) = areas s := (areas_count ..).trans rfl

theorem trapLeft_tileVf : (trapLeft s t c kind cause info).tileVf t = s.tileVf t := by
  rw [State.tileVf, trapLeft, (count_tile _ t c 11 1).2.2, setTile_tile]
  unfold Tile.leave
  split <;> rfl

end

/-- What a trap leaves of the strand's registers, and what it makes of the strand. -/
theorem trapAt_spec {s : State} {t c : Nat} (kind : Nat) (cause : Cause) (info : Word)
    (none_due : ∀ p ∈ (s.ctxAt t c).pending, s.clk < p.due) :
    let u := s.trapAt t c kind cause info
    let y := u.ctxAt t c
    let x := trapEntered (s.ctxAt t c) s.clk kind cause info
    registers y = registers x ∧ y.pending = [] ∧ (u.tile t).running ≠ some c ∧
    (s.trapRegion (s.tileVf t) t c = none → y.run = .fatal) ∧
    (∀ r, s.trapRegion (s.tileVf t) t c = some r → (∀ n, s.rangeXlat r.pasid r.va n true ≠ .forbidden) →
      y.run = x.run ∧ y.capture = x.capture) := by
  have out := captureOut_spec (trapLeft s t c kind cause info) t c kind 0 cause info (s.ctxAt t c).pc
    (by rw [trapLeft_ctxAt]; rfl) trapLeft_running
  rw [← trapAt_of_none_due none_due] at out
  simp only [trapLeft_ctxAt, trapLeft_tileVf, trapRegion_of_areas trapLeft_areas, rangeXlat_of_areas trapLeft_areas] at out
  exact out

/-- The CSRs that a trap writes. -/
theorem readCsr_of_trapEntered {y k : Ctx} {clk kind : Nat} {cause : Cause} {info : Word}
    (same : y.csr = (trapEntered k clk kind cause info).csr) :
    y.readCsr 0x08 = BitVec.ofNat 64 (causeCode cause) ∧ y.readCsr 0x09 = BitVec.ofNat 64 k.pc ∧ y.readCsr 0x0A = info := by
  simp [Ctx.readCsr, same, trapEntered, Ctx.writeCsr, get_set]

/-- What a trap keeps of a strand, what it clears and what it captures. -/
theorem trapEntered_fields (k : Ctx) (clk kind : Nat) (cause : Cause) (info : Word) :
    let x := trapEntered k clk kind cause info
    registers x = (x.csr, k.s, k.k, k.p, k.v, k.vp, k.sum, k.shape, [], []) ∧ x.run = .trapped ∧
      x.capture = k.capture ++ k.pending.map (fun p => { p with due := p.due - clk }) := by
  simp only [trapEntered, registers, Ctx.captureAt, Ctx.clearLatches, Ctx.unissue, Ctx.writeCsr, and_self]

/-- Settles O38: the strand's context is that of `trapEntered`, which its capture and its record leave as it is, and which
`makeFatal` keeps but for what the strand is owed. -/
theorem trapEntry : Obligations.TrapEntry := by
  intro s t c kind cause info
  dsimp only
  intro none_due
  obtain ⟨kept, landed, left, fatal, trapped⟩ := trapAt_spec kind cause info none_due
  obtain ⟨fields, run, capture⟩ := trapEntered_fields (s.ctxAt t c) s.clk kind cause info
  rw [fields] at kept
  rw [run, capture] at trapped
  generalize s.trapAt t c kind cause info = u at kept landed left fatal trapped ⊢
  simp only [registers, Prod.mk.injEq] at kept
  obtain ⟨csr, scalar, caps, preds, vecs, vpreds, sums, shapes, latches, vlatches⟩ := kept
  obtain ⟨code, address, information⟩ := readCsr_of_trapEntered csr
  refine ⟨code, address, information, scalar, caps, preds, vecs, vpreds, sums, shapes, fun n => ?_, fun cl n => ?_, landed, left,
    fatal, trapped⟩
  · rw [Ctx.readB, latches]; rfl
  · rw [Ctx.readVb, vlatches]; rfl

end Sys2Proof.Proofs
end

section
/-! SUPPORT. The sectors that the host may hold change with its own reads and answers alone (16 R339): nothing that a write of the
device, a held read or a waiting store does on its way gives the host a sector or takes one from it. -/
namespace Sys2Proof.Proofs
open Sys2Proof Sys2Proof.Machine Sys2Proof.Laws

variable (s : State)

/-! ### Memory and records -/

theorem hostHeld_of_sansMemory {s u : State} (same : sansMemory u = sansMemory s) : u.hostHeld = s.hostHeld :=
  (congrArg State.hostHeld same :)

theorem hostHeld_of_sansWrites {s u : State} (same : sansWrites u = sansWrites s) : u.hostHeld = s.hostHeld :=
  (congrArg State.hostHeld same :)

@[simp] theorem hostHeld_mortarTouch (sec : Nat) (tag : MTag) (dirty : Bool) :
    (s.mortarTouch sec tag dirty).hostHeld = s.hostHeld := hostHeld_of_sansMemory (sansMemory_mortarTouch ..)

@[simp] theorem hostHeld_sectorStore (w : SectorWrite) : (s.sectorStore w).hostHeld = s.hostHeld :=
  hostHeld_of_sansMemory (sansMemory_sectorStore ..)

@[simp] theorem hostHeld_sectorWrite (w : SectorWrite) : (s.sectorWrite w).hostHeld = s.hostHeld :=
  hostHeld_of_sansMemory (sansMemory_sectorWrite ..)

@[simp] theorem hostHeld_touchPage (pasid va : Nat) : (s.touchPage pasid va).hostHeld = s.hostHeld :=
  hostHeld_of_sansWrites (sansWrites_touchPage ..)

@[simp] theorem hostHeld_touchRange (pasid va n : Nat) : (s.touchRange pasid va n).hostHeld = s.hostHeld :=
  hostHeld_of_sansWrites (sansWrites_touchRange ..)

@[simp] theorem hostHeld_vaPut (vf pasid : Nat) (obj : Option Nat) (tag : Bool) (cells : List (Nat × Byte)) :
    (s.vaPut vf pasid obj tag cells).hostHeld = s.hostHeld := hostHeld_of_sansWrites (sansWrites_vaPut ..)

theorem hostHeld_postTo {u : State} {q : SupQ} {vf : Nat} {bytes : List Byte} (posted : s.postTo q vf bytes = some u) :
    u.hostHeld = s.hostHeld := by
  unfold State.postTo at posted
  dsimp only at posted
  split at posted
  · cases posted
  · split at posted
    · rw [← Option.some.inj posted]
      simp
    · split at posted
      · split at posted
        · cases posted
        · rw [← Option.some.inj posted]
          simp
      · cases posted

@[simp] theorem hostHeld_postOne (vf : Nat) (bytes : List Byte) : (s.postOne vf bytes).hostHeld = s.hostHeld := by
  unfold State.postOne
  split
  · rfl
  · split
    next posted => exact hostHeld_postTo s posted
    next => simp

@[simp] theorem hostHeld_post (vf : Nat) (bytes : List Byte) : (s.post vf bytes).hostHeld = s.hostHeld := by
  unfold State.post
  split
  · rfl
  · split <;> simp

@[simp] theorem hostHeld_postError (vf : Nat) (bytes : List Byte) : (s.postError vf bytes).hostHeld = s.hostHeld := by
  unfold State.postError
  split
  · rfl
  · split <;> simp

@[simp] theorem hostHeld_devWrite (w : DevWrite) : (s.devWrite w).hostHeld = s.hostHeld := by
  unfold State.devWrite
  split
  · dsimp only
    split <;> simp
  · simp

/-! ### Crews, and strands that end FATAL -/

@[simp] theorem hostHeld_onSaved (key : Nat) (y : Saved) (new : Tile) : (s.onSaved key y new).hostHeld = s.hostHeld :=
  hostHeld_of_sansWrites (sansWrites_onSaved ..)

@[simp] theorem hostHeld_onCrew (gang crew : Nat) (f : Tile → Tile) : (s.onCrew gang crew f).hostHeld = s.hostHeld := by
  unfold State.onCrew
  split
  · rfl
  · split <;> simp

@[simp] theorem hostHeld_gangEpisode (gang : Nat) : (s.gangEpisode gang).hostHeld = s.hostHeld := by
  unfold State.gangEpisode
  split
  · rfl
  · dsimp only
    split
    · rfl
    · exact foldl_frame State.hostHeld _ (fun u j => hostHeld_onCrew ..) _ s

@[simp] theorem hostHeld_episodes (t : Nat) : (s.episodes t).hostHeld = s.hostHeld := by
  unfold State.episodes
  dsimp only
  split <;> simp

@[simp] theorem hostHeld_makeFatal (t c : Nat) : (s.makeFatal t c).hostHeld = s.hostHeld := by
  unfold State.makeFatal
  dsimp only
  rw [hostHeld_episodes]
  split <;> rfl

@[simp] theorem hostHeld_postTrap (t c kind extra : Nat) (cause : Cause) (info : Word) (pc : Nat) :
    (s.postTrap t c kind extra cause info pc).hostHeld = s.hostHeld := by
  simp [State.postTrap]

@[simp] theorem hostHeld_memueTile (t va : Nat) : (s.memueTile t va).hostHeld = s.hostHeld := by
  refine foldl_frame State.hostHeld _ (fun u c => ?_) _ s
  dsimp only
  split
  · rfl
  · simp

@[simp] theorem hostHeld_memueSaved (i : Issuer) (y : Saved) (va : Nat) : (s.memueSaved i y va).hostHeld = s.hostHeld := by
  unfold State.memueSaved
  rw [hostHeld_gangEpisode]
  refine foldl_frame State.hostHeld _ (fun u c => ?_) _ s
  dsimp only
  split
  · rfl
  · rw [hostHeld_onCrew]
    exact hostHeld_post ..

@[simp] theorem hostHeld_memue (i : Issuer) (src pa va : Nat) : (s.memue i src pa va).hostHeld = s.hostHeld := by
  unfold State.memue
  extract_lets unit erred counted mine hits saved struck
  refine (foldl_frame State.hostHeld (fun (u : State) (y : Saved) => u.memueSaved i y va)
    (fun u y => hostHeld_memueSaved u i y va) saved struck).trans ?_
  refine (foldl_frame State.hostHeld (fun (u : State) (x : Nat × Tile) => u.memueTile x.1 va)
    (fun u x => hostHeld_memueTile u x.1 va) hits counted).trans ?_
  exact hostHeld_postError (s.softError unit 15) i.vf _

@[simp] theorem hostHeld_raise (i : Issuer) (cause : Cause) (info : Word) : (s.raise i cause info).hostHeld = s.hostHeld := by
  unfold State.raise State.onStrand
  split
  · simp
  · dsimp only
    split <;> simp

@[simp] theorem hostHeld_lostWrite (w : DevWrite) : (s.lostWrite w).hostHeld = s.hostHeld := by
  unfold State.lostWrite
  dsimp only
  split <;> split <;> simp

theorem hostHeld_flushDeferred : s.flushDeferred.hostHeld = s.hostHeld := by
  refine foldl_frame State.hostHeld State.flushOne (fun u d => ?_) s.deferred { s with deferred := [] }
  unfold State.flushOne
  split
  · simp
  · split <;> simp

/-! ### A tile's L1 -/

@[simp] theorem hostHeld_count (t c src k : Nat) : (s.count t c src k).hostHeld = s.hostHeld := by
  unfold State.count
  dsimp only
  split <;> rfl

@[simp] theorem hostHeld_l1WriteBack (t sec : Nat) : (s.l1WriteBack t sec).hostHeld = s.hostHeld := by
  unfold State.l1WriteBack
  split
  · split <;> simp
  · rfl

@[simp] theorem hostHeld_l1Flush (t sec : Nat) : (s.l1Flush t sec).hostHeld = s.hostHeld := by
  simp [State.l1Flush, State.l1Drop]

@[simp] theorem hostHeld_l1Ensure (t sec : Nat) (tag : MTag) : (s.l1Ensure t sec tag).hostHeld = s.hostHeld := by
  have room : (s.l1Room t sec).hostHeld = s.hostHeld := by
    unfold State.l1Room
    dsimp only
    split
    · rfl
    · split
      · rfl
      · simp [State.takeFree]
  unfold State.l1Ensure
  split
  · rfl
  · simp [room]

@[simp] theorem hostHeld_flushTile (t : Nat) : (s.flushTile t).hostHeld = s.hostHeld :=
  foldl_frame State.hostHeld (fun (u : State) (x : Nat × Option L1Sector) => u.l1WriteBack t x.1)
    (fun u x => hostHeld_l1WriteBack u t x.1) _ s

@[simp] theorem hostHeld_releaseRegions (t : Nat) (rs : List Region) : (s.releaseRegions t rs).hostHeld = s.hostHeld :=
  foldl_frame State.hostHeld (fun (u : State) (x : Nat × Option L1Sector) => u.l1WriteBack t x.1)
    (fun u x => hostHeld_l1WriteBack u t x.1) _ s

@[simp] theorem hostHeld_syncBefore (t c order : Nat) (sync : Option (Nat × Nat)) :
    (s.syncBefore t c order sync).hostHeld = s.hostHeld := by
  unfold State.syncBefore
  split
  · split <;> simp
  · rfl

@[simp] theorem hostHeld_syncAfter (t c order : Nat) (sync : Option (Nat × Nat)) :
    (s.syncAfter t c order sync).hostHeld = s.hostHeld := by
  unfold State.syncAfter State.acquireRegions
  split
  · split <;> simp
  · rfl

theorem hostHeld_runFences (t c : Nat) : (s.runFences t c).hostHeld = s.hostHeld := by
  have effect (u : State) (f : Fence) : (u.fenceEffect t f).hostHeld = u.hostHeld := by
    unfold State.fenceEffect State.dropClean
    dsimp only
    split
    · rfl
    · split <;> split <;> simp
  have drains (n : Nat) (u : State) : (u.drainFences t c n).hostHeld = u.hostHeld := by
    induction n generalizing u with
    | zero => rfl
    | succ n ih =>
      unfold State.drainFences
      dsimp only
      split
      · rfl
      · split
        · rw [ih, effect]
          rfl
        · rfl
  exact drains _ s

/-! ### Held reads -/

theorem hostHeld_readSector (t c : Nat) (tag : MTag) (pa n : Nat) (via : Via) (stream : Bool) :
    (s.readSector t c tag pa n via stream).2.hostHeld = s.hostHeld := by
  have counted (hit : Bool) (u : State) :
      (if hit then u else u.count t c (if u.mortarHit (pa / 64) tag then 19 else 20) 1).hostHeld = u.hostHeld := by
    split <;> simp
  unfold State.readSector
  dsimp only
  split
  · simp [counted]
  · split <;> simp [counted]

theorem hostHeld_readVirt {t c vf pasid va n : Nat} {obj : Option Nat} {via : Via} {stream : Bool} {bs : List Byte} {u : State}
    (read : s.readVirt t c vf pasid va obj n via stream = some (bs, u)) : u.hostHeld = s.hostHeld := by
  unfold State.readVirt at read
  split at read
  · obtain rfl : _ = u := congrArg Prod.snd (Option.some.inj read)
    refine Eq.trans (foldl_frame (fun r : List Byte × State => r.2.hostHeld) _ (fun r p => ?_) _ _) (hostHeld_touchRange s pasid va n)
    dsimp only
    split
    · dsimp only
      split <;> simp [hostHeld_readSector]
    · rfl
  · cases read

theorem hostHeld_readPlace {t c n : Nat} {p : Place} {via : Via} {stream : Bool} {bs : List Byte} {u : State}
    (read : s.readPlace t c p n via stream = some (bs, u)) : u.hostHeld = s.hostHeld := by
  cases p with
  | spad off =>
    obtain rfl : _ = u := congrArg Prod.snd (Option.some.inj read)
    dsimp only
    split <;> simp
  | virt pasid va obj => exact hostHeld_readVirt s read

theorem hostHeld_readConstant {t c n a : Nat} {p : Place} {bs : List Byte} {u : State}
    (read : s.readConstant t c p n a = some (bs, u)) : u.hostHeld = s.hostHeld := by
  cases p with
  | spad off => exact hostHeld_readPlace s (show s.readPlace t c (.spad off) n .plain false = _ from read)
  | virt pasid va obj =>
    unfold State.readConstant at read
    dsimp only at read
    split at read
    · obtain rfl : _ = u := congrArg Prod.snd (Option.some.inj read)
      dsimp only
      split <;> simp
    · cases read

@[simp] theorem hostHeld_atomicSpad (t off n : Nat) (op : AtomOp) (opnd : Nat) :
    (s.atomicSpad t off n op opnd).2.hostHeld = s.hostHeld := by
  unfold State.atomicSpad
  dsimp only
  split <;> rfl

@[simp] theorem hostHeld_atomicAt (t : Nat) (tag : MTag) (pa n : Nat) (op : AtomOp) (opnd : Nat) :
    (s.atomicAt t tag pa n op opnd).2.hostHeld = s.hostHeld := by
  unfold State.atomicAt State.pocWrite
  dsimp only
  split <;> simp

@[simp] theorem hostHeld_partition (t o : Nat) (xs : List (Nat × Bool)) (cap : TCap) :
    (s.partition t o xs cap).2.hostHeld = s.hostHeld := by
  have step (size : Nat) (r : Nat × Nat × State) (x : Nat) (yes : Bool) :
      (partStep t o size r x yes).2.2.hostHeld = r.2.2.hostHeld := by
    unfold partStep
    dsimp only
    split <;> split <;> rfl
  unfold State.partition
  extract_lets nt nf size status
  split
  · rfl
  · refine Eq.trans (foldl_frame (fun r : Nat × Nat × State => r.2.2.hostHeld) _ (fun r x => ?_) xs (nt, nf, s)) rfl
    split
    · rfl
    · exact step ..

@[simp] theorem hostHeld_tryRead (t c : Nat) (h : Held) (e : PortEntry) : (s.tryRead t c h e).2.hostHeld = s.hostHeld := by
  unfold State.tryRead
  extract_lets stay done blocked constant
  split
  · rfl
  · split
    · rfl
    · split
      · extract_lets n
        split
        · rfl
        · split
          · rfl
          next bs u read =>
            have kept : u.hostHeld = s.hostHeld := by
              split at read
              · exact hostHeld_readConstant s read
              · exact hostHeld_readPlace s read
            dsimp only
            split <;> exact kept
      · split
        · rfl
        · split
          · simp [apply_ite State.hostHeld]
          · split
            · split
              · rfl
              · simp [apply_ite State.hostHeld]
            · rfl
            · rfl
      · split
        · rfl
        · split
          · rfl
          next bs u read => exact hostHeld_readPlace s read
      · extract_lets r
        have kept : r.2.1.hostHeld = s.hostHeld := by
          refine (foldl_frame (fun a : PortEntry × State × List (Nat × Nat) => a.2.1.hostHeld) _ (fun a l => ?_) _ _).trans rfl
          dsimp only
          split
          · rfl
          · split
            · rfl
            next bs u read => exact hostHeld_readPlace a.2.1 read
        split <;> exact kept
      · split
        · rfl
        · extract_lets size
          split
          · rfl
          · dsimp only
            split
            · exact (hostHeld_memue ..).trans (hostHeld_partition ..)
            · exact hostHeld_partition ..

@[simp] theorem hostHeld_request (t c : Nat) (h : Held) : (s.request t c h).hostHeld = s.hostHeld := by
  refine foldl_frame State.hostHeld _ (fun u x => ?_) _ s
  split
  · rfl
  · split <;> simp

@[simp] theorem hostHeld_retryPort (t c port : Nat) : (s.retryPort t c port).hostHeld = s.hostHeld := by
  unfold State.retryPort
  refine (foldl_frame (fun a : List PortEntry × State => a.2.hostHeld) _ (fun a e => ?_) _ ([], s)).trans rfl
  split
  · exact hostHeld_tryRead ..
  · rfl

/-! ### Waiting stores -/

theorem hostHeld_ring (v : Nat) (cells : List (Nat × Byte)) : (s.ring v cells).hostHeld = s.hostHeld := by
  have tail (u : State) (part q : Nat) (x : BitVec 32) : (u.writeTail v part q x).hostHeld = u.hostHeld := by
    unfold State.writeTail State.haltQueue State.postQueueRecord
    dsimp only
    split
    · simp
    · rfl
  refine foldl_frame State.hostHeld _ (fun u k => ?_) _ s
  dsimp only
  split
  · exact tail ..
  · rfl

theorem hostHeld_writeVirt (t vf pasid : Nat) (obj : Option Nat) (via : Via) (tag : Bool) (cells : List (Nat × Byte)) :
    (s.writeVirt t vf pasid obj via tag cells).hostHeld = s.hostHeld := by
  have written (u : State) (tag : Bool) (cells : List (Nat × Byte)) : (u.l1Write t tag cells).hostHeld = u.hostHeld := by
    unfold State.l1Write
    split
    · rfl
    · dsimp only
      split
      · rfl
      · rw [setTile_hostHeld]
        refine foldl_frame State.hostHeld _ (fun _ _ => ?_) _ u
        rfl
  refine foldl_frame State.hostHeld _ (fun u sec => ?_) _ s
  dsimp only
  split
  · split
    · simp [hostHeld_ring]
    · split <;> simp [State.pocWrite, written]
  · simp

theorem hostHeld_perform (t c : Nat) (r : StoreReq) : (s.perform t c r).hostHeld = s.hostHeld := by
  unfold State.perform
  split
  · split
    · dsimp only
      split <;> simp
    · rfl
  · exact hostHeld_writeVirt ..

theorem hostHeld_store {u : State} {t c : Nat} {r : StoreReq} (stored : s.store t c r = .ok u) : u.hostHeld = s.hostHeld := by
  unfold State.store at stored
  extract_lets x ok k logged numbered counted asked at stored
  split at stored
  · obtain rfl := Res.ok.inj stored
    exact hostHeld_perform ..
  · split at stored
    · cases stored
    · obtain rfl := Res.ok.inj stored
      have kept : asked.hostHeld = s.hostHeld := by
        unfold asked counted numbered logged State.numberedFrom
        simp [apply_ite State.hostHeld]
      split
      · simp [kept]
      · exact kept

theorem hostHeld_doStore {u : State} {t c : Nat} {q : QueuedStore} (done : s.doStore t c q = .ok u) : u.hostHeld = s.hostHeld := by
  unfold State.doStore at done
  split at done
  · cases done
  · split at done
    · obtain rfl := Res.ok.inj done
      unfold State.spadStore
      split
      · dsimp only
        split <;> simp
      · dsimp only
        split <;> rfl
    · exact hostHeld_store s done

theorem hostHeld_drainStores (t c n : Nat) : (s.drainStores t c n).hostHeld = s.hostHeld := by
  induction n generalizing s with
  | zero => rfl
  | succ n ih =>
    unfold State.drainStores
    dsimp only
    split
    · rfl
    · split
      · rfl
      · split
        · simp [ih]
        · split
          next done => rw [ih, hostHeld_doStore _ done]; rfl
          next => rfl

/-! ### Everything that waits is tried again -/

theorem hostHeld_serve (t c n : Nat) : (s.serve t c n).hostHeld = s.hostHeld := by
  induction n generalizing s with
  | zero => rfl
  | succ n ih =>
    unfold State.serve
    dsimp only
    rw [ih]
    refine (foldl_frame State.hostHeld (fun (u : State) (p : Nat × List PortEntry) => u.retryPort t c p.1)
      (fun u p => hostHeld_retryPort u t c p.1) _ _).trans ?_
    rw [hostHeld_drainStores, hostHeld_runFences]

theorem hostHeld_retryReads : s.retryReads.hostHeld = s.hostHeld := by
  have sweep (u : State) : u.sweepReads.hostHeld = u.hostHeld := by
    refine foldl_frame State.hostHeld _ (fun v x => ?_) _ u
    refine foldl_frame State.hostHeld _ (fun w y => ?_) _ v
    exact hostHeld_serve ..
  have sweeps (n : Nat) (u : State) : (u.sweeps n).hostHeld = u.hostHeld := by
    induction n generalizing u with
    | zero => rfl
    | succ n ih => exact (ih _).trans (sweep u)
  exact (sweeps _ _).trans (sweep s)

end Sys2Proof.Proofs
end

section
/-! SUPPORT. What the host writes, reads and snoops at the points of coherence (16 R338 to R340, 12 R271). -/
namespace Sys2Proof.Proofs
open Sys2Proof Sys2Proof.Machine Sys2Proof.Laws

/-! ### Tags, and writes that wait, as Mortar's sectors come and go -/

section
variable (s : State) (u : Nat)

theorem mtags_mortarWriteBack (sec : Nat) {i : Nat} (inside : i < 4) :
    Sparse.get none (s.mortarWriteBack sec).mtags (4 * sec + i) = none := by
  unfold State.mortarWriteBack
  dsimp only
  refine foldl_establishes (P := fun i (v : State) => Sparse.get none v.mtags (4 * sec + i) = none) _
    (fun v i => ?own) (fun v i j clean => ?keep) _ _ (List.mem_range.mpr inside)
  case own =>
    split
    next => simp
    next absent => exact absent
  case keep =>
    split
    next => rw [get_set, clean, ite_self]
    next => exact clean

theorem pocTag_mortarWriteBack (sec : Nat) : (s.mortarWriteBack sec).pocTag u = s.pocTag u := by
  unfold State.mortarWriteBack
  generalize List.range 64 = l
  generalize List.range 4 = l'
  refine Eq.trans (foldl_frame (fun v : State => v.pocTag u) _ (fun v i => ?tags) l' _)
    (foldl_frame (fun v : State => v.pocTag u) _ (fun v i => ?bytes) l s)
  case bytes => split <;> rfl
  case tags =>
    split
    next b dirty =>
      by_cases here : u = 4 * sec + i
      · simp [State.pocTag, here, dirty]
      · simp [State.pocTag, get_set_other _ _ _ here]
    next => rfl

theorem mtags_mortarDrop (sec : Nat) : (s.mortarDrop sec).mtags =
    (List.range 4).foldl (fun m i => Sparse.set none m (4 * sec + i) none) s.mtags := by
  unfold State.mortarDrop
  generalize List.range 64 = l
  dsimp only
  have bytes := foldl_frame (fun v : State => v.mtags)
    (fun (v : State) i => { v with mdata := Sparse.set none v.mdata (64 * sec + i) none }) (fun _ _ => by rfl) l s
  rw [← bytes]
  exact (List.foldl_hom State.mtags (fun _ _ => rfl)).symm

theorem clearTags_updates (sec : Nat) : Updates (fun (m : Sparse (Option Bool)) i => Sparse.set none m (4 * sec + i) none)
    (Sparse.get none) (fun i => 4 * sec + i) (fun _ _ => none) where
  at_key m _ := get_set_same none m _ _
  elsewhere m _ _ other := get_set_other none m _ other

theorem pocTag_mortarDrop {s : State} {sec : Nat} (clean : ∀ i < 4, Sparse.get none s.mtags (4 * sec + i) = none) :
    (s.mortarDrop sec).pocTag u = s.pocTag u := by
  have same : Sparse.get none (s.mortarDrop sec).mtags u = Sparse.get none s.mtags u := by
    rw [mtags_mortarDrop]
    by_cases inside : u ∈ (List.range 4).map (fun i => 4 * sec + i)
    · obtain ⟨i, hi, rfl⟩ := List.mem_map.mp inside
      rw [(clearTags_updates sec).foldl_at _ _ (nodup_map_range _ (fun _ _ h => Nat.add_left_cancel h) 4) hi,
        clean i (List.mem_range.mp hi)]
    · exact (clearTags_updates sec).foldl_elsewhere _ _ inside
  rw [State.pocTag, same, mortarDrop_frame]
  rfl

theorem pocTag_leaves (k : Nat) : ((s.mortarWriteBack k).mortarDrop k).pocTag u = s.pocTag u :=
  (pocTag_mortarDrop u (fun _ inside => mtags_mortarWriteBack s k inside)).trans (pocTag_mortarWriteBack s u k)

theorem biQ_leaves (k : Nat) : ((s.mortarWriteBack k).mortarDrop k).biQ = s.biQ := by
  have written : (s.mortarWriteBack k).biQ = s.biQ := by
    unfold State.mortarWriteBack
    generalize List.range 64 = l
    generalize List.range 4 = l'
    dsimp only
    rw [foldl_frame (fun v : State => v.biQ) _ (fun v i => by split <;> rfl) l',
      foldl_frame (fun v : State => v.biQ) _ (fun v i => by split <;> rfl) l]
  have dropped (v : State) : (v.mortarDrop k).biQ = v.biQ := by rw [mortarDrop_frame]
  exact (dropped _).trans written

/-- What a sector's write-back with its drop keeps, the trim of a slice keeps. -/
theorem mortarTrim_keeps {β : Type} (read : State → β) (leaves : ∀ v k, read ((v.mortarWriteBack k).mortarDrop k) = read v)
    (choose : ∀ v : State, read v.takeFree.2 = read v) (slice n k : Nat) : read (s.mortarTrim slice n k) = read s := by
  induction k generalizing s with
  | zero => rfl
  | succ k ih =>
    unfold State.mortarTrim
    dsimp only
    split
    · rfl
    · split
      · refine (ih _).trans (Eq.trans ?_ (choose s))
        exact foldl_frame read (fun (v : State) (x : Nat × Option MortarSector) => (v.mortarWriteBack x.1).mortarDrop x.1)
          (fun v x => leaves v x.1) _ _
      · rfl

/-- What a sector's write-back with its drop keeps, and what does not depend on the list of sectors, a touch keeps. -/
theorem mortarTouch_keeps {β : Type} (read : State → β) (leaves : ∀ v k, read ((v.mortarWriteBack k).mortarDrop k) = read v)
    (choose : ∀ v : State, read v.takeFree.2 = read v) (blind : ∀ (v : State) m, read { v with mortar := m } = read v)
    (sec : Nat) (tag : MTag) (dirty : Bool) : read (s.mortarTouch sec tag dirty) = read s := by
  have room (v : State) : read (v.mortarRoom tag) = read v := by
    unfold State.mortarRoom
    dsimp only
    split
    · rfl
    · split
      · rfl
      · exact mortarTrim_keeps v read leaves choose _ _ _
  unfold State.mortarTouch
  split
  · split
    · exact blind ..
    · exact (blind ..).trans ((room _).trans (leaves s sec))
  · exact (blind ..).trans (room s)

end

/-! ### A write at a home slice -/

section
variable (s : State) (w : SectorWrite)

/-- The last of the bytes that cells give an address. -/
def lastByte (cells : List (Nat × Byte)) (a : Nat) : Option Byte := (cells.reverse.find? (fun x => x.1 == a)).map (fun x => x.2)

theorem pocByte_foldl_pocPut {cells : List (Nat × Byte)} (memory : ∀ x ∈ cells, inWcBank x.1 = false) (a : Nat) :
    (cells.foldl (fun (v : State) x => v.pocPut x.1 x.2) s).pocByte a = (lastByte cells a).getD (s.pocByte a) := by
  induction cells using List.reverseRecOn with
  | nil => rfl
  | append_singleton rest x ih =>
    have own := memory x (List.mem_append_right _ (List.mem_singleton_self x))
    have before := ih fun y listed => memory y (List.mem_append_left _ listed)
    rw [List.foldl_append, List.foldl_cons, List.foldl_nil, pocByte_pocPut _ _ _ _ own, before]
    unfold lastByte
    rw [List.reverse_append, List.reverse_singleton, List.singleton_append, List.find?_cons]
    by_cases here : a = x.1
    · simp [here]
    · have differs : (x.1 == a) = false := by simpa using Ne.symm here
      simp [here, differs]

/-- What a write at a home slice leaves of what neither its cells nor its units are read for. -/
theorem sectorStore_keeps {β : Type} (read : State → β) (leaves : ∀ v k, read ((v.mortarWriteBack k).mortarDrop k) = read v)
    (choose : ∀ v : State, read v.takeFree.2 = read v) (blind : ∀ (v : State) m, read { v with mortar := m } = read v)
    (hist : ∀ (v : State) h, read { v with hist := h } = read v) (bytes : ∀ (v : State) m, read { v with mdata := m } = read v)
    (tags : ∀ (v : State) m, read { v with mtags := m } = read v) (poison : ∀ (v : State) m, read { v with poison := m } = read v) :
    read (s.sectorStore w) = read s := by
  unfold State.sectorStore
  split
  · rfl
  · extract_lets ds kept written tagged
    have through : read tagged = read s := by
      refine (foldl_frame read (fun (v : State) (x : Nat × Bool) => v.pocPutTag x.1 x.2) (fun v _ => tags v _) _ _).trans ?_
      refine (foldl_frame read (fun (v : State) (x : Nat × Byte) => v.pocPut x.1 x.2) (fun v _ => bytes v _) _ _).trans ?_
      refine (foldl_frame read (fun (v : State) d => v.keepHist d (v.pocDword d)) (fun v _ => hist v _) _ _).trans ?_
      exact mortarTouch_keeps s read leaves choose blind _ _ _
    split
    · exact (poison tagged _).trans through
    · exact through

theorem biQ_sectorStore : (s.sectorStore w).biQ = s.biQ :=
  sectorStore_keeps s w State.biQ biQ_leaves (fun _ => rfl) (fun _ _ => rfl) (fun _ _ => rfl) (fun _ _ => rfl) (fun _ _ => rfl)
    (fun _ _ => rfl)

theorem deferred_sectorStore : (s.sectorStore w).deferred = s.deferred :=
  (congrArg State.deferred (sansMemory_sectorStore s w) :)

theorem pocByte_sectorStore (memory : ∀ x ∈ w.cells, inWcBank x.1 = false) (a : Nat) :
    (s.sectorStore w).pocByte a = (lastByte w.cells a).getD (s.pocByte a) := by
  unfold State.sectorStore
  split
  next none => rw [none]; rfl
  next pa b rest listed =>
    extract_lets ds kept written tagged
    have through : tagged.pocByte a = (lastByte w.cells a).getD (s.pocByte a) := by
      refine (foldl_frame (fun v : State => v.pocByte a) (fun (v : State) (x : Nat × Bool) => v.pocPutTag x.1 x.2)
        (fun _ _ => by rfl) _ _).trans ?_
      refine (pocByte_foldl_pocPut kept memory a).trans (congrArg _ ?_)
      refine (foldl_frame (fun v : State => v.pocByte a) (fun (v : State) d => v.keepHist d (v.pocDword d))
        (fun _ _ => by rfl) _ _).trans ?_
      exact pocByte_mortarTouch s a _ _ _
    split
    · exact through
    · exact through

theorem pocTag_sectorStore (unset : ∀ x ∈ w.units, x.2 = false) (some_ : w.cells ≠ []) (k : Nat) :
    (s.sectorStore w).pocTag k = if k ∈ w.units.map (fun x => x.1) then false else s.pocTag k := by
  have puts (us : List (Nat × Bool)) (unset : ∀ x ∈ us, x.2 = false) (v : State) :
      (us.foldl (fun (v : State) x => v.pocPutTag x.1 x.2) v).pocTag k =
        if k ∈ us.map (fun x => x.1) then false else v.pocTag k := by
    induction us generalizing v with
    | nil => simp
    | cons x rest ih =>
      have put : (v.pocPutTag x.1 x.2).pocTag k = if k = x.1 then false else v.pocTag k := by
        rw [unset x List.mem_cons_self]
        by_cases here : k = x.1
        · simp [State.pocPutTag, State.pocTag, here]
        · simp [State.pocPutTag, State.pocTag, get_set_other _ _ _ here, here]
      rw [List.foldl_cons, ih (fun y listed => unset y (List.mem_cons_of_mem _ listed)), put, List.map_cons]
      by_cases here : k = x.1 <;> simp [here]
  unfold State.sectorStore
  split
  next none => exact absurd none some_
  next pa b rest listed =>
    extract_lets ds kept written tagged
    have through : tagged.pocTag k = if k ∈ w.units.map (fun x => x.1) then false else s.pocTag k := by
      refine (puts w.units unset written).trans ?_
      have before : written.pocTag k = s.pocTag k := by
        refine (foldl_frame (fun v : State => v.pocTag k) (fun (v : State) (x : Nat × Byte) => v.pocPut x.1 x.2)
          (fun _ _ => by rfl) _ _).trans ?_
        refine (foldl_frame (fun v : State => v.pocTag k) (fun (v : State) d => v.keepHist d (v.pocDword d))
          (fun _ _ => by rfl) _ _).trans ?_
        exact mortarTouch_keeps s (fun v => v.pocTag k) (fun v j => pocTag_leaves v k j) (fun _ => rfl) (fun _ _ => rfl) _ _ _
      rw [before]
    split
    · exact through
    · exact through

end

end Sys2Proof.Proofs
end

section
/-! SUPPORT. The host's own accesses: writes sector by sector, reads with what the host then holds, answers and snoops (16 R338 to
R340). -/
namespace Sys2Proof.Proofs
open Sys2Proof Sys2Proof.Machine Sys2Proof.Laws

/-! ### Writes -/

section
variable (s : State)

theorem pocByte_giveBack (sec a : Nat) : (s.giveBack sec).pocByte a = s.pocByte a := by
  unfold State.giveBack
  split
  · exact pocByte_leaves s a sec
  · rfl

theorem pocTag_giveBack (sec k : Nat) : (s.giveBack sec).pocTag k = s.pocTag k := by
  unfold State.giveBack
  split
  · exact pocTag_leaves s k sec
  · rfl

/-- The host's write of a sector is a write at its home slice, which Mortar keeps only where it has the sector. -/
theorem hostPut_cases (sec : Nat) (cells : List (Nat × Byte)) : ∃ tag,
    s.hostPut sec cells = (s.giveBack sec).sectorStore (hostCells tag cells) ∨
    s.hostPut sec cells = (((s.giveBack sec).sectorStore (hostCells tag cells)).mortarWriteBack sec).mortarDrop sec := by
  unfold State.hostPut
  dsimp only
  split
  next m _ => exact ⟨m.tag, .inl rfl⟩
  next => exact ⟨_, .inr rfl⟩

theorem pocByte_hostPut (sec : Nat) {cells : List (Nat × Byte)} (memory : ∀ x ∈ cells, inWcBank x.1 = false) (a : Nat) :
    (s.hostPut sec cells).pocByte a = (lastByte cells a).getD (s.pocByte a) := by
  obtain ⟨tag, put | put⟩ := hostPut_cases s sec cells
  · rw [put, pocByte_sectorStore _ _ memory, pocByte_giveBack]
    rfl
  · rw [put, pocByte_leaves, pocByte_sectorStore _ _ memory, pocByte_giveBack]
    rfl

theorem pocTag_hostPut (sec : Nat) (cells : List (Nat × Byte)) (k : Nat) :
    (s.hostPut sec cells).pocTag k = if k ∈ cells.map (fun x => x.1 / 16) then false else s.pocTag k := by
  have unset (tag : MTag) : ∀ x ∈ (hostCells tag cells).units, x.2 = false := by
    intro x listed
    obtain ⟨u, -, rfl⟩ := List.mem_map.mp listed
    rfl
  have stores (v : State) (tag : MTag) : (v.sectorStore (hostCells tag cells)).pocTag k =
      if k ∈ cells.map (fun x => x.1 / 16) then false else v.pocTag k := by
    have units : (k ∈ (hostCells tag cells).units.map (fun x => x.1)) ↔ k ∈ cells.map (fun x => x.1 / 16) := by
      simp [hostCells]
    cases cells with
    | nil => rfl
    | cons x rest =>
      rw [pocTag_sectorStore _ _ (unset tag) (List.cons_ne_nil x rest)]
      exact if_congr units rfl rfl
  obtain ⟨tag, put | put⟩ := hostPut_cases s sec cells
  · rw [put, stores, pocTag_giveBack]
  · rw [put, pocTag_leaves, stores, pocTag_giveBack]

end

/-- The host's write, sector by sector. -/
def hostWrite (addr : Nat) (data : List Byte) (s : State) : State :=
  (((cellsFrom addr data).map (fun x => x.1 / 64)).eraseDups).foldl (fun (s : State) sec =>
    s.hostPut sec ((cellsFrom addr data).filter (fun x => x.1 / 64 == sec))) s

/-- The cells of a write in one sector. -/
theorem mem_sector_cells {addr sec : Nat} {data : List Byte} {x : Nat × Byte} :
    x ∈ (cellsFrom addr data).filter (fun x => x.1 / 64 == sec) ↔ x ∈ cellsFrom addr data ∧ x.1 / 64 = sec := by
  simp [List.mem_filter]

theorem lastByte_of_listed {cells : List (Nat × Byte)} {a : Nat} {b : Byte} (listed : (a, b) ∈ cells)
    (only : ∀ c, (a, c) ∈ cells → c = b) : lastByte cells a = some b := by
  unfold lastByte
  cases found : cells.reverse.find? (fun x => x.1 == a) with
  | none => exact absurd (List.find?_eq_none.mp found (a, b) (List.mem_reverse.mpr listed)) (by simp)
  | some x =>
    have key : x.1 = a := by simpa using List.find?_some found
    have there : (a, x.2) ∈ cells := by
      rw [← key]
      exact List.mem_reverse.mp (List.mem_of_find?_eq_some found)
    rw [Option.map_some, only x.2 there]

theorem lastByte_of_unlisted {cells : List (Nat × Byte)} {a : Nat} (unlisted : ∀ b, (a, b) ∉ cells) : lastByte cells a = none := by
  unfold lastByte
  rw [Option.map_eq_none_iff, List.find?_eq_none]
  intro x listed key
  have key : x.1 = a := by simpa using key
  exact unlisted x.2 (key ▸ List.mem_reverse.mp listed)

theorem lastByte_cellsFrom {addr a : Nat} {data : List Byte} (sec : Nat) :
    lastByte ((cellsFrom addr data).filter (fun x => x.1 / 64 == sec)) a =
      if (addr ≤ a ∧ a < addr + data.length) ∧ a / 64 = sec then some (data.getD (a - addr) 0) else none := by
  have value {b : Byte} (listed : (a, b) ∈ cellsFrom addr data) :
      (addr ≤ a ∧ a < addr + data.length) ∧ b = data.getD (a - addr) 0 := by
    obtain ⟨j, inside, rfl, rfl⟩ := mem_cellsFrom.mp listed
    exact ⟨⟨by omega, by omega⟩, by rw [Nat.add_sub_cancel_left]⟩
  split
  next inside =>
    refine lastByte_of_listed (mem_sector_cells.mpr ⟨mem_cellsFrom.mpr ⟨a - addr, by omega, by omega, rfl⟩, inside.2⟩) fun c listed => ?_
    exact (value (mem_sector_cells.mp listed).1).2
  next outside =>
    refine lastByte_of_unlisted fun b listed => outside ?_
    obtain ⟨there, sector⟩ := mem_sector_cells.mp listed
    exact ⟨(value there).1, sector⟩

/-- The sectors of a write. -/
theorem mem_sectors {addr sec : Nat} {data : List Byte} :
    sec ∈ ((cellsFrom addr data).map (fun x => x.1 / 64)).eraseDups ↔ ∃ a, (addr ≤ a ∧ a < addr + data.length) ∧ a / 64 = sec := by
  have addresses : (cellsFrom addr data).map (fun x => x.1 / 64) = ((cellsFrom addr data).map (fun x => x.1)).map (fun a => a / 64) := by
    rw [List.map_map]
    rfl
  rw [List.mem_eraseDups, addresses, List.mem_map]
  simp only [mem_addresses_cellsFrom]

section
variable {s : State} {addr : Nat} {data : List Byte}

/-- R339: the host's write is performed at its point of coherence. -/
theorem pocByte_hostWrite (memory : ∀ i < data.length, inWcBank (addr + i) = false) (a : Nat) :
    (hostWrite addr data s).pocByte a =
      if addr ≤ a ∧ a < addr + data.length then data.getD (a - addr) 0 else s.pocByte a := by
  have cells (sec : Nat) : ∀ x ∈ (cellsFrom addr data).filter (fun x => x.1 / 64 == sec), inWcBank x.1 = false := by
    intro x listed
    obtain ⟨j, inside, key, -⟩ := mem_cellsFrom.mp (mem_sector_cells.mp listed).1
    rw [key]
    exact memory j inside
  have step (v : State) (sec : Nat) : (v.hostPut sec ((cellsFrom addr data).filter (fun x => x.1 / 64 == sec))).pocByte a =
      if (addr ≤ a ∧ a < addr + data.length) ∧ a / 64 = sec then data.getD (a - addr) 0 else v.pocByte a := by
    rw [pocByte_hostPut v sec (cells sec), lastByte_cellsFrom]
    split <;> rfl
  split
  next inside =>
    refine foldl_establishes (P := fun sec (v : State) => sec = a / 64 → v.pocByte a = data.getD (a - addr) 0) _
      (fun v sec own => ?_) (fun v sec i before own => ?_) _ s (mem_sectors.mpr ⟨a, inside, rfl⟩) rfl
    · rw [step, if_pos ⟨inside, own.symm⟩]
    · rw [step, before own, ite_self]
  next outside =>
    refine foldl_frame (fun v : State => v.pocByte a) _ (fun v sec => ?_) _ s
    rw [step, if_neg fun h => outside h.1]

/-- R205: the host's write clears the tags of the units that it touches. -/
theorem pocTag_hostWrite (k : Nat) : (hostWrite addr data s).pocTag k =
    if data ≠ [] ∧ addr / 16 ≤ k ∧ k ≤ (addr + data.length - 1) / 16 then false else s.pocTag k := by
  have touched (sec : Nat) : (k ∈ ((cellsFrom addr data).filter (fun x => x.1 / 64 == sec)).map (fun x => x.1 / 16)) ↔
      k ∈ (cellsFrom addr data).map (fun x => x.1 / 16) ∧ k / 4 = sec := by
    simp only [List.mem_map, mem_sector_cells]
    constructor
    · rintro ⟨x, ⟨there, sector⟩, rfl⟩
      exact ⟨⟨x, there, rfl⟩, by omega⟩
    · rintro ⟨⟨x, there, rfl⟩, sector⟩
      exact ⟨x, ⟨there, by omega⟩, rfl⟩
  have step (v : State) (sec : Nat) : (v.hostPut sec ((cellsFrom addr data).filter (fun x => x.1 / 64 == sec))).pocTag k =
      if k ∈ (cellsFrom addr data).map (fun x => x.1 / 16) ∧ k / 4 = sec then false else v.pocTag k := by
    rw [pocTag_hostPut]
    simp only [touched]
  rw [← if_congr touched_cellsFrom rfl rfl]
  split
  next inside =>
    have listed : k / 4 ∈ ((cellsFrom addr data).map (fun x => x.1 / 64)).eraseDups := by
      obtain ⟨x, there, rfl⟩ := List.mem_map.mp inside
      rw [List.mem_eraseDups]
      exact List.mem_map.mpr ⟨x, there, by omega⟩
    refine foldl_establishes (P := fun sec (v : State) => sec = k / 4 → v.pocTag k = false) _
      (fun v sec own => ?_) (fun v sec i before own => ?_) _ s listed rfl
    · rw [step, if_pos ⟨inside, own.symm⟩]
    · rw [step, before own, ite_self]
  next outside =>
    refine foldl_frame (fun v : State => v.pocTag k) _ (fun v sec => ?_) _ s
    rw [step, if_neg fun h => outside h.1]

end

/-! ### Reads, answers and snoops -/

/-- The sectors that the host may hold after a read of some. -/
theorem get_foldl_held (secs : List Nat) (m : Sparse Bool) (sec : Nat) :
    Sparse.get false (secs.foldl (fun m k => Sparse.set false m k true) m) sec = if sec ∈ secs then true else Sparse.get false m sec := by
  induction secs generalizing m with
  | nil => simp
  | cons k rest ih =>
    rw [List.foldl_cons, ih, get_set]
    by_cases here : sec = k <;> simp [here]

theorem mem_read_sectors {addr len sec : Nat} : sec ∈ ((List.range len).map (fun i => (addr + i) / 64)).eraseDups ↔
    len ≠ 0 ∧ addr / 64 ≤ sec ∧ sec ≤ (addr + len - 1) / 64 := by
  rw [List.mem_eraseDups]
  simp only [List.mem_map, List.mem_range]
  constructor
  · rintro ⟨i, inside, rfl⟩
    omega
  · rintro ⟨some_, low, high⟩
    exact ⟨max addr (64 * sec) - addr, by omega, by omega⟩

theorem pocByte_giveBacks (secs : List Nat) (s : State) (a : Nat) : (secs.foldl State.giveBack s).pocByte a = s.pocByte a :=
  foldl_frame (fun v : State => v.pocByte a) State.giveBack (fun v k => pocByte_giveBack v k a) secs s

/-- The module after the host has read: of its own memory Mortar has given back what it held. -/
def hostHasRead (addr len : Nat) (s : State) : State :=
  let secs := ((List.range len).map (fun i => (addr + i) / 64)).eraseDups
  { secs.foldl State.giveBack s with
    hostRead := (List.range len).map (fun i => s.pocByte (addr + i))
    hostHeld := (secs.filter (fun k => tierOf (64 * k) != 2)).foldl (fun m k => Sparse.set false m k true) s.hostHeld }

/-- R339: what the host reads, and what it may hold from then on. -/
theorem hostMemRead_completes {s : State} {addr len : Nat} (reaches : hostReaches addr len = true) :
    Completes (.hostMemRead addr len) s (fun u =>
      u.hostRead = (List.range len).map (fun i => s.pocByte (addr + i)) ∧ (∀ a, u.pocByte a = s.pocByte a) ∧
      ∀ sec, Sparse.get false u.hostHeld sec =
        if len ≠ 0 ∧ addr / 64 ≤ sec ∧ sec ≤ (addr + len - 1) / 64 ∧ tierOf (64 * sec) ≠ 2 then true
        else Sparse.get false s.hostHeld sec) := by
  have runs : execHostMemRead addr len s = .next (hostHasRead addr len s) := by
    rw [execHostMemRead, reaches]
    rfl
  refine ⟨_, runs, rfl, fun a => pocByte_giveBacks _ s a, fun sec => ?_⟩
  refine (get_foldl_held _ _ sec).trans (if_congr ?_ rfl rfl)
  rw [List.mem_filter, mem_read_sectors]
  simp only [bne_iff_ne, and_assoc]

/-- The host's answer gives up its sector. -/
theorem performHeld_gives_up (s : State) (sec : Nat) : Sparse.get false (s.performHeld sec).hostHeld sec = false := by
  have kept : (s.performHeld sec).hostHeld = Sparse.set false s.hostHeld sec false :=
    foldl_frame State.hostHeld State.sectorStore hostHeld_sectorStore _ _
  rw [kept, get_set_same]

/-- The one write that waits for a sector is performed with the host's answer. -/
theorem performHeld_of_single {s : State} {sec : Nat} {w : SectorWrite} (waits : s.biQ = [w])
    (cells : ∀ x ∈ w.cells, x.1 / 64 = sec) (some_ : w.cells ≠ []) : s.performHeld sec =
      ({ s with hostHeld := Sparse.set false s.hostHeld sec false, biQ := [] } : State).sectorStore w := by
  have mine : w.cells.any (fun x => x.1 / 64 == sec) = true := by
    obtain ⟨x, rest, list⟩ := List.exists_cons_of_ne_nil some_
    exact List.any_eq_true.mpr ⟨x, list ▸ List.mem_cons_self, by simpa using cells x (list ▸ List.mem_cons_self)⟩
  simp [State.performHeld, waits, mine]

theorem flushDeferred_of_none {s : State} (none : s.deferred = []) : s.flushDeferred = s := by
  have same : { s with deferred := [] } = s := by rw [← none]
  simp only [State.flushDeferred, none, List.foldl_nil, same]

/-- R338: the port that carries the requests of a virtual function while one port is down. -/
theorem cxlPort_of_down {u : State} {p : Nat} (port : p < 2) (down : u.cxlDown = [p]) (v : Nat) : u.cxlPort v = some (1 - p) := by
  have other : v % 2 = p ∨ v % 2 = 1 - p := by omega
  obtain same | differs := other
  · simp only [State.cxlPort, down, same]
    have : ¬ (1 - p = p) := by omega
    simp [this]
  · have : ¬ (1 - p = p) := by omega
    simp [State.cxlPort, down, differs, this]

/-- An invalidating snoop takes a sector from Mortar; another leaves it there. -/
theorem snooped_mortar {w : State} {k : Nat} {x : Option MortarSector} (inv : Bool) (clean : Sparse.get none w.mortar k = x) :
    Sparse.get none (if inv then w.mortarDrop k else w).mortar k = if inv then none else x := by
  cases inv with
  | true => rw [if_pos rfl, if_pos rfl, mortarDrop_frame, get_set_same]
  | false => exact clean

/-- R340: a snoop of a sector that Mortar holds. -/
theorem hostSnoop_completes {s : State} {addr : Nat} {m : MortarSector} {inv : Bool} (host : tierOf addr = 2)
    (held : Sparse.get none s.mortar (addr / 64) = some m) :
    Completes (.hostSnoop addr inv) s (fun u => u.hostRead = s.pocBytes (64 * (addr / 64)) 64 ∧
      (∀ a, u.pocByte a = s.pocByte a) ∧
      Sparse.get none u.mortar (addr / 64) = if inv then none else some { m with dirty := false }) := by
  let w := s.mortarWriteBack (addr / 64)
  have runs : execHostSnoop addr inv s = .next { (if inv then w.mortarDrop (addr / 64) else w) with
      hostRead := s.pocBytes (64 * (addr / 64)) 64 } := by
    rw [execHostSnoop]
    simp only [host, held, ne_eq, not_true, Option.isNone_some, Bool.false_eq_true, or_self, if_false]
    rfl
  refine ⟨_, runs, rfl, fun a => ?_, ?_⟩
  · have kept : (if inv then w.mortarDrop (addr / 64) else w).pocByte a = s.pocByte a := by
      split
      · exact pocByte_leaves s a _
      · exact pocByte_mortarWriteBack s _ a
    exact kept
  · refine snooped_mortar inv ?_
    rw [mortar_mortarWriteBack, get_set_same, held, Option.map_some]

/-- Settles O46: each access is followed through Mortar, whose write-backs and drops lose no byte and no tag; an answer's sector
stays given up whatever is tried again behind it. -/
theorem hostSeesMemory : Obligations.HostSeesMemory := by
  intro s addr len data
  refine ⟨fun reaches => ?write, fun stops => ?_, fun reaches => hostMemRead_completes reaches, fun stops => ?_, ?answer,
    ?performed, fun m inv host held => hostSnoop_completes host held, fun inv absent => ?_, ?down, ?again, fun p => ?up⟩
  case write =>
    have runs : execHostMemWrite addr data s = .next (hostWrite addr data s) := by
      rw [execHostMemWrite, reaches]
      rfl
    have memory : ∀ i < data.length, inWcBank (addr + i) = false := fun i inside => by
      have at_ := List.all_eq_true.mp reaches i (List.mem_range.mpr inside)
      simp only [Bool.and_eq_true, Bool.not_eq_true'] at at_
      exact at_.1
    exact ⟨_, runs, pocByte_hostWrite memory, pocTag_hostWrite⟩
  case answer =>
    refine ⟨_, rfl, ?_⟩
    show Sparse.get false ((s.performHeld (addr / 64)).flushDeferred).retryReads.hostHeld (addr / 64) = false
    rw [hostHeld_retryReads, hostHeld_flushDeferred]
    exact performHeld_gives_up s _
  case performed =>
    intro w waits cells some_ none still
    have single := performHeld_of_single waits (fun x listed => (cells x listed).1) some_
    have flushed : (s.performHeld (addr / 64)).flushDeferred = s.performHeld (addr / 64) :=
      flushDeferred_of_none (by rw [single, deferred_sectorStore]; exact none)
    have runs : execBackInvalidateResponse addr s = .next (s.performHeld (addr / 64)) := by
      rw [execBackInvalidateResponse, flushed, still]
    refine ⟨_, runs, ?_, fun a => ?_⟩
    · rw [single, biQ_sectorStore]
    · rw [single, pocByte_sectorStore _ _ fun x listed => (cells x listed).2, lastByte]
      cases w.cells.reverse.find? (fun x => x.1 == a) with
      | none => rfl
      | some x => rfl
  case down =>
    intro p v port idle
    have runs : execCxlLinkDown p s = .next { s with cxlDown := [p] } := by
      simp [execCxlLinkDown, port, idle]
    refine ⟨_, runs, cxlPort_of_down port rfl v, ?_⟩
    show execCxlLinkUp p _ = _
    have same : { s with cxlDown := [] } = s := by rw [← idle]
    simp [execCxlLinkUp, same]
  case again =>
    intro p port down
    show execCxlLinkDown p s = _
    simp [execCxlLinkDown, down]
  case up =>
    refine ⟨_, rfl, ?_, fun q other => ?_, rfl, rfl⟩
    · simp
    · simp [other]
  · show execHostMemWrite addr data s = _
    rw [execHostMemWrite, stops]
    rfl
  · show execHostMemRead addr len s = _
    rw [execHostMemRead, stops]
    rfl
  · show execHostSnoop addr inv s = _
    rw [execHostSnoop]
    exact if_pos (absent.imp id fun none => by rw [none]; rfl)

end Sys2Proof.Proofs
end

section
/-! SUPPORT. The issue of engine commands (04 R90, 05 R118): the entry of the return port that a command takes, and the queue that
it joins. -/
namespace Sys2Proof.Proofs
open Sys2Proof Sys2Proof.Machine Sys2Proof.Laws

/-! ### What every engine command does -/

/-- The strand's module with the next operation's number given out, and its entry of a return port taken unless NR is set. -/
def tookOp (s : State) (port : Nat) (nr : Bool) : State :=
  let u := { s with nextOp := s.nextOp + 1 }
  if nr then u else u.setCtx (u.ctx.setPort port (u.ctx.port port ++ [{ cmd := some s.nextOp }]))

/-- A command of Mortar, the Crown or Brim. -/
def hubCmd (s : State) (f : EFields) (op : Nat) (place : Option Place) (cap : TCap) : EngCmd := {
  id := s.nextOp, op, tile := s.cur, iss := s.issuer s.cur s.curCtx, ct := f.ct.toNat, nr := f.arg.getLsbD 17
  arg := f.arg.toNat, hnd := f.hnd.toNat, sval := s.ctx.readS f.s.toNat, place, cap, caps := s.ctx.k
  mask := s.ctx.readShape 8, die := s.cur / 64 }

/-- A strand whose bundle an engine blocks. -/
def stalled (s : State) (why : BlockWhy) : State := (s.block s.cur s.curCtx why).episodes s.cur

section
variable (s : State) (f : EFields) (port : Nat) (nr : Bool)

theorem eNr_eq : eNr f = f.arg.getLsbD 17 := by
  rw [eNr, bits_bit_eq, BitVec.testBit_toNat]

theorem statusEntry_takeOp : s.takeOp.2.statusEntry port s.takeOp.1 nr = tookOp s port nr := rfl

theorem engCmd_takeOp (op : Nat) (place : Option Place) (cap : TCap) :
    s.takeOp.2.engCmd s.takeOp.1 op f place cap = hubCmd s f op place cap := by
  rw [State.engCmd, eNr_eq]
  rfl

/-- The queues of the engines beside the tiles. -/
theorem tookOp_queues : (tookOp s port nr).mortarQ = s.mortarQ ∧ (tookOp s port nr).crownQ = s.crownQ ∧
    (tookOp s port nr).brimQ = s.brimQ ∧ (tookOp s port nr).hodQ = s.hodQ ∧ (tookOp s port nr).cur = s.cur := by
  unfold tookOp
  dsimp only
  split <;> exact ⟨rfl, rfl, rfl, rfl, rfl⟩

theorem tookOp_tile : ((tookOp s port nr).tile s.cur).cq = (s.tile s.cur).cq ∧
    ((tookOp s port nr).tile s.cur).sigq = (s.tile s.cur).sigq := by
  unfold tookOp
  dsimp only
  split
  · exact ⟨rfl, rfl⟩
  · simp only [State.setCtx, State.setCtxAt]
    rw [setTile_tile]
    exact ⟨rfl, rfl⟩

theorem tookOp_nColl : (tookOp s port nr).ctx.nColl = s.ctx.nColl := by
  unfold tookOp
  dsimp only
  split
  · rfl
  · rw [setCtx_ctx]
    rfl

end

/-! ### Mortar, the Crown and Brim -/

section
variable {s : State} {f : EFields} (op : Nat)

theorem mortarIssue_eq (place : Option Place) (cap : TCap) : s.mortarIssue op f place cap =
    { tookOp s 9 (f.arg.getLsbD 17) with mortarQ := s.mortarQ ++ [hubCmd s f op place cap] } := by
  unfold State.mortarIssue
  dsimp only
  rw [engCmd_takeOp, statusEntry_takeOp, (tookOp_queues s 9 _).1]
  rfl

theorem crownEnter_eq (place : Option Place) (cap : TCap) : s.crownEnter op f place cap =
    { tookOp s 11 (f.arg.getLsbD 17) with crownQ := s.crownQ ++ [hubCmd s f op place cap] } := by
  unfold State.crownEnter
  dsimp only
  rw [engCmd_takeOp, statusEntry_takeOp, (tookOp_queues s 11 _).2.1]
  rfl

theorem brimEnter_eq (place : Option Place) (cap : TCap) : s.brimEnter op f place cap =
    { tookOp s 12 (f.arg.getLsbD 17) with brimQ := s.brimQ ++ [hubCmd s f op place cap] } := by
  unfold State.brimEnter
  dsimp only
  rw [engCmd_takeOp, statusEntry_takeOp, (tookOp_queues s 12 _).2.2.1]
  rfl

/-- The commands of the strand's crew in a queue. -/
def crewQueued (s : State) (q : List EngCmd) : Nat := crewCmds q (s.issuer s.cur s.curCtx)

theorem mtIssue_of_room (room : crewQueued s s.mortarQ < 16) : s.mtIssue op f = .ok (s.mortarIssue op f none {}) :=
  if_neg (Nat.not_le.mpr room)

theorem mtIssue_of_full (full : 16 ≤ crewQueued s s.mortarQ) : s.mtIssue op f = .block (.engineQueue op) := if_pos full

theorem wvIssue_of_full (full : 16 ≤ crewQueued s s.crownQ) : s.wvIssue op f = .block (.engineQueue op) := if_pos full

theorem tjValue_of_room (room : crewQueued s s.brimQ < 16) : s.tjValue op f = .ok (s.brimEnter op f none {}) :=
  if_neg (Nat.not_le.mpr room)

theorem tjValue_of_full (full : 16 ≤ crewQueued s s.brimQ) : s.tjValue op f = .block (.engineQueue op) := if_pos full

theorem tjIssue_of_full (n align : Nat) (full : 16 ≤ crewQueued s s.brimQ) :
    s.tjIssue op n align f = .block (.engineQueue op) := if_pos full

variable {cap : TCap} {p : Place} (named : readCapReg s.ctx f.k.toNat = .ok cap)
include named

theorem descCheck_ok {n align : Nat} (checked : s.check cap (eOff s f) n (rR + rE) align .engine = .ok p) :
    s.descCheck f n align = .ok (cap, p) := by
  rw [State.descCheck, named, bind_ok, checked, bind_ok]

theorem wvIssue_of_room (checked : s.check cap (eOff s f) 64 (rR + rW + rE) 64 .engine = .ok p)
    (room : crewQueued s s.crownQ < 16) : s.wvIssue op f = .ok (s.crownEnter op f (some p) cap) := by
  refine (if_neg (Nat.not_le.mpr room)).trans ?_
  rw [named, bind_ok, checked, bind_ok]

theorem tjIssue_of_room {n align : Nat} (checked : s.check cap (eOff s f) n (rR + rE) align .engine = .ok p)
    (room : crewQueued s s.brimQ < 16) : s.tjIssue op n align f = .ok (s.brimEnter op f (some p) cap) := by
  refine (if_neg (Nat.not_le.mpr room)).trans ?_
  rw [descCheck_ok named checked, bind_ok]

end

/-! ### Collectives -/

/-- A collective command as its slot gives it. -/
def slotColl (s : State) (f : EFields) (op : Nat) (p : Place) : CollCmd := {
  id := s.nextOp, op, tile := s.cur, iss := s.issuer s.cur s.curCtx, ct := f.ct.toNat, nr := f.arg.getLsbD 17
  hnd := f.hnd.toNat, cseq := f.arg.toNat % 2 ^ 16, place := some p }

/-- The module after a collective command has joined the Hod's queue. -/
def collQueued (s : State) (f : EFields) (op : Nat) (p : Place) : State :=
  let u := tookOp s 10 (f.arg.getLsbD 17)
  { u.setCtx { u.ctx with nColl := s.ctx.nColl + 1 } with hodQ := s.hodQ ++ [slotColl s f op p] }

section
variable {s : State} {f : EFields} (op n : Nat)

theorem collIssue_of_full (full : 16 ≤ s.ctx.nColl) : s.collIssue op n f = .block .collectives := if_pos full

theorem collIssue_of_room {cap : TCap} {p : Place} (named : readCapReg s.ctx f.k.toNat = .ok cap)
    (checked : s.check cap (eOff s f) n (rR + rE) 64 .engine = .ok p) (room : s.ctx.nColl < 16) :
    s.collIssue op n f = .ok (collQueued s f op p) := by
  refine (if_neg (Nat.not_le.mpr room)).trans ?_
  rw [descCheck_ok named checked, bind_ok]
  dsimp only
  rw [eNr_eq, statusEntry_takeOp, tookOp_nColl]
  rw [(tookOp_queues s 10 _).2.2.2.1]
  rfl

end

/-! ### Copies and counter signals -/

/-- A copy command as its slot gives it. -/
def slotCopy (s : State) (f : EFields) (op : Nat) (p : Place) : CopyCmd := {
  id := s.nextOp, op, iss := s.issuer s.cur s.curCtx, place := p, desc := none, caps := s.ctx.k, ct := f.ct.toNat
  inc := f.arg.toNat % 2 ^ 16, nr := f.arg.getLsbD 17, qprio := f.qprio.toNat, hnd := f.hnd.toNat, entered := s.clk }

/-- The module after a command has joined the tile's copy queue. -/
def copyQueued (s : State) (f : EFields) (c : CopyCmd) : State :=
  let u := tookOp s 8 (f.arg.getLsbD 17)
  u.setTile s.cur { u.tile s.cur with cq := (s.tile s.cur).cq ++ [c] }

section
variable {s : State} {f : EFields} {op : Nat}

theorem cpyIssue_of_full (full : 16 ≤ (s.tile s.cur).cq.length) : s.cpyIssue op f = .block (.engineQueue op) := if_pos full

theorem slotCopy_eq (p : Place) : slotCopy s f op p = {
    id := s.nextOp, op, iss := s.issuer s.cur s.curCtx, place := p, desc := none, caps := s.ctx.k, ct := f.ct.toNat
    inc := bits f.arg.toNat 15 0, nr := eNr f, qprio := f.qprio.toNat, hnd := f.hnd.toNat, entered := s.clk } := by
  rw [eNr_eq, bits_low_eq]
  rfl

theorem copyQueued_eq (c : CopyCmd) (own : c.nr = f.arg.getLsbD 17) : copyQueued s f c =
    (let u := s.takeOp.2.statusEntry 8 s.takeOp.1 c.nr
     u.setTile u.cur { u.tile u.cur with cq := (u.tile u.cur).cq ++ [c] }) := by
  rw [own, statusEntry_takeOp, copyQueued]
  dsimp only
  rw [(tookOp_queues s 8 _).2.2.2.2, (tookOp_tile s 8 _).1]

/-- A check that gives a place in the scratchpad was of a capability of the scratchpad. -/
theorem isSpad_of_check {cap : TCap} {off n need align o : Nat} {u : Use}
    (checked : s.check cap off n need align u = .ok (.spad o)) : capIsSpad cap = true := by
  obtain ⟨-, -, -, -, -, -, ⟨spad, -⟩ | ⟨e, -, -, -, -, -, -, virt⟩⟩ := capCheck_passes checked
  · simp [capIsSpad, spad]
  · cases virt

section
variable {cap : TCap} {p : Place} (named : readCapReg s.ctx f.k.toNat = .ok cap)
  (checked : s.check cap (eOff s f) 64 (rR + rE) 64 .engine = .ok p) (room : (s.tile s.cur).cq.length < 16)
include named checked room

theorem cpyIssue_of_plain (plain : isCpyf op = false) : s.cpyIssue op f = .ok (copyQueued s f (slotCopy s f op p)) := by
  refine (if_neg (Nat.not_le.mpr room)).trans ?_
  rw [named, bind_ok, plain, descCheck_ok named checked]
  simp only [Bool.not_false, Bool.true_or, Res.need, if_true, bind_ok, Bool.false_and, Bool.false_eq_true, if_false]
  rw [copyQueued_eq _ rfl, slotCopy_eq]
  rfl

end

theorem cpyIssue_of_follow {cap : TCap} {o : Nat} {e : MqEntry} (named : readCapReg s.ctx f.k.toNat = .ok cap)
    (checked : s.check cap (eOff s f) 64 (rR + rE) 64 .engine = .ok (.spad o)) (room : (s.tile s.cur).cq.length < 16)
    (follows : isCpyf op = true) (free : s.readBlocked s.cur s.curCtx s.ctx.num 0 (.spad o) 64 = false)
    (sound : s.spadBad s.cur o 64 = false) (legal : s.followCheck (slotCopy s f op (.spad o)) (s.spadBytes s.cur o 64) = .ok e) :
    s.cpyIssue op f = .ok (copyQueued s f { slotCopy s f op (.spad o) with
      desc := some (s.spadBytes s.cur o 64)
      follow := some e }) := by
  refine (if_neg (Nat.not_le.mpr room)).trans ?_
  rw [named, bind_ok, follows, descCheck_ok named checked, isSpad_of_check checked]
  simp only [Bool.or_true, Res.need, if_true, bind_ok, free, sound, Bool.and_false, Bool.false_eq_true, if_false]
  unfold slotCopy at legal
  rw [copyQueued_eq _ rfl, eNr_eq, bits_low_eq]
  simp only [State.takeOp]
  rw [legal, bind_ok]
  rfl

end

/-- The module after a command has joined the tile's counter-signal queue. -/
def signalQueued (s : State) (f : EFields) (op : Nat) (target value : Word) : State :=
  let u := tookOp s 13 (f.arg.getLsbD 17)
  u.setTile s.cur { u.tile s.cur with sigq := (s.tile s.cur).sigq ++ [{
    id := s.nextOp, op, iss := s.issuer s.cur s.curCtx, target, value, ct := f.ct.toNat, nr := f.arg.getLsbD 17 }] }

section
variable {s : State} {f : EFields} {op : Nat} {target value : Word}

theorem sigIssue_of_full (full : 16 ≤ (s.tile s.cur).sigq.length) : s.sigIssue op f target value = .block (.engineQueue op) :=
  if_pos full

theorem sigIssue_of_room (room : (s.tile s.cur).sigq.length < 16) :
    s.sigIssue op f target value = .ok (signalQueued s f op target value) := by
  refine (if_neg (Nat.not_le.mpr room)).trans ?_
  dsimp only
  rw [eNr_eq, statusEntry_takeOp, signalQueued]
  dsimp only
  rw [(tookOp_queues s 13 _).2.2.2.2, (tookOp_tile s 13 _).2]
  rfl

end

/-! ### The obligation -/

/-- A slot that succeeds, and one that its engine blocks. -/
theorem settle_ok {s u : State} {r : Res State} (issued : r = .ok u) : settle s r = .next u := by rw [issued]; rfl

theorem settle_block {s : State} {r : Res State} {why : BlockWhy} (blocked : r = .block why) :
    settle s r = .next (stalled s why) := by rw [blocked]; rfl

/-- Settles O36: each engine's issue gives its command by name, behind the checks of its operands. -/
theorem engineCommandsQueue : Obligations.EngineCommandsQueue := by
  intro s f off nr me taken full engine mine
  refine ⟨⟨fun cap p named checked room => ?copies, fun long => ?copiesFull⟩, ⟨fun room => ?signals, fun long => ?signalsFull⟩,
    ⟨fun room => ?mortar, fun long => ?mortarFull⟩, ⟨fun room => ?collectives, fun full => ?collectivesFull⟩,
    ⟨fun room => ?crown, fun long => ?crownFull⟩, ⟨fun room => ?brim, fun long => ?brimFull⟩⟩
  case copies =>
    have plain (op : Nat) (copies : isCpyf op = false) : settle s (s.cpyIssue op f) = .next (copyQueued s f (slotCopy s f op p)) :=
      settle_ok (cpyIssue_of_plain named checked room copies)
    refine ⟨plain 0xE4 rfl, plain 0xE7 rfl, plain 0xE8 rfl, plain 0xE9 rfl, fun o at_ free sound => ?_⟩
    subst at_
    exact ⟨fun e legal => settle_ok (cpyIssue_of_follow (op := 0xE5) named checked room rfl free sound legal),
      fun e legal => settle_ok (cpyIssue_of_follow (op := 0xE6) named checked room rfl free sound legal)⟩
  case copiesFull => exact ⟨settle_block (cpyIssue_of_full long), settle_block (cpyIssue_of_full long)⟩
  case signals =>
    have enters (op : Nat) (target value : Word) : settle s (s.sigIssue op f target value) =
      .next (signalQueued s f op target value) := settle_ok (sigIssue_of_room room)
    exact ⟨enters 0xEA _ _, enters 0xF3 _ _, enters 0xF4 _ _⟩
  case signalsFull =>
    exact ⟨settle_block (sigIssue_of_full long), settle_block (sigIssue_of_full long), settle_block (sigIssue_of_full long)⟩
  case mortar =>
    have enters (op : Nat) : settle s (s.mtIssue op f) = .next _ :=
      settle_ok ((mtIssue_of_room op room).trans (congrArg Res.ok (mortarIssue_eq op none {})))
    refine ⟨enters 0xEB, enters 0xEC, enters 0xED, enters 0xEE, enters 0xEF, enters 0xF0, enters 0xF2,
      fun cap p named checked => settle_ok ((if_neg (Nat.not_le.mpr room)).trans ?_)⟩
    rw [descCheck_ok named checked, bind_ok, mortarIssue_eq]
    rfl
  case mortarFull => exact ⟨settle_block (mtIssue_of_full _ long), settle_block (if_pos long)⟩
  case collectives =>
    intro x listed cap p named checked
    simp only [List.mem_cons, List.not_mem_nil, or_false] at listed
    have enters (op n : Nat) (checked : s.check cap (eOff s f) n (rR + rE) 64 .engine = .ok p) :
        settle s (s.collIssue op n f) = .next (collQueued s f op p) := settle_ok (collIssue_of_room op n named checked room)
    rcases listed with rfl | rfl | rfl | rfl | rfl | rfl | rfl | rfl | rfl | rfl | rfl <;> exact enters _ _ checked
  case collectivesFull =>
    intro x listed
    simp only [List.mem_cons, List.not_mem_nil, or_false] at listed
    have stalls (op n : Nat) : settle s (s.collIssue op n f) = .next (stalled s .collectives) :=
      settle_block (collIssue_of_full op n full)
    rcases listed with rfl | rfl | rfl | rfl | rfl | rfl | rfl | rfl | rfl | rfl | rfl <;> exact stalls _ _
  case crown =>
    refine ⟨settle_ok ((if_neg (Nat.not_le.mpr room)).trans (congrArg Res.ok (crownEnter_eq 0xF9 none {}))),
      fun cap p named checked => ?_⟩
    have enters (op : Nat) : settle s (s.wvIssue op f) = .next _ :=
      settle_ok ((wvIssue_of_room op named checked room).trans (congrArg Res.ok (crownEnter_eq op (some p) cap)))
    exact ⟨enters 0xFA, enters 0xFB, enters 0xFC, enters 0xFD⟩
  case crownFull => exact ⟨settle_block (if_pos long), settle_block (wvIssue_of_full _ long)⟩
  case brim =>
    have enters (op : Nat) : settle s (s.tjValue op f) = .next _ :=
      settle_ok ((tjValue_of_room op room).trans (congrArg Res.ok (brimEnter_eq op none {})))
    refine ⟨enters 0xF5, enters 0xF6, fun cap p named => ⟨fun checked => ?_, fun checked => ?_⟩⟩
    · exact settle_ok ((tjIssue_of_room _ named checked room).trans (congrArg Res.ok (brimEnter_eq 0xF7 (some p) cap)))
    · exact settle_ok ((tjIssue_of_room _ named checked room).trans (congrArg Res.ok (brimEnter_eq 0xF8 (some p) cap)))
  case brimFull => exact ⟨settle_block (tjValue_of_full _ long), settle_block (tjIssue_of_full _ _ _ long)⟩

end Sys2Proof.Proofs
end

section
/-! SUPPORT. One turn of the copy engine from scratchpad to scratchpad (17 R371, R374): the pieces of a destination sector. -/
namespace Sys2Proof.Proofs
open Sys2Proof Sys2Proof.Machine Sys2Proof.Laws

/-! ### Bytes and poison of a crew's scratchpad -/

theorem crewBytes_eq (s : State) (i : Issuer) (o n : Nat) :
    s.crewBytes i o n = (List.range n).flatMap (fun j => s.crewBytes i (o + j) 1) := by
  unfold State.crewBytes
  cases s.crewState i.gang i.crew with
  | none => simp [← List.map_eq_flatMap]
  | some t => simp [← List.map_eq_flatMap]

/-- A range within one sector is one part. -/
theorem sectorParts_within (o : Nat) : ∀ n, 0 < n → o % 64 + n ≤ 64 → sectorParts o n = [(0, n)]
  | 1, _, _ => rfl
  | n + 2, _, fits => by
    have next : ¬ (o + (n + 1)) % 64 = 0 := by omega
    rw [sectorParts, sectorParts_within o (n + 1) (by omega) (by omega)]
    simp [next]

theorem engPoison_within (s : State) (i : Issuer) {o n : Nat} (some : 0 < n) (fits : o % 64 + n ≤ 64)
    (clean : s.engPoison i (.spad o) 1 = none) : s.engPoison i (.spad o) n = none := by
  unfold State.engPoison at clean ⊢
  dsimp only at clean ⊢
  rw [sectorParts_within o n some fits]
  rw [sectorParts_within o 1 (by omega) (by omega)] at clean
  exact clean

/-! ### Where a linear side lies -/

/-- Within a row of the iteration order, bytes lie one behind another. -/
theorem linearOff_add (d : CopyDesc) (addr : Nat) (st : List Nat) {p i : Nat} (row : p % d.n0 + i < d.n0) :
    linearOff d addr st none (p + i) = linearOff d addr st none p + i := by
  have same : (p + i) / d.n0 = p / d.n0 := by
    have split := Nat.div_add_mod p d.n0
    rw [show p + i = p % d.n0 + i + d.n0 * (p / d.n0) by omega, Nat.add_mul_div_left _ _ (by omega),
      Nat.div_eq_of_lt row, Nat.zero_add]
  have rest : (p + i) % d.n0 = p % d.n0 + i := by
    rw [Nat.add_mod, Nat.mod_eq_of_lt (show i < d.n0 by omega), Nat.mod_eq_of_lt row]
  simp only [linearOff, same, rest]
  omega

/-- A row that begins before the end of a command ends there or before. -/
theorem row_within_total {d : CopyDesc} {p : Nat} (within : p < d.total) : p + (d.n0 - p % d.n0) ≤ d.total := by
  have rows : d.total = d.n0 * (d.n1 * d.n2 * d.n3) := by simp only [CopyDesc.total, Nat.mul_assoc]
  have n0 : 0 < d.n0 := Nat.pos_of_ne_zero fun zero => by simp [rows, zero] at within
  rw [rows] at within ⊢
  have begun : p / d.n0 + 1 ≤ d.n1 * d.n2 * d.n3 := Nat.div_lt_of_lt_mul within
  have ends := Nat.mul_le_mul_left d.n0 begun
  have whole := Nat.div_add_mod p d.n0
  have short := Nat.mod_lt p n0
  rw [Nat.mul_add] at ends
  omega

/-! ### The pieces of a sector -/

/-- A linear side of the scratchpad. -/
def spadSide (cap : TCap) (z addr : Nat) (st : List Nat) : Side := .linear cap (.spad z) addr st

/-- Where position p of such a side lies. -/
def spadAt (d : CopyDesc) (z addr : Nat) (st : List Nat) (p : Nat) : Nat := z + linearOff d addr st none p

theorem spadAt_add (d : CopyDesc) (z addr : Nat) (st : List Nat) {p i : Nat} (row : p % d.n0 + i < d.n0) :
    spadAt d z addr st (p + i) = spadAt d z addr st p + i := by
  rw [spadAt, linearOff_add d addr st row, spadAt, Nat.add_assoc]

theorem locate_spadSide (x : Tile) (d : CopyDesc) (cap : TCap) (z addr : Nat) (st : List Nat) (p : Nat) :
    locate x d (spadSide cap z addr st) none p =
      (.at (.spad (spadAt d z addr st p)) true, 64 - spadAt d z addr st p % 64) := rfl

/-- Pieces that move n bytes within the scratchpad, byte j from `source j`, each out of one sector. -/
structure Covers (s : State) (i : Issuer) (source : Nat → Nat) (n : Nat) (qs : List Piece) : Prop where
  length : (qs.map Piece.n).sum = n
  bytes : qs.flatMap (fun q => (s.locRead i q.src q.n).getD []) = (List.range n).flatMap (fun j => s.crewBytes i (source j) 1)
  sources : ∀ q ∈ qs, ∃ j < n, q.src = .at (.spad (source j)) true ∧ 0 < q.n ∧ source j % 64 + q.n ≤ 64
  dests : ∀ q ∈ qs, q.dst.page = none

theorem Covers.nil (s : State) (i : Issuer) (source : Nat → Nat) : Covers s i source 0 [] :=
  ⟨rfl, rfl, by simp, by simp⟩

/-- A piece in front of others. -/
theorem Covers.cons {s : State} {i : Issuer} {source : Nat → Nat} {n m : Nat} {qs : List Piece} {o : Nat}
    (rest : Covers s i (fun j => source (m + j)) n qs) (some : 0 < m) (fits : source 0 % 64 + m ≤ 64)
    (run : ∀ j < m, source j = source 0 + j) :
    Covers s i source (m + n) ({ src := .at (.spad (source 0)) true, dst := .at (.spad o) true, n := m } :: qs) where
  length := by simp [rest.length]
  bytes := by
    have own : s.crewBytes i (source 0) m = (List.range m).flatMap (fun j => s.crewBytes i (source j) 1) := by
      rw [crewBytes_eq]
      refine List.flatMap_congr fun j listed => ?_
      rw [run j (List.mem_range.mp listed)]
    rw [List.flatMap_cons, rest.bytes, List.range_add, List.flatMap_append, List.flatMap_map, ← own]
    rfl
  sources := by
    intro q listed
    rcases List.mem_cons.mp listed with rfl | later
    · exact ⟨0, by omega, rfl, some, fits⟩
    · obtain ⟨j, short, place⟩ := rest.sources q later
      exact ⟨m + j, by omega, place⟩
  dests := by
    intro q listed
    rcases List.mem_cons.mp listed with rfl | later
    · rfl
    · exact rest.dests q later

theorem row_of_unindexed {c : CopyCmd} (plain : isIndexed c.op = false) (d : CopyDesc) : c.row d = none := by
  simp [CopyCmd.row, plain]

theorem srcRow_of_unindexed {c : CopyCmd} (plain : isIndexed c.op = false) (d : CopyDesc) : c.srcRow d = none := by
  simp [CopyCmd.srcRow, row_of_unindexed plain]

theorem dstRow_of_unindexed {c : CopyCmd} (plain : isIndexed c.op = false) (d : CopyDesc) : c.dstRow d = none := by
  simp [CopyCmd.dstRow, row_of_unindexed plain]

/-- The end of a run of n bytes whose destinations lie one behind another from w on: the room, the command, or a byte that
goes elsewhere. -/
structure RunEnds (dest : Nat → Nat) (total cursor w room n : Nat) : Prop where
  fits : n ≤ room
  within : cursor + n ≤ total
  run : ∀ j < n, dest (cursor + j) = w + j
  ends : n = room ∨ cursor + n = total ∨ dest (cursor + n) ≠ w + n

theorem RunEnds.advance {dest : Nat → Nat} {total cursor w room n m : Nat} (h : RunEnds dest total cursor w room n) (le : m ≤ n) :
    RunEnds dest total (cursor + m) (w + m) (room - m) (n - m) where
  fits := Nat.sub_le_sub_right h.fits m
  within := by have := h.within; omega
  run j short := by rw [Nat.add_assoc, h.run (m + j) (by omega), Nat.add_assoc]
  ends := by
    rcases h.ends with room | total | other
    · exact .inl (by omega)
    · exact .inr (.inl (by omega))
    · refine .inr (.inr ?_)
      rwa [show cursor + m + (n - m) = cursor + n by omega, show w + m + (n - m) = w + n by omega]

/-- The pieces of a sector cover the run of bytes that it ends. -/
theorem pieces_cover (s : State) (x : Tile) (d : CopyDesc) (i : Issuer) (capA capB : TCap) (a z sa da : Nat) (ss ds : List Nat)
    (fuel : Nat) : ∀ (c : CopyCmd) (room w n : Nat), isIndexed c.op = false → room ≤ fuel →
      RunEnds (spadAt d z da ds) d.total c.cursor w room n → Covers s i (fun j => spadAt d a sa ss (c.cursor + j)) n
        (c.pieces x d (spadSide capA a sa ss) (spadSide capB z da ds) fuel room (.at (.spad w) true)) := by
  induction fuel with
  | zero =>
    intro c room w n _ short h
    obtain rfl : n = 0 := by have := h.fits; omega
    exact Covers.nil ..
  | succ fuel ih =>
    intro c room w n plain short h
    simp only [CopyCmd.pieces, row_of_unindexed plain, srcRow_of_unindexed plain, dstRow_of_unindexed plain, locate_spadSide]
    split
    next stops =>
      obtain rfl : n = 0 := by
        by_contra some
        have first := h.run 0 (by omega)
        have fits := h.fits
        have within := h.within
        simp only [Nat.add_zero] at first
        simp [first] at stops
        omega
      exact Covers.nil ..
    next goes =>
      simp only [Bool.or_eq_true, decide_eq_true_eq, bne_iff_ne, beq_iff_eq, not_or, not_le, reduceCtorEq,
        not_false_eq_true, and_true, Loc.at.injEq, Place.spad.injEq, ne_eq, not_not] at goes
      obtain ⟨⟨some, within⟩, here⟩ := goes
      generalize len : Nat.min (d.n0 - c.cursor % d.n0) (Nat.min (64 - spadAt d a sa ss c.cursor % 64)
        (Nat.min (64 - spadAt d z da ds c.cursor % 64) room)) = m
      have n0 : 0 < d.n0 := Nat.pos_of_ne_zero fun zero => by simp [CopyDesc.total, zero] at within
      have row_left := Nat.mod_lt c.cursor n0
      have bounds : 0 < m ∧ m ≤ d.n0 - c.cursor % d.n0 ∧ m ≤ 64 - spadAt d a sa ss c.cursor % 64 ∧ m ≤ room := by
        simp only [Nat.min_def] at len
        have := Nat.mod_lt (spadAt d a sa ss c.cursor) (show 0 < 64 by omega)
        have := Nat.mod_lt (spadAt d z da ds c.cursor) (show 0 < 64 by omega)
        split_ifs at len <;> omega
      obtain ⟨pos, row, sector, roomy⟩ := bounds
      have inner (z addr : Nat) (st : List Nat) (j : Nat) (lt : j < m) :
          spadAt d z addr st (c.cursor + j) = spadAt d z addr st c.cursor + j := spadAt_add d z addr st (by omega)
      have le : m ≤ n := by
        by_contra less
        rcases h.ends with full | total | other
        · omega
        · have := row_within_total within
          omega
        · exact other (by rw [inner z da ds n (by omega), here])
      have later := ih { c with cursor := c.cursor + m } (room - m) (w + m) (n - m) plain (by omega) (h.advance le)
      have whole := Covers.cons (source := fun j => spadAt d a sa ss (c.cursor + j)) (o := spadAt d z da ds c.cursor) (m := m)
        (by simpa only [Nat.add_assoc] using later) pos (by simp only [Nat.add_zero]; omega)
        (fun j lt => by rw [inner a sa ss j lt, Nat.add_zero])
      rw [Nat.add_sub_cancel' le, here] at whole
      rw [here]
      exact whole

/-! ### The turn -/

theorem foldl_fixed_of_mem {α β : Type} {f : β → α → β} {b : β} : ∀ l : List α, (∀ x ∈ l, f b x = b) → l.foldl f b = b
  | [], _ => rfl
  | x :: l, fixed => by
    rw [List.foldl_cons, fixed x (by simp), foldl_fixed_of_mem l fun y listed => fixed y (by simp [listed])]

theorem freshPieces_of_pageless (s : State) (vf : Nat) (src dst : Side) : ∀ (ps pd : Option Nat) (qs : List Piece),
    (∀ q ∈ qs, q.src.page = none ∧ q.dst.page = none) → s.freshPieces vf src dst ps pd qs = qs
  | _, _, [], _ => rfl
  | ps, pd, q :: qs, pageless => by
    obtain ⟨src_page, dst_page⟩ := pageless q (by simp)
    have fresh (side : Side) (last : Option Nat) : s.staleAt vf side last none = false := by
      unfold State.staleAt
      split
      · simp_all
      · rfl
    rw [State.freshPieces, src_page, dst_page, fresh, fresh,
      freshPieces_of_pageless s vf src dst none none qs fun q listed => pageless q (by simp [listed])]
    rfl

theorem getD_getLast?_map {α β : Type} (f : α → Option β) (l : List α) (absent : ∀ x ∈ l, f x = none) :
    (l.getLast?.map f).getD none = none := by
  cases last : l.getLast? with
  | none => rfl
  | some x => exact absent x (List.mem_of_getLast? last)

section
variable {s : State} {c : CopyCmd} {source : Nat → Nat} {n : Nat} {qs : List Piece} (covers : Covers s c.iss source n qs)
include covers

theorem Covers.pageless (q : Piece) (listed : q ∈ qs) : q.src.page = none ∧ q.dst.page = none := by
  obtain ⟨j, _, place, _⟩ := covers.sources q listed
  exact ⟨by rw [place]; rfl, covers.dests q listed⟩

/-- Pieces out of a scratchpad without poison move as one. -/
theorem movePieces_of_covers (clean : ∀ j < n, s.engPoison c.iss (.spad (source j)) 1 = none) (first : Option Nat) (o : Nat)
    (fill : Bool) : s.movePieces c first (.at (.spad o) fill) qs = .moved
      (s.engWrite c.iss (.spad o) ((List.range n).flatMap (fun j => s.crewBytes c.iss (source j) 1))) { c with
        cursor := c.cursor + n, first, pageS := none, pageD := none } := by
  have goes : qs.findSome? (s.pieceStop c) = none := List.findSome?_eq_none_iff.mpr fun q listed => by
    obtain ⟨j, short, place, some, fits⟩ := covers.sources q listed
    have read : s.locRead c.iss q.src q.n = .some (s.crewBytes c.iss (source j) q.n) := by rw [place]; rfl
    have poison : s.locPoison c.iss q.src q.n = none := by
      rw [place]
      exact engPoison_within s c.iss some fits (clean j short)
    simp only [State.pieceStop, read, poison]
  have fills : qs.foldl (fun (s : State) q => s.locFill c.iss.vf q.src) s = s :=
    foldl_fixed_of_mem qs fun q listed => by
      obtain ⟨j, _, place, _⟩ := covers.sources q listed
      rw [place]
      rfl
  have pages := getD_getLast?_map (fun q : Piece => q.src.page) qs fun q listed => (covers.pageless q listed).1
  have pages' := getD_getLast?_map (fun q : Piece => q.dst.page) qs fun q listed => (covers.pageless q listed).2
  simp only [State.movePieces, goes, State.placeXlat, fills, covers.bytes, covers.length, pages, pages']
  rfl

end

/-- R371, R374: one turn of a copy from scratchpad to scratchpad moves the bytes of one destination sector. -/
theorem copyTurn_of_spads {s : State} {t : Nat} {c : CopyCmd} {b : List Byte} {capA capB : TCap} {a z sa da n : Nat} {ss ds : List Nat}
    (read : c.desc = some b) (sides : c.sides = some (spadSide capA a sa ss, spadSide capB z da ds))
    (plain : isIndexed c.op = false) (some : 0 < n)
    (h : RunEnds (spadAt (copyDesc b) z da ds) (copyDesc b).total c.cursor (spadAt (copyDesc b) z da ds c.cursor)
      (64 - spadAt (copyDesc b) z da ds c.cursor % 64) n)
    (clean : ∀ j < n, s.engPoison c.iss (.spad (spadAt (copyDesc b) a sa ss (c.cursor + j))) 1 = none) :
    s.copyTurn t c = .moved (s.engWrite c.iss (.spad (spadAt (copyDesc b) z da ds c.cursor))
      ((List.range n).flatMap (fun j => s.crewBytes c.iss (spadAt (copyDesc b) a sa ss (c.cursor + j)) 1))) { c with
        cursor := c.cursor + n
        first := .some (c.first.getD (spadAt (copyDesc b) z da ds c.cursor))
        pageS := none
        pageD := none } := by
  have unfinished : ¬ (copyDesc b).total ≤ c.cursor := by
    have := h.within
    omega
  have roomy : (s.tile t).ringFull c = false := by simp only [Tile.ringFull, sides, spadSide]
  have covers := pieces_cover s (s.tile t) (copyDesc b) c.iss capA capB a z sa da ss ds 64 c _ _ n plain (Nat.sub_le ..) h
  have fresh := freshPieces_of_pageless s c.iss.vf (spadSide capA a sa ss) (spadSide capB z da ds) c.pageS c.pageD _ covers.pageless
  have sector : c.sector (s.tile t) (copyDesc b) (spadSide capA a sa ss) (spadSide capB z da ds) =
      c.pieces (s.tile t) (copyDesc b) (spadSide capA a sa ss) (spadSide capB z da ds) 64
        (64 - spadAt (copyDesc b) z da ds c.cursor % 64) (.at (.spad (spadAt (copyDesc b) z da ds c.cursor)) true) := by
    simp only [CopyCmd.sector, dstRow_of_unindexed plain, locate_spadSide]
  have moves := movePieces_of_covers covers clean (.some (c.first.getD (spadAt (copyDesc b) z da ds c.cursor)))
    (spadAt (copyDesc b) z da ds c.cursor) true
  have begins : (c.first <|> (s.tile t).firstByte (spadSide capB z da ds) (.at (.spad (spadAt (copyDesc b) z da ds c.cursor)) true)) =
      .some (c.first.getD (spadAt (copyDesc b) z da ds c.cursor)) := by
    cases c.first <;> rfl
  rw [← sector] at fresh moves covers
  simp only [State.copyTurn, sides, read, unfinished, State.copyChunk, roomy, row_of_unindexed plain, fresh,
    dstRow_of_unindexed plain, locate_spadSide, begins, Option.isNone_some, Bool.false_and, Bool.false_eq_true, if_false, reduceCtorEq]
  split
  next empty =>
    have := covers.length
    rw [empty] at this
    exact absurd this (by simp; omega)
  next => simpa only [read, sides] using moves

end Sys2Proof.Proofs
end

section
/-! SUPPORT. What ends at a crew: frames of its tile, and the answer of an engine (02 R53, 04 R90). -/
namespace Sys2Proof.Proofs
open Sys2Proof Sys2Proof.Machine Sys2Proof.Laws

section
variable {α : Type} (read : Tile → α)

/-- A change of a crew's tile leaves of every tile what the change leaves. -/
theorem onCrew_tile_frame {f : Tile → Tile} (keeps : ∀ x, read (f x) = read x) (s : State) (gang crew t : Nat) :
    read ((s.onCrew gang crew f).tile t) = read (s.tile t) := by
  unfold State.onCrew
  split
  next n _ =>
    by_cases same : t = n
    · rw [same, setTile_tile, keeps]
    · rw [setTile_tile_other _ _ _ same]
  next =>
    split
    · rw [tile_of_units (units_onSaved ..)]
    · rfl

theorem status_tile_frame (keeps : ∀ x c k, read (x.setCtx c k) = read x) (s : State) (i : Issuer) (nr : Bool) (port id v t : Nat) :
    read ((s.status i nr port id v).tile t) = read (s.tile t) := by
  unfold State.status
  split
  · rfl
  · exact onCrew_tile_frame read (fun x => keeps x _ _) ..

end

/-- The fork of an operation changes nothing of a tile but its L1. -/
theorem fork_tile_frame (s : State) (i : Issuer) (t : Nat) :
    (s.fork i).tile t = { s.tile t with l1 := ((s.fork i).tile t).l1 } := by
  unfold State.fork
  split
  · rfl
  · next n _ =>
    by_cases same : t = n
    · rw [same]
      exact flushTile_tile_frame s n
    · rw [tile_flushTile_other s same]

theorem books_fork (s : State) (i : Issuer) : books (s.fork i) = books s := by
  unfold State.fork
  split
  · rfl
  · exact books_flushTile ..

/-- A status fills its entry unless NR is set. -/
theorem answered_status (s : State) (i : Issuer) (nr : Bool) (port id v : Nat) :
    Answered s (s.status i nr port id v) i nr port id v := by
  intro t resident
  cases nr with
  | true => simp [State.status]
  | false =>
    rw [State.status, if_neg (by decide), onStrand_of_resident resident, setTile_ctxAt, tile_setCtx_ctx]
    simp [Ctx.answer, Ctx.port, Ctx.setPort]

/-- The answer of an operation, said of a state with the same crews and strands. -/
theorem answered_of_kept {s u v : State} {i : Issuer} {nr : Bool} {port id w : Nat} (crews : u.crewTile i.gang i.crew = s.crewTile i.gang i.crew)
    (strands : ∀ t, u.ctxAt t i.ctx = s.ctxAt t i.ctx) (answered : Answered u v i nr port id w) : Answered s v i nr port id w := by
  intro t resident
  rw [answered t (crews.trans resident), strands]

end Sys2Proof.Proofs
end

section
/-! SUPPORT. RING_PUSH and COPY_COMPLETE (17 R374, R375, 07 R145), CSET and SIGC (17 R377, 19 R415, R416). -/
namespace Sys2Proof.Proofs
open Sys2Proof Sys2Proof.Machine Sys2Proof.Laws

/-! ### The copy engine -/

@[simp] theorem setRing_ring (x : Tile) (n : Nat) (r : Ring) : (x.setRing n r).ring n = r := get_set_same ..

theorem exists_rest (c : CopyCmd) : ∃ n, c.rest = n + 1 := by
  unfold CopyCmd.rest
  split <;> exact ⟨_, rfl⟩

/-- R145: with the last byte of a slot, TAIL and COUNT of the ring advance. -/
theorem ringPush_of_slot {s u v : State} {t r : Nat} {c e : CopyCmd} {side : Side} (next : s.copyNext t = (u, some c))
    (pushes : c.pushes = true) (turn : u.copyTurn t c = .moved v e) (ring : e.sides = some (side, .ring r))
    (moved : e.cursor ≠ c.cursor) (full : e.cursor % ((v.tile t).ring r).slotsz = 0) :
    s.ringPush t = (v.putCopy t e).setTile t (((v.putCopy t e).tile t).pushRing r) := by
  obtain ⟨n, pieces⟩ := exists_rest c
  simp [State.ringPush, next, pushes, pieces, State.copyRun, turn, ring, moved, full]

theorem putCopy_tile (s : State) (t : Nat) (c : CopyCmd) : (s.putCopy t c).tile t =
    { s.tile t with cq := (s.tile t).cq.map (fun o => if o.id = c.id then c else o) } := setTile_tile ..

theorem finishCopy_eq {s : State} {t : Nat} {c : CopyCmd} (alone : c.follow = none) (quiet : c.hnd = 0) : s.finishCopy t c 0 0 =
    (s.dropCopy t c.id).finishOp c.iss c.ct (if c.inc = 0 then 1 else c.inc) c.nr 8 c.id (c.cursor * 2 ^ 24 + c.op * 2 ^ 8) := by
  simp only [State.finishCopy, alone, quiet, landAt_of_no_handler, State.finishOp, Option.isSome_none, Bool.false_and,
    Bool.false_eq_true, if_false, Nat.zero_mul, Nat.add_zero]

/-- A command with all its bytes moved ends. -/
theorem copyComplete_of_moved {s u : State} {t : Nat} {c : CopyCmd} {b : List Byte} (next : s.copyNext t = (u, some c))
    (read : c.desc = some b) (sides : c.sides.isSome = true) (done : (copyDesc b).total ≤ c.cursor) :
    s.copyComplete t = u.finishCopy t c 0 0 := by
  obtain ⟨n, pieces⟩ := exists_rest c
  obtain ⟨⟨src, dst⟩, known⟩ := Option.isSome_iff_exists.mp sides
  have still : c.pushes = false := by
    unfold CopyCmd.pushes
    split
    · next b' _ _ read' _ =>
      obtain rfl : b = b' := Option.some.inj (read.symm.trans read')
      simpa using done
    · rfl
  have turn : u.copyTurn t c = .ended u 0 0 := by simp [State.copyTurn, read, known, done]
  simp [State.copyComplete, next, still, known, pieces, State.copyRun, turn]

/-- What the end of a copy leaves: its counter, its status, and a queue without it. -/
theorem finishCopy_spec {s : State} {t : Nat} {c : CopyCmd} (alone : c.follow = none) (quiet : c.hnd = 0) :
    Ended s (s.finishCopy t c 0 0) c.iss c.ct (if c.inc = 0 then 1 else c.inc) c.nr 8 c.id (c.cursor * 2 ^ 24 + c.op * 2 ^ 8) ∧
      ∀ o ∈ ((s.finishCopy t c 0 0).tile t).cq, o.id ≠ c.id := by
  rw [finishCopy_eq alone quiet]
  have keeps {α : Type} (read : Tile → α) (free : ∀ x q, read { x with cq := q } = read x) (n : Nat) :
      read ((s.dropCopy t c.id).tile n) = read (s.tile n) := by
    by_cases same : n = t
    · rw [same, State.dropCopy, setTile_tile, free]
    · rw [State.dropCopy, setTile_tile_other _ _ _ same]
  obtain ⟨counter, status⟩ := ended_finishOp (s.dropCopy t c.id) c.iss c.ct (if c.inc = 0 then 1 else c.inc) c.nr 8 c.id
    (c.cursor * 2 ^ 24 + c.op * 2 ^ 8)
  refine ⟨⟨fun n resident => ?_, answered_of_kept (u := s.dropCopy t c.id) rfl (fun n => keeps (fun x => x.ctx c.iss.ctx) (fun _ _ => rfl) n) status⟩, ?_⟩
  · rw [counter n resident, keeps (fun x => x.readCt c.ct) (fun _ _ => rfl)]
  · have queue : (((s.dropCopy t c.id).finishOp c.iss c.ct (if c.inc = 0 then 1 else c.inc) c.nr 8 c.id
        (c.cursor * 2 ^ 24 + c.op * 2 ^ 8)).tile t).cq = ((s.dropCopy t c.id).tile t).cq :=
      (status_tile_frame Tile.cq (fun _ _ _ => rfl) ..).trans (onCrew_tile_frame Tile.cq (by intro; rfl) ..)
    rw [queue, State.dropCopy, setTile_tile]
    simp

/-! ### CSET and SIGC -/

/-- The state in which a command of the counter-signal queue is applied: its strand forked, its queue without it. -/
def sigTaken (s : State) (t : Nat) (c : SignalCmd) (rest : List SignalCmd) : State :=
  (s.fork c.iss).setTile t { (s.fork c.iss).tile t with sigq := rest }

section
variable (s : State) (t : Nat) (c : SignalCmd) (rest : List SignalCmd)

theorem books_sigTaken : books (sigTaken s t c rest) = books s := books_fork s c.iss

theorem sigTaken_sigq : ((sigTaken s t c rest).tile t).sigq = rest := by rw [sigTaken, setTile_tile]

theorem sigTaken_tile_frame {α : Type} (read : Tile → α) (l1 : ∀ x m, read { x with l1 := m } = read x)
    (sigq : ∀ x q, read { x with sigq := q } = read x) (n : Nat) : read ((sigTaken s t c rest).tile n) = read (s.tile n) := by
  have forked (m : Nat) : read ((s.fork c.iss).tile m) = read (s.tile m) := by rw [fork_tile_frame, l1]
  by_cases same : n = t
  · rw [same, sigTaken, setTile_tile, sigq, forked]
  · rw [sigTaken, setTile_tile_other _ _ _ same, forked]

theorem sigTaken_crewTile (gang crew : Nat) : (sigTaken s t c rest).crewTile gang crew = s.crewTile gang crew :=
  crewTile_of_books (books_sigTaken s t c rest) gang crew

theorem sigTaken_readCt (n k : Nat) : ((sigTaken s t c rest).tile n).readCt k = (s.tile n).readCt k :=
  sigTaken_tile_frame s t c rest (fun x => x.readCt k) (fun _ _ => rfl) (fun _ _ => rfl) n

theorem sigTaken_ctxAt (n k : Nat) : (sigTaken s t c rest).ctxAt n k = s.ctxAt n k :=
  sigTaken_tile_frame s t c rest (fun x => x.ctx k) (fun _ _ => rfl) (fun _ _ => rfl) n

theorem sigTaken_sigTarget : (sigTaken s t c rest).sigTarget c = s.sigTarget c := by
  have same := books_sigTaken s t c rest
  simp only [State.sigTarget, State.gang, gangs_of_books same, waves_of_books same]

end

section
variable {s : State} {t : Nat} {c : SignalCmd} {rest : List SignalCmd} (queued : (s.tile t).sigq = c :: rest)
  (ready : s.forkReady c.iss = true)
include queued ready

theorem signalApply_of_cset (cset : c.op = 0xEA) :
    s.signalApply t = (sigTaken s t c rest).signalCt c c.iss.gang c.iss.crew (fun _ => c.value) := by
  simp only [State.signalApply, queued, ready, Bool.not_true, Bool.false_eq_true, if_false]
  exact if_pos cset

theorem signalApply_of_refused (sigc : c.op ≠ 0xEA) {st : Nat} (target : s.sigTarget c = .inl st) :
    s.signalApply t = (sigTaken s t c rest).status c.iss c.nr 13 c.id (signalStatus 0 c.op st) := by
  rw [← sigTaken_sigTarget s t c rest] at target
  unfold sigTaken at target ⊢
  simp only [State.signalApply, queued, ready, Bool.not_true, Bool.false_eq_true, if_false, sigc, target]

theorem signalApply_of_target (sigc : c.op ≠ 0xEA) {g k : Nat} (target : s.sigTarget c = .inr (g, k)) : s.signalApply t =
    (sigTaken s t c rest).signalCt c g k (fun old => if c.op = 0xF3 then old + c.value else c.value) := by
  rw [← sigTaken_sigTarget s t c rest] at target
  unfold sigTaken at target ⊢
  simp only [State.signalApply, queued, ready, Bool.not_true, Bool.false_eq_true, if_false, sigc, target]

end

/-- A counter of a crew that is on a tile takes its update. -/
theorem signalCt_spec {s : State} {c : SignalCmd} {gang crew n : Nat} (resident : s.crewTile gang crew = some n)
    (f : Word → Word) (t : Nat) : ((s.signalCt c gang crew f).tile n).readCt c.ct = f ((s.tile n).readCt c.ct) ∧
      ((s.signalCt c gang crew f).tile t).sigq = (s.tile t).sigq ∧
      Answered s (s.signalCt c gang crew f) c.iss c.nr 13 c.id (signalStatus ((s.tile n).readCt c.ct) c.op 0) := by
  have applied : s.signalCt c gang crew f = (s.onCrew gang crew (fun t => t.setCt c.ct (f ((s.tile n).readCt c.ct)))).status
      c.iss c.nr 13 c.id (signalStatus ((s.tile n).readCt c.ct) c.op 0) := by
    simp only [State.signalCt, State.crewState, resident]
  have raised : s.onCrew gang crew (fun t => t.setCt c.ct (f ((s.tile n).readCt c.ct))) =
      s.setTile n ((s.tile n).setCt c.ct (f ((s.tile n).readCt c.ct))) := by
    simp only [State.onCrew, resident]
  rw [applied]
  refine ⟨?_, ?_, ?_⟩
  · rw [status_tile_frame (fun x => x.readCt c.ct) (fun _ _ _ => rfl), raised, setTile_tile]
    exact get_set_same ..
  · rw [status_tile_frame Tile.sigq (fun _ _ _ => rfl)]
    exact onCrew_tile_frame Tile.sigq (by intro; rfl) ..
  · rw [raised]
    refine answered_of_kept (u := s.setTile n _) rfl (fun m => ?_) (answered_status _ _ _ _ _ _)
    rw [State.ctxAt, ← raised]
    exact onCrew_tile_frame (fun x => x.ctx c.iss.ctx) (by intro; rfl) ..

/-- R377, R415: a command of the counter-signal queue whose crew is on a tile. -/
theorem signal_spec {s : State} {t : Nat} {c : SignalCmd} {rest : List SignalCmd} {gang crew n : Nat}
    (resident : s.crewTile gang crew = some n) (f : Word → Word) : let u := (sigTaken s t c rest).signalCt c gang crew f
    (u.tile n).readCt c.ct = f ((s.tile n).readCt c.ct) ∧ (u.tile t).sigq = rest ∧
      Answered s u c.iss c.nr 13 c.id (signalStatus ((s.tile n).readCt c.ct) c.op 0) := by
  obtain ⟨counter, queue, status⟩ := signalCt_spec (c := c) ((sigTaken_crewTile s t c rest gang crew).trans resident) f t
  rw [sigTaken_readCt] at counter status
  exact ⟨counter, queue.trans (sigTaken_sigq ..),
    answered_of_kept (sigTaken_crewTile ..) (fun m => sigTaken_ctxAt s t c rest m _) status⟩

/-- R416: a target that the wave has not. -/
theorem sigTarget_of_bad {s : State} {c : SignalCmd} (bad : 2 ^ 24 ≤ c.target.toNat ∨ ∃ g w, s.gang c.iss.gang = some g ∧
    Sparse.get none s.waves g.wave = some w ∧ w.record.crews ≤ c.target.toNat % 256) : s.sigTarget c = .inl 1 := by
  have crew : bits c.target.toNat 7 0 = c.target.toNat % 256 := by simp [bits]
  unfold State.sigTarget
  dsimp only
  split
  · rfl
  next g found =>
    split
    · rfl
    next w known =>
      refine if_pos ?_
      rcases bad with far | ⟨g', w', found', known', beyond⟩
      · exact .inl (by omega)
      · obtain rfl : g = g' := Option.some.inj (found.symm.trans found')
        obtain rfl : w = w' := Option.some.inj (known.symm.trans known')
        exact .inr (.inl (crew ▸ beyond))

/-- Settles O49: a turn's pieces cover exactly the run of bytes that its sector takes; a slot, a copy and a signal end as the
engine's last step says. -/
theorem copyEngineRuns : Obligations.CopyEngineRuns := by
  refine ⟨fun s t c b read => ⟨?turn, fun u next => ⟨?push, ?complete⟩⟩, fun s t c rest queued ready => ?signals⟩
  case turn =>
    intro capA capB a z sa da ss ds n sides plain from' dest some fits within run ends clean
    exact copyTurn_of_spads read sides plain some ⟨fits, within, run, ends⟩ clean
  case push =>
    intro v e side r pushes turn ring moved x full
    refine ⟨_, congrArg Host.Outcome.next (ringPush_of_slot next pushes turn ring moved full), ?_, ?_⟩ <;>
      rw [setTile_tile, putCopy_tile]
    · exact setRing_ring ..
    · rfl
  case complete =>
    intro sides done alone quiet
    exact ⟨_, congrArg Host.Outcome.next (copyComplete_of_moved next read sides done), finishCopy_spec alone quiet⟩
  case signals =>
    refine ⟨fun n cset resident => ?_, fun g k n target resident => ⟨fun add => ?_, fun put => ?_⟩, fun st sigc target => ?_,
      fun far => sigTarget_of_bad (.inl far), fun g w found known beyond => sigTarget_of_bad (.inr ⟨g, w, found, known, beyond⟩)⟩
    · exact ⟨_, congrArg Host.Outcome.next (signalApply_of_cset queued ready cset), signal_spec resident _⟩
    · have turn := signalApply_of_target queued ready (by rw [add]; decide) target
      simp only [if_pos add] at turn
      exact ⟨_, congrArg Host.Outcome.next turn, signal_spec resident _⟩
    · have turn := signalApply_of_target queued ready (by rw [put]; decide) target
      simp only [put, show ¬ (0xF4 : Nat) = 0xF3 by decide, if_false] at turn
      exact ⟨_, congrArg Host.Outcome.next turn, signal_spec resident _⟩
    · refine ⟨_, congrArg Host.Outcome.next (signalApply_of_refused queued ready sigc target), fun n => ?_, ?_, ?_⟩
      · rw [status_tile_frame Tile.ct (fun _ _ _ => rfl)]
        exact sigTaken_tile_frame s t c rest Tile.ct (fun _ _ => rfl) (fun _ _ => rfl) n
      · rw [status_tile_frame Tile.sigq (fun _ _ _ => rfl)]
        exact sigTaken_sigq ..
      · exact answered_of_kept (sigTaken_crewTile ..) (fun m => sigTaken_ctxAt s t c rest m _) (answered_status _ _ _ _ _ _)

end Sys2Proof.Proofs
end

section
/-! SUPPORT. A crew's state, resident or saved, after a change of it (03 R61), and the end of a block command (19 R424). -/
namespace Sys2Proof.Proofs
open Sys2Proof Sys2Proof.Machine Sys2Proof.Laws

/-! ### Saved crews -/

/-- The device's write of bytes and what it asks for on its way change no saved crew. -/
theorem saves_touchPage (s : State) (pasid va : Nat) : (s.touchPage pasid va).saves = s.saves := by
  unfold State.touchPage
  dsimp only
  repeat' split
  all_goals rfl

theorem saves_touchRange (s : State) (pasid va n : Nat) : (s.touchRange pasid va n).saves = s.saves :=
  foldl_frame State.saves (fun (u : State) (p : Nat) => u.touchPage pasid (4096 * p)) (fun u _ => saves_touchPage u pasid _) _ s

theorem saves_vaPut (s : State) (vf pasid : Nat) (obj : Option Nat) (tag : Bool) (cells : List (Nat × Byte)) :
    (s.vaPut vf pasid obj tag cells).saves = s.saves := by
  refine foldl_frame State.saves _ (fun u sec => ?_) _ s
  split
  · exact (congrArg State.saves (sansMemory_sectorWrite u _) :)
  · rfl

theorem saves_devWrite {w : DevWrite} (plain : w.record = none) (s : State) : (s.devWrite w).saves = s.saves := by
  have written : ((s.touchRange w.pasid w.va w.bytes.length).vaPut w.vf w.pasid w.obj false (cellsFrom w.va w.bytes)).saves = s.saves :=
    (saves_vaPut ..).trans (saves_touchRange ..)
  unfold State.devWrite
  simp only [plain]
  split
  · exact written
  · exact saves_touchRange s _ _ _

theorem nodeId_devWrite {w : DevWrite} (plain : w.record = none) (s : State) : (s.devWrite w).nodeId = s.nodeId :=
  (congrArg State.nodeId (sansWrites_devWrite plain s) :)

theorem saves_flushTile (s : State) (t : Nat) : (s.flushTile t).saves = s.saves := by
  refine foldl_frame State.saves (fun (u : State) (x : Nat × Option L1Sector) => u.l1WriteBack t x.1) (fun u x => ?_) _ s
  unfold State.l1WriteBack
  split
  · split
    · rfl
    · exact (congrArg State.saves (sansMemory_sectorWrite u _) :)
  · rfl

/-- A counter owed to a saved crew leaves its tile state. -/
theorem savedTile_bumpSaved (s : State) (key n k : Nat) :
    (Sparse.get none (s.bumpSaved key n k).saves key).map (fun y => y.tile) = (Sparse.get none s.saves key).map (fun y => y.tile) := by
  unfold State.bumpSaved
  split
  · rfl
  next y saved =>
    dsimp only
    split
    · rw [saves_devWrite rfl]
    · rw [get_set_same, saved]
      rfl

theorem savedTile_onSaved (s : State) (key : Nat) (y : Saved) (new : Tile) :
    (Sparse.get none (s.onSaved key y new).saves key).map (fun z => z.tile) = some new := by
  refine (foldl_frame (fun u : State => (Sparse.get none u.saves key).map (fun z => z.tile)) _ (fun u n => ?_) _ _).trans ?_
  · dsimp only
    split
    · rfl
    · exact savedTile_bumpSaved ..
  · dsimp only
    rw [get_set_same]
    rfl

/-! ### The state of a crew -/

section
variable {s u : State} {gang crew : Nat}

theorem crewState_of_kept (same : units u = units s) (saved : u.saves = s.saves) : u.crewState gang crew = s.crewState gang crew := by
  simp only [State.crewState, crewTile_of_books (books_of_units same), tile_of_units same, saved]

theorem books_onCrew (f : Tile → Tile) : books (s.onCrew gang crew f) = books s := by
  unfold State.onCrew
  split
  · rfl
  · split
    · exact books_of_units (units_onSaved ..)
    · rfl

theorem nodeId_onCrew (f : Tile → Tile) : (s.onCrew gang crew f).nodeId = s.nodeId := by
  unfold State.onCrew
  split
  · rfl
  · split
    · exact (congrArg State.nodeId (sansWrites_onSaved ..) :)
    · rfl

theorem crewState_onCrew {x : Tile} (known : s.crewState gang crew = some x) (f : Tile → Tile) :
    (s.onCrew gang crew f).crewState gang crew = some (f x) := by
  have still : (s.onCrew gang crew f).crewTile gang crew = s.crewTile gang crew := crewTile_of_books (books_onCrew f) _ _
  unfold State.crewState at known ⊢
  rw [still]
  unfold State.onCrew
  cases at_tile : s.crewTile gang crew with
  | some t =>
    rw [at_tile] at known
    simp only [Option.some.injEq] at known
    simp only [setTile_tile, known]
  | none =>
    rw [at_tile] at known
    dsimp only at known ⊢
    obtain ⟨y, saved, rfl⟩ := Option.map_eq_some_iff.mp known
    rw [saved]
    exact savedTile_onSaved ..

/-- The fork of an operation leaves its crew's counters. -/
theorem crewState_fork {i : Issuer} {x : Tile} (known : s.crewState i.gang i.crew = some x) :
    ∃ y, (s.fork i).crewState i.gang i.crew = some y ∧ ∀ k, y.readCt k = x.readCt k := by
  have still : (s.fork i).crewTile i.gang i.crew = s.crewTile i.gang i.crew := crewTile_of_books (books_fork s i) _ _
  unfold State.crewState at known ⊢
  rw [still]
  cases at_tile : s.crewTile i.gang i.crew with
  | some t =>
    rw [at_tile] at known
    refine ⟨_, rfl, fun k => ?_⟩
    rw [← Option.some.inj known, fork_of_resident at_tile, readCt_flushTile]
  | none =>
    rw [at_tile] at known
    refine ⟨x, ?_, fun _ => rfl⟩
    rw [← known]
    simp only [State.fork, at_tile]

end

/-! ### The end of a block command -/

/-- The tile state of a crew whose block's first bytes are written. -/
def blkWritten (c : BlockCmd) (word : Nat) (x : Tile) : Tile :=
  match c.place with
  | .spad o => x.spadCells (cellsFrom (o + 0) (natBytes 8 word))
  | .virt _ _ _ => x

/-- The tile state of a crew whose block command ends. -/
def blkLeft (c : BlockCmd) (x : Tile) : Tile :=
  let y := x.setCtx c.iss.ctx { x.ctx c.iss.ctx with nBlock := (x.ctx c.iss.ctx).nBlock - 1 }
  if c.nc then y else y.bumpCt c.ct 1

section
variable (s : State) (c : BlockCmd) (word : Nat)

theorem books_blkWrite : books (s.blkWrite c 0 8 word) = books s := by
  unfold State.blkWrite
  split
  · exact books_onCrew _
  · exact books_of_units (units_devWrite ..)

theorem nodeId_blkWrite : (s.blkWrite c 0 8 word).nodeId = s.nodeId := by
  unfold State.blkWrite
  split
  · exact nodeId_onCrew _
  · exact nodeId_devWrite rfl s

theorem crewState_blkWrite {x : Tile} (known : s.crewState c.iss.gang c.iss.crew = some x) :
    (s.blkWrite c 0 8 word).crewState c.iss.gang c.iss.crew = some (blkWritten c word x) := by
  unfold State.blkWrite blkWritten
  cases c.place with
  | spad o => exact crewState_onCrew known _
  | virt pasid va obj => exact (crewState_of_kept (units_devWrite ..) (saves_devWrite rfl s)).trans known

theorem books_blkLeave : books (s.blkLeave c) = books s := by
  unfold State.blkLeave
  dsimp only
  split
  · exact books_onCrew _
  · exact (books_onCrew _).trans (books_onCrew _)

theorem nodeId_blkLeave : (s.blkLeave c).nodeId = s.nodeId := by
  unfold State.blkLeave
  dsimp only
  split
  · exact nodeId_onCrew _
  · exact (nodeId_onCrew _).trans (nodeId_onCrew _)

theorem crewState_blkLeave {x : Tile} (known : s.crewState c.iss.gang c.iss.crew = some x) :
    (s.blkLeave c).crewState c.iss.gang c.iss.crew = some (blkLeft c x) := by
  have counted := crewState_onCrew known
    (fun t => t.setCtx c.iss.ctx { t.ctx c.iss.ctx with nBlock := (t.ctx c.iss.ctx).nBlock - 1 })
  unfold State.blkLeave blkLeft
  dsimp only
  split
  · exact counted
  · exact crewState_onCrew counted _

end

/-- STATUS of a command that ends: what it returns, its cause, its subcode and its status. -/
def blkStatus (s : State) (c : BlockCmd) (st : Nat) (res info : Option Nat) : Nat :=
  res.getD (s.takeFree.1.toNat / 2 ^ 32) % 2 ^ 32 * 2 ^ 32 + info.getD (s.takeFree.1.toNat / 2 ^ 16) % 2 ^ 16 * 2 ^ 16 + c.sub * 2 ^ 8 + st

theorem blkFinish_eq (s : State) (c : BlockCmd) (st : Nat) (res info : Option Nat) :
    s.blkFinish c st res info = (s.takeFree.2.blkWrite c 0 8 (blkStatus s c st res info)).blkLeave c := rfl

/-- The end of a command that has taken effect. -/
def blkEnded (s : State) (c : BlockCmd) (st : Nat) (res info : Option Nat) : State := (s.blkDrop c).blkFinish c st res info

section
variable (s : State) (c : BlockCmd) (st : Nat) (res info : Option Nat)

theorem books_blkEnded : books (blkEnded s c st res info) = books (s.blkDrop c) := by
  rw [blkEnded, blkFinish_eq, books_blkLeave, books_blkWrite]
  rfl

theorem nodeId_blkEnded : (blkEnded s c st res info).nodeId = s.nodeId := by
  rw [blkEnded, blkFinish_eq, nodeId_blkLeave, nodeId_blkWrite]
  rfl

/-- The virtual function that the command belongs to keeps all but its lists of commands. -/
theorem vf_blkEnded : (blkEnded s c st res info).vf c.iss.vf = { s.vf c.iss.vf with
    blockQ := (s.vf c.iss.vf).blockQ.filter (fun o => o.id != c.id)
    accepted := (s.vf c.iss.vf).accepted.filter (fun o => o.id != c.id) } := by
  rw [vf_of_books (books_blkEnded ..)]
  exact get_set_same ..

theorem crewState_blkEnded {x : Tile} (known : s.crewState c.iss.gang c.iss.crew = some x) :
    (blkEnded s c st res info).crewState c.iss.gang c.iss.crew =
      some (blkLeft c (blkWritten c (blkStatus (s.blkDrop c) c st res info) x)) := by
  rw [blkEnded, blkFinish_eq]
  exact crewState_blkLeave _ c (crewState_blkWrite _ c _ known)

end

theorem readCt_spadCells (x : Tile) (cells : List (Nat × Byte)) (k : Nat) : (x.spadCells cells).readCt k = x.readCt k := by
  rw [spadCells_frame]
  rfl

theorem readCt_ended (c : BlockCmd) (word : Nat) (x : Tile) :
    (blkLeft c (blkWritten c word x)).readCt c.ct = x.readCt c.ct + if c.nc then 0 else 1 := by
  have written : (blkWritten c word x).readCt c.ct = x.readCt c.ct := by
    unfold blkWritten
    split
    · exact readCt_spadCells ..
    · rfl
  unfold blkLeft
  cases c.nc with
  | true => exact written.trans (BitVec.add_zero _).symm
  | false =>
    simp only [Bool.false_eq_true, if_false, readCt_bumpCt]
    exact congrArg (· + 1) written

/-- STATUS of a command that is done, in the scratchpad of its crew. -/
theorem spad_ended {c : BlockCmd} {word o : Nat} (x : Tile) (place : c.place = .spad o) {i : Nat} (inside : i < 8) :
    Sparse.get 0 (blkLeft c (blkWritten c word x)).spad (o + i) = (natBytes 8 word).getD i 0 := by
  have left : (blkLeft c (blkWritten c word x)).spad = (blkWritten c word x).spad := by
    unfold blkLeft
    dsimp only
    split <;> rfl
  rw [left]
  simp only [blkWritten, place, Nat.add_zero]
  exact spadCells_cellsFrom_get x o (by simpa using inside)

end Sys2Proof.Proofs
end

section
/-! SUPPORT. A block command's turn: WCSET, TWM, WATCH and NODE (02 R42, 10 R222, 15 R330, 14 R300, 19 R422, R424). -/
namespace Sys2Proof.Proofs
open Sys2Proof Sys2Proof.Machine Sys2Proof.Laws

/-! ### The turn -/

/-- The state in which a block command takes effect: its strand forked, the page of its block used. -/
def blkRead (s : State) (c : BlockCmd) : State := (s.fork c.iss).placeTouch c.place 64

theorem units_placeTouch (s : State) (p : Place) (n : Nat) : units (s.placeTouch p n) = units s := by
  unfold State.placeTouch
  split
  · rfl
  · exact units_touchRange ..

theorem saves_placeTouch (s : State) (p : Place) (n : Nat) : (s.placeTouch p n).saves = s.saves := by
  unfold State.placeTouch
  split
  · rfl
  · exact saves_touchRange ..

theorem books_blkRead (s : State) (c : BlockCmd) : books (blkRead s c) = books s :=
  (books_of_units (units_placeTouch ..)).trans (books_fork s c.iss)

theorem crewState_blkRead {s : State} {c : BlockCmd} {x : Tile} (known : s.crewState c.iss.gang c.iss.crew = some x) :
    ∃ y, (blkRead s c).crewState c.iss.gang c.iss.crew = some y ∧ ∀ k, y.readCt k = x.readCt k := by
  obtain ⟨y, forked, counters⟩ := crewState_fork known
  exact ⟨y, (crewState_of_kept (units_placeTouch ..) (saves_placeTouch ..)).trans forked, counters⟩

/-- The oldest block command of a virtual function has its turn, with nothing amiss in the head of its block. -/
structure BlkTurn (s : State) (v : Nat) (c : BlockCmd) (b : List Byte) : Prop where
  taken : (s.vf v).accepted = []
  first : ∃ rest, (s.vf v).blockQ = c :: rest
  own : c.iss.vf = v
  ready : s.forkReady c.iss = true
  live : (s.vf v).flr = false
  clean : (s.fork c.iss).engPoison c.iss c.place 64 = none
  mapped : ∃ pa, (s.fork c.iss).placeXlat c.place 64 true = .mapped pa
  read : (s.fork c.iss).engRead c.iss c.place 64 = some b
  target : imgNat b 8 1 = 0x80
  reserved : imgNat b 9 7 = 0

section
variable {s : State} {v : Nat} {c : BlockCmd} {b : List Byte} (turn : BlkTurn s v c b)
include turn

theorem BlkTurn.common : (blkRead s c).blkCommon c b = (blkRead s c).blkRun c v b := by
  obtain ⟨_, _, own, _, live, _, _, _, target, reserved⟩ := turn
  have flr : ((blkRead s c).vf v).flr = false := by rw [vf_of_books (books_blkRead s c), live]
  have named : blkVf c b = v := by simp [blkVf, target, own]
  have virtual : blkPf b = false := by simp [blkPf, target]
  simp [State.blkCommon, blkChecks, named, virtual, target, reserved, own, flr]

theorem BlkTurn.ends (small : blkSize c.sub = 64) {u : State} {st : Nat} {res info : Option Nat}
    (run : (blkRead s c).blkRun c v b = .ends u st res info) : s.blockEnd v = blkEnded u c st res info := by
  obtain ⟨rest, first⟩ := turn.first
  obtain ⟨pa, mapped⟩ := turn.mapped
  have common := turn.common.trans run
  unfold blkRead at common
  simp only [State.blockEnd, turn.taken, List.find?_nil, first, turn.ready, State.blkTurn, small, turn.clean, mapped, turn.read,
    common, Bool.not_true, Bool.false_eq_true, if_false]
  rfl

/-- What every end of a command says: it is gone from its queue, and its counter has risen. -/
theorem BlkTurn.completes (small : blkSize c.sub = 64) {P : State → Prop} {u : State} {st : Nat} {res info : Option Nat}
    (run : (blkRead s c).blkRun c v b = .ends u st res info)
    (crew : u.crewState c.iss.gang c.iss.crew = (blkRead s c).crewState c.iss.gang c.iss.crew)
    (effect : P (blkEnded u c st res info)) : Completes (.blockCommandEnd v) s (fun n =>
      P n ∧ (∀ o ∈ (n.vf v).blockQ, o.id ≠ c.id) ∧
      ∀ x, s.crewState c.iss.gang c.iss.crew = some x → ∃ y, n.crewState c.iss.gang c.iss.crew = some y ∧
        y.readCt c.ct = x.readCt c.ct + if c.nc then 0 else 1) := by
  refine ⟨_, congrArg Host.Outcome.next (turn.ends small run), effect, ?_, fun x known => ?_⟩
  · rw [← turn.own, vf_blkEnded]
    simp
  · obtain ⟨y, kept, counters⟩ := crewState_blkRead known
    refine ⟨_, crewState_blkEnded u c st res info (crew.trans kept), ?_⟩
    rw [readCt_ended, counters]

omit turn in
/-- A command that is done writes STATUS: 0, its subcode and 0. -/
theorem writesStatus {u : State} (small : c.sub < 256)
    (crew : u.crewState c.iss.gang c.iss.crew = (blkRead s c).crewState c.iss.gang c.iss.crew) (o : Nat) (x : Tile)
    (place : c.place = .spad o) (known : s.crewState c.iss.gang c.iss.crew = some x) :
    (blkEnded u c 0 none (some 0)).crewBytes c.iss o 4 = [0, BitVec.ofNat 8 c.sub, 0, 0] := by
  obtain ⟨y, kept, -⟩ := crewState_blkRead known
  generalize word : blkStatus (u.blkDrop c) c 0 none (some 0) = n
  have low : n % 2 ^ 32 = c.sub * 256 := by
    rw [← word]
    simp only [blkStatus, Option.getD_none, Option.getD_some]
    omega
  have ended := crewState_blkEnded u c 0 none (some 0) (crew.trans kept)
  rw [word] at ended
  have bytes (i : Nat) (inside : i < 8) := spad_ended (c := c) (word := n) y place inside
  simp only [State.crewBytes, ended, List.range_succ, List.range_zero, List.nil_append, List.cons_append, List.map_cons,
    List.map_nil, bytes 0 (by omega), bytes 1 (by omega), bytes 2 (by omega), bytes 3 (by omega), natBytes, List.getD_cons_zero,
    List.getD_cons_succ]
  have byte {k j : Nat} (same : k % 256 = j % 256) : BitVec.ofNat 8 k = BitVec.ofNat 8 j := by
    refine BitVec.eq_of_toNat_eq ?_
    simpa using same
  rw [byte (k := n) (j := 0) (by omega), byte (k := n / 256) (j := c.sub) (by omega), byte (k := n / 256 / 256) (j := 0) (by omega),
    byte (k := n / 256 / 256 / 256) (j := 0) (by omega)]
  rfl

/-- A command that is done. -/
theorem BlkTurn.done (small : c.sub < 0x18) {P : State → Prop} {u : State}
    (run : (blkRead s c).blkRun c v b = blkDone u none)
    (crew : u.crewState c.iss.gang c.iss.crew = (blkRead s c).crewState c.iss.gang c.iss.crew)
    (effect : P (blkEnded u c 0 none (some 0))) : Completes (.blockCommandEnd v) s (fun n =>
      (P n ∧ ∀ o x, c.place = .spad o → s.crewState c.iss.gang c.iss.crew = some x →
        n.crewBytes c.iss o 4 = [0, BitVec.ofNat 8 c.sub, 0, 0]) ∧
      (∀ o ∈ (n.vf v).blockQ, o.id ≠ c.id) ∧
      ∀ x, s.crewState c.iss.gang c.iss.crew = some x → ∃ y, n.crewState c.iss.gang c.iss.crew = some y ∧
        y.readCt c.ct = x.readCt c.ct + if c.nc then 0 else 1) :=
  turn.completes (by rw [blkSize, if_neg (by omega)]) run crew ⟨effect, writesStatus (by omega) crew⟩

end

/-! ### What they set -/

section
variable {s : State} {v : Nat} {b : List Byte}

theorem blkWcset_of_valid (valid : imgNat b 0x10 2 < 1024) :
    s.blkWcset v b = blkDone (s.setWc v (imgNat b 0x10 2) (BitVec.ofNat 64 (imgNat b 0x18 8))) none := by
  have low : ¬ 1023 < imgNat b 0x10 2 := by omega
  simp [State.blkWcset, blkChecks, low]

theorem blkWcset_of_invalid (invalid : 1024 ≤ imgNat b 0x10 2) : s.blkWcset v b = blkBad s 0x10 := by
  have high : 1023 < imgNat b 0x10 2 := by omega
  simp [State.blkWcset, blkChecks, high]

theorem blkTwm_of_valid (valid : imgNat b 0x10 1 < 3) (plain : (s.vf v).privileged = false)
    (ordered : twmLo (BitVec.ofNat 64 (imgNat b 0x18 8)) ≤ twmHi (BitVec.ofNat 64 (imgNat b 0x18 8))) :
    s.blkTwm v b = blkDone (s.setVf v { s.vf v with
      twm := Sparse.set 0xFFFFFFFFFFFFFFFF (s.vf v).twm (imgNat b 0x10 1) (BitVec.ofNat 64 (imgNat b 0x18 8)) }) none := by
  have low : ¬ 2 < imgNat b 0x10 1 := by omega
  have right : ¬ twmHi (BitVec.ofNat 64 (imgNat b 0x18 8)) < twmLo (BitVec.ofNat 64 (imgNat b 0x18 8)) := by omega
  simp [State.blkTwm, blkChecks, low, plain, right]

/-- The watch range that a block gives. -/
def blkRange (b : List Byte) : Option Watch :=
  if imgNat b 0x11 1 = 0 then none
  else some {
    obj := imgNat b 0x14 4
    low := imgNat b 0x18 8
    len := imgNat b 0x20 8
    reads := imgNat b 0x11 1 % 2 == 1
    writes := imgNat b 0x11 1 / 2 == 1 }

theorem blkWatch_of_valid (valid : imgNat b 0x10 1 < 4) (kinds : imgNat b 0x11 1 < 4) (obj : imgNat b 0x14 4 ≤ 0xFFFFFE) :
    s.blkWatch v b = blkDone (s.setVf v { s.vf v with
      watches := Sparse.set none (s.vf v).watches (imgNat b 0x10 1) (blkRange b) }) none := by
  have low : ¬ 3 < imgNat b 0x10 1 := by omega
  have few : ¬ 3 < imgNat b 0x11 1 := by omega
  have known : ¬ 0xFFFFFE < imgNat b 0x14 4 := by omega
  simp [State.blkWatch, blkChecks, blkRange, low, few, known]

theorem blkNode_of_valid (valid : imgNat b 0x10 2 < 4096) :
    s.blkNode b = blkDone { s with nodeId := BitVec.ofNat 12 (imgNat b 0x10 2) } none := by
  have low : ¬ 4095 < imgNat b 0x10 2 := by omega
  simp [State.blkNode, blkChecks, low]

end

section
variable (s : State) {c : BlockCmd} (v : Nat) (b : List Byte)

theorem blkRun_wcset (sub : c.sub = 0x0A) : s.blkRun c v b = s.blkWcset v b := by
  rw [State.blkRun.eq_def, sub]
  rfl

theorem blkRun_twm (sub : c.sub = 0x11) : s.blkRun c v b = s.blkTwm v b := by
  rw [State.blkRun.eq_def, sub]
  rfl

theorem blkRun_watch (sub : c.sub = 0x10) : s.blkRun c v b = s.blkWatch v b := by
  rw [State.blkRun.eq_def, sub]
  rfl

theorem blkRun_node (sub : c.sub = 0x16) : s.blkRun c v b = s.blkNode b := by
  rw [State.blkRun.eq_def, sub]
  rfl

end

/-- Settles O45: the oldest command's turn comes to its effect, and its end leaves what it set. -/
theorem blockCommandsEnd : Obligations.BlockCommandsEnd := by
  intro s v c rest b taken first own ready live u clean mapped read target reserved
  have turn : BlkTurn s v c b := ⟨taken, ⟨rest, first⟩, own, ready, live, clean, mapped, read, target, reserved⟩
  have kept : (blkRead s c).vf v = s.vf v := vf_of_books (books_blkRead s c) v
  subst own
  refine ⟨fun sub valid => ?wcset, fun sub invalid => ?unset, fun sub valid plain ordered => ?twm,
    fun sub valid kinds obj => ?watch, fun sub valid => ?node⟩
  case wcset =>
    refine turn.done (by omega) ((blkRun_wcset _ _ b sub).trans (blkWcset_of_valid valid)) rfl ?_
    rw [vf_blkEnded, State.setWc, setVf_vf]
    exact get_set_same ..
  case unset =>
    refine turn.completes (by rw [sub]; rfl) ((blkRun_wcset _ _ b sub).trans (blkWcset_of_invalid invalid)) rfl ?_
    rw [vf_blkEnded, kept]
  case twm =>
    refine turn.done (by omega) ((blkRun_twm _ _ b sub).trans (blkTwm_of_valid valid (kept ▸ plain) ordered)) rfl ?_
    rw [State.watermark, vf_blkEnded, setVf_vf]
    exact get_set_same ..
  case watch =>
    refine turn.done (by omega) ((blkRun_watch _ _ b sub).trans (blkWatch_of_valid valid kinds obj)) rfl ?_
    rw [vf_blkEnded, setVf_vf]
    exact get_set_same ..
  case node =>
    refine turn.done (by omega) ((blkRun_node _ _ b sub).trans (blkNode_of_valid valid)) rfl ?_
    rw [nodeId_blkEnded]

end Sys2Proof.Proofs
end

section
/-! SUPPORT. Words written one after another to the scratchpad of the current tile (10 R201, R205), and the pieces of a vector
store of a strand that owes nothing (20 R447). -/
namespace Sys2Proof.Proofs
open Sys2Proof Sys2Proof.Machine Sys2Proof.Laws

/-! ### Words in a row -/

/-- The byte that the last of the words at q gives it. -/
def wordByte (words : List (Nat × Nat)) (q : Nat) : Option Byte :=
  (words.filter (fun w => decide (w.1 ≤ q ∧ q < w.1 + 4))).getLast?.map (fun w => BitVec.ofNat 8 (w.2 / 2 ^ (8 * (q - w.1))))

@[simp] theorem wordByte_nil (q : Nat) : wordByte [] q = none := rfl

theorem wordByte_append (ws vs : List (Nat × Nat)) (q : Nat) : wordByte (ws ++ vs) q = (wordByte vs q).or (wordByte ws q) := by
  simp only [wordByte, List.filter_append, List.getLast?_append, Option.map_or]

theorem wordByte_eq_none {words : List (Nat × Nat)} {q : Nat} :
    wordByte words q = none ↔ ∀ w ∈ words, ¬ (w.1 ≤ q ∧ q < w.1 + 4) := by
  simp only [wordByte, Option.map_eq_none_iff, List.getLast?_eq_none_iff, List.filter_eq_nil_iff, decide_eq_true_eq]

/-- A word that no other of a list shares a byte with. -/
theorem wordByte_of_mem {words : List (Nat × Nat)} {w : Nat × Nat} {q : Nat} (listed : w ∈ words) (inside : w.1 ≤ q ∧ q < w.1 + 4)
    (alone : ∀ v ∈ words, v.1 ≤ q ∧ q < v.1 + 4 → v = w) :
    wordByte words q = some (BitVec.ofNat 8 (w.2 / 2 ^ (8 * (q - w.1)))) := by
  cases last : (words.filter (fun w => decide (w.1 ≤ q ∧ q < w.1 + 4))).getLast? with
  | none =>
    have empty := List.getLast?_eq_none_iff.mp last
    exact absurd (List.mem_filter.mpr ⟨listed, decide_eq_true inside⟩) (by rw [empty]; exact List.not_mem_nil)
  | some v =>
    obtain ⟨member, there⟩ := List.mem_filter.mp (List.mem_of_getLast? last)
    rw [wordByte, last, alone v member (of_decide_eq_true there)]
    rfl

/-- Words written in the order of a list to the scratchpad of the current tile: each byte as the last word at it gives it, the
tags of the touched units cleared, and nothing else changed but poison. -/
structure WordsWritten (s : State) (words : List (Nat × Nat)) (t : State) : Prop where
  bytes : ∀ q, t.spadByte s.cur q = (wordByte words q).getD (s.spadByte s.cur q)
  tags : ∀ u, Sparse.get false (t.tile s.cur).spadTag u =
    if words.any (fun w => w.1 / 16 == u) then false else Sparse.get false (s.tile s.cur).spadTag u
  others : ∀ x, x ≠ s.cur → t.tile x = s.tile x
  module : t = { s with tiles := t.tiles }
  tile : t.tile s.cur = { s.tile s.cur with
    spad := (t.tile s.cur).spad, spadTag := (t.tile s.cur).spadTag, spadPoison := (t.tile s.cur).spadPoison }

theorem WordsWritten.refl (s : State) : WordsWritten s [] s where
  bytes _ := rfl
  tags _ := rfl
  others _ _ := rfl
  module := rfl
  tile := rfl

section
variable {s t u : State} {ws vs : List (Nat × Nat)}

theorem WordsWritten.cur (h : WordsWritten s ws t) : t.cur = s.cur := by rw [h.module]

theorem WordsWritten.curCtx (h : WordsWritten s ws t) : t.curCtx = s.curCtx := by
  unfold State.curCtx
  rw [h.cur, h.tile]

theorem WordsWritten.trans (h : WordsWritten s ws t) (k : WordsWritten t vs u) : WordsWritten s (ws ++ vs) u := by
  obtain ⟨bytes, tags, others, module, tile⟩ := k
  rw [h.cur] at bytes tags others tile
  refine ⟨fun q => ?_, fun n => ?_, fun x other => (others x other).trans (h.others x other), ?_, ?_⟩
  · rw [bytes, h.bytes, wordByte_append]
    cases wordByte vs q <;> rfl
  · rw [tags, h.tags, List.any_append]
    cases vs.any (fun w => w.1 / 16 == n) <;> simp
  · exact module.trans (by rw [h.module])
  · rw [h.tile] at tile
    exact tile

/-- What is written piece by piece is written as a whole. -/
theorem WordsWritten.foldl {α : Type} {f : State → α → State} {words : α → List (Nat × Nat)} : ∀ {l : List α} {s : State},
    (∀ x ∈ l, ∀ pre u, WordsWritten s pre u → WordsWritten u (words x) (f u x)) →
      WordsWritten s (l.flatMap words) (l.foldl f s)
  | [], s, _ => .refl s
  | x :: l, s, step => by
    have head := step x (by simp) [] s (.refl s)
    rw [List.flatMap_cons, List.foldl_cons]
    exact head.trans (WordsWritten.foldl fun y listed pre u later => step y (by simp [listed]) _ u (head.trans later))

/-- Only what the words give each byte, and the units that they touch, matter. -/
theorem WordsWritten.congr (h : WordsWritten s ws t) (bytes : ∀ q, wordByte vs q = wordByte ws q)
    (units : ∀ u, vs.any (fun w => w.1 / 16 == u) = ws.any (fun w => w.1 / 16 == u)) : WordsWritten s vs t where
  bytes q := by rw [bytes, h.bytes]
  tags u := by rw [units, h.tags]
  others := h.others
  module := h.module
  tile := h.tile

theorem WordsWritten.ctx (h : WordsWritten s ws t) : t.ctx = s.ctx := by
  have strand : t.curCtx = s.curCtx := h.curCtx
  show (t.tile t.cur).ctx t.curCtx = (s.tile s.cur).ctx s.curCtx
  rw [h.cur, strand, h.tile]
  rfl

/-- A strand that owes nothing owes nothing after a write to the scratchpad. -/
theorem WordsWritten.quiet (h : WordsWritten s ws t) (quiet : Quiet s) : Quiet t := by
  have strand : t.curCtx = s.curCtx := h.curCtx
  unfold Quiet at quiet ⊢
  rw [h.ctx, strand, h.cur, h.tile]
  exact quiet

end

/-! ### Cells that make up words -/

/-- Cells at separate addresses that are the bytes of aligned words at separate places. -/
theorem wordsWritten_of_cells (s : State) {cells : List (Nat × Byte)} {words : List (Nat × Nat)}
    (once : (cells.map (fun c => c.1)).Nodup) (aligned : ∀ w ∈ words, w.1 % 4 = 0)
    (apart : ∀ v ∈ words, ∀ w ∈ words, v.1 = w.1 → v = w)
    (cover : ∀ q b, (q, b) ∈ cells ↔ ∃ w ∈ words, (w.1 ≤ q ∧ q < w.1 + 4) ∧ b = BitVec.ofNat 8 (w.2 / 2 ^ (8 * (q - w.1)))) :
    WordsWritten s words (s.spadWrite s.cur cells) := by
  have alone {v w : Nat × Nat} (hv : v ∈ words) (hw : w ∈ words) {q : Nat} (inV : v.1 ≤ q ∧ q < v.1 + 4)
      (inW : w.1 ≤ q ∧ q < w.1 + 4) : v = w := by
    have av := aligned v hv
    have aw := aligned w hw
    exact apart v hv w hw (by omega)
  refine ⟨fun q => ?bytes, fun u => ?tags, fun x other => setTile_tile_other _ _ _ other, rfl, ?tile⟩
  case bytes =>
    rw [State.spadWrite, State.spadByte, setTile_tile]
    by_cases touched : ∃ w ∈ words, w.1 ≤ q ∧ q < w.1 + 4
    · obtain ⟨w, listed, inside⟩ := touched
      rw [wordByte_of_mem listed inside fun v hv inV => alone hv listed inV inside]
      exact spadCells_get_listed once ((cover q _).mpr ⟨w, listed, inside, rfl⟩)
    · rw [wordByte_eq_none.mpr fun w listed inside => touched ⟨w, listed, inside⟩]
      refine spadCells_get_unlisted fun listed => touched ?_
      obtain ⟨⟨a, b⟩, cell, rfl⟩ := List.mem_map.mp listed
      obtain ⟨w, member, inside, -⟩ := (cover a b).mp cell
      exact ⟨w, member, inside⟩
  case tags =>
    rw [State.spadWrite, setTile_tile, spadTag_spadCells]
    refine if_congr ?_ rfl rfl
    simp only [List.mem_map, Prod.exists, List.any_eq_true, beq_iff_eq]
    constructor
    · rintro ⟨q, b, cell, rfl⟩
      obtain ⟨w, member, inside, -⟩ := (cover q b).mp cell
      have := aligned w member
      exact ⟨w.1, w.2, member, by omega⟩
    · rintro ⟨a, x, member, rfl⟩
      exact ⟨a, _, (cover a _).mpr ⟨(a, x), member, ⟨Nat.le_refl _, Nat.lt_add_of_pos_right (by decide)⟩, rfl⟩, rfl⟩
  case tile =>
    rw [State.spadWrite, setTile_tile]
    exact spadCells_frame _ _

/-- One aligned word. -/
theorem wordsWritten_word (s : State) {a : Nat} (aligned : a % 4 = 0) (x : Nat) :
    WordsWritten s [(a, x)] (s.spadWrite s.cur (cellsFrom a (natBytes 4 x))) := by
  refine wordsWritten_of_cells s (nodup_cellsFrom ..) (by simpa using aligned) (by simp) fun q b => ?_
  simp only [mem_cellsFrom, length_natBytes, List.mem_singleton, exists_eq_left]
  constructor
  · rintro ⟨j, inside, rfl, rfl⟩
    exact ⟨by omega, by rw [getD_natBytes 4 x inside, Nat.add_sub_cancel_left]⟩
  · rintro ⟨inside, rfl⟩
    exact ⟨q - a, by omega, by omega, (getD_natBytes 4 x (by omega)).symm⟩

/-! ### A piece of a vector store -/

/-- The cells of a piece that its mask leaves. -/
def pieceCells (mask : Option Nat) (cells : List (Nat × Byte)) : List (Nat × Byte) :=
  match mask with
  | some m => maskCells m cells
  | none => cells

section
variable {s : State} (quiet : Quiet s)
include quiet

theorem heldBack_of_quiet : (s.ctxAt s.cur s.curCtx).heldBack = false := by
  show s.ctx.heldBack = false
  simp [Ctx.heldBack, fences_of_quiet quiet, owesRead_of_quiet quiet, storeQ_of_quiet quiet]

/-- To the scratchpad it is performed as it issues. -/
theorem vPut_spad (o : Nat) (data : List Byte) (mask : Option Nat) (poc : Bool) :
    s.vPut s.ctx.num (.spad o) data mask poc = s.spadWrite s.cur (pieceCells mask (cellsFrom o data)) := by
  have log : (s.tile s.cur).sideLog.any (fun e => e.ctx == s.curCtx && acquires e.order && e.aop.isSome) = false :=
    List.any_eq_false.mpr (fun e listed held => ctx_of_log_of_quiet quiet listed
      (Bool.and_eq_true_iff.mp (Bool.and_eq_true_iff.mp held).1).1)
  have goes (scope : Nat) : s.storeWaits s.cur s.curCtx { num := s.ctx.num, place := .spad o, data, mask, poc, scope } = false := by
    simp [State.storeWaits, behindSummary_of_quiet quiet, owesSummary_of_quiet quiet, log]
  refine Eq.trans (b := s.spadStore s.cur s.curCtx o { num := s.ctx.num, place := .spad o, data, mask, poc, scope := 1 }) ?_ ?_
  · simp only [State.vPut, State.issueStore, heldBack_of_quiet quiet, State.doStore, goes, Bool.false_eq_true, if_false,
      State.plainScope]
  · cases mask <;> rfl

/-- To mapped memory that no write waits for, too. -/
theorem vPut_virt {pasid va a : Nat} {obj : Option Nat} {data : List Byte} (mask : Option Nat) (poc : Bool)
    (mapped : s.rangeXlat pasid va data.length true = .mapped a) (clear : HostClear s (.virt pasid va obj)) :
    s.vPut s.ctx.num (.virt pasid va obj) data mask poc = s.perform s.cur s.curCtx {
      pasid, va, obj, data, mask, poc, num := s.ctx.num, scope := s.plainScope (.virt pasid va obj) } := by
  have log : (s.tile s.cur).loggedBefore s.curCtx s.ctx.num = false :=
    List.any_eq_false.mpr fun _ listed owed => ctx_of_log_of_quiet quiet listed (Bool.and_eq_true_iff.mp owed).1
  have path (scope : Nat) : s.pathHeld s.cur (QueuedStore.req
      { num := s.ctx.num, place := .virt pasid va obj, data, mask, poc, scope } pasid va obj) = false :=
    pathHeld_of_clear clear ⟨rfl, rfl, rfl⟩ rfl rfl
  have goes (scope : Nat) : s.storeWaits s.cur s.curCtx
      { num := s.ctx.num, place := .virt pasid va obj, data, mask, poc, scope } = false := by
    simp [State.storeWaits, behindSummary_of_quiet quiet, owesSummary_of_quiet quiet, path]
  have stored (scope : Nat) := store_of_mapped (s := s) (t := s.cur) (c := s.curCtx) (a := a)
    (r := QueuedStore.req { num := s.ctx.num, place := .virt pasid va obj, data, mask, poc, scope } pasid va obj) mapped log
  refine Eq.trans (b := s.perform s.cur s.curCtx (QueuedStore.req
    { num := s.ctx.num, place := .virt pasid va obj, data, mask, poc, scope := s.plainScope (.virt pasid va obj) } pasid va obj)) ?_ rfl
  simp only [State.vPut, State.issueStore, heldBack_of_quiet quiet, State.doStore, goes, Bool.false_eq_true, if_false, stored]

end

end Sys2Proof.Proofs
end

section
/-! SUPPORT. The lanes of a vector access (20 R446, R449) and the pieces of a contiguous store: sectors of its bytes, with the
bytes of its active lanes as a mask (20 R447). -/
namespace Sys2Proof.Proofs
open Sys2Proof Sys2Proof.Machine Sys2Proof.Laws

/-! ### The elements of a group -/

/-- The members and lanes of a group in order. -/
theorem spots_eq (g : Nat) : (List.range g).flatMap (fun m => (List.range 16).map (fun i => (m, i))) =
    (List.range (16 * g)).map (fun k => (k / 16, k % 16)) := by
  induction g with
  | zero => rfl
  | succ g ih =>
    rw [List.range_succ (n := g), List.flatMap_append, ih, Nat.mul_succ, List.range_add, List.map_append, List.map_map,
      List.flatMap_singleton]
    refine congrArg _ (List.map_congr_left fun i listed => ?_)
    have := List.mem_range.mp listed
    exact Prod.ext (by show g = (16 * g + i) / 16; omega) (by show i = (16 * g + i) % 16; omega)

/-- Element k of a group of registers, counted through its members. -/
def groupElem (c : Ctx) (cl r k : Nat) : Nat := elemOf 32 (c.readV cl (r + k / 16)) (k % 16)

theorem groupElems_eq (c : Ctx) (cl r g : Nat) :
    groupElems 32 (readVGroup c cl r g) = (List.range (16 * g)).map (groupElem c cl r) := by
  have spots := congrArg (List.map (fun x : Nat × Nat => elemOf 32 (c.readV cl (r + x.1)) x.2)) (spots_eq g)
  rw [List.map_map, List.map_flatMap] at spots
  rw [groupElems, readVGroup, List.flatMap_map]
  refine Eq.trans (List.flatMap_congr fun m _ => ?_) spots
  rw [List.map_map]
  rfl

theorem groupElem_lt (c : Ctx) (cl r k : Nat) : groupElem c cl r k < 2 ^ 32 := Nat.mod_lt _ (by decide)

theorem length_groupBytes (c : Ctx) (cl r g : Nat) : ((readVGroup c cl r g).flatMap (fun v => natBytes 64 v.toNat)).length = 64 * g := by
  rw [readVGroup, List.flatMap_map]
  exact length_members 64 g fun m => (c.readV cl (r + m)).toNat

/-- The bytes of a group of registers. -/
theorem getD_groupBytes (c : Ctx) (cl r : Nat) : ∀ {g k i : Nat}, k < 16 * g → i < 4 →
    ((readVGroup c cl r g).flatMap (fun v => natBytes 64 v.toNat)).getD (4 * k + i) 0 =
      BitVec.ofNat 8 (groupElem c cl r k / 2 ^ (8 * i)) := by
  intro g
  induction g with
  | zero => intro k i inside; omega
  | succ g ih =>
    intro k i inside small
    have front := length_groupBytes c cl r g
    have split : readVGroup c cl r (g + 1) = readVGroup c cl r g ++ [c.readV cl (r + g)] := by
      simp only [readVGroup, List.range_succ, List.map_append, List.map_cons, List.map_nil]
    rw [split, List.flatMap_append, List.flatMap_singleton]
    by_cases early : k < 16 * g
    · rw [List.getD_append _ _ _ _ (by omega)]
      exact ih early small
    · rw [List.getD_append_right _ _ _ _ (by omega), front, getD_natBytes 64 _ (by omega), groupElem, elemOf,
        show k / 16 = g by omega]
      have value : (c.readV cl (r + g)).toNat / 2 ^ (32 * (k % 16)) / 2 ^ (8 * i) =
          (c.readV cl (r + g)).toNat / 2 ^ (8 * (4 * k + i - 64 * g)) := by
        rw [Nat.div_div_eq_div_mul, ← Nat.pow_add, show 32 * (k % 16) + 8 * i = 8 * (4 * k + i - 64 * g) by omega]
      rw [← value]
      generalize (c.readV cl (r + g)).toNat / 2 ^ (32 * (k % 16)) = w
      refine BitVec.eq_of_toNat_eq ?_
      rw [BitVec.toNat_ofNat, BitVec.toNat_ofNat]
      interval_cases i <;> omega

/-! ### The sectors of a range -/

/-- Parts that follow one another from a to e. -/
def Chained (va : Nat) : Nat → Nat → List (Nat × Nat) → Prop
  | a, e, [] => a = e
  | a, e, p :: ps => p.1 = a ∧ 0 < p.2 ∧ (a ≠ 0 → (va + a) % 64 = 0) ∧ Chained va (a + p.2) e ps

section
variable {va : Nat}

theorem Chained.le : ∀ {a e : Nat} {ps : List (Nat × Nat)}, Chained va a e ps → a ≤ e
  | _, _, [], h => Nat.le_of_eq h
  | _, _, _ :: _, ⟨_, _, _, rest⟩ => Nat.le_trans (Nat.le_add_right ..) rest.le

theorem Chained.snoc : ∀ {a e : Nat} {ps : List (Nat × Nat)}, Chained va a e ps → (e ≠ 0 → (va + e) % 64 = 0) →
    Chained va a (e + 1) (ps ++ [(e, 1)])
  | _, _, [], h, sector => by
    obtain rfl := h
    exact ⟨rfl, Nat.one_pos, sector, rfl⟩
  | _, _, _ :: _, ⟨first, pos, begins, rest⟩, sector => ⟨first, pos, begins, rest.snoc sector⟩

theorem Chained.grow : ∀ {a e : Nat} {ps : List (Nat × Nat)} {p : Nat × Nat}, Chained va a e (ps ++ [p]) →
    Chained va a (e + 1) (ps ++ [(p.1, p.2 + 1)])
  | _, _, [], _, ⟨first, _, begins, ends⟩ => ⟨first, Nat.succ_pos _, begins, (congrArg (· + 1) ends :)⟩
  | _, _, _ :: _, _, ⟨first, pos, begins, rest⟩ => ⟨first, pos, begins, rest.grow⟩

theorem chained_sectorParts (va n : Nat) : Chained va 0 n (sectorParts va n) := by
  induction n with
  | zero => rfl
  | succ n ih =>
    rw [sectorParts]
    split
    next empty =>
      rw [empty] at ih
      obtain rfl : 0 = n := ih
      exact ⟨rfl, Nat.one_pos, fun zero => absurd rfl zero, rfl⟩
    next filled =>
      rcases List.eq_nil_or_concat (sectorParts va n) with none | ⟨ps, p, parts⟩
      · exact absurd none filled
      · rw [parts, List.concat_eq_append] at ih ⊢
        split
        next sector => exact ih.snoc fun _ => sector
        next => simpa using ih.grow

end

/-- A range of ascending numbers falls into two. -/
theorem filter_between (f : Nat × Nat → Nat) {x y z : Nat} (low : x ≤ y) (high : y ≤ z) : ∀ {ls : List (Nat × Nat)},
    ls.Pairwise (fun l k => f l < f k) → ls.filter (fun l => decide (x ≤ f l ∧ f l < y)) ++
      ls.filter (fun l => decide (y ≤ f l ∧ f l < z)) = ls.filter (fun l => decide (x ≤ f l ∧ f l < z))
  | [], _ => rfl
  | l :: ls, sorted => by
    obtain ⟨least, rest⟩ := List.pairwise_cons.mp sorted
    have ih := filter_between f low high rest
    by_cases below : f l < y
    · have above : decide (y ≤ f l ∧ f l < z) = false := decide_eq_false (by omega)
      have whole : decide (x ≤ f l ∧ f l < z) = decide (x ≤ f l ∧ f l < y) := decide_eq_decide.mpr (by omega)
      simp only [List.filter_cons, above, whole, Bool.false_eq_true, if_false, ← ih]
      split <;> rfl
    · have none : (l :: ls).filter (fun k => decide (x ≤ f k ∧ f k < y)) = [] := by
        refine List.filter_eq_nil_iff.mpr fun k listed => ?_
        simp only [decide_eq_true_eq]
        rcases List.mem_cons.mp listed with rfl | later
        · omega
        · have := least k later
          omega
      rw [none, List.nil_append]
      refine List.filter_congr fun k listed => ?_
      rcases List.mem_cons.mp listed with rfl | later
      · exact decide_eq_decide.mpr (by omega)
      · have := least k later
        exact decide_eq_decide.mpr (by omega)

/-- What lies in the parts of a range lies in the range. -/
theorem flatMap_parts {va : Nat} (f : Nat × Nat → Nat) {ls : List (Nat × Nat)} (sorted : ls.Pairwise (fun l k => f l < f k)) :
    ∀ {ps : List (Nat × Nat)} {a e : Nat}, Chained va a e ps →
      ps.flatMap (fun p => ls.filter (fun l => decide (p.1 ≤ f l ∧ f l < p.1 + p.2))) =
        ls.filter (fun l => decide (a ≤ f l ∧ f l < e))
  | [], a, e, h => by
    obtain rfl : a = e := h
    refine (List.filter_eq_nil_iff.mpr fun l _ => ?_).symm
    simp only [decide_eq_true_eq]
    omega
  | p :: ps, a, e, ⟨first, _, _, rest⟩ => by
    rw [List.flatMap_cons, flatMap_parts f sorted rest, first]
    exact filter_between f (Nat.le_add_right ..) rest.le sorted

/-- The parts of an aligned range are aligned. -/
theorem parts_aligned {va e : Nat} (aligned : va % 4 = 0) (whole : e % 4 = 0) : ∀ {ps : List (Nat × Nat)} {a : Nat},
    Chained va a e ps → a % 4 = 0 → ∀ p ∈ ps, p.1 % 4 = 0 ∧ p.2 % 4 = 0 ∧ p.1 + p.2 ≤ e
  | q :: ps, a, ⟨first, pos, begins, rest⟩, start, p, listed => by
    have next : (a + q.2) % 4 = 0 := by
      cases ps with
      | nil =>
        obtain rfl : a + q.2 = e := rest
        exact whole
      | cons r ps =>
        obtain ⟨_, _, sector, _⟩ := rest
        have := sector (by omega)
        omega
    rcases List.mem_cons.mp listed with rfl | later
    · have := rest.le
      omega
    · exact parts_aligned aligned whole rest next p later

/-! ### The mask of a piece -/

/-- The bits of nibbles that are added in ascending order. -/
theorem testBit_nibbles : ∀ {ks : List Nat} {m b : Nat}, ks.Pairwise (· < ·) → (∀ k ∈ ks, b ≤ k) → m < 2 ^ (4 * b) → ∀ j,
    (ks.foldl (fun m k => m + 15 * 2 ^ (4 * k)) m).testBit j = true ↔ m.testBit j = true ∨ ∃ k ∈ ks, 4 * k ≤ j ∧ j < 4 * k + 4
  | [], _, _, _, _, _, _ => by simp
  | k :: ks, m, b, sorted, least, small, j => by
    obtain ⟨below, rest⟩ := List.pairwise_cons.mp sorted
    have low : m < 2 ^ (4 * k) := Nat.lt_of_lt_of_le small (Nat.pow_le_pow_right (by decide) (by have := least k (by simp); omega))
    have sum : m + 15 * 2 ^ (4 * k) < 2 ^ (4 * (k + 1)) := by
      rw [Nat.mul_succ, Nat.pow_add]
      omega
    rw [List.foldl_cons, testBit_nibbles rest (fun x listed => below x listed) sum, Nat.add_comm m, Nat.mul_comm 15,
      Nat.testBit_two_pow_mul_add _ low]
    have nibble (i : Nat) : (15 : Nat).testBit i = decide (i < 4) := Nat.testBit_two_pow_sub_one (n := 4) (i := i)
    rw [nibble]
    simp only [List.mem_cons, exists_eq_or_imp]
    by_cases before : j < 4 * k
    · simp only [before, if_true]
      constructor
      · rintro (old | ⟨x, listed, inside⟩)
        · exact .inl old
        · exact .inr (.inr ⟨x, listed, inside⟩)
      · rintro (old | inside | later)
        · exact .inl old
        · omega
        · exact .inr later
    · have clear : m.testBit j = false := Nat.testBit_lt_two_pow (Nat.lt_of_lt_of_le low (Nat.pow_le_pow_right (by decide) (by omega)))
      simp only [before, if_false, clear, Bool.false_eq_true, false_or, decide_eq_true_eq]
      exact or_congr_left (by omega)

/-! ### One cluster's store -/

/-- The lanes that a contiguous access moves: each at its word from the start on, in ascending order. -/
structure Lanes (ls : List (Nat × Nat)) (start n : Nat) : Prop where
  spot : ∀ l ∈ ls, l.2 = start + 4 * l.1
  within : ∀ l ∈ ls, l.1 < n
  sorted : ls.Pairwise (fun l k => l.1 < k.1)
  aligned : ls ≠ [] → start % 4 = 0

/-- The mask of a piece of a store. -/
def pieceMask (ls : List (Nat × Nat)) (start : Nat) (part : Nat × Nat) : Nat :=
  ls.foldl (fun m l =>
    let k := l.2 - start
    if part.1 ≤ k ∧ k < part.1 + part.2 then m + 15 * 2 ^ (k - part.1) else m) 0

/-- The lanes of a piece. -/
def pieceLanes (ls : List (Nat × Nat)) (part : Nat × Nat) : List (Nat × Nat) :=
  ls.filter (fun l => decide (part.1 ≤ 4 * l.1 ∧ 4 * l.1 < part.1 + part.2))

section
variable {ls : List (Nat × Nat)} {start n : Nat} (lanes : Lanes ls start n) {part : Nat × Nat} (aligned : part.1 % 4 = 0)
include lanes aligned

theorem testBit_pieceMask (j : Nat) : (pieceMask ls start part).testBit j = true ↔
    ∃ l ∈ pieceLanes ls part, 4 * l.1 ≤ part.1 + j ∧ part.1 + j < 4 * l.1 + 4 := by
  have sum : pieceMask ls start part =
      ((pieceLanes ls part).map (fun l => l.1 - part.1 / 4)).foldl (fun m k => m + 15 * 2 ^ (4 * k)) 0 := by
    rw [List.foldl_map, pieceLanes, List.foldl_filter, pieceMask]
    refine List.foldl_ext _ _ _ fun m l listed => ?_
    have spot : l.2 - start = 4 * l.1 := by rw [lanes.spot l listed, Nat.add_sub_cancel_left]
    simp only [spot, decide_eq_true_eq]
    refine ite_congr rfl (fun inside => ?_) fun _ => rfl
    rw [show 4 * l.1 - part.1 = 4 * (l.1 - part.1 / 4) by omega]
  have ascending : ((pieceLanes ls part).map (fun l => l.1 - part.1 / 4)).Pairwise (· < ·) := by
    rw [List.pairwise_map]
    refine ((lanes.sorted.filter _).imp_of_mem fun {l k} hl hk less => ?_)
    have := of_decide_eq_true (List.mem_filter.mp hl).2
    have := of_decide_eq_true (List.mem_filter.mp hk).2
    omega
  rw [sum, testBit_nibbles ascending (b := 0) (fun _ _ => Nat.zero_le _) (by decide), Nat.zero_testBit]
  simp only [Bool.false_eq_true, false_or, List.mem_map, exists_exists_and_eq_and]
  refine exists_congr fun l => and_congr_right fun listed => ?_
  have := of_decide_eq_true (List.mem_filter.mp listed).2
  omega

/-- The cells of a piece are the bytes of its lanes. -/
theorem mem_pieceCells {o q : Nat} {b : Byte} {data : List Byte} (length : data.length = part.2) (whole : part.2 % 4 = 0) :
    (q, b) ∈ pieceCells (if pieceMask ls start part = 2 ^ part.2 - 1 then none else some (pieceMask ls start part))
        (cellsFrom o data) ↔
      ∃ l ∈ pieceLanes ls part, ∃ i < 4, q = o + (4 * l.1 + i - part.1) ∧ b = data.getD (4 * l.1 + i - part.1) 0 := by
  have cells : (q, b) ∈ pieceCells (if pieceMask ls start part = 2 ^ part.2 - 1 then none else some (pieceMask ls start part))
      (cellsFrom o data) ↔ ∃ j, j < data.length ∧ (pieceMask ls start part).testBit j = true ∧ q = o + j ∧ b = data.getD j 0 := by
    split
    next full =>
      rw [full, length]
      simp only [Nat.testBit_two_pow_sub_one, decide_eq_true_eq]
      refine (mem_cellsFrom).trans (exists_congr fun j => ?_)
      rw [length]
      tauto
    next => exact mem_maskCells
  rw [cells, length]
  simp only [testBit_pieceMask lanes aligned]
  constructor
  · rintro ⟨j, short, ⟨l, listed, low, high⟩, rfl, rfl⟩
    have here : 4 * l.1 + (part.1 + j - 4 * l.1) - part.1 = j := by omega
    exact ⟨l, listed, part.1 + j - 4 * l.1, by omega, by rw [here], by rw [here]⟩
  · rintro ⟨l, listed, i, small, rfl, rfl⟩
    have inside := of_decide_eq_true (List.mem_filter.mp listed).2
    exact ⟨_, by omega, ⟨l, listed, by omega, by omega⟩, rfl, rfl⟩

end

/-- The words that lanes store of a group of registers. -/
def laneWords (c : Ctx) (cl r : Nat) (ls : List (Nat × Nat)) : List (Nat × Nat) := ls.map (fun l => (l.2, groupElem c cl r l.1))

/-- One piece of a cluster's store to the scratchpad. -/
theorem wordsWritten_piece {s : State} (quiet : Quiet s) {f : VFields} {cl start : Nat} {ls : List (Nat × Nat)}
    (lanes : Lanes ls start (16 * vG f)) {part : Nat × Nat}
    (aligned : part.1 % 4 = 0 ∧ part.2 % 4 = 0 ∧ part.1 + part.2 ≤ 64 * vG f) (poc : Bool) :
    WordsWritten s (laneWords s.ctx cl f.srcA.toNat (pieceLanes ls part))
      (if pieceMask ls start part = 0 then s
      else s.vPut s.ctx.num (Place.add (.spad 0) (start + part.1)) (((vBytes s f cl).drop part.1).take part.2)
        (if pieceMask ls start part = 2 ^ part.2 - 1 then none else some (pieceMask ls start part)) poc) := by
  obtain ⟨from4, by4, inside⟩ := aligned
  split
  next zero =>
    have none : pieceLanes ls part = [] := List.eq_nil_iff_forall_not_mem.mpr fun l listed => by
      have bit := (testBit_pieceMask lanes from4 (4 * l.1 - part.1)).mpr
        ⟨l, listed, by have := of_decide_eq_true (List.mem_filter.mp listed).2; omega⟩
      rw [zero, Nat.zero_testBit] at bit
      cases bit
    rw [none]
    exact .refl s
  next =>
    have length : (((vBytes s f cl).drop part.1).take part.2).length = part.2 := by
      have := length_groupBytes s.ctx cl f.srcA.toNat (vG f)
      rw [List.length_take, List.length_drop, vBytes, this]
      omega
    have base : start % 4 = 0 ∨ pieceLanes ls part = [] := by
      rcases eq_or_ne ls [] with rfl | some
      · exact .inr rfl
      · exact .inl (lanes.aligned some)
    rw [Place.add, vPut_spad quiet]
    refine wordsWritten_of_cells s ?once ?aligned ?apart fun q b => ?cover
    case once =>
      unfold pieceCells
      split
      · exact nodup_maskCells ..
      · exact nodup_cellsFrom ..
    case aligned =>
      intro w listed
      obtain ⟨l, member, rfl⟩ := List.mem_map.mp listed
      have spot := lanes.spot l (List.mem_filter.mp member).1
      rcases base with even | none
      · show l.2 % 4 = 0
        omega
      · rw [none] at member
        cases member
    case apart =>
      intro v hv w hw same
      obtain ⟨l, hl, rfl⟩ := List.mem_map.mp hv
      obtain ⟨k, hk, rfl⟩ := List.mem_map.mp hw
      have spotL := lanes.spot l (List.mem_filter.mp hl).1
      have spotK := lanes.spot k (List.mem_filter.mp hk).1
      have same : l.2 = k.2 := same
      have equal : l = k := Prod.ext (by omega) same
      rw [equal]
    case cover =>
      rw [mem_pieceCells lanes from4 length by4]
      simp only [laneWords, List.mem_map, exists_exists_and_eq_and]
      refine exists_congr fun l => and_congr_right fun listed => ?_
      obtain ⟨member, place⟩ := List.mem_filter.mp listed
      have place := of_decide_eq_true place
      have spot := lanes.spot l member
      have byte (i : Nat) (small : i < 4) : (((vBytes s f cl).drop part.1).take part.2).getD (4 * l.1 + i - part.1) 0 =
          BitVec.ofNat 8 (groupElem s.ctx cl f.srcA.toNat l.1 / 2 ^ (8 * i)) := by
        rw [← getD_groupBytes s.ctx cl f.srcA.toNat (lanes.within l member) small]
        have short : 4 * l.1 + i - part.1 < part.2 := by omega
        rw [List.getD_eq_getElem?_getD, List.getElem?_take_of_lt short, List.getElem?_drop,
          show part.1 + (4 * l.1 + i - part.1) = 4 * l.1 + i by omega, ← List.getD_eq_getElem?_getD]
        rfl
      constructor
      · rintro ⟨i, small, rfl, rfl⟩
        exact ⟨by omega, by rw [byte i small, show 0 + (start + part.1) + (4 * l.1 + i - part.1) - l.2 = i by omega]⟩
      · rintro ⟨around, rfl⟩
        exact ⟨q - l.2, by omega, by omega, (byte _ (by omega)).symm⟩

/-- A cluster's store to the scratchpad writes the words of its lanes. -/
theorem wordsWritten_vWriteOut {s : State} (quiet : Quiet s) {f : VFields} {cl start : Nat} {ls : List (Nat × Nat)}
    (lanes : Lanes ls start (16 * vG f)) (poc : Bool) :
    WordsWritten s (laneWords s.ctx cl f.srcA.toNat ls) (s.vWriteOut f (.spad 0) poc s.ctx.num start ls cl) := by
  rcases eq_or_ne ls [] with rfl | some
  · have idle : s.vWriteOut f (.spad 0) poc s.ctx.num start [] cl = s := foldl_fixed_of_mem _ fun _ _ => rfl
    rw [idle]
    exact .refl s
  · have parts := chained_sectorParts (0 + start) (64 * vG f)
    have aligned := parts_aligned (by have := lanes.aligned some; omega) (by omega) parts rfl
    have written := WordsWritten.foldl (s := s) (words := fun part => laneWords s.ctx cl f.srcA.toNat (pieceLanes ls part))
      (f := fun (u : State) part => if pieceMask ls start part = 0 then u
        else u.vPut s.ctx.num (Place.add (.spad 0) (start + part.1)) (((vBytes s f cl).drop part.1).take part.2)
          (if pieceMask ls start part = 2 ^ part.2 - 1 then none else .some (pieceMask ls start part)) poc)
      (l := sectorParts (0 + start) (64 * vG f)) fun part listed pre u before => by
        have piece := wordsWritten_piece (before.quiet quiet) (cl := cl) lanes (aligned part listed) poc
        have bytes : vBytes u f cl = vBytes s f cl := by rw [vBytes, vBytes, before.ctx]
        rw [before.ctx, bytes] at piece
        exact piece
    have all : (sectorParts (0 + start) (64 * vG f)).flatMap (fun part => laneWords s.ctx cl f.srcA.toNat (pieceLanes ls part)) =
        laneWords s.ctx cl f.srcA.toNat ls := by
      unfold laneWords
      rw [← List.map_flatMap]
      refine congrArg _ ((flatMap_parts (fun l => 4 * l.1) (lanes.sorted.imp fun less => by omega) parts).trans ?_)
      refine List.filter_eq_self.mpr fun l listed => decide_eq_true ?_
      have := lanes.within l listed
      omega
    rw [all] at written
    exact written

end Sys2Proof.Proofs
end

section
/-! SUPPORT. Vector stores and scatters by the words of their lanes (20 R446, R447, R449, R450). -/
namespace Sys2Proof.Proofs
open Sys2Proof Sys2Proof.Machine Sys2Proof.Laws

/-! ### Lanes and their words -/

/-- Where a cluster's members begin within the access of a slot, in members. -/
def clusterBase (t : VTarget) (cl g : Nat) : Nat :=
  match t with
  | .broadcast => cl * g
  | .cluster _ => 0

section
variable (s : State) (f : VFields) (o cl : Nat)

theorem vLanes_eq : vLanes s f o cl = ((List.range (16 * vG f)).filter (fun k => (activeLanes s.ctx cl f.pred).getLsbD (k % 16))).map
    (fun k => (k, o + 64 * (k / 16 + clusterBase f.target cl (vG f)) + 4 * (k % 16))) := by
  unfold vLanes clusterBase
  cases f.target <;> rfl

theorem vIndexed_eq (r : Nat) : vIndexed s f o r cl = ((List.range (16 * vG f)).filter (fun k =>
    (activeLanes s.ctx cl f.pred).getLsbD (k % 16) && decide (groupElem s.ctx cl r k ≠ 2 ^ 32 - 1))).map
      (fun k => (k, o + 4 * groupElem s.ctx cl r k)) := by
  have numbered : (groupElems 32 (readVGroup s.ctx cl r (vG f))).zipIdx =
      (List.range (16 * vG f)).map (fun k => (groupElem s.ctx cl r k, k)) := by
    rw [groupElems_eq]
    refine List.ext_getElem (by simp) fun k _ _ => by simp
  unfold vIndexed
  dsimp only
  rw [numbered, List.filter_map, List.map_map]
  refine congrArg (List.map _) (List.filter_congr fun k _ => ?_)
  rw [Bool.eq_iff_iff]
  simp

/-- The lanes of a contiguous access, which begins at a word where it moves any. -/
theorem lanes_vLanes (aligned : vLanes s f o cl ≠ [] → o % 4 = 0) :
    Lanes (vLanes s f o cl) (o + 64 * clusterBase f.target cl (vG f)) (16 * vG f) := by
  refine ⟨fun l listed => ?_, fun l listed => ?_, ?_, fun some => by have := aligned some; omega⟩
  · rw [vLanes_eq] at listed
    obtain ⟨k, _, rfl⟩ := List.mem_map.mp listed
    show o + 64 * (k / 16 + clusterBase f.target cl (vG f)) + 4 * (k % 16) = _ + 4 * k
    omega
  · rw [vLanes_eq] at listed
    obtain ⟨k, member, rfl⟩ := List.mem_map.mp listed
    exact List.mem_range.mp (List.mem_filter.mp member).1
  · rw [vLanes_eq, List.pairwise_map]
    exact List.pairwise_lt_range.filter _

/-- The words of a contiguous store, counted by members and lanes. -/
theorem laneWords_vLanes (r : Nat) : laneWords s.ctx cl r (vLanes s f o cl) =
    (((List.range (vG f)).flatMap (fun m => (List.range 16).map (fun i => (m, i)))).filter
      (fun x => (activeLanes s.ctx cl f.pred).getLsbD x.2)).map (fun x =>
        (o + 64 * (x.1 + clusterBase f.target cl (vG f)) + 4 * x.2, elemOf 32 (s.ctx.readV cl (r + x.1)) x.2)) := by
  rw [spots_eq, List.filter_map, List.map_map, vLanes_eq, laneWords, List.map_map]
  rfl

/-- The words of a scatter. -/
theorem laneWords_vIndexed (r i : Nat) : laneWords s.ctx cl r (vIndexed s f o i cl) =
    (((List.range (vG f)).flatMap (fun m => (List.range 16).map (fun i => (m, i)))).filter
      (fun x => (activeLanes s.ctx cl f.pred).getLsbD x.2 && decide (elemOf 32 (s.ctx.readV cl (i + x.1)) x.2 ≠ 2 ^ 32 - 1))).map (fun x =>
        (o + 4 * elemOf 32 (s.ctx.readV cl (i + x.1)) x.2, elemOf 32 (s.ctx.readV cl (r + x.1)) x.2)) := by
  rw [spots_eq, List.filter_map, List.map_map, vIndexed_eq, laneWords, List.map_map]
  rfl

end

/-- The words of a slot's clusters. -/
def slotWords (s : State) (f : VFields) (pick : Nat → List (Nat × Nat)) : List (Nat × Nat) :=
  (clustersOf f.target).flatMap (fun cl => laneWords s.ctx cl f.srcA.toNat (pick cl))

theorem offsets_slotWords (s : State) (f : VFields) (pick : Nat → List (Nat × Nat)) :
    (slotWords s f pick).map (fun w => w.1) = (clustersOf f.target).flatMap (fun cl => (pick cl).map (fun l => l.2)) := by
  rw [slotWords, List.map_flatMap]
  refine List.flatMap_congr fun cl _ => ?_
  rw [laneWords, List.map_map]
  rfl

/-- A slot whose lanes pass the checks moves none, or counts from a word. -/
theorem aligned_of_lanesCheck {s : State} {cap : TCap} {o : Nat} {offs : List Nat} {write : Bool} {p : Place}
    (checked : s.lanesCheck cap o offs write = .ok p) (some : offs ≠ []) : o % 4 = 0 := by
  have filled : offs.isEmpty = false := by simpa using some
  simp only [State.lanesCheck, filled, Bool.false_eq_true, if_false] at checked
  obtain ⟨_, _, checked⟩ := bind_eq_ok.mp checked
  obtain ⟨_, _, checked⟩ := bind_eq_ok.mp checked
  obtain ⟨_, even, _⟩ := bind_eq_ok.mp checked
  by_cases word : o % 4 = 0
  · exact word
  · rw [beq_false_of_ne word] at even
    cases even

/-! ### Contiguous stores -/

section
variable {s : State} {f : VFields} {cap : TCap} (named : readCapReg s.ctx (f.srcC.toNat % 32) = .ok cap)
include named

theorem vStore_of_checked {p : Place} (checked : s.lanesCheck cap (vOff s f)
    ((slotWords s f (vLanes s f (vOff s f))).map (fun w => w.1)) true = .ok p) (poc : Bool) :
    s.vStore f poc = .ok ((clustersOf f.target).foldl (fun u cl =>
      u.vWriteOut f p poc s.ctx.num (vOff s f + 64 * clusterBase f.target cl (vG f)) (vLanes s f (vOff s f) cl) cl) s) := by
  rw [offsets_slotWords] at checked
  unfold State.vStore vCap
  rw [named, bind_ok]
  dsimp only
  rw [checked, bind_ok]
  unfold clusterBase
  cases f.target with
  | broadcast => simp only [Nat.mul_assoc]
  | cluster c => rfl

theorem wordsWritten_vStore (quiet : Quiet s) (checked : s.lanesCheck cap (vOff s f)
    ((slotWords s f (vLanes s f (vOff s f))).map (fun w => w.1)) true = .ok (.spad 0)) (poc : Bool) :
    ∃ t, s.vStore f poc = .ok t ∧ WordsWritten s (slotWords s f (vLanes s f (vOff s f))) t := by
  refine ⟨_, vStore_of_checked named checked poc, ?_⟩
  refine WordsWritten.foldl (words := fun cl => laneWords s.ctx cl f.srcA.toNat (vLanes s f (vOff s f) cl))
    fun cl reached pre u before => ?_
  have lanes := lanes_vLanes s f (vOff s f) cl fun some => aligned_of_lanesCheck checked (by
    rw [offsets_slotWords]
    intro none
    exact some (List.map_eq_nil_iff.mp (List.flatMap_eq_nil_iff.mp none cl reached)))
  have written := wordsWritten_vWriteOut (before.quiet quiet) (cl := cl) lanes poc
  rw [before.ctx] at written
  exact written

/-! ### Scatters -/

theorem vScatter_of_wrong {spad : Bool} (wrong : capIsSpad cap ≠ spad) :
    s.vScatter f spad = .trap .kright (BitVec.ofNat 64 (vOff s f)) := by
  unfold State.vScatter vCap indexedKind
  rw [named, bind_ok]
  simp [wrong, Res.need, Res.bind]

theorem vGather_of_wrong {spad : Bool} (wrong : capIsSpad cap ≠ spad) :
    s.vGather f spad = .trap .kright (BitVec.ofNat 64 (vOff s f)) := by
  unfold State.vGather vCap indexedKind
  rw [named, bind_ok]
  simp [wrong, Res.need, Res.bind]

/-- The lanes of a scatter. -/
def vPicks (s : State) (f : VFields) (cl : Nat) : List (Nat × Nat) := vIndexed s f (vOff s f) (f.srcA.toNat + vG f) cl

theorem vScatter_of_checked {spad : Bool} (kind : capIsSpad cap = spad) {p : Place} (checked : s.lanesCheck cap (vOff s f)
    ((slotWords s f (vPicks s f)).map (fun w => w.1)) true = .ok p) : s.vScatter f spad = .ok ((slotWords s f (vPicks s f)).foldl
      (fun u w => u.vPut s.ctx.num (p.add w.1) (natBytes 4 w.2) none false) s) := by
  rw [offsets_slotWords] at checked
  unfold State.vScatter vCap indexedKind
  rw [named, bind_ok, kind, beq_self_eq_true]
  show ((s.lanesCheck cap (vOff s f) _ true).bind _) = _
  rw [show s.lanesCheck cap (vOff s f) ((clustersOf f.target).flatMap fun c =>
    (vIndexed s f (vOff s f) (f.srcA.toNat + vG f) c).map fun l => l.2) true = .ok p from checked, bind_ok, slotWords, List.foldl_flatMap]
  refine congrArg Res.ok (List.foldl_ext _ _ _ fun u cl _ => ?_)
  rw [laneWords, List.foldl_map]
  refine List.foldl_ext _ _ _ fun v l listed => ?_
  have inside : l.1 < 16 * vG f := by
    have listed : l ∈ vIndexed s f (vOff s f) (f.srcA.toNat + vG f) cl := listed
    rw [vIndexed_eq] at listed
    obtain ⟨k, member, rfl⟩ := List.mem_map.mp listed
    exact List.mem_range.mp (List.mem_filter.mp member).1
  have value : (groupElems 32 (readVGroup s.ctx cl f.srcA.toNat (vG f))).getD l.1 0 = groupElem s.ctx cl f.srcA.toNat l.1 := by
    rw [groupElems_eq]
    simp [inside]
  rw [value]

theorem wordsWritten_vScatter (quiet : Quiet s) (kind : capIsSpad cap = true) (checked : s.lanesCheck cap (vOff s f)
    ((slotWords s f (vPicks s f)).map (fun w => w.1)) true = .ok (.spad 0)) :
    ∃ t, s.vScatter f true = .ok t ∧ WordsWritten s (slotWords s f (vPicks s f)) t := by
  refine ⟨_, vScatter_of_checked named kind checked, ?_⟩
  have written := WordsWritten.foldl (s := s) (l := slotWords s f (vPicks s f)) (words := fun w => [w])
    (f := fun u w => u.vPut s.ctx.num (Place.add (.spad 0) w.1) (natBytes 4 w.2) none false) fun w listed pre u before => by
      have base := aligned_of_lanesCheck checked fun none => by
        rw [List.map_eq_nil_iff.mp none] at listed
        cases listed
      obtain ⟨cl, _, listed⟩ := List.mem_flatMap.mp listed
      obtain ⟨l, picked, rfl⟩ := List.mem_map.mp listed
      have aligned : l.2 % 4 = 0 := by
        rw [vPicks, vIndexed_eq] at picked
        obtain ⟨k, _, rfl⟩ := List.mem_map.mp picked
        show (vOff s f + 4 * _) % 4 = 0
        omega
      rw [← before.ctx, Place.add, vPut_spad (before.quiet quiet), Nat.zero_add]
      exact wordsWritten_word u aligned _
  rw [List.flatMap_singleton'] at written
  exact written

end

end Sys2Proof.Proofs
end

section
/-! SUPPORT. VPART of one cluster (08 R168 to R171): the words that it appends to the two lists, and its entry of vb4. -/
namespace Sys2Proof.Proofs
open Sys2Proof Sys2Proof.Machine Sys2Proof.Laws

/-! ### A word read back -/

section
variable {s t : State} {ws : List (Nat × Nat)} (written : WordsWritten s ws t)
include written

theorem WordsWritten.spadNat_of_mem {a x : Nat} (listed : (a, x) ∈ ws)
    (alone : ∀ v ∈ ws, v.1 < a + 4 → a < v.1 + 4 → v = (a, x)) : t.spadNat s.cur a 4 = x % 2 ^ 32 := by
  have bytes : t.spadBytes s.cur a 4 = natBytes 4 x := by
    refine List.ext_getElem (by simp [State.spadBytes]) fun i small _ => ?_
    have small : i < 4 := by simpa [State.spadBytes] using small
    have byte := wordByte_of_mem (q := a + i) listed (by simp only; omega) fun v member inside => alone v member (by omega) (by omega)
    have digit := getD_natBytes 4 x small
    rw [List.getD_eq_getElem _ _ (by simpa using small)] at digit
    simp [State.spadBytes, written.bytes, byte, digit]
  rw [State.spadNat, bytes, bytesNat_natBytes]
  rfl

theorem WordsWritten.spadByte_of_untouched {q : Nat} (apart : ∀ w ∈ ws, ¬ (w.1 ≤ q ∧ q < w.1 + 4)) :
    t.spadByte s.cur q = s.spadByte s.cur q := by
  rw [written.bytes, wordByte_eq_none.mpr apart]
  rfl

end

/-! ### The lists of a partition -/

/-- The words that the two lists receive, from counts before them. -/
def partWords (o size : Nat) : Nat → Nat → List (Nat × Bool) → List (Nat × Nat)
  | _, _, [] => []
  | nt, nf, (x, true) :: xs => (if nt < size then [(o + 16 + 4 * nt, x)] else []) ++ partWords o size ((nt + 1) % 2 ^ 32) nf xs
  | nt, nf, (x, false) :: xs =>
    (if nf < size then [(o + 16 + 4 * size + 4 * nf, x)] else []) ++ partWords o size nt ((nf + 1) % 2 ^ 32) xs

/-- The elements whose outcome is b. -/
def outcome (b : Bool) (xs : List (Nat × Bool)) : List Nat := (xs.filter (fun x => x.2 == b)).map (fun x => x.1)

/-- A word of a list whose count was n: its place and its value. -/
def Appends (base size n : Nat) (xs : List Nat) (w : Nat × Nat) : Prop :=
  ∃ j, j < xs.length ∧ (n + j) % 2 ^ 32 < size ∧ w = (base + 4 * ((n + j) % 2 ^ 32), xs.getD j 0)

theorem appends_nil (base size n : Nat) (w : Nat × Nat) : ¬ Appends base size n [] w := fun ⟨_, short, _⟩ => absurd short (by simp)

theorem appends_cons {base size n : Nat} (small : n < 2 ^ 32) {x : Nat} {xs : List Nat} {w : Nat × Nat} :
    Appends base size n (x :: xs) w ↔ (n < size ∧ w = (base + 4 * n, x)) ∨ Appends base size ((n + 1) % 2 ^ 32) xs w := by
  have next (j : Nat) : ((n + 1) % 2 ^ 32 + j) % 2 ^ 32 = (n + (j + 1)) % 2 ^ 32 := by omega
  constructor
  · rintro ⟨j, short, room, rfl⟩
    cases j with
    | zero =>
      rw [Nat.add_zero, Nat.mod_eq_of_lt small] at room ⊢
      exact .inl ⟨room, rfl⟩
    | succ j => exact .inr ⟨j, by simpa using short, by rwa [next], by rw [next]; rfl⟩
  · rintro (⟨room, rfl⟩ | ⟨j, short, room, rfl⟩)
    · exact ⟨0, by simp, by rwa [Nat.add_zero, Nat.mod_eq_of_lt small], by rw [Nat.add_zero, Nat.mod_eq_of_lt small]; rfl⟩
    · rw [next] at room
      exact ⟨j + 1, by simpa using short, room, by rw [next]; rfl⟩

theorem mem_partWords {o size : Nat} {w : Nat × Nat} : ∀ {xs : List (Nat × Bool)} {nt nf : Nat}, nt < 2 ^ 32 → nf < 2 ^ 32 →
    (w ∈ partWords o size nt nf xs ↔ Appends (o + 16) size nt (outcome true xs) w ∨
      Appends (o + 16 + 4 * size) size nf (outcome false xs) w)
  | [], _, _, _, _ => by simp [partWords, outcome, appends_nil]
  | (x, true) :: xs, nt, nf, st, sf => by
    have rest := mem_partWords (o := o) (size := size) (w := w) (xs := xs) (Nat.mod_lt (nt + 1) (by decide)) sf
    have yes : outcome true ((x, true) :: xs) = x :: outcome true xs := rfl
    have no : outcome false ((x, true) :: xs) = outcome false xs := rfl
    rw [partWords, List.mem_append, rest, yes, no, appends_cons st, or_assoc]
    refine or_congr ?_ Iff.rfl
    split <;> simp_all
  | (x, false) :: xs, nt, nf, st, sf => by
    have rest := mem_partWords (o := o) (size := size) (w := w) (xs := xs) st (Nat.mod_lt (nf + 1) (by decide))
    have yes : outcome true ((x, false) :: xs) = outcome true xs := rfl
    have no : outcome false ((x, false) :: xs) = x :: outcome false xs := rfl
    rw [partWords, List.mem_append, rest, yes, no, appends_cons sf, or_left_comm]
    refine or_congr Iff.rfl (or_congr ?_ Iff.rfl)
    split <;> simp_all

/-- The steps of a partition write its words and count its outcomes. -/
theorem foldl_partStep {o size : Nat} (aligned : o % 4 = 0) {c : Nat} : ∀ (xs : List (Nat × Bool)) (nt nf : Nat) (s : State),
    nt < 2 ^ 32 → nf < 2 ^ 32 → s.cur = c → ∃ t, WordsWritten s (partWords o size nt nf xs) t ∧
      xs.foldl (fun acc x => partStep c o size acc x.1 x.2) (nt, nf, s) =
        ((nt + (outcome true xs).length) % 2 ^ 32, (nf + (outcome false xs).length) % 2 ^ 32, t)
  | [], nt, nf, s, st, sf, _ => by
    refine ⟨s, .refl s, ?_⟩
    show (nt, nf, s) = ((nt + 0) % 2 ^ 32, (nf + 0) % 2 ^ 32, s)
    rw [Nat.add_zero, Nat.add_zero, Nat.mod_eq_of_lt st, Nat.mod_eq_of_lt sf]
  | (x, b) :: xs, nt, nf, s, st, sf, here => by
    have write (n a : Nat) (even : a % 4 = 0) : WordsWritten s (if n < size then [(a, x)] else [])
        (if n < size then s.spadWrite c (cellsFrom a (natBytes 4 x)) else s) := by
      split
      · rw [← here]
        exact wordsWritten_word s even x
      · exact .refl s
    cases b with
    | true =>
      have one := write nt (o + 16 + 4 * nt) (by omega)
      obtain ⟨t, rest, ends⟩ := foldl_partStep aligned xs ((nt + 1) % 2 ^ 32) nf _ (Nat.mod_lt _ (by decide)) sf (one.cur.trans here)
      have len : (outcome true ((x, true) :: xs)).length = (outcome true xs).length + 1 := rfl
      refine ⟨t, one.trans rest, Eq.trans ?_ (ends.trans ?_)⟩
      · rfl
      · rw [len]
        exact Prod.ext (by show (_ : Nat) = _; simp only; omega) rfl
    | false =>
      have one := write nf (o + 16 + 4 * size + 4 * nf) (by omega)
      obtain ⟨t, rest, ends⟩ := foldl_partStep aligned xs nt ((nf + 1) % 2 ^ 32) _ st (Nat.mod_lt _ (by decide)) (one.cur.trans here)
      have len : (outcome false ((x, false) :: xs)).length = (outcome false xs).length + 1 := rfl
      refine ⟨t, one.trans rest, Eq.trans ?_ (ends.trans ?_)⟩
      · rfl
      · rw [len]
        exact Prod.ext rfl (Prod.ext (by show (_ : Nat) = _; simp only; omega) rfl)

/-- The header's two counts are two words. -/
theorem wordsWritten_counts (s : State) {o : Nat} (aligned : o % 4 = 0) (x y : Nat) :
    WordsWritten s [(o, x), (o + 4, y)] (s.spadWrite s.cur (cellsFrom o (natBytes 4 x ++ natBytes 4 y))) := by
  refine wordsWritten_of_cells s (nodup_cellsFrom ..) ?_ ?_ fun q b => ?_
  · intro w listed
    rcases List.mem_pair.mp listed with rfl | rfl <;> simp only <;> omega
  · intro v hv w hw same
    rcases List.mem_pair.mp hv with rfl | rfl <;> rcases List.mem_pair.mp hw with rfl | rfl <;> simp_all
  · have length : (natBytes 4 x ++ natBytes 4 y).length = 8 := by simp
    simp only [mem_cellsFrom, length, List.mem_pair, exists_eq_or_imp, exists_eq_left]
    have low {j : Nat} (small : j < 4) : (natBytes 4 x ++ natBytes 4 y).getD j 0 = BitVec.ofNat 8 (x / 2 ^ (8 * j)) := by
      rw [List.getD_append _ _ _ _ (by simpa using small), getD_natBytes 4 x small]
    have high {j : Nat} (large : 4 ≤ j) (small : j < 8) :
        (natBytes 4 x ++ natBytes 4 y).getD j 0 = BitVec.ofNat 8 (y / 2 ^ (8 * (j - 4))) := by
      rw [List.getD_append_right _ _ _ _ (by simpa using large), length_natBytes, getD_natBytes 4 y (by omega)]
    constructor
    · rintro ⟨j, short, rfl, rfl⟩
      by_cases first : j < 4
      · exact .inl ⟨by omega, by rw [low first, Nat.add_sub_cancel_left]⟩
      · exact .inr ⟨by omega, by rw [high (by omega) short, show o + j - (o + 4) = j - 4 by omega]⟩
    · rintro (⟨inside, rfl⟩ | ⟨inside, rfl⟩)
      · exact ⟨q - o, by omega, by omega, (low (by omega)).symm⟩
      · exact ⟨q - o, by omega, by omega, by rw [high (by omega) (by omega), show q - o - 4 = q - (o + 4) by omega]⟩

/-- What a partition of an area that passes leaves. -/
theorem partition_spec {s : State} {o : Nat} {xs : List (Nat × Bool)} {cap : TCap} (aligned : o % 4 = 0)
    (size : 1 ≤ s.spadNat s.cur (o + 8) 4 ∧ s.spadNat s.cur (o + 8) 4 ≤ 2 ^ 20) {p : Place}
    (passes : s.capCheck (s.tileVf s.cur) (s.tile s.cur).crewSpad cap o (16 + 8 * s.spadNat s.cur (o + 8) 4) (rR + rW) 16 .engine =
      .ok p) :
    let live := xs.filter (fun x => decide (x.1 ≠ 2 ^ 32 - 1))
    let nt := s.spadNat s.cur o 4
    let nf := s.spadNat s.cur (o + 4) 4
    let nt' := (nt + (outcome true live).length) % 2 ^ 32
    let nf' := (nf + (outcome false live).length) % 2 ^ 32
    ∃ t, WordsWritten s (partWords o (s.spadNat s.cur (o + 8) 4) nt nf live ++ [(o, nt'), (o + 4, nf')]) t ∧
      s.partition s.cur o xs cap = ([nt', nf', 0], t) := by
  intro live nt nf nt' nf'
  have word (a : Nat) : s.spadNat s.cur a 4 < 2 ^ 32 :=
    (bytesNat_lt (s.spadBytes s.cur a 4)).trans_eq (by simp [State.spadBytes])
  obtain ⟨t, written, ends⟩ := foldl_partStep (size := s.spadNat s.cur (o + 8) 4) aligned live nt nf s (word _) (word _) rfl
  have steps : xs.foldl (fun acc x => if x.1 = 0xFFFFFFFF then acc else partStep s.cur o (s.spadNat s.cur (o + 8) 4) acc x.1 x.2)
      (nt, nf, s) = (nt', nf', t) := by
    refine Eq.trans ?_ ends
    rw [List.foldl_filter]
    refine List.foldl_ext _ _ _ fun acc x _ => ?_
    by_cases skip : x.1 = 0xFFFFFFFF <;> simp [skip]
  refine ⟨_, written.trans (wordsWritten_counts t aligned nt' nf'), ?_⟩
  have sized : ¬ (s.spadNat s.cur (o + 8) 4 = 0 ∨ 2 ^ 20 < s.spadNat s.cur (o + 8) 4) := by omega
  rw [written.cur]
  unfold State.partition
  dsimp only
  rw [if_neg sized, passes]
  exact congrArg (fun r : Nat × Nat × State => ([r.1, r.2.1, 0], r.2.2.spadWrite s.cur (cellsFrom o (natBytes 4 r.1 ++ natBytes 4 r.2.1)))) steps

end Sys2Proof.Proofs
end

section
/-! SUPPORT. VPART of a strand that owes nothing, and the vector stores settled (08 R168 to R171, 20 R446, R447). -/
namespace Sys2Proof.Proofs
open Sys2Proof Sys2Proof.Machine Sys2Proof.Laws

/-! ### Partitions that are owed -/

theorem mem_drop {α : Type} {m : Sparse α} {k : Nat} {x : Nat × α} (listed : x ∈ Sparse.drop m k) : x ∈ m := by
  induction m with
  | nil => cases listed
  | cons y m ih =>
    rw [Sparse.drop] at listed
    split at listed
    · exact List.mem_cons_of_mem _ (ih listed)
    · rcases List.mem_cons.mp listed with rfl | later
      · exact List.mem_cons_self
      · exact List.mem_cons_of_mem _ (ih later)

theorem mem_put {α : Type} {m : Sparse α} {k : Nat} {v : α} {x : Nat × α} (listed : x ∈ Sparse.put m k v) : x = (k, v) ∨ x ∈ m := by
  induction m with
  | nil => exact .inl (List.mem_singleton.mp listed)
  | cons y m ih =>
    rw [Sparse.put] at listed
    split at listed
    · exact List.mem_cons.mp listed
    · rcases List.mem_cons.mp listed with rfl | later
      · exact .inr List.mem_cons_self
      · exact (ih later).imp_right (List.mem_cons_of_mem _)

theorem mem_set {α : Type} [DecidableEq α] {d : α} {m : Sparse α} {k : Nat} {v : α} {x : Nat × α}
    (listed : x ∈ Sparse.set d m k v) : x = (k, v) ∨ x ∈ m := by
  unfold Sparse.set at listed
  split at listed
  · exact .inr (mem_drop listed)
  · exact (mem_put listed).imp_right mem_drop

/-- A tile owes no partition before a number where one of its contexts changes but for its ports. -/
theorem owesPart_setCtx {x : Tile} {c id : Nat} {k : Ctx} (ports : k.ports = (x.ctx c).ports) (none : x.owesPart id = false) :
    (x.setCtx c k).owesPart id = false := by
  refine List.any_eq_false.mpr fun y listed => ?_
  rcases mem_set listed with rfl | old
  · rw [ports]
    rcases eq_or_ne (x.ctx c) {} with bare | filled
    · rw [bare]
      exact Bool.false_ne_true
    · exact List.any_eq_false.mp none (c, x.ctx c) (mem_of_get_eq rfl filled)
  · exact List.any_eq_false.mp none y old

/-! ### The turn of a partition -/

/-- The entry of vb4 that a partition fills. -/
def partEntry (nw : Bool) (cl dst : Nat) (counts : List Nat) : PortEntry :=
  { value := vecOf 32 counts, writes := if nw then [] else [.vreg cl dst (laneMask 0xFFFF) (vecOf 32 counts)] }

theorem issueRead_part {s : State} {t c port id o cl dst : Nat} {h : Held} {xs : List (Nat × Bool)} {cap : TCap} {nw : Bool}
    (clear : PathClear s t c h.num) (sound : (s.tile t).spadPoison = []) (first : (s.tile t).owesPart id = false)
    (spot : h.place = .spad o) (kind : h.kind = .part id xs cap cl dst nw) :
    s.issueRead t c port h {} =
      let r := s.partition t o xs cap
      r.2.setCtxAt t c ((r.2.ctxAt t c).pushPort port (partEntry nw cl dst r.1)) := by
  have read : s.tryRead t c h {} = (partEntry nw cl dst (s.partition t o xs cap).1, (s.partition t o xs cap).2) := by
    have spans : s.readFault h = none := by simp [State.readFault, Held.spans, kind, spot]
    unfold State.tryRead
    simp only [kind, spot, spans, mayRead_of_clear clear rfl, readBlocked_of_clear clear, spadBad_of_sound sound, first,
      Bool.not_true, Bool.and_false, Bool.or_self, Bool.false_eq_true, if_false]
    rfl
  unfold State.issueRead
  rw [read]
  rfl

/-- The state in which a partition has its turn: it has taken its numbers. -/
def partTurn (s : State) : State := { numbered s with nextOp := s.nextOp + 1 }

theorem tile_partTurn (s : State) : (partTurn s).tile s.cur = (s.tile s.cur).setCtx s.curCtx { s.ctx with num := s.ctx.num + 1 } :=
  setTile_tile ..

theorem spad_partTurn (s : State) (x : Nat) : ((partTurn s).tile x).spad = (s.tile x).spad := by
  by_cases here : x = s.cur
  · rw [here, tile_partTurn]
    rfl
  · exact congrArg Tile.spad (setTile_tile_other s s.cur _ here)

theorem spadByte_partTurn (s : State) (x q : Nat) : (partTurn s).spadByte x q = s.spadByte x q := by
  rw [State.spadByte, spad_partTurn, State.spadByte]

theorem spadNat_partTurn (s : State) (x o n : Nat) : (partTurn s).spadNat x o n = s.spadNat x o n := by
  simp only [State.spadNat, State.spadBytes, spadByte_partTurn]

/-- The elements of a cluster with their outcomes. -/
def partElems (s : State) (f : VFields) (cl : Nat) : List (Nat × Bool) :=
  (List.range (16 * vG f)).map (fun k => (groupElem s.ctx cl f.srcA.toNat k, (s.ctx.readVp cl f.pred.toNat).getLsbD (k % 16)))

theorem partElems_eq (s : State) (f : VFields) (cl : Nat) : partElems s f cl =
    ((List.range (vG f)).flatMap (fun m => (List.range 16).map (fun i =>
      (elemOf 32 (s.ctx.readV cl (f.srcA.toNat + m)) i, (s.ctx.readVp cl f.pred.toNat).getLsbD i)))) := by
  have spots := congrArg (List.map (fun x : Nat × Nat =>
    (elemOf 32 (s.ctx.readV cl (f.srcA.toNat + x.1)) x.2, (s.ctx.readVp cl f.pred.toNat).getLsbD x.2))) (spots_eq (vG f))
  rw [List.map_map, List.map_flatMap] at spots
  refine Eq.trans spots.symm (List.flatMap_congr fun m _ => ?_)
  rw [List.map_map]
  rfl

section
variable {s : State} {f : VFields} {cap : TCap} {cl : Nat} (quiet : Quiet s) (sound : (s.tile s.cur).spadPoison = [])
  (first : (s.tile s.cur).owesPart s.nextOp = false)
include quiet sound first

theorem vPartition_eq : s.vPartition f cap cl =
    let r := (partTurn s).partition s.cur (vOff s f) (partElems s f cl) cap
    r.2.setCtxAt s.cur s.curCtx ((r.2.ctxAt s.cur s.curCtx).pushPort (16 + cl) (partEntry (f.nw == 1) cl f.dst.toNat r.1)) := by
  obtain ⟨fences, stores, reads, log, summaries⟩ := pathClear_numbered quiet
  have clear : PathClear (partTurn s) s.cur s.curCtx s.ctx.num := ⟨fences, stores, reads, log, summaries⟩
  have sound' : ((partTurn s).tile s.cur).spadPoison = [] := by
    rw [tile_partTurn]
    exact sound
  have first' : ((partTurn s).tile s.cur).owesPart s.nextOp = false := by
    rw [tile_partTurn]
    exact owesPart_setCtx rfl first
  have elems : (groupElems 32 (readVGroup s.ctx cl f.srcA.toNat (vG f))).zipIdx.map (fun x =>
      (x.1, (s.ctx.readVp cl f.pred.toNat).getLsbD (x.2 % 16))) = partElems s f cl := by
    rw [groupElems_eq, partElems]
    exact List.ext_getElem (by simp) fun k _ _ => by simp
  unfold State.vPartition
  dsimp only
  rw [elems]
  exact issueRead_part (s := partTurn s) clear sound' first' rfl rfl

/-- What the partition of one cluster leaves, by what it writes. -/
theorem vPartition_spec {counts : List Nat} {ws : List (Nat × Nat)} {t : State} (written : WordsWritten (partTurn s) ws t)
    (partitioned : (partTurn s).partition s.cur (vOff s f) (partElems s f cl) cap = (counts, t)) :
    let u := s.vPartition f cap cl
    u.ctx.port (16 + cl) = s.ctx.port (16 + cl) ++ [partEntry (f.nw == 1) cl f.dst.toNat counts] ∧ u.ctx.s = s.ctx.s ∧
      u.ctx.v = s.ctx.v ∧ (∀ a, u.pocByte a = s.pocByte a) ∧ ∀ x q, u.spadByte x q = t.spadByte x q := by
  have turned := vPartition_eq (f := f) (cap := cap) (cl := cl) quiet sound first
  rw [partitioned] at turned
  have running : (partTurn s).curCtx = s.curCtx := by
    show (((partTurn s).tile s.cur).running).getD 0 = _
    rw [tile_partTurn]
    rfl
  have strand : (partTurn s).ctx = { s.ctx with num := s.ctx.num + 1 } := by
    rw [State.ctx, running]
    exact ctxAt_numbered s
  have cur : t.cur = s.cur := written.cur
  have curCtx : t.curCtx = s.curCtx := written.curCtx.trans running
  have set : s.vPartition f cap cl =
      t.setCtx (t.ctx.pushPort (16 + cl) (partEntry (f.nw == 1) cl f.dst.toNat counts)) := by
    rw [turned, State.setCtx, State.ctx, cur, curCtx]
  intro u
  have ctx : u.ctx = t.ctx.pushPort (16 + cl) (partEntry (f.nw == 1) cl f.dst.toNat counts) := by
    show (s.vPartition f cap cl).ctx = _
    rw [set, setCtx_ctx]
  rw [written.ctx, strand] at ctx
  refine ⟨?_, ?_, ?_, fun a => ?_, fun x q => ?_⟩
  · rw [ctx, port_pushPort]
    rfl
  · rw [ctx]
    rfl
  · rw [ctx]
    rfl
  · show (s.vPartition f cap cl).pocByte a = _
    rw [set]
    show t.pocByte a = _
    rw [written.module]
    rfl
  · show (s.vPartition f cap cl).spadByte x q = _
    rw [set]
    by_cases here : x = t.cur
    · rw [State.spadByte, State.spadByte, here, State.setCtx, State.setCtxAt, setTile_tile]
      rfl
    · rw [State.spadByte, State.spadByte, State.setCtx, State.setCtxAt, setTile_tile_other _ _ _ here]

end

end Sys2Proof.Proofs
end

section
/-! SUPPORT. What a partition leaves in its area, and the vector stores settled (08 R168 to R171, 20 R446, R447). -/
namespace Sys2Proof.Proofs
open Sys2Proof Sys2Proof.Machine Sys2Proof.Laws

/-! ### The area after a partition -/

section
variable {base size n : Nat} {xs : List Nat} {v w : Nat × Nat}

theorem Appends.range (h : Appends base size n xs w) : base ≤ w.1 ∧ w.1 + 4 ≤ base + 4 * size := by
  obtain ⟨j, _, room, rfl⟩ := h
  simp only
  omega

/-- Two words of a list that share a byte are one. -/
theorem Appends.unique (short : xs.length < 2 ^ 32) (h : Appends base size n xs v) (k : Appends base size n xs w)
    (below : v.1 < w.1 + 4) (above : w.1 < v.1 + 4) : v = w := by
  obtain ⟨i, hi, _, rfl⟩ := h
  obtain ⟨j, hj, _, rfl⟩ := k
  simp only at below above
  obtain rfl : i = j := by omega
  rfl

end

/-- The words of a partition, its lists' and its header's. -/
def areaWords (o size nt nf : Nat) (xs : List (Nat × Bool)) (nt' nf' : Nat) : List (Nat × Nat) :=
  partWords o size nt nf xs ++ [(o, nt'), (o + 4, nf')]

section
variable {o size nt nf nt' nf' : Nat} {xs : List (Nat × Bool)} (st : nt < 2 ^ 32) (sf : nf < 2 ^ 32)
include st sf

theorem mem_areaWords {w : Nat × Nat} : w ∈ areaWords o size nt nf xs nt' nf' ↔
    (Appends (o + 16) size nt (outcome true xs) w ∨ Appends (o + 16 + 4 * size) size nf (outcome false xs) w) ∨
      w = (o, nt') ∨ w = (o + 4, nf') := by
  rw [areaWords, List.mem_append, mem_partWords st sf, List.mem_pair]

theorem areaWords_unique (short : xs.length < 2 ^ 32) {v w : Nat × Nat} (hv : v ∈ areaWords o size nt nf xs nt' nf')
    (hw : w ∈ areaWords o size nt nf xs nt' nf') (below : v.1 < w.1 + 4) (above : w.1 < v.1 + 4) : v = w := by
  have fits (b : Bool) : (outcome b xs).length < 2 ^ 32 := by
    rw [outcome, List.length_map]
    exact Nat.lt_of_le_of_lt (List.length_filter_le ..) short
  have lists {u : Nat × Nat} (h : Appends (o + 16) size nt (outcome true xs) u ∨
      Appends (o + 16 + 4 * size) size nf (outcome false xs) u) : o + 16 ≤ u.1 := by
    rcases h with yes | no
    · exact yes.range.1
    · have := no.range.1
      omega
  rcases (mem_areaWords st sf).mp hv with inV | rfl | rfl <;> rcases (mem_areaWords st sf).mp hw with inW | rfl | rfl
  · rcases inV with yesV | noV <;> rcases inW with yesW | noW
    · exact yesV.unique (fits true) yesW below above
    · have := yesV.range
      have := noW.range
      omega
    · have := noV.range
      have := yesW.range
      omega
    · exact noV.unique (fits false) noW below above
  · have := lists inV
    simp only at below above
    omega
  · have := lists inV
    simp only at below above
    omega
  · have := lists inW
    simp only at below above
    omega
  · rfl
  · simp only at below above
    omega
  · have := lists inW
    simp only at below above
    omega
  · simp only at below above
    omega
  · rfl

end

/-- Every word of the area reads as it was written. -/
theorem spadNat_of_area {s t : State} {o size nt nf nt' nf' : Nat} {xs : List (Nat × Bool)} (st : nt < 2 ^ 32) (sf : nf < 2 ^ 32)
    (short : xs.length < 2 ^ 32) (written : WordsWritten s (areaWords o size nt nf xs nt' nf') t) {a x : Nat}
    (listed : (a, x) ∈ areaWords o size nt nf xs nt' nf') (small : x < 2 ^ 32) : t.spadNat s.cur a 4 = x := by
  rw [written.spadNat_of_mem listed fun v member below above => areaWords_unique st sf short member listed below above,
    Nat.mod_eq_of_lt small]

/-- A byte of neither the header's counts nor a word of the lists is as before. -/
theorem spadByte_of_area {s t : State} {o size nt nf nt' nf' : Nat} {xs : List (Nat × Bool)} (st : nt < 2 ^ 32) (sf : nf < 2 ^ 32)
    (aligned : o % 16 = 0) (written : WordsWritten s (areaWords o size nt nf xs nt' nf') t) {q : Nat} (counts : ¬ (o ≤ q ∧ q < o + 8))
    (yes : ∀ j, j < (outcome true xs).length → (nt + j) % 2 ^ 32 < size → q / 4 ≠ (o + 16 + 4 * ((nt + j) % 2 ^ 32)) / 4)
    (no : ∀ j, j < (outcome false xs).length → (nf + j) % 2 ^ 32 < size →
      q / 4 ≠ (o + 16 + 4 * size + 4 * ((nf + j) % 2 ^ 32)) / 4) : t.spadByte s.cur q = s.spadByte s.cur q := by
  refine written.spadByte_of_untouched fun w listed inside => ?_
  rcases (mem_areaWords st sf).mp listed with (⟨j, short, room, rfl⟩ | ⟨j, short, room, rfl⟩) | rfl | rfl
  · have := yes j short room
    simp only at inside
    omega
  · have := no j short room
    simp only at inside
    omega
  · simp only at inside
    omega
  · simp only at inside
    omega

/-! ### VPART -/

section
variable {s : State} {f : VFields} {cap : TCap} {cl : Nat}

theorem length_partElems : (partElems s f cl).length < 2 ^ 32 := by
  have few : vG f ≤ 8 := by
    have small : f.width.toNat ≤ 3 := Nat.le_of_lt_succ f.width.isLt
    show 2 ^ f.width.toNat ≤ 2 ^ 3
    exact Nat.pow_le_pow_right (by decide) small
  simp [partElems]
  omega

theorem partElems_lt {b : Bool} {p : Nat × Bool → Bool} {j : Nat} : (outcome b ((partElems s f cl).filter p)).getD j 0 < 2 ^ 32 := by
  rcases Nat.lt_or_ge j (outcome b ((partElems s f cl).filter p)).length with inside | beyond
  · rw [List.getD_eq_getElem _ _ inside]
    have member := List.getElem_mem inside
    obtain ⟨x, listed, value⟩ := List.mem_map.mp member
    obtain ⟨k, _, rfl⟩ := List.mem_map.mp (List.mem_filter.mp (List.mem_filter.mp listed).1).1
    rw [← value]
    exact groupElem_lt ..
  · rw [List.getD_eq_default _ _ beyond]
    decide

theorem spadNat_lt (s : State) (x a : Nat) : s.spadNat x a 4 < 2 ^ 32 :=
  (bytesNat_lt (s.spadBytes x a 4)).trans_eq (by simp [State.spadBytes])

theorem capCheck_partTurn (spad : capIsSpad cap = true) (o n need align : Nat) (use : Use) :
    (partTurn s).capCheck ((partTurn s).tileVf s.cur) ((partTurn s).tile s.cur).crewSpad cap o n need align use =
      s.check cap o n need align use := by
  rw [State.check, tile_partTurn]
  unfold State.capCheck
  simp only [spad, if_true]
  rfl

variable (named : readCapReg s.ctx (f.srcC.toNat % 32) = .ok cap)
include named

theorem exec_vpart {c : Fin 8} {p : Place} (target : f.target = .cluster c) (spad : capIsSpad cap = true)
    (checked : s.check cap (vOff s f) 16 (rR + rW) 16 .engine = .ok p) : exec (.vpart f) s = .next (s.vPartition f cap c.val) := by
  show settle s ((vCap s f).bind _) = _
  rw [vCap, named, bind_ok]
  dsimp only
  rw [spad, need_true, bind_ok, checked, bind_ok, target]
  rfl

end

/-- What an area that is refused, or of a wrong capacity, brings. -/
theorem partition_of_refused {s : State} {o : Nat} {xs : List (Nat × Bool)} {cap : TCap}
    (refused : 1 ≤ s.spadNat s.cur (o + 8) 4 → s.spadNat s.cur (o + 8) 4 ≤ 2 ^ 20 →
      ∀ p, s.capCheck (s.tileVf s.cur) (s.tile s.cur).crewSpad cap o (16 + 8 * s.spadNat s.cur (o + 8) 4) (rR + rW) 16 .engine ≠ .ok p) :
    s.partition s.cur o xs cap = ([s.spadNat s.cur o 4, s.spadNat s.cur (o + 4) 4,
      if s.spadNat s.cur (o + 8) 4 = 0 ∨ 2 ^ 20 < s.spadNat s.cur (o + 8) 4 then 2 else 1], s) := by
  unfold State.partition
  dsimp only
  by_cases sized : s.spadNat s.cur (o + 8) 4 = 0 ∨ 2 ^ 20 < s.spadNat s.cur (o + 8) 4
  · rw [if_pos sized, if_pos sized]
    rfl
  · rw [if_neg sized, if_neg sized]
    cases answer : s.capCheck (s.tileVf s.cur) (s.tile s.cur).crewSpad cap o (16 + 8 * s.spadNat s.cur (o + 8) 4) (rR + rW) 16
        .engine with
    | ok p => exact absurd answer (refused (by omega) (by omega) p)
    | trap c i => rfl
    | block w => rfl

end Sys2Proof.Proofs
end

section
/-! SUPPORT. The vector stores settled (08 R168 to R171, 20 R446, R447). -/
namespace Sys2Proof.Proofs
open Sys2Proof Sys2Proof.Machine Sys2Proof.Laws

theorem partEntry_of_nw (nw : BitVec 1) (cl dst : Nat) (counts : List Nat) : partEntry (nw == 1) cl dst counts =
    { value := vecOf 32 counts, writes := if nw = 0 then [.vreg cl dst (laneMask 0xFFFF) (vecOf 32 counts)] else [] } := by
  rcases (by decide : ∀ x : BitVec 1, x = 0 ∨ x = 1) nw with rfl | rfl <;> rfl

theorem outcome_true (xs : List (Nat × Bool)) : (xs.filter (fun x => x.2)).map (fun x => x.1) = outcome true xs := by
  refine congrArg _ (List.filter_congr fun x _ => ?_)
  cases x.2 <;> rfl

theorem outcome_false (xs : List (Nat × Bool)) : (xs.filter (fun x => !x.2)).map (fun x => x.1) = outcome false xs := by
  refine congrArg _ (List.filter_congr fun x _ => ?_)
  cases x.2 <;> rfl

section
variable {s : State} {f : VFields} {cap : TCap} {c : Fin 8} (target : f.target = .cluster c)
  (named : readCapReg s.ctx (f.srcC.toNat % 32) = .ok cap) (quiet : Quiet s) (spad : capIsSpad cap = true)
  (sound : (s.tile s.cur).spadPoison = []) (first : (s.tile s.cur).owesPart s.nextOp = false)
  (checked : s.check cap (vOff s f) 16 (rR + rW) 16 .engine = .ok (.spad (vOff s f)))
include target named quiet spad sound first checked

/-- The VPART of one cluster, by what its partition answers and writes. -/
theorem completes_vpart {counts : List Nat} {ws : List (Nat × Nat)} {t : State} {P : State → Prop}
    (written : WordsWritten (partTurn s) ws t)
    (partitioned : (partTurn s).partition s.cur (vOff s f) (partElems s f c.val) cap = (counts, t))
    (effect : ∀ u, (∀ x q, u.spadByte x q = t.spadByte x q) → P u) : Completes (.vpart f) s (fun t => P t ∧
      t.ctx.port (16 + c.val) = s.ctx.port (16 + c.val) ++ [{
        value := vecOf 32 counts
        writes := if f.nw = 0 then [.vreg c.val f.dst.toNat (laneMask 0xFFFF) (vecOf 32 counts)] else [] }] ∧
      t.ctx.s = s.ctx.s ∧ t.ctx.v = s.ctx.v ∧ (∀ a, t.pocByte a = s.pocByte a)) := by
  obtain ⟨port, scalars, vectors, memory, bytes⟩ :=
    vPartition_spec (f := f) (cap := cap) (cl := c.val) quiet sound first written partitioned
  rw [partEntry_of_nw] at port
  exact ⟨_, exec_vpart named target spad checked, effect _ bytes, port, scalars, vectors, memory⟩

/-- One that is refused, or whose capacity is none, writes nothing. -/
theorem vpart_of_refused (refused : 1 ≤ s.spadNat s.cur (vOff s f + 8) 4 → s.spadNat s.cur (vOff s f + 8) 4 ≤ 2 ^ 20 →
    ∀ p, s.check cap (vOff s f) (16 + 8 * s.spadNat s.cur (vOff s f + 8) 4) (rR + rW) 16 .engine ≠ .ok p) :
    let counts := [s.spadNat s.cur (vOff s f) 4, s.spadNat s.cur (vOff s f + 4) 4,
      if s.spadNat s.cur (vOff s f + 8) 4 = 0 ∨ 2 ^ 20 < s.spadNat s.cur (vOff s f + 8) 4 then 2 else 1]
    Completes (.vpart f) s (fun t => (∀ x q, t.spadByte x q = s.spadByte x q) ∧
      t.ctx.port (16 + c.val) = s.ctx.port (16 + c.val) ++ [{
        value := vecOf 32 counts
        writes := if f.nw = 0 then [.vreg c.val f.dst.toNat (laneMask 0xFFFF) (vecOf 32 counts)] else [] }] ∧
      t.ctx.s = s.ctx.s ∧ t.ctx.v = s.ctx.v ∧ (∀ a, t.pocByte a = s.pocByte a)) := by
  have partitioned := partition_of_refused (s := partTurn s) (o := vOff s f) (xs := partElems s f c.val) (cap := cap)
  simp only [show (partTurn s).cur = s.cur from rfl, spadNat_partTurn, capCheck_partTurn spad] at partitioned
  exact completes_vpart target named quiet spad sound first checked (.refl _) (partitioned refused)
    fun u bytes x q => (bytes x q).trans (spadByte_partTurn s x q)

/-- One whose area passes appends its indices. -/
theorem vpart_of_passes (aligned : vOff s f % 16 = 0)
    (size : 1 ≤ s.spadNat s.cur (vOff s f + 8) 4 ∧ s.spadNat s.cur (vOff s f + 8) 4 ≤ 2 ^ 20) {p : Place}
    (passes : s.check cap (vOff s f) (16 + 8 * s.spadNat s.cur (vOff s f + 8) 4) (rR + rW) 16 .engine = .ok p) :
    let o := vOff s f
    let word := fun (u : State) a => u.spadNat s.cur a 4
    let size := word s (o + 8)
    let xs := (partElems s f c.val).filter (fun x => decide (x.1 ≠ 2 ^ 32 - 1))
    let nt := word s o
    let nf := word s (o + 4)
    let nt' := (nt + (outcome true xs).length) % 2 ^ 32
    let nf' := (nf + (outcome false xs).length) % 2 ^ 32
    Completes (.vpart f) s (fun t => (word t o = nt' ∧ word t (o + 4) = nf' ∧
      (∀ j, j < (outcome true xs).length → (nt + j) % 2 ^ 32 < size →
        word t (o + 16 + 4 * ((nt + j) % 2 ^ 32)) = (outcome true xs).getD j 0) ∧
      (∀ j, j < (outcome false xs).length → (nf + j) % 2 ^ 32 < size →
        word t (o + 16 + 4 * size + 4 * ((nf + j) % 2 ^ 32)) = (outcome false xs).getD j 0) ∧
      ∀ q, ¬ (o ≤ q ∧ q < o + 8) →
        (∀ j, j < (outcome true xs).length → (nt + j) % 2 ^ 32 < size → q / 4 ≠ (o + 16 + 4 * ((nt + j) % 2 ^ 32)) / 4) →
        (∀ j, j < (outcome false xs).length → (nf + j) % 2 ^ 32 < size →
          q / 4 ≠ (o + 16 + 4 * size + 4 * ((nf + j) % 2 ^ 32)) / 4) →
        t.spadByte s.cur q = s.spadByte s.cur q) ∧
      t.ctx.port (16 + c.val) = s.ctx.port (16 + c.val) ++ [{
        value := vecOf 32 [nt', nf', 0]
        writes := if f.nw = 0 then [.vreg c.val f.dst.toNat (laneMask 0xFFFF) (vecOf 32 [nt', nf', 0])] else [] }] ∧
      t.ctx.s = s.ctx.s ∧ t.ctx.v = s.ctx.v ∧ (∀ a, t.pocByte a = s.pocByte a)) := by
  intro o word size' xs nt nf nt' nf'
  have at_tile : (partTurn s).cur = s.cur := rfl
  have partitioned := partition_spec (s := partTurn s) (o := o) (xs := partElems s f c.val) (cap := cap) (p := p) (by omega)
  simp only [at_tile, spadNat_partTurn, capCheck_partTurn spad] at partitioned
  obtain ⟨t, written, answer⟩ := partitioned size passes
  have written : WordsWritten (partTurn s) (areaWords o size' nt nf xs nt' nf') t := written
  have st : nt < 2 ^ 32 := spadNat_lt ..
  have sf : nf < 2 ^ 32 := spadNat_lt ..
  have short : xs.length < 2 ^ 32 := Nat.lt_of_le_of_lt (List.length_filter_le ..) length_partElems
  refine completes_vpart target named quiet spad sound first checked written answer fun u bytes => ?_
  have words (a : Nat) : word u a = t.spadNat s.cur a 4 := by simp only [word, State.spadNat, State.spadBytes, bytes]
  have reads {a x : Nat} (listed : (a, x) ∈ areaWords o size' nt nf xs nt' nf') (small : x < 2 ^ 32) : word u a = x :=
    (words a).trans (spadNat_of_area st sf short written listed small)
  have listed {w : Nat × Nat} := mem_areaWords (o := o) (size := size') (xs := xs) (nt' := nt') (nf' := nf') st sf (w := w)
  refine ⟨?_, ?_, fun j inside room => ?_, fun j inside room => ?_, fun q counts yes no => ?_⟩
  · exact reads (listed.mpr (.inr (.inl rfl))) (Nat.mod_lt _ (by decide))
  · exact reads (listed.mpr (.inr (.inr rfl))) (Nat.mod_lt _ (by decide))
  · exact reads (listed.mpr (.inl (.inl ⟨j, inside, room, rfl⟩))) partElems_lt
  · exact reads (listed.mpr (.inl (.inr ⟨j, inside, room, rfl⟩))) partElems_lt
  · rw [bytes]
    exact (spadByte_of_area st sf aligned written counts yes no).trans (spadByte_partTurn s s.cur q)

end

/-- Settles O32: the stores and scatters by the words of their lanes, each piece or element performed as it issues; VPART by the
words that its partition appends. -/
theorem vectorStores : Obligations.VectorStores := by
  refine ⟨?stores, ?vpart⟩
  case stores =>
    intro s f cap g o base live data index spots toSpad lines picked named
    have words : lines = slotWords s f (vLanes s f o) :=
      List.flatMap_congr fun cl _ => (laneWords_vLanes s f o cl f.srcA.toNat).symm
    have picks : picked = slotWords s f (vPicks s f) :=
      List.flatMap_congr fun cl _ => (laneWords_vIndexed s f o cl f.srcA.toNat (f.srcA.toNat + g)).symm
    have stores {k : Instr} {r : Res State} {ws : List (Nat × Nat)} (run : exec k s = settle s r)
        (writes : s.lanesCheck cap o (ws.map (fun w => w.1)) true = .ok (.spad 0) → Quiet s → ∃ t, r = .ok t ∧ WordsWritten s ws t) :
        toSpad k ws := by
      intro checked quiet
      obtain ⟨t, done, written⟩ := writes checked quiet
      refine ⟨t, by rw [run, done]; rfl, fun q => ?_, written.tags, written.others, written.module, written.tile⟩
      rw [written.bytes, wordByte]
      cases (ws.filter (fun w => decide (w.1 ≤ q ∧ q < w.1 + 4))).getLast? <;> rfl
    refine ⟨?_, ?_, fun spad => ?_, fun memory => ⟨?_, ?_⟩, fun spad => ⟨?_, ?_⟩, fun pasid va obj checked memory => ?_,
      fun pasid va obj checked => ⟨?_, ?_⟩, fun pasid va obj bs mask poc a quiet mapped clear => vPut_virt quiet mask poc mapped clear⟩
    · rw [words]
      exact stores rfl fun checked quiet => wordsWritten_vStore named quiet checked false
    · rw [words]
      exact stores rfl fun checked quiet => wordsWritten_vStore named quiet checked true
    · rw [picks]
      exact stores rfl fun checked quiet => wordsWritten_vScatter named quiet spad checked
    · exact congrArg (settle s) (vScatter_of_wrong named (spad := true) (by rw [memory]; decide))
    · exact congrArg (settle s) (vGather_of_wrong named (spad := true) (by rw [memory]; decide))
    · exact congrArg (settle s) (vScatter_of_wrong named (spad := false) (by rw [spad]; decide))
    · exact congrArg (settle s) (vGather_of_wrong named (spad := false) (by rw [spad]; decide))
    · rw [picks] at checked ⊢
      exact congrArg (settle s) (vScatter_of_checked named memory checked)
    · rw [words] at checked
      exact congrArg (settle s) (vStore_of_checked named checked false)
    · rw [words] at checked
      exact congrArg (settle s) (vStore_of_checked named checked true)
  case vpart =>
    intro s f cap c target g o word size xs yes no nt nf named quiet spad aligned sound first checked ends
    have elems : xs = (partElems s f c.val).filter (fun x => decide (x.1 ≠ 2 ^ 32 - 1)) :=
      (congrArg (List.filter _) (partElems_eq s f c.val)).symm
    have trues : yes = outcome true ((partElems s f c.val).filter (fun x => decide (x.1 ≠ 2 ^ 32 - 1))) := by
      rw [← elems]
      exact outcome_true xs
    have falses : no = outcome false ((partElems s f c.val).filter (fun x => decide (x.1 ≠ 2 ^ 32 - 1))) := by
      rw [← elems]
      exact outcome_false xs
    have sized : size = s.spadNat s.cur (vOff s f + 8) 4 := rfl
    refine ⟨fun low high passes => ?_, fun wrong => ?_, fun low high refused => ?_⟩
    · have appends := vpart_of_passes target named quiet spad sound first checked aligned ⟨low, high⟩ passes
      rw [trues, falses]
      exact appends
    · rw [sized] at wrong
      have nothing := vpart_of_refused target named quiet spad sound first checked fun low high => by omega
      simp only [if_pos wrong] at nothing
      exact nothing
    · rw [sized] at low high
      have nothing := vpart_of_refused target named quiet spad sound first checked fun _ _ => refused
      simp only [if_neg (show ¬ (s.spadNat s.cur (vOff s f + 8) 4 = 0 ∨ 2 ^ 20 < s.spadNat s.cur (vOff s f + 8) 4) by omega)] at nothing
      exact nothing

end Sys2Proof.Proofs
end
